-- ==== Sys2Proof/Word.lean ====
section
/-! DEFINITION. The word types of the Graix (R5): 32-bit words, 64-bit scalar registers, bytes, and 512-bit token data. -/

namespace Sys2Proof

/-- One byte of any memory. -/
abbrev Byte := BitVec 8
/-- A word: instruction words and token lanes (R5). -/
abbrev Word := BitVec 32
/-- A scalar register (R74). -/
abbrev Dword := BitVec 64
/-- The data of a token register or of a beat: lane l lies at bits [32 l + 31 : 32 l] (R136). -/
abbrev Line := BitVec 512

end Sys2Proof
end

