-- ==== Sys2Proof/Config.lean ====
section
/-! DEFINITION. What the spec leaves open: functions named by standards that the spec does not lay down, and choices between
values that it allows. Each is a constant without a body, so no statement can rest on its value (assumption 11). -/

namespace Sys2Proof.Config

/-- SHA-384 of a list of bytes (R414, R419): a named standard that the spec does not lay down. -/
opaque sha384 : List Byte → BitVec 384

/-- CRC-32 of a list of bytes (R407): a named standard that the spec does not lay down. -/
opaque crc32 : List Byte → BitVec 32

/-- Whether an RSA-3072 signature over some bytes verifies against the fused key (R407, R418). -/
opaque rsaOk : List Byte → List Byte → Bool

/-- Whether an SLH-DSA-SHA2-192s signature over some bytes verifies against the fused key (R407, R418). -/
opaque slhOk : List Byte → List Byte → Bool

/-- The version that a firmware image states (R418): the spec does not lay down the image's layout. -/
opaque firmwareVersion : List Byte → BitVec 32

/-- Whether a firmware image carries the flag that raises the rollback counter (R418). -/
opaque firmwareRaises : List Byte → Bool

/-- The RSA-3072 and SLH-DSA signatures that a firmware image carries (R418). -/
opaque firmwareSigs : List Byte → List Byte × List Byte

/-- The transit that the loader records for a gate (R261, R369), less one and before its reduction to the range of R261. -/
opaque gateTransit : Nat → Nat

/-- The port of a module that leads up or down a dimension of the system, x 0, y 1, z 2 (R406): which port joins which neighbour is
the system's. -/
opaque ringPort : BitVec 14 → Nat → Bool → Nat

/-- Whether a packet travels up the ring of a dimension from a coordinate to another (R406): the spec does not say which way round. -/
opaque ringUp : Nat → Nat → Nat → Bool

/-- Whether the link of a port crosses the dateline of its ring (R406). -/
opaque dateline : BitVec 14 → Nat → Bool

/-- The signature bytes of an attestation report (R419). -/
opaque attest : List Byte → List Byte

/-- Whether an overlapping copy moves the value from before the copy (R282): the n-th such choice. -/
opaque overlapOld : Nat → Bool

/-- Whether an asynchronous write lands before a result that is still on its way (R169): the n-th such choice. -/
opaque landsFirst : Nat → Bool

/-- Whether a store that has been sent is performed later than its issue (R99, R319): the n-th such choice. -/
opaque storeLate : Nat → Bool

/-- Whether a bank that retires cannot return a line (R353): a choice at its mark, by line number. -/
opaque lineLost : Nat → Nat → Bool

/-- A free byte: the n-th value that the spec leaves open. -/
opaque freeByte : Nat → Byte

end Sys2Proof.Config
end

