-- ==== Sys2Proof/Machine/Bits.lean ====
section
/-! DEFINITION. Bit-field, sign-extension and byte helpers that the decoder and the machine share. -/

namespace Sys2Proof

/-- Bits [lo + len - 1 : lo] of a value (the field tables of the spec run from bit 31 down, R8). -/
def fld {n : Nat} (w : BitVec n) (lo len : Nat) : BitVec len := w.extractLsb' lo len

/-- Sign extension to 64 bits (R22). -/
def sext64 {n : Nat} (v : BitVec n) : Dword := v.signExtend 64

/-- Zero extension to 64 bits (R22). -/
def zext64 {n : Nat} (v : BitVec n) : Dword := v.setWidth 64

/-- Bit `k` of a value, as a Bool. -/
def bitOf {n : Nat} (v : BitVec n) (k : Nat) : Bool := v.getLsbD k

/-- A Bool as a bit vector of width `n`. -/
def ofBool (n : Nat) (b : Bool) : BitVec n := if b then 1 else 0

/-- `v` with bit `k` set to `b`. -/
def setBit {n : Nat} (v : BitVec n) (k : Nat) (b : Bool) : BitVec n :=
  if b then v ||| (1#n <<< k) else v &&& ~~~(1#n <<< k)

/-- The bytes of a value, least significant first (R5). -/
def bytesOf (len : Nat) (v : Nat) : List Byte :=
  (List.range len).map fun k => BitVec.ofNat 8 (v >>> (8 * k))

/-- The value of a list of bytes, least significant first (R5). -/
def natOfBytes : List Byte → Nat
  | [] => 0
  | b :: bs => b.toNat + 256 * natOfBytes bs

/-- Replaces bits [lo + len - 1 : lo] of a value. -/
def putField {n : Nat} (w : BitVec n) (lo len : Nat) (v : Nat) : BitVec n :=
  let m : BitVec n := BitVec.ofNat n ((2 ^ len - 1) <<< lo)
  (w &&& ~~~m) ||| (BitVec.ofNat n (v <<< lo) &&& m)

/-- The bits of a mask of width `n`, lowest first. -/
def bitsOf {n : Nat} (v : BitVec n) : List Bool := (List.range n).map fun k => v.getLsbD k

/-- A mask from a predicate on bit numbers. -/
def maskOf (n : Nat) (p : Nat → Bool) : BitVec n :=
  (List.range n).foldl (fun m k => if p k then m ||| (1#n <<< k) else m) 0

/-- Number of one bits. -/
def popCount {n : Nat} (v : BitVec n) : Nat := ((bitsOf v).filter id).length

end Sys2Proof
end

