-- ==== Sys2Proof/Syntax.lean ====
section
/-! DEFINITION. The instructions and events of the Graix: one constructor for each row of the table of operations and
events. First the special-register write steps and the events of cores, hubs, fabric, clocks, management and island, then
the C-words (R16), the rim words (R20 to R34) and the cell words (R35 to R39). Field names are the table's; a field holds
the bits of the word, and register roles are read by the machine. -/

namespace Sys2Proof

/-- Who issues an access (R283, R316): a rim core by tile number, an AGN region by graph and region id, a copy engine by hub
and number, a plait encoder by hub, a configuration root by net, the management harts, the companion, another module. -/
inductive Issuer where
  | rim (t : Nat)
  | agn (g r : Nat)
  | eng (hub e : Nat)
  | enc (hub : Nat)
  | root (net : Nat)
  | harts
  | companion
  | remote (m : Nat)
  deriving DecidableEq, Repr

/-- What a strand packet carries (R326, R403): a request for the destination's hub, or its answer. -/
inductive PacketBody where
  /-- load of `len` bytes at IA `ia` -/
  | read (id ia len : Nat)
  /-- the bytes of a plait segment at IA `ia` that lie in its page and that VPLD needs for the active lanes of the elements from
  `i0` on (R152) -/
  | segment (id ia i0 : Nat) (lanes : BitVec 16)
  /-- loads of single bytes of one page (R152) -/
  | bytes (id : Nat) (ias : List Nat)
  /-- store or reduction of the 64-byte line at IA `ia` under `mask`; `op` as in the creel entry (R288); `raw` for a line write of
  a raw copy (R348) -/
  | write (id ia : Nat) (op : BitVec 3) (mask : BitVec 64) (data : BitVec 512) (raw : Bool)
  /-- atomic on `size` bytes: AMO function 0 to 10, or 11 for AMOCAS with its expected value -/
  | atomic (id ia : Nat) (func : BitVec 4) (size : Nat) (v cmp : BitVec 64)
  /-- a remote hoop arrival (R403) -/
  | arrive (id h : Nat)
  /-- answer with data, and the attribute of the page (R320) -/
  | data (id : Nat) (attr : BitVec 2) (line : BitVec 512)
  /-- answer to `segment` and `bytes`: bytes by IA -/
  | got (id : Nat) (attr : BitVec 2) (bytes : List (Nat × BitVec 8))
  /-- normal acknowledgement, and the attribute of the page (R320) -/
  | ack (id : Nat) (attr : BitVec 2)
  /-- the request was refused, with the reason of R209 -/
  | refused (id : Nat) (reason : BitVec 8)
  /-- the request met poison -/
  | poisoned (id : Nat)
  /-- ORPHAN answer (R403) -/
  | orphan (id : Nat)
  /-- the page of a write is not mapped: the write becomes an entry of its issuer's creel (R99, R285) -/
  | unmapped (id : Nat)
  /-- management aborted the request (R284) -/
  | aborted (id : Nat)
  /-- a page that writes found unmapped is mapped: their entries replay (R287) -/
  | mapped (page : Nat)
  /-- management aborted the entries of a page (R284) -/
  | cancelled (page : Nat)
  deriving DecidableEq, Repr

/-- A strand packet (R405). -/
structure Packet where
  dest : BitVec 14
  src  : BitVec 14
  gen  : BitVec 16
  vc   : BitVec 2
  /-- CLS: true for a response -/
  cls  : Bool
  body : PacketBody
  deriving DecidableEq, Repr

/-- The table of operations and events, one constructor per row. -/
inductive Instr where
  /-- R54 TCR_WRITE: Write of TCR setting rounding mode, remap and seed. -/
  | tcrWrite (v : BitVec 64)
  /-- R56 TCR_RESEED: Writing RESEED reloads RND0 to RND15 from SEED. -/
  | tcrReseed (v : BitVec 64)
  /-- R55 FSTAT_CLEAR: W1C write clearing sticky arithmetic flags. -/
  | fstatClear (v : BitVec 64)
  /-- R56 RND_WRITE: Write of a stochastic-rounding generator; zero leaves it unchanged. -/
  | rndWrite (l : BitVec 4) (v : BitVec 64)
  /-- R79 STATUS_WRITE: Write of STATUS PMODE, LE and PLE, effective from the next instruction. -/
  | statusWrite (v : BitVec 64)
  /-- R81 LCS_WRITE: Supervisor write of loop bounds and activity without LOOP's checks. -/
  | lcsWrite (v : BitVec 64)
  /-- R168 LC_WRITE: Write of a loop counter, effective at the next loop-end evaluation. -/
  | lcWrite (l : BitVec 2) (v : BitVec 64)
  /-- R82 THDR_WRITE: Writes the header of the token register that TSEL selects. -/
  | thdrWrite (v : BitVec 64)
  /-- R84 MAILST_CLEAR: W1C write clearing mail FULL and OVR bits. -/
  | mailstClear (v : BitVec 64)
  /-- R237 NXCUR_WRITE: Supervisor write of the schedule table cursor, setting or clearing EXH. -/
  | nxcurWrite (v : BitVec 64)
  /-- R356 ENERGY_WRITE: Supervisor write of ENERGY COUNT and SAT. -/
  | energyWrite (v : BitVec 64)
  /-- R78 REGISTER_WRITE: Write of any register without a row of its own, under its access codes. -/
  | registerWrite (n : BitVec 12) (v : BitVec 64)
  /-- R342 FR_WRITE: Management write of a format range, word 0 installing the range. -/
  | frWrite (hub : Nat) (n : BitVec 4) (w : BitVec 2) (v : BitVec 64)
  /-- R352 BANKCMD_GO: Writing GO starts RESTRIPE of a set in DRAIN. -/
  | bankcmdGo (hub : Nat) (n : BitVec 4)
  /-- R352 BANKRT_CLEAR: W1C write of a bank retirement mark before RESTRIPE. -/
  | bankrtClear (hub : Nat) (n : BitVec 4) (v : BitVec 64)
  /-- R374 PREEMPT: Asynchronous core-level pre-emption event taken at an instruction boundary. -/
  | preempt (t : Nat)
  /-- R173 MGMTREQ: Asynchronous management request to the handler. -/
  | mgmtreq (t : Nat)
  /-- R114 MSG_ARRIVE: A message lands in a mail register or is buffered or discarded. -/
  | msgArrive (src dst : Nat)
  /-- R99 LOAD_RETURN: The hub outcome of a load or atomic returns to the core. -/
  | loadReturn (t : Nat)
  /-- R96 WAIT_RELEASE: A stalled WAIT's conditions are met and it retires. -/
  | waitRelease (t : Nat)
  /-- R111 FENCE_COMPLETE: A stalled FENCE's accesses and entries have ended and it retires. -/
  | fenceComplete (t : Nat)
  /-- R97 HALT_COMPLETE: A HALT's waits end and the context completes. -/
  | haltComplete (t : Nat)
  /-- R207 COMMAND_START: A queued status command starts once earlier accesses are performed, reading its record. -/
  | commandStart (t n : Nat)
  /-- R177 CFG_STREAM_READ: The root starts reading and broadcasting a stream once earlier accesses are performed. -/
  | cfgStreamRead (net : Nat)
  /-- R252 REGION_START: Regions committed by a sealed stream start their loop contexts in one slot. -/
  | regionStart (g : Nat)
  /-- R250 REGION_RUN_OUT: A region's stage-valid register empties and its loop context runs out. -/
  | regionRunOut (g r : Nat)
  /-- R266 REGION_DRAIN_POINT: A running region being reconfigured reaches its drain point and pauses. -/
  | regionDrainPoint (g r : Nat)
  /-- R266 REGION_SWITCH: A paused region switches to its new configuration and resumes. -/
  | regionSwitch (g r : Nat)
  /-- R254 HOLD_RAISE: A hold source is raised and the graph stops 8 cycles later. -/
  | holdRaise (g src : Nat)
  /-- R254 HOLD_DROP: The last hold source drops and the graph runs 8 cycles later. -/
  | holdDrop (g src : Nat)
  /-- R257 WINDOW_CHECK: At slot d-8 a HOLD window checks for its reply and raises the hold if absent. -/
  | windowCheck (g r w : Nat)
  /-- R199 WINDOW_REPLY_ARRIVE: A reply enters an edge position's window latch. -/
  | windowReplyArrive (n : Nat)
  /-- R201 FEED_DELIVER: Feed beats arrive as edge inputs 12 slots after FEEDR. -/
  | feedDeliver (g r : Nat)
  /-- R256 OM_READ_DEVIATION: An operand memory ECC retry or redirect is detected and raises the hold. -/
  | omReadDeviation (t slot tok : Nat) (fails : Bool)
  /-- R213 DRAIN_SAMPLE: DRN samples and optionally clears accumulators at a slot boundary. -/
  | drainSample (t n : Nat)
  /-- R261 GATE_BEAT_ARRIVE: A gate beat reaches the consumer's latch after its transit. -/
  | gateBeatArrive (n : Nat)
  /-- R379 DROOP_STRETCH: The droop detector stretches a cycle, adding phase debt. -/
  | droopStretch (t : Nat)
  /-- R378 SPINE_SOURCE_LOSS: A tile loses its primary or both clock sources. -/
  | spineSourceLoss (t : Nat) (both : Bool)
  /-- R378 SPINE_ALT_LOCKED: The alternate clock source locks and the hold drops. -/
  | spineAltLocked (t : Nat)
  /-- R378 SPINE_FREQ_CHANGE: Management stops a spine and restarts it at a new frequency. -/
  | spineFreqChange (k : BitVec 3) (freq : BitVec 6)
  /-- R382 REFERENCE_TICK: The 100 MHz reference advances TIME by 10 ns. -/
  | referenceTick
  /-- R309 HUB_REQUEST: The home hub meets an access and translates, checks and performs it. -/
  | hubRequest
  /-- R283 NOTICE_MAPPED: Management answers MAPPED: held accesses retry and replay starts. -/
  | noticeMapped (n : Nat)
  /-- R284 NOTICE_ABORT: Management answers ABORT: held accesses and entries end aborted. -/
  | noticeAbort (n : Nat)
  /-- R287 CREEL_REPLAY: The replay engine performs a creel entry at its frame. -/
  | creelReplay (who : Issuer)
  /-- R289 CREEL_OUTCOME_REPORT: An ended entry is added to its context's fence state once resident. -/
  | creelOutcomeReport (t : Nat)
  /-- R227 KEY_FLIP: At time T a key's parity flips and the PUB status lands. -/
  | keyFlip (k : Nat)
  /-- R224 HOOP_OPEN: A hoop opens when all arrive and its counter is zero. -/
  | hoopOpen (h : Nat)
  /-- R224 HOOP_ABANDON: Management abandons a hoop, landing arrivals ABORTED. -/
  | hoopAbandon (h : Nat)
  /-- R214 OCL_GRANT: The slot allocator serves a claim and zeroes new slots. -/
  | oclGrant (t n : Nat)
  /-- R218 COPY_COMPLETE: A copy completes, writing CMPL, arriving at its hoop and landing its status. -/
  | copyComplete (hub eng : Nat)
  /-- R341 ENCODE_COMPLETE: The plait encoder finishes its two passes and writes the segment. -/
  | encodeComplete (hub : Nat)
  /-- R232 MIG_TRY_END: A migration try's copy ends and the switch is attempted. -/
  | migTryEnd (n : Nat)
  /-- R233 MIG_SP_SWITCH: A spliced migration reaches its last line and switches the PTE. -/
  | migSpSwitch (n : Nat)
  /-- R234 HSPLIT_SLICE_DONE: A slice completes its cache split change. -/
  | hsplitSliceDone (n slice : Nat)
  /-- R231 PINV_DONE: Every hub has dropped the translations and performed old requests. -/
  | pinvDone (t n : Nat)
  /-- R353 BANK_RETIRE_MARK: A bank is marked for retirement and its set enters DRAIN. -/
  | bankRetireMark (hub ch bank : Nat)
  /-- R353 RESTRIPE_DONE: RESTRIPE completes and the set returns to LIVE. -/
  | restripeDone (hub n : Nat)
  /-- R412 CACHE_DIE_EARLY_STOP: A cache die trigger marks dirty frames poisoned and starts write-back. -/
  | cacheDieEarlyStop (hub : Nat)
  /-- R412 CACHE_DIE_POWER_LOSS: At 202 us the cache die loses power and remaining frames stay poisoned. -/
  | cacheDiePowerLoss (hub : Nat)
  /-- R364 QUEUE_TAIL_NOTIFY: A store to a queue's tail word notifies management. -/
  | queueTailNotify (q : Nat)
  /-- R365 LAUNCH_RECORD: Management reads and checks a launch record. -/
  | launchRecord (q : Nat)
  /-- R366 LAUNCH_PRIORITY_AGE: Each 10 ms of waiting raises a launch's effective priority. -/
  | launchPriorityAge
  /-- R371 BIND_DISPATCH: Writing VALID in a bind record starts dispatch. -/
  | bindDispatch (slot : Nat) (record : BitVec 1024)
  /-- R373 GRAPH_PREEMPT: Management saves a graph through the save chain. -/
  | graphPreempt (g : Nat)
  /-- R375 GRAPH_RESTORE: A RESUME bind restores a saved graph. -/
  | graphRestore (slot : Nat) (record : BitVec 1024)
  /-- R372 DRAIN_REQUEST: Management holds a drain request, stalling NEXTP. -/
  | drainRequest (g : Nat)
  /-- R372 GRAPH_DRAINED: The drain conditions hold and the mapping is unbound. -/
  | graphDrained (g : Nat)
  /-- R372 DRAIN_TIMEOUT: DRAINMAX expires and the drain is abandoned for pre-emption. -/
  | drainTimeout (g : Nat)
  /-- R376 GRAPH_COMPLETE: A graph's cores halt or it stops by fault; the completion record is written. -/
  | graphComplete (g : Nat)
  /-- R381 THERMAL_EMERGENCY: Clocks are gated and HBM enters self-refresh. -/
  | thermalEmergency
  /-- R381 THERMAL_CLEAR: Management clears the emergency and execution resumes. -/
  | thermalClear
  /-- R411 MBX_COMPUTE_RESET: Mailbox command 1 requests a compute reset. -/
  | mbxComputeReset (seq : BitVec 64)
  /-- R411 MBX_ISLAND_RESET: Mailbox command 2 requests an island reset. -/
  | mbxIslandReset (seq : BitVec 64)
  /-- R411 MBX_READ_JOURNAL: Mailbox command 3 copies journal entries to companion memory. -/
  | mbxReadJournal (seq : BitVec 64) (first count ia : Nat)
  /-- R419 MBX_ATTESTATION: Mailbox command 4 produces a signed attestation report. -/
  | mbxAttestation (seq : BitVec 64) (nonce : BitVec 256) (ia : Nat)
  /-- R418 MBX_LOAD_FIRMWARE: Mailbox command 5 writes firmware into the inactive flash slot. -/
  | mbxLoadFirmware (seq : BitVec 64) (ia len : Nat)
  /-- R363 MBX_INSTALL_QUEUE: Mailbox command 6 installs a queue descriptor. -/
  | mbxInstallQueue (seq : BitVec 64) (q : Nat) (descr : BitVec 256)
  /-- R380 MBX_SET_POWER_BUDGET: Mailbox command 7 sets the power budget, draining graphs as needed. -/
  | mbxSetPowerBudget (seq : BitVec 64) (watts : Nat)
  /-- R400 COMPUTE_WATCHDOG: 100 ms without hub heartbeats triggers a compute reset. -/
  | computeWatchdog
  /-- R401 ORPHAN_TIMEOUT: After 100 us unanswered hub requests are answered ORPHAN. -/
  | orphanTimeout
  /-- R400 ISLAND_WATCHDOG: The 1 s island watchdog triggers an island reset. -/
  | islandWatchdog
  /-- R409 HINGELINK_HOT_RESET: A HingeLink hot reset causes an island reset. -/
  | hingelinkHotReset
  /-- R400 ISLAND_FIRMWARE_START: Verified island firmware starts and the prior state returns. -/
  | islandFirmwareStart
  /-- R400 MAIN_SUPPLY_LOSS: Loss of main supply or a power-off takes the island OFF. -/
  | mainSupplyLoss
  /-- R400 POWER_UP: A full reset from OFF boots the module. -/
  | powerUp
  /-- R409 HINGELINK_LINK_DOWN: A HingeLink link-down, which resets nothing. -/
  | hingelinkLinkDown
  /-- R404 FLIT_RECEIVE: A strand flit arrives, is CRC-checked and retried on failure. -/
  | flitReceive (port : Nat) (crcOk : Bool) (pkt : Packet)
  /-- R407 PACKET_HOP: A packet is routed at an island by its generation's table or the escape channel. -/
  | packetHop (n : Nat)
  /-- R406 ESCAPE_TIMEOUT: A table-routed packet blocked for 1 us moves to the escape channel. -/
  | escapeTimeout (n : Nat)
  /-- R408 LINK_DOWN: A strand port's link drops and is marked down. -/
  | linkDown (port : Nat)
  /-- R408 REMOTE_REQUEST_TIMEOUT: A strand request passes its 1 ms limit and ends DEAD. -/
  | remoteRequestTimeout (n : Nat)
  /-- R407 ROUTE_TABLE_LOAD: Management loads a new routing table generation, checked by signature. -/
  | routeTableLoad (gen : BitVec 16) (table : List (BitVec 8)) (crc : BitVec 32) (rsa slh : List (BitVec 8))
  /-- R407 ROUTE_TABLE_RETIRE: Management retires an old routing table generation. -/
  | routeTableRetire (gen : BitVec 16)
  /-- R33 ILLEGAL_RIM_WORD: Issue of a rim word whose opcode, function or fields the maps make illegal, trapping ILLEGAL precisely at issue. -/
  | illegalRimWord (word : BitVec 32)
  /-- R285 WRITE_ACKNOWLEDGEMENT: The hub reports a store, reduction or line write as performed, refused or placed in the creel, freeing the issuer's reservation and recording refusals in the FENCE state. -/
  | writeAcknowledgement (who : Issuer)
  /-- R326 COMPANION_INVALIDATE_ACK: The companion acknowledges invalidating, or returns on recall, its copy of an HC line, so the device write is performed at SYSTEM or the read proceeds. -/
  | companionInvalidateAck (line : Nat)
  /-- R420 THROTTLE_BY_BUDGET: The fabric die junction passes 95 °C and the policy throttles resident graphs by the power budget. -/
  | throttleByBudget
  /-- R412 CACHE_DIE_RETURN: A cache die that lost power returns, and its slices regain their cache share. -/
  | cacheDieReturn (hub : Nat)
  /-- R399 STANDBY_SUPPLY_LOSS: Removal of the standby supply resets the always-on domain: TIME, the fuse and defect store, the poison maps and the reset counters. -/
  | standbySupplyLoss
  /-- R273 SLOT_EVICTION: Management copies an operand memory slot of a context that is not resident to hub memory, and copies it back before the context next runs. -/
  | slotEviction (t slot : Nat) (out : Bool)
  /-- R413 POISON_BIT_CLEAR: Management clears a frame's poison-map bit once all its lines are cleared, or frees the frame. -/
  | poisonBitClear (frame : Nat)
  /-- R179 NOPC: Configuration word with no effect. -/
  | nopc
  /-- R179 TGT: Adds a cell rectangle to the target list. -/
  | tgt (r : BitVec 10) (c : BitVec 10) (l : BitVec 1)
  /-- R179 EXT: Sets the size of the last added rectangle. -/
  | ext (r : BitVec 10) (c : BitVec 10)
  /-- R179 TGTR: Adds a tile rectangle to the target list. -/
  | tgtr (r : BitVec 6) (c : BitVec 6) (h : BitVec 6) (w : BitVec 6) (l : BitVec 1)
  /-- R183 FLD: Writes a region, stream, row or cell field. -/
  | fld (f : BitVec 12) (v : BitVec 16)
  /-- R179 FLDH: Holds the high value bits for the next FLD. -/
  | fldh (v : BitVec 16)
  /-- R179 ROW: Selects a row of the open region. -/
  | row (n : BitVec 6)
  /-- R180 TYPE: Opens a region in a pending copy. -/
  | typeWord (t : BitVec 2) (i : BitVec 10) (s : BitVec 8) (p : BitVec 3) (m : BitVec 5)
  /-- R182 IMG: Writes the following raw words into targeted code stores. -/
  | img (c : BitVec 12) (s : BitVec 10)
  /-- R181 COMMIT: Checks the open region and applies its pending copy. -/
  | commit (i : BitVec 10)
  /-- R19 SEAL: Ends the stream and tests its checksum. -/
  | sealWord (c : BitVec 16)
  /-- R179 CLRT: Empties the target list and deselects the row. -/
  | clrt
  /-- R86 ADD: Writes sd := sa + sb modulo 2^64. -/
  | add (d : BitVec 5) (a : BitVec 5) (b : BitVec 5) (g : BitVec 4)
  /-- R86 SUB: Writes sd := sa - sb modulo 2^64. -/
  | sub (d : BitVec 5) (a : BitVec 5) (b : BitVec 5) (g : BitVec 4)
  /-- R86 AND: Writes the bitwise AND of sa and sb. -/
  | and (d : BitVec 5) (a : BitVec 5) (b : BitVec 5) (g : BitVec 4)
  /-- R86 OR: Writes the bitwise OR of sa and sb. -/
  | or (d : BitVec 5) (a : BitVec 5) (b : BitVec 5) (g : BitVec 4)
  /-- R86 XOR: Writes the bitwise XOR of sa and sb. -/
  | xor (d : BitVec 5) (a : BitVec 5) (b : BitVec 5) (g : BitVec 4)
  /-- R86 ANDN: Writes sa AND NOT sb. -/
  | andn (d : BitVec 5) (a : BitVec 5) (b : BitVec 5) (g : BitVec 4)
  /-- R86 SLL: Shifts sa left by sb[5:0]. -/
  | sll (d : BitVec 5) (a : BitVec 5) (b : BitVec 5) (g : BitVec 4)
  /-- R86 SRL: Shifts sa right logically by sb[5:0]. -/
  | srl (d : BitVec 5) (a : BitVec 5) (b : BitVec 5) (g : BitVec 4)
  /-- R86 SRA: Shifts sa right arithmetically by sb[5:0]. -/
  | sra (d : BitVec 5) (a : BitVec 5) (b : BitVec 5) (g : BitVec 4)
  /-- R86 ROL: Rotates sa left by sb[5:0]. -/
  | rol (d : BitVec 5) (a : BitVec 5) (b : BitVec 5) (g : BitVec 4)
  /-- R86 MUL: Writes the low 64 bits of sa times sb. -/
  | mul (d : BitVec 5) (a : BitVec 5) (b : BitVec 5) (g : BitVec 4)
  /-- R86 MULH: Writes the high 64 bits of the signed 128-bit product. -/
  | mulh (d : BitVec 5) (a : BitVec 5) (b : BitVec 5) (g : BitVec 4)
  /-- R86 MULHU: Writes the high 64 bits of the unsigned 128-bit product. -/
  | mulhu (d : BitVec 5) (a : BitVec 5) (b : BitVec 5) (g : BitVec 4)
  /-- R87 DIV: Signed division toward zero, with defined results for zero divisor and overflow. -/
  | div (d : BitVec 5) (a : BitVec 5) (b : BitVec 5) (g : BitVec 4)
  /-- R87 DIVU: Unsigned division, all ones for a zero divisor. -/
  | divu (d : BitVec 5) (a : BitVec 5) (b : BitVec 5) (g : BitVec 4)
  /-- R87 REM: Signed remainder with the sign of the dividend. -/
  | rem (d : BitVec 5) (a : BitVec 5) (b : BitVec 5) (g : BitVec 4)
  /-- R87 REMU: Unsigned remainder, sa for a zero divisor. -/
  | remu (d : BitVec 5) (a : BitVec 5) (b : BitVec 5) (g : BitVec 4)
  /-- R86 MIN: Writes the signed minimum of sa and sb. -/
  | min (d : BitVec 5) (a : BitVec 5) (b : BitVec 5) (g : BitVec 4)
  /-- R86 MAX: Writes the signed maximum of sa and sb. -/
  | max (d : BitVec 5) (a : BitVec 5) (b : BitVec 5) (g : BitVec 4)
  /-- R86 MINU: Writes the unsigned minimum of sa and sb. -/
  | minu (d : BitVec 5) (a : BitVec 5) (b : BitVec 5) (g : BitVec 4)
  /-- R86 MAXU: Writes the unsigned maximum of sa and sb. -/
  | maxu (d : BitVec 5) (a : BitVec 5) (b : BitVec 5) (g : BitVec 4)
  /-- R86 CLZ: Counts the leading zeros of sa. -/
  | clz (d : BitVec 5) (a : BitVec 5) (g : BitVec 4)
  /-- R86 CTZ: Counts the trailing zeros of sa. -/
  | ctz (d : BitVec 5) (a : BitVec 5) (g : BitVec 4)
  /-- R86 POPC: Counts the one bits of sa. -/
  | popc (d : BitVec 5) (a : BitVec 5) (g : BitVec 4)
  /-- R86 BSWAP: Reverses the byte order of sa. -/
  | bswap (d : BitVec 5) (a : BitVec 5) (g : BitVec 4)
  /-- R86 SEXT_B: Sign-extends sa[7:0]. -/
  | sextB (d : BitVec 5) (a : BitVec 5) (g : BitVec 4)
  /-- R86 SEXT_H: Sign-extends sa[15:0]. -/
  | sextH (d : BitVec 5) (a : BitVec 5) (g : BitVec 4)
  /-- R86 SEXT_W: Sign-extends sa[31:0]. -/
  | sextW (d : BitVec 5) (a : BitVec 5) (g : BitVec 4)
  /-- R86 ZEXT_B: Zero-extends sa[7:0]. -/
  | zextB (d : BitVec 5) (a : BitVec 5) (g : BitVec 4)
  /-- R86 ZEXT_H: Zero-extends sa[15:0]. -/
  | zextH (d : BitVec 5) (a : BitVec 5) (g : BitVec 4)
  /-- R86 ZEXT_W: Zero-extends sa[31:0]. -/
  | zextW (d : BitVec 5) (a : BitVec 5) (g : BitVec 4)
  /-- R88 BFX: Extracts a bit field of sa described by sb. -/
  | bfx (d : BitVec 5) (a : BitVec 5) (b : BitVec 5) (g : BitVec 4)
  /-- R88 BFI: Inserts sa into a bit field of sd described by sb. -/
  | bfi (d : BitVec 5) (a : BitVec 5) (b : BitVec 5) (g : BitVec 4)
  /-- R86 LEA_1: Writes sa + sb. -/
  | lea1 (d : BitVec 5) (a : BitVec 5) (b : BitVec 5) (g : BitVec 4)
  /-- R86 LEA_2: Writes sa + 2 x sb. -/
  | lea2 (d : BitVec 5) (a : BitVec 5) (b : BitVec 5) (g : BitVec 4)
  /-- R86 LEA_4: Writes sa + 4 x sb. -/
  | lea4 (d : BitVec 5) (a : BitVec 5) (b : BitVec 5) (g : BitVec 4)
  /-- R86 LEA_8: Writes sa + 8 x sb. -/
  | lea8 (d : BitVec 5) (a : BitVec 5) (b : BitVec 5) (g : BitVec 4)
  /-- R86 SEL: Writes sa if the selecting predicate holds, else sb; always executes. -/
  | sel (d : BitVec 5) (a : BitVec 5) (b : BitVec 5) (p : BitVec 4)
  /-- R86 ADDI: Writes sa plus the sign-extended immediate. -/
  | addi (d : BitVec 5) (a : BitVec 5) (g : BitVec 4) (i : BitVec 12)
  /-- R86 ANDI: ANDs sa with the zero-extended immediate. -/
  | andi (d : BitVec 5) (a : BitVec 5) (g : BitVec 4) (i : BitVec 12)
  /-- R86 ORI: ORs sa with the zero-extended immediate. -/
  | ori (d : BitVec 5) (a : BitVec 5) (g : BitVec 4) (i : BitVec 12)
  /-- R86 XORI: XORs sa with the zero-extended immediate. -/
  | xori (d : BitVec 5) (a : BitVec 5) (g : BitVec 4) (i : BitVec 12)
  /-- R86 SLLI: Shifts sa left by an immediate count. -/
  | slli (d : BitVec 5) (a : BitVec 5) (g : BitVec 4) (s : BitVec 6)
  /-- R86 SRLI: Shifts sa right logically by an immediate count. -/
  | srli (d : BitVec 5) (a : BitVec 5) (g : BitVec 4) (s : BitVec 6)
  /-- R86 SRAI: Shifts sa right arithmetically by an immediate count. -/
  | srai (d : BitVec 5) (a : BitVec 5) (g : BitVec 4) (s : BitVec 6)
  /-- R86 MULI: Writes the low 64 bits of sa times the sign-extended immediate. -/
  | muli (d : BitVec 5) (a : BitVec 5) (g : BitVec 4) (i : BitVec 12)
  /-- R86 ADDPC: Writes the instruction's word address plus the sign-extended immediate. -/
  | addpc (d : BitVec 5) (g : BitVec 4) (i : BitVec 12)
  /-- R22 LIL: Loads the sign-extended 21-bit immediate into sd. -/
  | lil (d : BitVec 5) (i : BitVec 21)
  /-- R22 LIH: Shifts sd left by 21 and ORs in the zero-extended immediate. -/
  | lih (d : BitVec 5) (i : BitVec 21)
  /-- R100 LDB: Loads a sign-extended byte. -/
  | ldb (d : BitVec 5) (a : BitVec 5) (g : BitVec 4) (i : BitVec 12)
  /-- R100 LDBU: Loads a zero-extended byte. -/
  | ldbu (d : BitVec 5) (a : BitVec 5) (g : BitVec 4) (i : BitVec 12)
  /-- R100 LDH: Loads a sign-extended halfword. -/
  | ldh (d : BitVec 5) (a : BitVec 5) (g : BitVec 4) (i : BitVec 12)
  /-- R100 LDHU: Loads a zero-extended halfword. -/
  | ldhu (d : BitVec 5) (a : BitVec 5) (g : BitVec 4) (i : BitVec 12)
  /-- R100 LDW: Loads a sign-extended word. -/
  | ldw (d : BitVec 5) (a : BitVec 5) (g : BitVec 4) (i : BitVec 12)
  /-- R100 LDWU: Loads a zero-extended word. -/
  | ldwu (d : BitVec 5) (a : BitVec 5) (g : BitVec 4) (i : BitVec 12)
  /-- R100 LDD: Loads a doubleword. -/
  | ldd (d : BitVec 5) (a : BitVec 5) (g : BitVec 4) (i : BitVec 12)
  /-- R100 STB: Stores the low byte of sd, sent at issue. -/
  | stb (d : BitVec 5) (a : BitVec 5) (g : BitVec 4) (i : BitVec 10)
  /-- R100 STH: Stores the low halfword of sd. -/
  | sth (d : BitVec 5) (a : BitVec 5) (g : BitVec 4) (i : BitVec 10)
  /-- R100 STW: Stores the low word of sd. -/
  | stw (d : BitVec 5) (a : BitVec 5) (g : BitVec 4) (i : BitVec 10)
  /-- R100 STD: Stores the doubleword sd. -/
  | std (d : BitVec 5) (a : BitVec 5) (g : BitVec 4) (i : BitVec 10)
  /-- R101 LDT: Loads 64 bytes into a token register with an FP32 header. -/
  | ldt (d : BitVec 5) (a : BitVec 5) (g : BitVec 4) (i : BitVec 12)
  /-- R101 STT: Stores a token register's 16 lanes to 64 bytes. -/
  | stt (d : BitVec 5) (a : BitVec 5) (g : BitVec 4) (i : BitVec 12)
  /-- R103 AMO_ADD: Atomic modular add at the bank ALU, returning the old value. -/
  | amoAdd (d : BitVec 5) (a : BitVec 5) (b : BitVec 5) (g : BitVec 4) (o : BitVec 2) (z : BitVec 1)
  /-- R103 AMO_AND: Atomic AND, returning the old value. -/
  | amoAnd (d : BitVec 5) (a : BitVec 5) (b : BitVec 5) (g : BitVec 4) (o : BitVec 2) (z : BitVec 1)
  /-- R103 AMO_OR: Atomic OR, returning the old value. -/
  | amoOr (d : BitVec 5) (a : BitVec 5) (b : BitVec 5) (g : BitVec 4) (o : BitVec 2) (z : BitVec 1)
  /-- R103 AMO_XOR: Atomic XOR, returning the old value. -/
  | amoXor (d : BitVec 5) (a : BitVec 5) (b : BitVec 5) (g : BitVec 4) (o : BitVec 2) (z : BitVec 1)
  /-- R103 AMO_MIN: Atomic signed minimum, returning the old value. -/
  | amoMin (d : BitVec 5) (a : BitVec 5) (b : BitVec 5) (g : BitVec 4) (o : BitVec 2) (z : BitVec 1)
  /-- R103 AMO_MAX: Atomic signed maximum, returning the old value. -/
  | amoMax (d : BitVec 5) (a : BitVec 5) (b : BitVec 5) (g : BitVec 4) (o : BitVec 2) (z : BitVec 1)
  /-- R103 AMO_MINU: Atomic unsigned minimum, returning the old value. -/
  | amoMinu (d : BitVec 5) (a : BitVec 5) (b : BitVec 5) (g : BitVec 4) (o : BitVec 2) (z : BitVec 1)
  /-- R103 AMO_MAXU: Atomic unsigned maximum, returning the old value. -/
  | amoMaxu (d : BitVec 5) (a : BitVec 5) (b : BitVec 5) (g : BitVec 4) (o : BitVec 2) (z : BitVec 1)
  /-- R103 AMO_SWP: Atomic swap, returning the old value. -/
  | amoSwp (d : BitVec 5) (a : BitVec 5) (b : BitVec 5) (g : BitVec 4) (o : BitVec 2) (z : BitVec 1)
  /-- R103 AMO_FADD: Atomic FP32 add rounded under RNE at the bank ALU. -/
  | amoFadd (d : BitVec 5) (a : BitVec 5) (b : BitVec 5) (g : BitVec 4) (o : BitVec 2)
  /-- R103 AMO_BFADD: Atomic add of two BF16 halves. -/
  | amoBfadd (d : BitVec 5) (a : BitVec 5) (b : BitVec 5) (g : BitVec 4) (o : BitVec 2)
  /-- R104 AMOCAS: Atomic compare-and-swap against sd, returning the old element. -/
  | amocas (d : BitVec 5) (a : BitVec 5) (b : BitVec 5) (g : BitVec 4) (o : BitVec 2) (z : BitVec 1)
  /-- R105 REDT_ADD: Lane-wise INT32 modular reduction of a token into memory. -/
  | redtAdd (a : BitVec 5) (b : BitVec 5) (g : BitVec 4) (o : BitVec 2)
  /-- R105 REDT_FADD: Lane-wise FP32 add reduction into memory. -/
  | redtFadd (a : BitVec 5) (b : BitVec 5) (g : BitVec 4) (o : BitVec 2)
  /-- R105 REDT_BFADD: Lane-wise BF16 add reduction into the low half of each word. -/
  | redtBfadd (a : BitVec 5) (b : BitVec 5) (g : BitVec 4) (o : BitVec 2)
  /-- R105 REDT_MIN: Lane-wise INT32 signed minimum reduction into memory. -/
  | redtMin (a : BitVec 5) (b : BitVec 5) (g : BitVec 4) (o : BitVec 2)
  /-- R105 REDT_MAX: Lane-wise INT32 signed maximum reduction into memory. -/
  | redtMax (a : BitVec 5) (b : BitVec 5) (g : BitVec 4) (o : BitVec 2)
  /-- R91 BR: Branches by a word offset when its guard is true. -/
  | br (g : BitVec 4) (o : BitVec 22)
  /-- R91 JMP: Unconditional branch, the BR form with guard p0. -/
  | jmp (o : BitVec 22)
  /-- R91 CALL: Transfers control by an offset and writes the link register. -/
  | call (d : BitVec 5) (i : BitVec 21)
  /-- R93 LOOP_IMM: Starts a hardware loop with an immediate trip count. -/
  | loopImm (l : BitVec 2) (c : BitVec 11) (n : BitVec 8)
  /-- R93 LOOP_REG: Starts a hardware loop whose trip count is in a scalar register; zero skips the body. -/
  | loopReg (l : BitVec 2) (s : BitVec 5) (n : BitVec 8)
  /-- R89 CMPI: Sets a predicate from a condition on sa and the sign-extended immediate. -/
  | cmpi (d : BitVec 3) (a : BitVec 5) (c : BitVec 4) (i : BitVec 12)
  /-- R89 CMP: Sets a predicate from a condition on sa and sb. -/
  | cmp (d : BitVec 3) (a : BitVec 5) (b : BitVec 5) (g : BitVec 4) (c : BitVec 4)
  /-- R90 PLOG_AND: Writes the AND of two predicates. -/
  | plogAnd (d : BitVec 3) (a : BitVec 3) (b : BitVec 3) (g : BitVec 4)
  /-- R90 PLOG_OR: Writes the OR of two predicates. -/
  | plogOr (d : BitVec 3) (a : BitVec 3) (b : BitVec 3) (g : BitVec 4)
  /-- R90 PLOG_XOR: Writes the XOR of two predicates. -/
  | plogXor (d : BitVec 3) (a : BitVec 3) (b : BitVec 3) (g : BitVec 4)
  /-- R90 PLOG_NOT: Writes the negation of a predicate. -/
  | plogNot (d : BitVec 3) (a : BitVec 3) (g : BitVec 4)
  /-- R90 S2P: Sets a predicate from sa[0]. -/
  | s2p (d : BitVec 3) (a : BitVec 5) (g : BitVec 4)
  /-- R90 P2S: Writes 1 or 0 to sd from a predicate. -/
  | p2s (d : BitVec 5) (a : BitVec 3) (g : BitVec 4)
  /-- R91 JR: Jumps to the address in sa, optionally linking. -/
  | jr (d : BitVec 5) (a : BitVec 5) (g : BitVec 4)
  /-- R95 LBRK: Ends the loop at a level and every inner loop. -/
  | lbrk (l : BitVec 5) (g : BitVec 4)
  /-- R96 WAIT: Stalls until a pending status lands and, for a mail register, until mail arrives. -/
  | wait (a : BitVec 5) (g : BitVec 4)
  /-- R97 HALT: Ends the loop context after fencing and waiting for pending statuses. -/
  | halt (g : BitVec 4)
  /-- R78 SRD: Reads a special register into sd after earlier instructions retire. -/
  | srd (d : BitVec 5) (n : BitVec 12)
  /-- R78 SWR: Writes a special register from sa under its access codes. -/
  | swr (a : BitVec 5) (n : BitVec 12)
  /-- R78 SRS: Sets bits of a special register and returns the old value. -/
  | srs (d : BitVec 5) (a : BitVec 5) (n : BitVec 12)
  /-- R78 SRC: Clears bits of a special register and returns the old value. -/
  | src (d : BitVec 5) (a : BitVec 5) (n : BitVec 12)
  /-- R110 TRAP: Takes a software trap with the trap number, resuming past itself. -/
  | trap (n : BitVec 12)
  /-- R110 ERET: Returns from a handler, restoring mode and loop enable. -/
  | eret
  /-- R111 FENCE: Waits until earlier accesses and creel entries of its scope end, then returns the fence status. -/
  | fence (d : BitVec 5) (w : BitVec 1) (s : BitVec 3)
  /-- R112 WSYNC: Retires once earlier ward writes have taken effect. -/
  | wsync
  /-- R113 MSG: Sends a 64-bit value to a mail register of a rim core. -/
  | msg (d : BitVec 5) (a : BitVec 5) (m : BitVec 2)
  /-- R115 NEXTP: Reads and advances the static schedule table cursor. -/
  | nextp (d : BitVec 5)
  /-- R123 VFMA: Fused multiply-add x*y+z per active lane, rounded once. -/
  | vfma (d : BitVec 5) (a : BitVec 5) (b : BitVec 5) (c : BitVec 5) (m : BitVec 3) (i : BitVec 1) (o : BitVec 1) (k : BitVec 1)
  /-- R123 VFMS: Fused x*y-z per active lane. -/
  | vfms (d : BitVec 5) (a : BitVec 5) (b : BitVec 5) (c : BitVec 5) (m : BitVec 3) (i : BitVec 1) (o : BitVec 1) (k : BitVec 1)
  /-- R123 VFNMA: Fused -(x*y)+z per active lane. -/
  | vfnma (d : BitVec 5) (a : BitVec 5) (b : BitVec 5) (c : BitVec 5) (m : BitVec 3) (i : BitVec 1) (o : BitVec 1) (k : BitVec 1)
  /-- R128 VSEL: Selects ta or tb lanes by tc's predicate bits. -/
  | vsel (d : BitVec 5) (a : BitVec 5) (b : BitVec 5) (c : BitVec 5) (m : BitVec 3) (k : BitVec 1)
  /-- R147 VIMAC: Integer multiply-accumulate modulo the element width. -/
  | vimac (d : BitVec 5) (a : BitVec 5) (b : BitVec 5) (c : BitVec 5) (m : BitVec 3) (k : BitVec 1)
  /-- R123 VADD: Floating-point addition per active lane. -/
  | vadd (d : BitVec 5) (a : BitVec 5) (b : BitVec 5) (m : BitVec 3) (i : BitVec 1) (o : BitVec 1) (k : BitVec 1)
  /-- R123 VSUB: Floating-point subtraction per active lane. -/
  | vsub (d : BitVec 5) (a : BitVec 5) (b : BitVec 5) (m : BitVec 3) (i : BitVec 1) (o : BitVec 1) (k : BitVec 1)
  /-- R123 VMUL: Floating-point multiplication per active lane. -/
  | vmul (d : BitVec 5) (a : BitVec 5) (b : BitVec 5) (m : BitVec 3) (i : BitVec 1) (o : BitVec 1) (k : BitVec 1)
  /-- R124 VMAX: Selects the larger element per lane with NaN propagation. -/
  | vmax (d : BitVec 5) (a : BitVec 5) (b : BitVec 5) (m : BitVec 3) (i : BitVec 1) (o : BitVec 1) (k : BitVec 1)
  /-- R124 VMIN: Selects the smaller element per lane with NaN propagation. -/
  | vmin (d : BitVec 5) (a : BitVec 5) (b : BitVec 5) (m : BitVec 3) (i : BitVec 1) (o : BitVec 1) (k : BitVec 1)
  /-- R125 VABS: Clears the sign bit of each element. -/
  | vabs (d : BitVec 5) (a : BitVec 5) (m : BitVec 3) (i : BitVec 1) (o : BitVec 1) (k : BitVec 1)
  /-- R125 VNEG: Inverts the sign bit of each element. -/
  | vneg (d : BitVec 5) (a : BitVec 5) (m : BitVec 3) (i : BitVec 1) (o : BitVec 1) (k : BitVec 1)
  /-- R125 VCPS: Copies b's sign onto a's magnitude. -/
  | vcps (d : BitVec 5) (a : BitVec 5) (b : BitVec 5) (m : BitVec 3) (i : BitVec 1) (o : BitVec 1) (k : BitVec 1)
  /-- R126 VCLS: Writes a one-hot class of each element. -/
  | vcls (d : BitVec 5) (a : BitVec 5) (m : BitVec 3) (i : BitVec 1) (k : BitVec 1)
  /-- R140 VDOT: Dot product of two tokens plus an addend into lane 0, rounded once. -/
  | vdot (d : BitVec 5) (a : BitVec 5) (b : BitVec 5) (m : BitVec 3) (i : BitVec 1) (o : BitVec 1) (k : BitVec 1)
  /-- R138 VEXPF: Computes 2^x for |x| at most 0.5, correctly rounded. -/
  | vexpf (d : BitVec 5) (a : BitVec 5) (m : BitVec 3) (i : BitVec 1) (o : BitVec 1) (k : BitVec 1)
  /-- R138 VLOGF: Computes log2 x, correctly rounded. -/
  | vlogf (d : BitVec 5) (a : BitVec 5) (m : BitVec 3) (i : BitVec 1) (o : BitVec 1) (k : BitVec 1)
  /-- R139 VSCALE: Computes x times 2^n with one rounding. -/
  | vscale (d : BitVec 5) (a : BitVec 5) (b : BitVec 5) (m : BitVec 3) (i : BitVec 1) (o : BitVec 1) (k : BitVec 1)
  /-- R138 VGETX: Computes the floor of log2 |x|. -/
  | vgetx (d : BitVec 5) (a : BitVec 5) (m : BitVec 3) (i : BitVec 1) (o : BitVec 1) (k : BitVec 1)
  /-- R138 VRCP: Computes 1/x, correctly rounded. -/
  | vrcp (d : BitVec 5) (a : BitVec 5) (m : BitVec 3) (i : BitVec 1) (o : BitVec 1) (k : BitVec 1)
  /-- R138 VRSQ: Computes 1/sqrt x, correctly rounded. -/
  | vrsq (d : BitVec 5) (a : BitVec 5) (m : BitVec 3) (i : BitVec 1) (o : BitVec 1) (k : BitVec 1)
  /-- R127 VCMP: Copies a and sets predicate bits from a comparison with b. -/
  | vcmp (d : BitVec 5) (a : BitVec 5) (b : BitVec 5) (c : BitVec 3) (m : BitVec 3) (i : BitVec 1) (k : BitVec 1)
  /-- R147 VIADD: Integer addition modulo the element width. -/
  | viadd (d : BitVec 5) (a : BitVec 5) (b : BitVec 5) (m : BitVec 3) (k : BitVec 1)
  /-- R147 VISUB: Integer subtraction modulo the element width. -/
  | visub (d : BitVec 5) (a : BitVec 5) (b : BitVec 5) (m : BitVec 3) (k : BitVec 1)
  /-- R147 VIMUL: Low bits of the integer product. -/
  | vimul (d : BitVec 5) (a : BitVec 5) (b : BitVec 5) (m : BitVec 3) (k : BitVec 1)
  /-- R147 VAND: Bitwise AND of elements. -/
  | vand (d : BitVec 5) (a : BitVec 5) (b : BitVec 5) (m : BitVec 3) (k : BitVec 1)
  /-- R147 VOR: Bitwise OR of elements. -/
  | vor (d : BitVec 5) (a : BitVec 5) (b : BitVec 5) (m : BitVec 3) (k : BitVec 1)
  /-- R147 VXOR: Bitwise XOR of elements. -/
  | vxor (d : BitVec 5) (a : BitVec 5) (b : BitVec 5) (m : BitVec 3) (k : BitVec 1)
  /-- R147 VSHL: Shifts elements left. -/
  | vshl (d : BitVec 5) (a : BitVec 5) (b : BitVec 5) (m : BitVec 3) (k : BitVec 1)
  /-- R147 VSHR: Shifts elements right logically. -/
  | vshr (d : BitVec 5) (a : BitVec 5) (b : BitVec 5) (m : BitVec 3) (k : BitVec 1)
  /-- R147 VSAR: Shifts elements right arithmetically. -/
  | vsar (d : BitVec 5) (a : BitVec 5) (b : BitVec 5) (m : BitVec 3) (k : BitVec 1)
  /-- R147 VIMIN: Integer minimum per element. -/
  | vimin (d : BitVec 5) (a : BitVec 5) (b : BitVec 5) (m : BitVec 3) (k : BitVec 1)
  /-- R147 VIMAX: Integer maximum per element. -/
  | vimax (d : BitVec 5) (a : BitVec 5) (b : BitVec 5) (m : BitVec 3) (k : BitVec 1)
  /-- R147 VCNT: Counts one bits per element. -/
  | vcnt (d : BitVec 5) (a : BitVec 5) (m : BitVec 3) (k : BitVec 1)
  /-- R141 VSUMT: Tree sum of a token into lane 0. -/
  | vsumt (d : BitVec 5) (a : BitVec 5) (m : BitVec 3) (i : BitVec 1) (o : BitVec 1) (k : BitVec 1)
  /-- R141 VMAXT: Tree maximum of a token into lane 0. -/
  | vmaxt (d : BitVec 5) (a : BitVec 5) (m : BitVec 3) (i : BitVec 1) (o : BitVec 1) (k : BitVec 1)
  /-- R141 VSCAN: Sequential prefix sum across lanes. -/
  | vscan (d : BitVec 5) (a : BitVec 5) (m : BitVec 3) (i : BitVec 1) (o : BitVec 1) (k : BitVec 1)
  /-- R142 VPERM: Permutes lanes of ta by indices in tb. -/
  | vperm (d : BitVec 5) (a : BitVec 5) (b : BitVec 5) (m : BitVec 3) (k : BitVec 1)
  /-- R143 VSHUF: Shuffles lanes by an XOR or rotate pattern. -/
  | vshuf (d : BitVec 5) (a : BitVec 5) (b : BitVec 5) (m : BitVec 3) (k : BitVec 1)
  /-- R144 VBCST: Broadcasts one lane of ta to every active lane. -/
  | vbcst (d : BitVec 5) (a : BitVec 5) (b : BitVec 5) (m : BitVec 3) (k : BitVec 1)
  /-- R145 VINS: Inserts a scalar into a lane, predicate, valid bits or header. -/
  | vins (d : BitVec 5) (a : BitVec 5) (b : BitVec 5)
  /-- R145 VEXT: Extracts a lane, predicate, valid bits or header into a scalar. -/
  | vext (d : BitVec 5) (a : BitVec 5) (b : BitVec 5)
  /-- R148 VHIST: Adds weights to lane-private histogram bins. -/
  | vhist (d : BitVec 5) (a : BitVec 5) (b : BitVec 5) (m : BitVec 3)
  /-- R149 VHMRG: Merges histogram bins across lanes. -/
  | vhmrg (d : BitVec 5) (a : BitVec 5) (b : BitVec 5) (m : BitVec 3) (k : BitVec 1)
  /-- R146 VMSK: Sets valid bits from tb's predicate bits. -/
  | vmsk (d : BitVec 5) (a : BitVec 5) (b : BitVec 5) (m : BitVec 3) (k : BitVec 1)
  /-- R130 VCVT: Converts elements between formats under rm and ov. -/
  | vcvt (d : BitVec 5) (a : BitVec 5) (t : BitVec 4) (f : BitVec 4) (r : BitVec 3) (v : BitVec 2) (i : BitVec 1) (o : BitVec 1) (k : BitVec 1)
  /-- R133 VRNDI: Rounds elements to integral values in their own format. -/
  | vrndi (d : BitVec 5) (a : BitVec 5) (t : BitVec 4) (f : BitVec 4) (r : BitVec 3) (v : BitVec 2) (i : BitVec 1) (o : BitVec 1) (k : BitVec 1)
  /-- R134 VFTOI: Converts floating-point elements to integers. -/
  | vftoi (d : BitVec 5) (a : BitVec 5) (t : BitVec 4) (f : BitVec 4) (r : BitVec 3) (v : BitVec 2) (i : BitVec 1) (o : BitVec 1) (k : BitVec 1)
  /-- R135 VITOF: Converts integer elements to floating point. -/
  | vitof (d : BitVec 5) (a : BitVec 5) (t : BitVec 4) (f : BitVec 4) (r : BitVec 3) (v : BitVec 2) (i : BitVec 1) (o : BitVec 1) (k : BitVec 1)
  /-- R136 VPACK: Converts and packs 16 codes into the top of td. -/
  | vpack (d : BitVec 5) (a : BitVec 5) (t : BitVec 4) (f : BitVec 4) (r : BitVec 3) (v : BitVec 2) (i : BitVec 1) (o : BitVec 1) (k : BitVec 1)
  /-- R137 VUNPK: Unpacks 16 codes from the low bits of ta. -/
  | vunpk (d : BitVec 5) (a : BitVec 5) (t : BitVec 4) (f : BitVec 4) (r : BitVec 3) (v : BitVec 2) (i : BitVec 1) (o : BitVec 1) (k : BitVec 1)
  /-- R150 VBFP: Finds the shared exponent of a 48-element block. -/
  | vbfp (d : BitVec 5) (a : BitVec 5) (b : BitVec 5) (m : BitVec 3) (i : BitVec 1)
  /-- R151 VPLD: Decodes 16 weights of a plait segment from memory. -/
  | vpld (d : BitVec 5) (a : BitVec 5) (b : BitVec 5) (m : BitVec 3) (k : BitVec 1)
  /-- R102 LDTS: Strided lane-form load of 32-bit words. -/
  | ldts (d : BitVec 5) (a : BitVec 5) (b : BitVec 5) (m : BitVec 3) (k : BitVec 1)
  /-- R102 STTS: Strided lane-form store of 32-bit words. -/
  | stts (d : BitVec 5) (a : BitVec 5) (b : BitVec 5) (m : BitVec 3) (k : BitVec 1)
  /-- R102 LDTG: Gather load by lane offsets. -/
  | ldtg (d : BitVec 5) (a : BitVec 5) (b : BitVec 5) (m : BitVec 3) (k : BitVec 1)
  /-- R102 STTG: Scatter store by lane offsets. -/
  | sttg (d : BitVec 5) (a : BitVec 5) (b : BitVec 5) (m : BitVec 3) (k : BitVec 1)
  /-- R177 CFG: Submits a configuration stream to the management-net root. -/
  | cfg (d : BitVec 5) (a : BitVec 5) (b : BitVec 5) (g : BitVec 4)
  /-- R178 CFGW: Lands the first refused status of earlier streams once they complete. -/
  | cfgw (d : BitVec 5) (g : BitVec 4)
  /-- R211 PUSHT: Stages a token into the push beat and optionally delivers it as a window reply. -/
  | pusht (a : BitVec 5) (b : BitVec 5) (g : BitVec 4)
  /-- R212 POPT: Reads a token from a capture buffer. -/
  | popt (d : BitVec 5) (a : BitVec 5) (g : BitVec 4)
  /-- R213 DRN: Copies drain accumulators of a SYS region into operand memory. -/
  | drn (d : BitVec 5) (a : BitVec 5) (b : BitVec 5) (g : BitVec 4)
  /-- R217 CPY: Passes a copy record to a copy engine. -/
  | cpy (d : BitVec 5) (a : BitVec 5) (g : BitVec 4)
  /-- R219 CPY_SLICE: A CPY whose record KIND 3 builds plait slices into operand memory. -/
  | cpySlice (d : BitVec 5) (a : BitVec 5) (g : BitVec 4)
  /-- R221 CPYW: Lands the first failed status of earlier copies and encodings. -/
  | cpyw (d : BitVec 5) (g : BitVec 4)
  /-- R214 OCL: Claims operand memory slots for the context, all or nothing. -/
  | ocl (d : BitVec 5) (a : BitVec 5) (g : BitVec 4)
  /-- R215 ORL: Releases operand memory slots. -/
  | orl (a : BitVec 5) (g : BitVec 4)
  /-- R216 OLD: Reads one token from operand memory. -/
  | old (d : BitVec 5) (a : BitVec 5) (b : BitVec 5) (g : BitVec 4)
  /-- R216 OST: Writes one token and its exponent sideband to operand memory. -/
  | ost (d : BitVec 5) (a : BitVec 5) (b : BitVec 5) (g : BitVec 4)
  /-- R224 HOOP_ARRIVE: Adds one arrival to a hoop; the status lands when it opens. -/
  | hoopArrive (d : BitVec 5) (a : BitVec 5) (b : BitVec 5) (g : BitVec 4)
  /-- R224 HOOP_ARM: Sets a hoop's participant count. -/
  | hoopArm (d : BitVec 5) (a : BitVec 5) (b : BitVec 5) (g : BitVec 4)
  /-- R224 HOOP_QUERY: Returns a hoop's arrival count and generation. -/
  | hoopQuery (d : BitVec 5) (a : BitVec 5) (b : BitVec 5) (g : BitVec 4)
  /-- R227 PUB: Schedules a key's generation flip 2 us ahead. -/
  | pub (d : BitVec 5) (a : BitVec 5) (g : BitVec 4)
  /-- R222 PLE: Passes an encoder record to a plait encoder. -/
  | ple (d : BitVec 5) (a : BitVec 5) (g : BitVec 4)
  /-- R232 MIG: Migrates a page to another stack by optimistic copy. -/
  | mig (d : BitVec 5) (a : BitVec 5) (g : BitVec 4)
  /-- R233 MIG_SP: Migrates a page by splicing a copy engine with write forwarding. -/
  | migSp (d : BitVec 5) (a : BitVec 5) (g : BitVec 4)
  /-- R234 HSPLIT: Sets the cache and scratch share of a range of slices. -/
  | hsplit (d : BitVec 5) (a : BitVec 5) (b : BitVec 5) (g : BitVec 4)
  /-- R230 PTEW: Writes a whole PTE at the page-table port. -/
  | ptew (d : BitVec 5) (a : BitVec 5) (b : BitVec 5) (g : BitVec 4)
  /-- R230 PTECAS: Compares and swaps a whole PTE, writing back the current entry on failure. -/
  | ptecas (d : BitVec 5) (a : BitVec 5) (b : BitVec 5) (g : BitVec 4)
  /-- R231 PINV: Invalidates cached translations of a range of pages. -/
  | pinv (d : BitVec 5) (a : BitVec 5) (g : BitVec 4)
  /-- R235 WARDW: Writes one word of a ward register, installing on word 0. -/
  | wardw (a : BitVec 5) (b : BitVec 5) (g : BitVec 4)
  /-- R192 CELL_MACF: Floating-point multiply-accumulate of an activation beat against stationary weights. -/
  | cellMacf (q : BitVec 3) (i : BitVec 1) (o : BitVec 1) (f : BitVec 4) (x : BitVec 5)
  /-- R193 CELL_MACB: Block-serial BFP multiply-accumulate in groups of three rows. -/
  | cellMacb (q : BitVec 3) (i : BitVec 1) (o : BitVec 1) (f : BitVec 4) (x : BitVec 5)
  /-- R193 CELL_MACP: Block-serial multiply-accumulate with weights decoded from a plait slice. -/
  | cellMacp (q : BitVec 3) (i : BitVec 1) (o : BitVec 1) (f : BitVec 4) (x : BitVec 5)
  /-- R195 CELL_WLOAD: Shifts a weight token into a weight store entry. -/
  | cellWload (d : BitVec 3) (a : BitVec 3) (q : BitVec 3) (i : BitVec 1) (o : BitVec 1) (x : BitVec 5)
  /-- R195 CELL_WPLT: Shifts a plait slice into a weight entry, checking it. -/
  | cellWplt (d : BitVec 3) (a : BitVec 3) (q : BitVec 3) (i : BitVec 1) (o : BitVec 1) (x : BitVec 5)
  /-- R196 CELL_PSUM: Adds two beats lane by lane in FP32. -/
  | cellPsum (d : BitVec 3) (a : BitVec 3) (b : BitVec 3) (q : BitVec 3) (i : BitVec 1) (o : BitVec 1) (x : BitVec 5)
  /-- R196 CELL_PASS: Moves a beat unchanged. -/
  | cellPass (d : BitVec 3) (a : BitVec 3) (q : BitVec 3) (i : BitVec 1) (o : BitVec 1) (x : BitVec 5)
  /-- R196 CELL_BUBL: Writes a bubble beat. -/
  | cellBubl (d : BitVec 3) (q : BitVec 3) (i : BitVec 1) (o : BitVec 1) (x : BitVec 5)
  /-- R196 CELL_SELR: Selects elements of a or b by a's predicate bits. -/
  | cellSelr (d : BitVec 3) (a : BitVec 3) (b : BitVec 3) (q : BitVec 3) (i : BitVec 1) (o : BitVec 1) (x : BitVec 5)
  /-- R197 CELL_RSUM: RED lane-wise sum of two beats. -/
  | cellRsum (d : BitVec 3) (a : BitVec 3) (b : BitVec 3) (q : BitVec 3) (i : BitVec 1) (o : BitVec 1) (f : BitVec 4) (x : BitVec 5)
  /-- R197 CELL_RMAX: RED lane-wise maximum. -/
  | cellRmax (d : BitVec 3) (a : BitVec 3) (b : BitVec 3) (q : BitVec 3) (i : BitVec 1) (o : BitVec 1) (f : BitVec 4) (x : BitVec 5)
  /-- R197 CELL_RMIN: RED lane-wise minimum. -/
  | cellRmin (d : BitVec 3) (a : BitVec 3) (b : BitVec 3) (q : BitVec 3) (i : BitVec 1) (o : BitVec 1) (f : BitVec 4) (x : BitVec 5)
  /-- R197 CELL_RFOLD: RED pairwise fold of adjacent lanes. -/
  | cellRfold (d : BitVec 3) (a : BitVec 3) (b : BitVec 3) (q : BitVec 3) (i : BitVec 1) (o : BitVec 1) (f : BitVec 4) (x : BitVec 5)
  /-- R198 CELL_AGEN: Steps an AGN stream's counters. -/
  | cellAgen (q : BitVec 3) (i : BitVec 1) (o : BitVec 1) (s : BitVec 5)
  /-- R198 CELL_AREQ: Reads 64 bytes at each cell's stream address into the consumer window. -/
  | cellAreq (q : BitVec 3) (i : BitVec 1) (o : BitVec 1) (s : BitVec 5)
  /-- R198 CELL_ASTQ: Stores a beat at each cell's stream address. -/
  | cellAstq (a : BitVec 3) (q : BitVec 3) (i : BitVec 1) (o : BitVec 1) (s : BitVec 5)
  /-- R198 CELL_ARED: Reduces a beat into each cell's stream address. -/
  | cellAred (a : BitVec 3) (q : BitVec 3) (i : BitVec 1) (o : BitVec 1) (s : BitVec 5)
  /-- R200 CELL_AWIN: Takes the due window reply in each latched edge cell. -/
  | cellAwin (d : BitVec 3) (q : BitVec 3) (i : BitVec 1) (o : BitVec 1) (w : BitVec 5)
  /-- R201 CELL_FEEDR: Reads 128 bytes of operand memory to feed an N or W edge. -/
  | cellFeedr (q : BitVec 3) (i : BitVec 1) (o : BitVec 1) (f : BitVec 4) (e : BitVec 5)
  /-- R202 CELL_OUTR: Writes S or E edge output beats into operand memory. -/
  | cellOutr (q : BitVec 3) (i : BitVec 1) (o : BitVec 1) (e : BitVec 5)
  /-- R191 CELL_VADD: VADD applied to each token position of a beat. -/
  | cellVadd (d : BitVec 3) (a : BitVec 3) (b : BitVec 3) (c : BitVec 3) (q : BitVec 3) (i : BitVec 1) (o : BitVec 1) (f : BitVec 4) (x : BitVec 5)
  /-- R191 CELL_VSUB: VSUB per token position. -/
  | cellVsub (d : BitVec 3) (a : BitVec 3) (b : BitVec 3) (c : BitVec 3) (q : BitVec 3) (i : BitVec 1) (o : BitVec 1) (f : BitVec 4) (x : BitVec 5)
  /-- R191 CELL_VMUL: VMUL per token position. -/
  | cellVmul (d : BitVec 3) (a : BitVec 3) (b : BitVec 3) (c : BitVec 3) (q : BitVec 3) (i : BitVec 1) (o : BitVec 1) (f : BitVec 4) (x : BitVec 5)
  /-- R191 CELL_VFMA: VFMA per token position. -/
  | cellVfma (d : BitVec 3) (a : BitVec 3) (b : BitVec 3) (c : BitVec 3) (q : BitVec 3) (i : BitVec 1) (o : BitVec 1) (f : BitVec 4) (x : BitVec 5)
  /-- R191 CELL_VFMS: VFMS per token position. -/
  | cellVfms (d : BitVec 3) (a : BitVec 3) (b : BitVec 3) (c : BitVec 3) (q : BitVec 3) (i : BitVec 1) (o : BitVec 1) (f : BitVec 4) (x : BitVec 5)
  /-- R191 CELL_VFNMA: VFNMA per token position. -/
  | cellVfnma (d : BitVec 3) (a : BitVec 3) (b : BitVec 3) (c : BitVec 3) (q : BitVec 3) (i : BitVec 1) (o : BitVec 1) (f : BitVec 4) (x : BitVec 5)
  /-- R191 CELL_VMAX: VMAX per token position. -/
  | cellVmax (d : BitVec 3) (a : BitVec 3) (b : BitVec 3) (c : BitVec 3) (q : BitVec 3) (i : BitVec 1) (o : BitVec 1) (f : BitVec 4) (x : BitVec 5)
  /-- R191 CELL_VMIN: VMIN per token position. -/
  | cellVmin (d : BitVec 3) (a : BitVec 3) (b : BitVec 3) (c : BitVec 3) (q : BitVec 3) (i : BitVec 1) (o : BitVec 1) (f : BitVec 4) (x : BitVec 5)
  /-- R191 CELL_VABS: VABS per token position. -/
  | cellVabs (d : BitVec 3) (a : BitVec 3) (b : BitVec 3) (c : BitVec 3) (q : BitVec 3) (i : BitVec 1) (o : BitVec 1) (f : BitVec 4) (x : BitVec 5)
  /-- R191 CELL_VNEG: VNEG per token position. -/
  | cellVneg (d : BitVec 3) (a : BitVec 3) (b : BitVec 3) (c : BitVec 3) (q : BitVec 3) (i : BitVec 1) (o : BitVec 1) (f : BitVec 4) (x : BitVec 5)
  /-- R191 CELL_VCPS: VCPS per token position. -/
  | cellVcps (d : BitVec 3) (a : BitVec 3) (b : BitVec 3) (c : BitVec 3) (q : BitVec 3) (i : BitVec 1) (o : BitVec 1) (f : BitVec 4) (x : BitVec 5)
  /-- R122 CELL_VCMP: VCMP per token position with its condition in x. -/
  | cellVcmp (d : BitVec 3) (a : BitVec 3) (b : BitVec 3) (c : BitVec 3) (q : BitVec 3) (i : BitVec 1) (o : BitVec 1) (f : BitVec 4) (n : BitVec 3)
  /-- R191 CELL_VSEL: VSEL per token position. -/
  | cellVsel (d : BitVec 3) (a : BitVec 3) (b : BitVec 3) (c : BitVec 3) (q : BitVec 3) (i : BitVec 1) (o : BitVec 1) (f : BitVec 4) (x : BitVec 5)
  /-- R191 CELL_VCLS: VCLS per token position. -/
  | cellVcls (d : BitVec 3) (a : BitVec 3) (b : BitVec 3) (c : BitVec 3) (q : BitVec 3) (i : BitVec 1) (o : BitVec 1) (f : BitVec 4) (x : BitVec 5)
  /-- R122 CELL_VCVT: VCVT from the arriving tag to the format field. -/
  | cellVcvt (d : BitVec 3) (a : BitVec 3) (b : BitVec 3) (c : BitVec 3) (q : BitVec 3) (i : BitVec 1) (o : BitVec 1) (f : BitVec 4) (x : BitVec 5)
  /-- R191 CELL_VRNDI: VRNDI per token position. -/
  | cellVrndi (d : BitVec 3) (a : BitVec 3) (b : BitVec 3) (c : BitVec 3) (q : BitVec 3) (i : BitVec 1) (o : BitVec 1) (f : BitVec 4) (x : BitVec 5)
  /-- R191 CELL_VFTOI: VFTOI per token position. -/
  | cellVftoi (d : BitVec 3) (a : BitVec 3) (b : BitVec 3) (c : BitVec 3) (q : BitVec 3) (i : BitVec 1) (o : BitVec 1) (f : BitVec 4) (x : BitVec 5)
  /-- R191 CELL_VITOF: VITOF per token position. -/
  | cellVitof (d : BitVec 3) (a : BitVec 3) (b : BitVec 3) (c : BitVec 3) (q : BitVec 3) (i : BitVec 1) (o : BitVec 1) (f : BitVec 4) (x : BitVec 5)
  /-- R191 CELL_VEXPF: VEXPF per token position. -/
  | cellVexpf (d : BitVec 3) (a : BitVec 3) (b : BitVec 3) (c : BitVec 3) (q : BitVec 3) (i : BitVec 1) (o : BitVec 1) (f : BitVec 4) (x : BitVec 5)
  /-- R191 CELL_VLOGF: VLOGF per token position. -/
  | cellVlogf (d : BitVec 3) (a : BitVec 3) (b : BitVec 3) (c : BitVec 3) (q : BitVec 3) (i : BitVec 1) (o : BitVec 1) (f : BitVec 4) (x : BitVec 5)
  /-- R191 CELL_VSCALE: VSCALE per token position. -/
  | cellVscale (d : BitVec 3) (a : BitVec 3) (b : BitVec 3) (c : BitVec 3) (q : BitVec 3) (i : BitVec 1) (o : BitVec 1) (f : BitVec 4) (x : BitVec 5)
  /-- R191 CELL_VGETX: VGETX per token position. -/
  | cellVgetx (d : BitVec 3) (a : BitVec 3) (b : BitVec 3) (c : BitVec 3) (q : BitVec 3) (i : BitVec 1) (o : BitVec 1) (f : BitVec 4) (x : BitVec 5)
  /-- R191 CELL_VRCP: VRCP per token position. -/
  | cellVrcp (d : BitVec 3) (a : BitVec 3) (b : BitVec 3) (c : BitVec 3) (q : BitVec 3) (i : BitVec 1) (o : BitVec 1) (f : BitVec 4) (x : BitVec 5)
  /-- R191 CELL_VRSQ: VRSQ per token position. -/
  | cellVrsq (d : BitVec 3) (a : BitVec 3) (b : BitVec 3) (c : BitVec 3) (q : BitVec 3) (i : BitVec 1) (o : BitVec 1) (f : BitVec 4) (x : BitVec 5)
  /-- R191 CELL_VDOT: VDOT per token position. -/
  | cellVdot (d : BitVec 3) (a : BitVec 3) (b : BitVec 3) (c : BitVec 3) (q : BitVec 3) (i : BitVec 1) (o : BitVec 1) (f : BitVec 4) (x : BitVec 5)
  /-- R191 CELL_VSUMT: VSUMT per token position. -/
  | cellVsumt (d : BitVec 3) (a : BitVec 3) (b : BitVec 3) (c : BitVec 3) (q : BitVec 3) (i : BitVec 1) (o : BitVec 1) (f : BitVec 4) (x : BitVec 5)
  /-- R191 CELL_VMAXT: VMAXT per token position. -/
  | cellVmaxt (d : BitVec 3) (a : BitVec 3) (b : BitVec 3) (c : BitVec 3) (q : BitVec 3) (i : BitVec 1) (o : BitVec 1) (f : BitVec 4) (x : BitVec 5)
  /-- R191 CELL_VSCAN: VSCAN per token position. -/
  | cellVscan (d : BitVec 3) (a : BitVec 3) (b : BitVec 3) (c : BitVec 3) (q : BitVec 3) (i : BitVec 1) (o : BitVec 1) (f : BitVec 4) (x : BitVec 5)
  /-- R191 CELL_VPERM: VPERM per token position. -/
  | cellVperm (d : BitVec 3) (a : BitVec 3) (b : BitVec 3) (c : BitVec 3) (q : BitVec 3) (i : BitVec 1) (o : BitVec 1) (f : BitVec 4) (x : BitVec 5)
  /-- R122 CELL_VSHUF: VSHUF with its pattern in x. -/
  | cellVshuf (d : BitVec 3) (a : BitVec 3) (c : BitVec 3) (q : BitVec 3) (i : BitVec 1) (o : BitVec 1) (f : BitVec 4) (x : BitVec 5)
  /-- R122 CELL_VBCST: VBCST with its lane in x. -/
  | cellVbcst (d : BitVec 3) (a : BitVec 3) (c : BitVec 3) (q : BitVec 3) (i : BitVec 1) (o : BitVec 1) (f : BitVec 4) (x : BitVec 5)
  /-- R148 CELL_VHIST: VHIST with bins in c registers. -/
  | cellVhist (d : BitVec 3) (a : BitVec 3) (b : BitVec 3) (c : BitVec 3) (q : BitVec 3) (i : BitVec 1) (o : BitVec 1) (f : BitVec 4) (x : BitVec 5)
  /-- R149 CELL_VHMRG: VHMRG across c registers. -/
  | cellVhmrg (d : BitVec 3) (a : BitVec 3) (b : BitVec 3) (c : BitVec 3) (q : BitVec 3) (i : BitVec 1) (o : BitVec 1) (f : BitVec 4) (x : BitVec 5)
  /-- R191 CELL_VPACK: VPACK per token position. -/
  | cellVpack (d : BitVec 3) (a : BitVec 3) (b : BitVec 3) (c : BitVec 3) (q : BitVec 3) (i : BitVec 1) (o : BitVec 1) (f : BitVec 4) (x : BitVec 5)
  /-- R191 CELL_VUNPK: VUNPK per token position. -/
  | cellVunpk (d : BitVec 3) (a : BitVec 3) (b : BitVec 3) (c : BitVec 3) (q : BitVec 3) (i : BitVec 1) (o : BitVec 1) (f : BitVec 4) (x : BitVec 5)
  /-- R150 CELL_VBFP: Finds a block exponent from operands a, b and c. -/
  | cellVbfp (d : BitVec 3) (a : BitVec 3) (b : BitVec 3) (c : BitVec 3) (q : BitVec 3) (i : BitVec 1) (o : BitVec 1) (f : BitVec 4) (x : BitVec 5)
  /-- R191 CELL_VPLD: Decodes the plait slice in operand a into a BFP6 token. -/
  | cellVpld (d : BitVec 3) (a : BitVec 3) (q : BitVec 3) (i : BitVec 1) (o : BitVec 1) (f : BitVec 4) (x : BitVec 5)
  /-- R191 CELL_VMSK: VMSK per token position. -/
  | cellVmsk (d : BitVec 3) (a : BitVec 3) (b : BitVec 3) (c : BitVec 3) (q : BitVec 3) (i : BitVec 1) (o : BitVec 1) (f : BitVec 4) (x : BitVec 5)
  /-- R39 CELL_VIADD: Integer group function 0, VIADD. -/
  | cellViadd (d : BitVec 3) (a : BitVec 3) (b : BitVec 3) (c : BitVec 3) (q : BitVec 3) (f : BitVec 4)
  /-- R39 CELL_VISUB: Integer group function 1, VISUB. -/
  | cellVisub (d : BitVec 3) (a : BitVec 3) (b : BitVec 3) (c : BitVec 3) (q : BitVec 3) (f : BitVec 4)
  /-- R39 CELL_VIMUL: Integer group function 2, VIMUL. -/
  | cellVimul (d : BitVec 3) (a : BitVec 3) (b : BitVec 3) (c : BitVec 3) (q : BitVec 3) (f : BitVec 4)
  /-- R39 CELL_VAND: Integer group function 3, VAND. -/
  | cellVand (d : BitVec 3) (a : BitVec 3) (b : BitVec 3) (c : BitVec 3) (q : BitVec 3) (f : BitVec 4)
  /-- R39 CELL_VOR: Integer group function 4, VOR. -/
  | cellVor (d : BitVec 3) (a : BitVec 3) (b : BitVec 3) (c : BitVec 3) (q : BitVec 3) (f : BitVec 4)
  /-- R39 CELL_VXOR: Integer group function 5, VXOR. -/
  | cellVxor (d : BitVec 3) (a : BitVec 3) (b : BitVec 3) (c : BitVec 3) (q : BitVec 3) (f : BitVec 4)
  /-- R39 CELL_VSHL: Integer group function 6, VSHL. -/
  | cellVshl (d : BitVec 3) (a : BitVec 3) (b : BitVec 3) (c : BitVec 3) (q : BitVec 3) (f : BitVec 4)
  /-- R39 CELL_VSHR: Integer group function 7, VSHR. -/
  | cellVshr (d : BitVec 3) (a : BitVec 3) (b : BitVec 3) (c : BitVec 3) (q : BitVec 3) (f : BitVec 4)
  /-- R39 CELL_VSAR: Integer group function 8, VSAR. -/
  | cellVsar (d : BitVec 3) (a : BitVec 3) (b : BitVec 3) (c : BitVec 3) (q : BitVec 3) (f : BitVec 4)
  /-- R39 CELL_VIMIN: Integer group function 9, VIMIN. -/
  | cellVimin (d : BitVec 3) (a : BitVec 3) (b : BitVec 3) (c : BitVec 3) (q : BitVec 3) (f : BitVec 4)
  /-- R39 CELL_VIMAX: Integer group function 10, VIMAX. -/
  | cellVimax (d : BitVec 3) (a : BitVec 3) (b : BitVec 3) (c : BitVec 3) (q : BitVec 3) (f : BitVec 4)
  /-- R39 CELL_VCNT: Integer group function 11, VCNT. -/
  | cellVcnt (d : BitVec 3) (a : BitVec 3) (b : BitVec 3) (c : BitVec 3) (q : BitVec 3) (f : BitVec 4)
  /-- R39 CELL_VIMAC: Integer group function 12, VIMAC. -/
  | cellVimac (d : BitVec 3) (a : BitVec 3) (b : BitVec 3) (c : BitVec 3) (q : BitVec 3) (f : BitVec 4)
  deriving DecidableEq, Repr

end Sys2Proof
end

