-- ==== Sys2Proof/Machine/Legal.lean ====
section
/-! DEFINITION. The checks that decoding adds to the opcode maps: conversion pairs (R15, R129), operand limits of rim words
(R20, R23, R27, R30, R149, R150), limits of C-words (R16), and the fields, operand codes and formats of cell words
(R35 to R39, R190). -/

namespace Sys2Proof

/-- FP32, FP16, BF16, E4M3, E5M2, E2M1 (R13). -/
def isFpCode (f : BitVec 4) : Bool := decide (f.toNat ≤ 5)
/-- INT8, UINT8, INT16, INT32 (R13). -/
def isIntCode (f : BitVec 4) : Bool := decide (6 ≤ f.toNat) && decide (f.toNat ≤ 9)
/-- BFP2 to BFP6 and BFP8 (R13). -/
def isBfpCode (f : BitVec 4) : Bool := decide (10 ≤ f.toNat)

/-- The conversion instructions, whose pairs R129 lists. -/
inductive Conv where
  | vcvt | vrndi | vftoi | vitof | vpack | vunpk
  deriving DecidableEq, Repr

/-- R129: the pairs (to, from) that a conversion accepts. -/
def convPair (k : Conv) (t f : BitVec 4) : Bool :=
  match k with
  | .vcvt =>
    (isFpCode t && isFpCode f && t != f) || (isBfpCode t && decide (f.toNat ≤ 2)) ||
    (decide (t.toNat ≤ 2) && isBfpCode f) || (isBfpCode t && isBfpCode f && t != f) ||
    (isIntCode t && isIntCode f && t != f)
  | .vrndi => t == f && decide (t.toNat ≤ 4)
  | .vftoi => isIntCode t && isFpCode f
  | .vitof => isFpCode t && isIntCode f
  | .vpack =>
    (decide (1 ≤ t.toNat ∧ t.toNat ≤ 5) && (f == 0 || f == t)) ||
    (decide (6 ≤ t.toNat ∧ t.toNat ≤ 8) && (f == 9 || f == t)) || (isBfpCode t && f == t)
  | .vunpk =>
    (decide (1 ≤ f.toNat ∧ f.toNat ≤ 5) && (t == 0 || t == f)) ||
    (decide (6 ≤ f.toNat ∧ f.toNat ≤ 8) && (t == 9 || t == f)) || (isBfpCode f && t == f)

/-- R15, R20: a TC word has a defined pair and a rounding code other than 7. -/
def tcLegal (k : Conv) (t f : BitVec 4) (r : BitVec 3) : Bool := convPair k t f && r != 7

/-- A cell word taken apart by R35. `op` is the op field, or 64 plus the function for the integer group of R39 (whose x
field is spent on the function). -/
structure CellRow where
  op : Nat
  d : BitVec 3
  a : BitVec 3
  b : BitVec 3
  c : BitVec 3
  q : BitVec 3
  i : BitVec 1
  o : BitVec 1
  f : BitVec 4
  x : BitVec 5
  deriving DecidableEq, Repr

/-- The cell row of a cell instruction; none for every other instruction. -/
def Instr.cellRow : Instr → Option CellRow
  | .cellMacf q i o f x => some ⟨1, 5, 5, 6, 4, q, i, o, f, x⟩
  | .cellMacb q i o f x => some ⟨2, 5, 5, 6, 4, q, i, o, f, x⟩
  | .cellMacp q i o f x => some ⟨3, 5, 5, 6, 4, q, i, o, f, x⟩
  | .cellWload d a q i o x => some ⟨4, d, a, 0, 0, q, i, o, 0, x⟩
  | .cellWplt d a q i o x => some ⟨5, d, a, 0, 0, q, i, o, 0, x⟩
  | .cellPsum d a b q i o x => some ⟨6, d, a, b, 0, q, i, o, 0, x⟩
  | .cellPass d a q i o x => some ⟨7, d, a, 0, 0, q, i, o, 0, x⟩
  | .cellBubl d q i o x => some ⟨8, d, 0, 0, 0, q, i, o, 0, x⟩
  | .cellSelr d a b q i o x => some ⟨9, d, a, b, 0, q, i, o, 0, x⟩
  | .cellRsum d a b q i o f x => some ⟨10, d, a, b, 0, q, i, o, f, x⟩
  | .cellRmax d a b q i o f x => some ⟨11, d, a, b, 0, q, i, o, f, x⟩
  | .cellRmin d a b q i o f x => some ⟨12, d, a, b, 0, q, i, o, f, x⟩
  | .cellRfold d a b q i o f x => some ⟨13, d, a, b, 0, q, i, o, f, x⟩
  | .cellAgen q i o s => some ⟨14, 0, 0, 0, 0, q, i, o, 0, s⟩
  | .cellAreq q i o s => some ⟨15, 0, 0, 0, 0, q, i, o, 0, s⟩
  | .cellAstq a q i o s => some ⟨16, 0, a, 0, 0, q, i, o, 0, s⟩
  | .cellAred a q i o s => some ⟨17, 0, a, 0, 0, q, i, o, 0, s⟩
  | .cellAwin d q i o w => some ⟨18, d, 0, 0, 0, q, i, o, 0, w⟩
  | .cellFeedr q i o f e => some ⟨19, 0, 0, 0, 0, q, i, o, f, e⟩
  | .cellOutr q i o e => some ⟨20, 0, 0, 0, 0, q, i, o, 0, e⟩
  | .cellVadd d a b c q i o f x => some ⟨24, d, a, b, c, q, i, o, f, x⟩
  | .cellVsub d a b c q i o f x => some ⟨25, d, a, b, c, q, i, o, f, x⟩
  | .cellVmul d a b c q i o f x => some ⟨26, d, a, b, c, q, i, o, f, x⟩
  | .cellVfma d a b c q i o f x => some ⟨27, d, a, b, c, q, i, o, f, x⟩
  | .cellVfms d a b c q i o f x => some ⟨28, d, a, b, c, q, i, o, f, x⟩
  | .cellVfnma d a b c q i o f x => some ⟨29, d, a, b, c, q, i, o, f, x⟩
  | .cellVmax d a b c q i o f x => some ⟨30, d, a, b, c, q, i, o, f, x⟩
  | .cellVmin d a b c q i o f x => some ⟨31, d, a, b, c, q, i, o, f, x⟩
  | .cellVabs d a b c q i o f x => some ⟨32, d, a, b, c, q, i, o, f, x⟩
  | .cellVneg d a b c q i o f x => some ⟨33, d, a, b, c, q, i, o, f, x⟩
  | .cellVcps d a b c q i o f x => some ⟨34, d, a, b, c, q, i, o, f, x⟩
  | .cellVcmp d a b c q i o f n => some ⟨35, d, a, b, c, q, i, o, f, n.setWidth 5⟩
  | .cellVsel d a b c q i o f x => some ⟨36, d, a, b, c, q, i, o, f, x⟩
  | .cellVcls d a b c q i o f x => some ⟨37, d, a, b, c, q, i, o, f, x⟩
  | .cellVcvt d a b c q i o f x => some ⟨38, d, a, b, c, q, i, o, f, x⟩
  | .cellVrndi d a b c q i o f x => some ⟨39, d, a, b, c, q, i, o, f, x⟩
  | .cellVftoi d a b c q i o f x => some ⟨40, d, a, b, c, q, i, o, f, x⟩
  | .cellVitof d a b c q i o f x => some ⟨41, d, a, b, c, q, i, o, f, x⟩
  | .cellVexpf d a b c q i o f x => some ⟨42, d, a, b, c, q, i, o, f, x⟩
  | .cellVlogf d a b c q i o f x => some ⟨43, d, a, b, c, q, i, o, f, x⟩
  | .cellVscale d a b c q i o f x => some ⟨44, d, a, b, c, q, i, o, f, x⟩
  | .cellVgetx d a b c q i o f x => some ⟨45, d, a, b, c, q, i, o, f, x⟩
  | .cellVrcp d a b c q i o f x => some ⟨46, d, a, b, c, q, i, o, f, x⟩
  | .cellVrsq d a b c q i o f x => some ⟨47, d, a, b, c, q, i, o, f, x⟩
  | .cellVdot d a b c q i o f x => some ⟨48, d, a, b, c, q, i, o, f, x⟩
  | .cellVsumt d a b c q i o f x => some ⟨49, d, a, b, c, q, i, o, f, x⟩
  | .cellVmaxt d a b c q i o f x => some ⟨50, d, a, b, c, q, i, o, f, x⟩
  | .cellVscan d a b c q i o f x => some ⟨51, d, a, b, c, q, i, o, f, x⟩
  | .cellVperm d a b c q i o f x => some ⟨52, d, a, b, c, q, i, o, f, x⟩
  | .cellVshuf d a c q i o f x => some ⟨53, d, a, 0, c, q, i, o, f, x⟩
  | .cellVbcst d a c q i o f x => some ⟨54, d, a, 0, c, q, i, o, f, x⟩
  | .cellVhist d a b c q i o f x => some ⟨55, d, a, b, c, q, i, o, f, x⟩
  | .cellVhmrg d a b c q i o f x => some ⟨56, d, a, b, c, q, i, o, f, x⟩
  | .cellVpack d a b c q i o f x => some ⟨57, d, a, b, c, q, i, o, f, x⟩
  | .cellVunpk d a b c q i o f x => some ⟨58, d, a, b, c, q, i, o, f, x⟩
  | .cellVbfp d a b c q i o f x => some ⟨59, d, a, b, c, q, i, o, f, x⟩
  | .cellVpld d a q i o f x => some ⟨60, d, a, 0, 0, q, i, o, f, x⟩
  | .cellVmsk d a b c q i o f x => some ⟨61, d, a, b, c, q, i, o, f, x⟩
  | .cellViadd d a b c q f => some ⟨64, d, a, b, c, q, 0, 0, f, 0⟩
  | .cellVisub d a b c q f => some ⟨65, d, a, b, c, q, 0, 0, f, 0⟩
  | .cellVimul d a b c q f => some ⟨66, d, a, b, c, q, 0, 0, f, 0⟩
  | .cellVand d a b c q f => some ⟨67, d, a, b, c, q, 0, 0, f, 0⟩
  | .cellVor d a b c q f => some ⟨68, d, a, b, c, q, 0, 0, f, 0⟩
  | .cellVxor d a b c q f => some ⟨69, d, a, b, c, q, 0, 0, f, 0⟩
  | .cellVshl d a b c q f => some ⟨70, d, a, b, c, q, 0, 0, f, 0⟩
  | .cellVshr d a b c q f => some ⟨71, d, a, b, c, q, 0, 0, f, 0⟩
  | .cellVsar d a b c q f => some ⟨72, d, a, b, c, q, 0, 0, f, 0⟩
  | .cellVimin d a b c q f => some ⟨73, d, a, b, c, q, 0, 0, f, 0⟩
  | .cellVimax d a b c q f => some ⟨74, d, a, b, c, q, 0, 0, f, 0⟩
  | .cellVcnt d a b c q f => some ⟨75, d, a, b, c, q, 0, 0, f, 0⟩
  | .cellVimac d a b c q f => some ⟨76, d, a, b, c, q, 0, 0, f, 0⟩
  | .add _ _ _ _
  | .sub _ _ _ _
  | .and _ _ _ _
  | .or _ _ _ _
  | .xor _ _ _ _
  | .andn _ _ _ _
  | .sll _ _ _ _
  | .srl _ _ _ _
  | .sra _ _ _ _
  | .rol _ _ _ _
  | .mul _ _ _ _
  | .mulh _ _ _ _
  | .mulhu _ _ _ _
  | .div _ _ _ _
  | .divu _ _ _ _
  | .rem _ _ _ _
  | .remu _ _ _ _
  | .min _ _ _ _
  | .max _ _ _ _
  | .minu _ _ _ _
  | .maxu _ _ _ _
  | .clz _ _ _
  | .ctz _ _ _
  | .popc _ _ _
  | .bswap _ _ _
  | .sextB _ _ _
  | .sextH _ _ _
  | .sextW _ _ _
  | .zextB _ _ _
  | .zextH _ _ _
  | .zextW _ _ _
  | .bfx _ _ _ _
  | .bfi _ _ _ _
  | .lea1 _ _ _ _
  | .lea2 _ _ _ _
  | .lea4 _ _ _ _
  | .lea8 _ _ _ _
  | .sel _ _ _ _
  | .addi _ _ _ _
  | .andi _ _ _ _
  | .ori _ _ _ _
  | .xori _ _ _ _
  | .slli _ _ _ _
  | .srli _ _ _ _
  | .srai _ _ _ _
  | .muli _ _ _ _
  | .addpc _ _ _
  | .lil _ _
  | .lih _ _
  | .ldb _ _ _ _
  | .ldbu _ _ _ _
  | .ldh _ _ _ _
  | .ldhu _ _ _ _
  | .ldw _ _ _ _
  | .ldwu _ _ _ _
  | .ldd _ _ _ _
  | .stb _ _ _ _
  | .sth _ _ _ _
  | .stw _ _ _ _
  | .std _ _ _ _
  | .ldt _ _ _ _
  | .stt _ _ _ _
  | .amoAdd _ _ _ _ _ _
  | .amoAnd _ _ _ _ _ _
  | .amoOr _ _ _ _ _ _
  | .amoXor _ _ _ _ _ _
  | .amoMin _ _ _ _ _ _
  | .amoMax _ _ _ _ _ _
  | .amoMinu _ _ _ _ _ _
  | .amoMaxu _ _ _ _ _ _
  | .amoSwp _ _ _ _ _ _
  | .amoFadd _ _ _ _ _
  | .amoBfadd _ _ _ _ _
  | .amocas _ _ _ _ _ _
  | .redtAdd _ _ _ _
  | .redtFadd _ _ _ _
  | .redtBfadd _ _ _ _
  | .redtMin _ _ _ _
  | .redtMax _ _ _ _
  | .br _ _
  | .jmp _
  | .call _ _
  | .loopImm _ _ _
  | .loopReg _ _ _
  | .cmpi _ _ _ _
  | .cmp _ _ _ _ _
  | .plogAnd _ _ _ _
  | .plogOr _ _ _ _
  | .plogXor _ _ _ _
  | .plogNot _ _ _
  | .s2p _ _ _
  | .p2s _ _ _
  | .jr _ _ _
  | .lbrk _ _
  | .wait _ _
  | .halt _
  | .srd _ _
  | .swr _ _
  | .srs _ _ _
  | .src _ _ _
  | .trap _
  | .eret
  | .fence _ _ _
  | .wsync
  | .msg _ _ _
  | .nextp _
  | .vfma _ _ _ _ _ _ _ _
  | .vfms _ _ _ _ _ _ _ _
  | .vfnma _ _ _ _ _ _ _ _
  | .vsel _ _ _ _ _ _
  | .vimac _ _ _ _ _ _
  | .vadd _ _ _ _ _ _ _
  | .vsub _ _ _ _ _ _ _
  | .vmul _ _ _ _ _ _ _
  | .vmax _ _ _ _ _ _ _
  | .vmin _ _ _ _ _ _ _
  | .vabs _ _ _ _ _ _
  | .vneg _ _ _ _ _ _
  | .vcps _ _ _ _ _ _ _
  | .vcls _ _ _ _ _
  | .vdot _ _ _ _ _ _ _
  | .vexpf _ _ _ _ _ _
  | .vlogf _ _ _ _ _ _
  | .vscale _ _ _ _ _ _ _
  | .vgetx _ _ _ _ _ _
  | .vrcp _ _ _ _ _ _
  | .vrsq _ _ _ _ _ _
  | .vcmp _ _ _ _ _ _ _
  | .viadd _ _ _ _ _
  | .visub _ _ _ _ _
  | .vimul _ _ _ _ _
  | .vand _ _ _ _ _
  | .vor _ _ _ _ _
  | .vxor _ _ _ _ _
  | .vshl _ _ _ _ _
  | .vshr _ _ _ _ _
  | .vsar _ _ _ _ _
  | .vimin _ _ _ _ _
  | .vimax _ _ _ _ _
  | .vcnt _ _ _ _
  | .vsumt _ _ _ _ _ _
  | .vmaxt _ _ _ _ _ _
  | .vscan _ _ _ _ _ _
  | .vperm _ _ _ _ _
  | .vshuf _ _ _ _ _
  | .vbcst _ _ _ _ _
  | .vins _ _ _
  | .vext _ _ _
  | .vhist _ _ _ _
  | .vhmrg _ _ _ _ _
  | .vmsk _ _ _ _ _
  | .vcvt _ _ _ _ _ _ _ _ _
  | .vrndi _ _ _ _ _ _ _ _ _
  | .vftoi _ _ _ _ _ _ _ _ _
  | .vitof _ _ _ _ _ _ _ _ _
  | .vpack _ _ _ _ _ _ _ _ _
  | .vunpk _ _ _ _ _ _ _ _ _
  | .vbfp _ _ _ _ _
  | .vpld _ _ _ _ _
  | .ldts _ _ _ _ _
  | .stts _ _ _ _ _
  | .ldtg _ _ _ _ _
  | .sttg _ _ _ _ _
  | .cfg _ _ _ _
  | .cfgw _ _
  | .pusht _ _ _
  | .popt _ _ _
  | .drn _ _ _ _
  | .cpy _ _ _
  | .cpySlice _ _ _
  | .cpyw _ _
  | .ocl _ _ _
  | .orl _ _
  | .old _ _ _ _
  | .ost _ _ _ _
  | .hoopArrive _ _ _ _
  | .hoopArm _ _ _ _
  | .hoopQuery _ _ _ _
  | .pub _ _ _
  | .ple _ _ _
  | .mig _ _ _
  | .migSp _ _ _
  | .hsplit _ _ _ _
  | .ptew _ _ _ _
  | .ptecas _ _ _ _
  | .pinv _ _ _
  | .wardw _ _ _
  | .nopc
  | .tgt _ _ _
  | .ext _ _
  | .tgtr _ _ _ _ _
  | .fld _ _
  | .fldh _
  | .row _
  | .typeWord _ _ _ _ _
  | .img _ _
  | .commit _
  | .sealWord _
  | .clrt
  | .tcrWrite _
  | .tcrReseed _
  | .fstatClear _
  | .rndWrite _ _
  | .statusWrite _
  | .lcsWrite _
  | .lcWrite _ _
  | .thdrWrite _
  | .mailstClear _
  | .nxcurWrite _
  | .energyWrite _
  | .registerWrite _ _
  | .frWrite _ _ _ _
  | .bankcmdGo _ _
  | .bankrtClear _ _ _
  | .preempt _
  | .mgmtreq _
  | .msgArrive _ _
  | .loadReturn _
  | .waitRelease _
  | .fenceComplete _
  | .haltComplete _
  | .commandStart _ _
  | .cfgStreamRead _
  | .regionStart _
  | .regionRunOut _ _
  | .regionDrainPoint _ _
  | .regionSwitch _ _
  | .holdRaise _ _
  | .holdDrop _ _
  | .windowCheck _ _ _
  | .windowReplyArrive _
  | .feedDeliver _ _
  | .omReadDeviation _ _ _ _
  | .drainSample _ _
  | .gateBeatArrive _
  | .droopStretch _
  | .spineSourceLoss _ _
  | .spineAltLocked _
  | .spineFreqChange _ _
  | .referenceTick
  | .hubRequest
  | .noticeMapped _
  | .noticeAbort _
  | .creelReplay _
  | .creelOutcomeReport _
  | .keyFlip _
  | .hoopOpen _
  | .hoopAbandon _
  | .oclGrant _ _
  | .copyComplete _ _
  | .encodeComplete _
  | .migTryEnd _
  | .migSpSwitch _
  | .hsplitSliceDone _ _
  | .pinvDone _ _
  | .bankRetireMark _ _ _
  | .restripeDone _ _
  | .cacheDieEarlyStop _
  | .cacheDiePowerLoss _
  | .queueTailNotify _
  | .launchRecord _
  | .launchPriorityAge
  | .bindDispatch _ _
  | .graphPreempt _
  | .graphRestore _ _
  | .drainRequest _
  | .graphDrained _
  | .drainTimeout _
  | .graphComplete _
  | .thermalEmergency
  | .thermalClear
  | .mbxComputeReset _
  | .mbxIslandReset _
  | .mbxReadJournal _ _ _ _
  | .mbxAttestation _ _ _
  | .mbxLoadFirmware _ _ _
  | .mbxInstallQueue _ _ _
  | .mbxSetPowerBudget _ _
  | .computeWatchdog
  | .orphanTimeout
  | .islandWatchdog
  | .hingelinkHotReset
  | .islandFirmwareStart
  | .mainSupplyLoss
  | .powerUp
  | .hingelinkLinkDown
  | .flitReceive _ _ _
  | .packetHop _
  | .escapeTimeout _
  | .linkDown _
  | .remoteRequestTimeout _
  | .routeTableLoad _ _ _ _ _
  | .routeTableRetire _
  | .illegalRimWord _
  | .writeAcknowledgement _
  | .companionInvalidateAck _
  | .throttleByBudget
  | .cacheDieReturn _
  | .standbySupplyLoss
  | .slotEviction _ _ _
  | .poisonBitClear _ => none

/-- How x is read (R38). -/
inductive XUse where
  /-- an index into the weight store or the constants, zero unless an operand uses code 6 or 7 -/
  | index
  /-- the weight store entry written (WLOAD, WPLT), or the function of the integer group -/
  | any
  /-- a code below `n`; operand code 6 is then refused (R36) -/
  | code (n : Nat)
  deriving DecidableEq, Repr

/-- What R190 and R191 say of one cell operation. `types` has bit t set for region type t (0 SYS, 1 VEC, 2 AGN, 3 RED);
`d`, `a`, `b`, `c` list the operand codes accepted ([0] where the field must be zero); `useA`, `useB`, `useC` say which
operands the operation has; `fmts` lists the format codes accepted; `lat` is λ. -/
structure CellOpInfo where
  types : List Nat
  lat : Nat
  d : List Nat
  a : List Nat
  b : List Nat
  c : List Nat
  useA : Bool
  useB : Bool
  useC : Bool
  fmts : List Nat
  xUse : XUse
  fi : Bool
  fo : Bool
  guard : Bool
  deriving DecidableEq, Repr

/-- Operand codes 0 to 7. -/
def codesAny : List Nat := [0, 1, 2, 3, 4, 5, 6, 7]
/-- Operand codes named "src" in R190. -/
def codesSrc : List Nat := [0, 1, 2, 3, 4, 5, 7]
/-- Every format code. -/
def fmtsAny : List Nat := [0, 1, 2, 3, 4, 5, 6, 7, 8, 9, 10, 11, 12, 13, 14, 15]

/-- R15: the destination formats of a conversion. -/
def convDests (k : Conv) : List Nat :=
  fmtsAny.filter fun t => fmtsAny.any fun f => convPair k (BitVec.ofNat 4 t) (BitVec.ofNat 4 f)

/-- A multiply-accumulate operation (R190). -/
def cellMac (fmts : List Nat) : CellOpInfo :=
  ⟨[0], 1, [5], [5], [6], [4], true, true, true, fmts, .index, true, true, true⟩
/-- WLOAD and WPLT (R190, R195). -/
def cellWeight : CellOpInfo :=
  ⟨[0, 1, 3], 1, [4, 5, 7], [4, 5], [0], [0], true, false, false, [0], .any, false, false, true⟩
/-- RSUM, RMAX, RMIN and RFOLD (R190, R197). -/
def cellRed : CellOpInfo :=
  ⟨[3], 2, codesAny, codesSrc, codesSrc, [0], true, true, false, [0, 1, 2, 9], .index, true, true, true⟩
/-- AGEN, AREQ, ASTQ, ARED, FEEDR and OUTR write no element, so their guard is an unused field (R12). -/
def cellNoResult (types : List Nat) (lat : Nat) (a : List Nat) (useA : Bool) (fmts : List Nat) : CellOpInfo :=
  ⟨types, lat, [0], a, [0], [0], useA, false, false, fmts, .code 32, false, false, false⟩
/-- A token operation of one, two or three operands (R190, R191). -/
def cellTok (lat n : Nat) (fi fo : Bool) : CellOpInfo :=
  ⟨[1], lat, codesAny, codesAny, if 2 ≤ n then codesAny else [0], if 3 ≤ n then codesAny else [0],
    true, decide (2 ≤ n), decide (3 ≤ n), fmtsAny, .index, fi, fo, true⟩
/-- A conversion row (R191). -/
def cellConv (k : Conv) : CellOpInfo := { cellTok 4 1 true true with fmts := convDests k }
/-- The integer group, whose x field holds the function (R39). -/
def cellInt (n : Nat) : CellOpInfo := { cellTok 2 n false false with xUse := .code 32 }

/-- R38, R39, R190, R191: the operations, by op field (64 + function for the integer group). -/
def cellOpInfo : Nat → Option CellOpInfo
  | 0x01 => some (cellMac [0, 1, 2, 3, 4])
  | 0x02 => some (cellMac [10, 12, 15])
  | 0x03 => some (cellMac [10, 12, 15])
  | 0x04 => some cellWeight
  | 0x05 => some cellWeight
  | 0x06 => some ⟨[0, 1, 3], 1, codesAny, codesSrc, codesSrc, [0], true, true, false, [0], .index, true, true, true⟩
  | 0x07 => some ⟨[0, 1, 2, 3], 1, codesAny, codesAny, [0], [0], true, false, false, [0], .index, false, false, true⟩
  | 0x08 => some ⟨[0, 1, 2, 3], 1, codesAny, [0], [0], [0], false, false, false, [0], .index, false, false, true⟩
  | 0x09 => some ⟨[0, 1, 3], 1, codesAny, codesSrc, codesSrc, [0], true, true, false, [0], .index, false, false, true⟩
  | 0x0A => some cellRed
  | 0x0B => some cellRed
  | 0x0C => some cellRed
  | 0x0D => some cellRed
  | 0x0E => some (cellNoResult [2] 1 [0] false [0])
  | 0x0F => some (cellNoResult [2] 1 [0] false [0])
  | 0x10 => some (cellNoResult [2] 1 [0, 1, 2, 3, 4, 5] true [0])
  | 0x11 => some (cellNoResult [2] 1 [0, 1, 2, 3, 4, 5] true [0])
  | 0x12 => some ⟨[0, 1, 3], 1, codesAny, [0], [0], [0], false, false, false, [0], .code 32, false, false, true⟩
  | 0x13 => some (cellNoResult [0, 1, 3] 12 [0] false fmtsAny)
  | 0x14 => some (cellNoResult [0, 1, 3] 2 [0] false [0])
  | 0x18 => some (cellTok 4 2 true true)
  | 0x19 => some (cellTok 4 2 true true)
  | 0x1A => some (cellTok 4 2 true true)
  | 0x1B => some (cellTok 4 3 true true)
  | 0x1C => some (cellTok 4 3 true true)
  | 0x1D => some (cellTok 4 3 true true)
  | 0x1E => some (cellTok 2 2 true true)
  | 0x1F => some (cellTok 2 2 true true)
  | 0x20 => some (cellTok 2 1 true true)
  | 0x21 => some (cellTok 2 1 true true)
  | 0x22 => some (cellTok 2 2 true true)
  | 0x23 => some { cellTok 2 2 true false with xUse := .code 8 }
  | 0x24 => some (cellTok 2 3 false false)
  | 0x25 => some (cellTok 2 1 true false)
  | 0x26 => some (cellConv .vcvt)
  | 0x27 => some (cellConv .vrndi)
  | 0x28 => some (cellConv .vftoi)
  | 0x29 => some (cellConv .vitof)
  | 0x2A => some (cellTok 8 1 true true)
  | 0x2B => some (cellTok 8 1 true true)
  | 0x2C => some (cellTok 4 2 true true)
  | 0x2D => some (cellTok 8 1 true true)
  | 0x2E => some (cellTok 8 1 true true)
  | 0x2F => some (cellTok 8 1 true true)
  | 0x30 => some (cellTok 6 2 true true)
  | 0x31 => some (cellTok 6 1 true true)
  | 0x32 => some (cellTok 6 1 true true)
  | 0x33 => some (cellTok 8 1 true true)
  | 0x34 => some (cellTok 2 2 false false)
  | 0x35 => some { cellTok 2 1 false false with xUse := .code 32 }
  | 0x36 => some { cellTok 2 1 false false with xUse := .code 16 }
  | 0x37 => some { cellTok 2 2 false false with d := [0, 1, 2, 3] }
  | 0x38 => some { cellTok 6 2 false false with a := [0, 1, 2, 3], b := [0, 1, 2, 3] }
  | 0x39 => some (cellConv .vpack)
  | 0x3A => some (cellConv .vunpk)
  | 0x3B => some (cellTok 4 3 true false)
  | 0x3C => some (cellTok 8 1 false false)
  | 0x3D => some (cellTok 2 2 false false)
  | 64 | 65 | 66 | 67 | 68 | 69 | 70 | 71 | 72 | 73 | 74 => some (cellInt 2)
  | 75 => some (cellInt 1)
  | 76 => some (cellInt 3)
  | _ => none

/-- R12, R35 to R39, R190: the fields of a cell word that do not depend on the region's type. -/
def cellRowLegal (r : CellRow) : Bool :=
  match cellOpInfo r.op with
  | none => false
  | some p =>
    let uses : List Nat :=
      (if p.useA then [r.a.toNat] else []) ++ (if p.useB then [r.b.toNat] else []) ++
      (if p.useC then [r.c.toNat] else [])
    p.d.contains r.d.toNat && p.a.contains r.a.toNat && p.b.contains r.b.toNat && p.c.contains r.c.toNat &&
    r.q != 7 && (p.guard || r.q == 0) && (p.fi || r.i == 0) && (p.fo || r.o == 0) &&
    p.fmts.contains r.f.toNat &&
    (match p.xUse with
     | .index => r.x == 0 || uses.any fun u => u == 6 || u == 7
     | .any => true
     | .code n => decide (r.x.toNat < n) && !uses.contains 6) &&
    (r.op != 0x38 || decide (r.a.toNat ≤ r.b.toNat))

/-- R12, R15, R16, R20, R23, R27, R29, R30, R149, R150: the checks beyond the fixed bits of the opcode maps. The limit of TGTR is
held against the coordinates that the word gives, REL or not (assumption 59). -/
def legalOperands : Instr → Bool
  | .br g _ => g != 0
  | .loopImm l c _ => l != 3 && c != 0
  | .loopReg l _ _ => l != 3
  | .cmp _ _ _ _ c | .cmpi _ _ c _ => decide (c.toNat < 12)
  | .lbrk l _ => decide (l.toNat ≤ 2)
  | .redtAdd _ _ _ o | .redtFadd _ _ _ o | .redtBfadd _ _ _ o | .redtMin _ _ _ o | .redtMax _ _ _ o => o == 0 || o == 2
  | .vcvt _ _ t f r _ _ _ _ => tcLegal .vcvt t f r
  | .vrndi _ _ t f r _ _ _ _ => tcLegal .vrndi t f r
  | .vftoi _ _ t f r _ _ _ _ => tcLegal .vftoi t f r
  | .vitof _ _ t f r _ _ _ _ => tcLegal .vitof t f r
  | .vpack _ _ t f r _ _ _ _ => tcLegal .vpack t f r
  | .vunpk d a t f r _ _ _ k => tcLegal .vunpk t f r && !(d == a && k == 1)
  | .vhmrg _ a b _ _ => decide (a.toNat ≤ b.toNat ∧ b.toNat ≤ a.toNat + 15)
  | .vbfp d a b _ _ => d != a && d != b && a != b
  | .fence _ _ s => decide (s.toNat ≤ 5)
  | .tgt r c _ => decide (r.toNat ≤ 767 ∧ c.toNat ≤ 703)
  | .tgtr r c h w _ => decide (r.toNat + h.toNat + 1 ≤ 48 ∧ c.toNat + w.toNat + 1 ≤ 44)
  | .img c s => decide (1 ≤ c.toNat ∧ s.toNat + c.toNat ≤ 1024)
  | .cellMacf _ _ _ _ _
  | .cellMacb _ _ _ _ _
  | .cellMacp _ _ _ _ _
  | .cellWload _ _ _ _ _ _
  | .cellWplt _ _ _ _ _ _
  | .cellPsum _ _ _ _ _ _ _
  | .cellPass _ _ _ _ _ _
  | .cellBubl _ _ _ _ _
  | .cellSelr _ _ _ _ _ _ _
  | .cellRsum _ _ _ _ _ _ _ _
  | .cellRmax _ _ _ _ _ _ _ _
  | .cellRmin _ _ _ _ _ _ _ _
  | .cellRfold _ _ _ _ _ _ _ _
  | .cellAgen _ _ _ _
  | .cellAreq _ _ _ _
  | .cellAstq _ _ _ _ _
  | .cellAred _ _ _ _ _
  | .cellAwin _ _ _ _ _
  | .cellFeedr _ _ _ _ _
  | .cellOutr _ _ _ _
  | .cellVadd _ _ _ _ _ _ _ _ _
  | .cellVsub _ _ _ _ _ _ _ _ _
  | .cellVmul _ _ _ _ _ _ _ _ _
  | .cellVfma _ _ _ _ _ _ _ _ _
  | .cellVfms _ _ _ _ _ _ _ _ _
  | .cellVfnma _ _ _ _ _ _ _ _ _
  | .cellVmax _ _ _ _ _ _ _ _ _
  | .cellVmin _ _ _ _ _ _ _ _ _
  | .cellVabs _ _ _ _ _ _ _ _ _
  | .cellVneg _ _ _ _ _ _ _ _ _
  | .cellVcps _ _ _ _ _ _ _ _ _
  | .cellVcmp _ _ _ _ _ _ _ _ _
  | .cellVsel _ _ _ _ _ _ _ _ _
  | .cellVcls _ _ _ _ _ _ _ _ _
  | .cellVcvt _ _ _ _ _ _ _ _ _
  | .cellVrndi _ _ _ _ _ _ _ _ _
  | .cellVftoi _ _ _ _ _ _ _ _ _
  | .cellVitof _ _ _ _ _ _ _ _ _
  | .cellVexpf _ _ _ _ _ _ _ _ _
  | .cellVlogf _ _ _ _ _ _ _ _ _
  | .cellVscale _ _ _ _ _ _ _ _ _
  | .cellVgetx _ _ _ _ _ _ _ _ _
  | .cellVrcp _ _ _ _ _ _ _ _ _
  | .cellVrsq _ _ _ _ _ _ _ _ _
  | .cellVdot _ _ _ _ _ _ _ _ _
  | .cellVsumt _ _ _ _ _ _ _ _ _
  | .cellVmaxt _ _ _ _ _ _ _ _ _
  | .cellVscan _ _ _ _ _ _ _ _ _
  | .cellVperm _ _ _ _ _ _ _ _ _
  | .cellVshuf _ _ _ _ _ _ _ _
  | .cellVbcst _ _ _ _ _ _ _ _
  | .cellVhist _ _ _ _ _ _ _ _ _
  | .cellVhmrg _ _ _ _ _ _ _ _ _
  | .cellVpack _ _ _ _ _ _ _ _ _
  | .cellVunpk _ _ _ _ _ _ _ _ _
  | .cellVbfp _ _ _ _ _ _ _ _ _
  | .cellVpld _ _ _ _ _ _ _
  | .cellVmsk _ _ _ _ _ _ _ _ _
  | .cellViadd _ _ _ _ _ _
  | .cellVisub _ _ _ _ _ _
  | .cellVimul _ _ _ _ _ _
  | .cellVand _ _ _ _ _ _
  | .cellVor _ _ _ _ _ _
  | .cellVxor _ _ _ _ _ _
  | .cellVshl _ _ _ _ _ _
  | .cellVshr _ _ _ _ _ _
  | .cellVsar _ _ _ _ _ _
  | .cellVimin _ _ _ _ _ _
  | .cellVimax _ _ _ _ _ _
  | .cellVcnt _ _ _ _ _ _
  | .cellVimac _ _ _ _ _ _ => true
  | .add _ _ _ _
  | .sub _ _ _ _
  | .and _ _ _ _
  | .or _ _ _ _
  | .xor _ _ _ _
  | .andn _ _ _ _
  | .sll _ _ _ _
  | .srl _ _ _ _
  | .sra _ _ _ _
  | .rol _ _ _ _
  | .mul _ _ _ _
  | .mulh _ _ _ _
  | .mulhu _ _ _ _
  | .div _ _ _ _
  | .divu _ _ _ _
  | .rem _ _ _ _
  | .remu _ _ _ _
  | .min _ _ _ _
  | .max _ _ _ _
  | .minu _ _ _ _
  | .maxu _ _ _ _
  | .clz _ _ _
  | .ctz _ _ _
  | .popc _ _ _
  | .bswap _ _ _
  | .sextB _ _ _
  | .sextH _ _ _
  | .sextW _ _ _
  | .zextB _ _ _
  | .zextH _ _ _
  | .zextW _ _ _
  | .bfx _ _ _ _
  | .bfi _ _ _ _
  | .lea1 _ _ _ _
  | .lea2 _ _ _ _
  | .lea4 _ _ _ _
  | .lea8 _ _ _ _
  | .sel _ _ _ _
  | .addi _ _ _ _
  | .andi _ _ _ _
  | .ori _ _ _ _
  | .xori _ _ _ _
  | .slli _ _ _ _
  | .srli _ _ _ _
  | .srai _ _ _ _
  | .muli _ _ _ _
  | .addpc _ _ _
  | .lil _ _
  | .lih _ _
  | .ldb _ _ _ _
  | .ldbu _ _ _ _
  | .ldh _ _ _ _
  | .ldhu _ _ _ _
  | .ldw _ _ _ _
  | .ldwu _ _ _ _
  | .ldd _ _ _ _
  | .stb _ _ _ _
  | .sth _ _ _ _
  | .stw _ _ _ _
  | .std _ _ _ _
  | .ldt _ _ _ _
  | .stt _ _ _ _
  | .amoAdd _ _ _ _ _ _
  | .amoAnd _ _ _ _ _ _
  | .amoOr _ _ _ _ _ _
  | .amoXor _ _ _ _ _ _
  | .amoMin _ _ _ _ _ _
  | .amoMax _ _ _ _ _ _
  | .amoMinu _ _ _ _ _ _
  | .amoMaxu _ _ _ _ _ _
  | .amoSwp _ _ _ _ _ _
  | .amoFadd _ _ _ _ _
  | .amoBfadd _ _ _ _ _
  | .amocas _ _ _ _ _ _
  | .jmp _
  | .call _ _
  | .plogAnd _ _ _ _
  | .plogOr _ _ _ _
  | .plogXor _ _ _ _
  | .plogNot _ _ _
  | .s2p _ _ _
  | .p2s _ _ _
  | .jr _ _ _
  | .wait _ _
  | .halt _
  | .srd _ _
  | .swr _ _
  | .srs _ _ _
  | .src _ _ _
  | .trap _
  | .eret
  | .wsync
  | .msg _ _ _
  | .nextp _
  | .vfma _ _ _ _ _ _ _ _
  | .vfms _ _ _ _ _ _ _ _
  | .vfnma _ _ _ _ _ _ _ _
  | .vsel _ _ _ _ _ _
  | .vimac _ _ _ _ _ _
  | .vadd _ _ _ _ _ _ _
  | .vsub _ _ _ _ _ _ _
  | .vmul _ _ _ _ _ _ _
  | .vmax _ _ _ _ _ _ _
  | .vmin _ _ _ _ _ _ _
  | .vabs _ _ _ _ _ _
  | .vneg _ _ _ _ _ _
  | .vcps _ _ _ _ _ _ _
  | .vcls _ _ _ _ _
  | .vdot _ _ _ _ _ _ _
  | .vexpf _ _ _ _ _ _
  | .vlogf _ _ _ _ _ _
  | .vscale _ _ _ _ _ _ _
  | .vgetx _ _ _ _ _ _
  | .vrcp _ _ _ _ _ _
  | .vrsq _ _ _ _ _ _
  | .vcmp _ _ _ _ _ _ _
  | .viadd _ _ _ _ _
  | .visub _ _ _ _ _
  | .vimul _ _ _ _ _
  | .vand _ _ _ _ _
  | .vor _ _ _ _ _
  | .vxor _ _ _ _ _
  | .vshl _ _ _ _ _
  | .vshr _ _ _ _ _
  | .vsar _ _ _ _ _
  | .vimin _ _ _ _ _
  | .vimax _ _ _ _ _
  | .vcnt _ _ _ _
  | .vsumt _ _ _ _ _ _
  | .vmaxt _ _ _ _ _ _
  | .vscan _ _ _ _ _ _
  | .vperm _ _ _ _ _
  | .vshuf _ _ _ _ _
  | .vbcst _ _ _ _ _
  | .vins _ _ _
  | .vext _ _ _
  | .vhist _ _ _ _
  | .vmsk _ _ _ _ _
  | .vpld _ _ _ _ _
  | .ldts _ _ _ _ _
  | .stts _ _ _ _ _
  | .ldtg _ _ _ _ _
  | .sttg _ _ _ _ _
  | .cfg _ _ _ _
  | .cfgw _ _
  | .pusht _ _ _
  | .popt _ _ _
  | .drn _ _ _ _
  | .cpy _ _ _
  | .cpySlice _ _ _
  | .cpyw _ _
  | .ocl _ _ _
  | .orl _ _
  | .old _ _ _ _
  | .ost _ _ _ _
  | .hoopArrive _ _ _ _
  | .hoopArm _ _ _ _
  | .hoopQuery _ _ _ _
  | .pub _ _ _
  | .ple _ _ _
  | .mig _ _ _
  | .migSp _ _ _
  | .hsplit _ _ _ _
  | .ptew _ _ _ _
  | .ptecas _ _ _ _
  | .pinv _ _ _
  | .wardw _ _ _
  | .nopc
  | .ext _ _
  | .fld _ _
  | .fldh _
  | .row _
  | .typeWord _ _ _ _ _
  | .commit _
  | .sealWord _
  | .clrt
  | .tcrWrite _
  | .tcrReseed _
  | .fstatClear _
  | .rndWrite _ _
  | .statusWrite _
  | .lcsWrite _
  | .lcWrite _ _
  | .thdrWrite _
  | .mailstClear _
  | .nxcurWrite _
  | .energyWrite _
  | .registerWrite _ _
  | .frWrite _ _ _ _
  | .bankcmdGo _ _
  | .bankrtClear _ _ _
  | .preempt _
  | .mgmtreq _
  | .msgArrive _ _
  | .loadReturn _
  | .waitRelease _
  | .fenceComplete _
  | .haltComplete _
  | .commandStart _ _
  | .cfgStreamRead _
  | .regionStart _
  | .regionRunOut _ _
  | .regionDrainPoint _ _
  | .regionSwitch _ _
  | .holdRaise _ _
  | .holdDrop _ _
  | .windowCheck _ _ _
  | .windowReplyArrive _
  | .feedDeliver _ _
  | .omReadDeviation _ _ _ _
  | .drainSample _ _
  | .gateBeatArrive _
  | .droopStretch _
  | .spineSourceLoss _ _
  | .spineAltLocked _
  | .spineFreqChange _ _
  | .referenceTick
  | .hubRequest
  | .noticeMapped _
  | .noticeAbort _
  | .creelReplay _
  | .creelOutcomeReport _
  | .keyFlip _
  | .hoopOpen _
  | .hoopAbandon _
  | .oclGrant _ _
  | .copyComplete _ _
  | .encodeComplete _
  | .migTryEnd _
  | .migSpSwitch _
  | .hsplitSliceDone _ _
  | .pinvDone _ _
  | .bankRetireMark _ _ _
  | .restripeDone _ _
  | .cacheDieEarlyStop _
  | .cacheDiePowerLoss _
  | .queueTailNotify _
  | .launchRecord _
  | .launchPriorityAge
  | .bindDispatch _ _
  | .graphPreempt _
  | .graphRestore _ _
  | .drainRequest _
  | .graphDrained _
  | .drainTimeout _
  | .graphComplete _
  | .thermalEmergency
  | .thermalClear
  | .mbxComputeReset _
  | .mbxIslandReset _
  | .mbxReadJournal _ _ _ _
  | .mbxAttestation _ _ _
  | .mbxLoadFirmware _ _ _
  | .mbxInstallQueue _ _ _
  | .mbxSetPowerBudget _ _
  | .computeWatchdog
  | .orphanTimeout
  | .islandWatchdog
  | .hingelinkHotReset
  | .islandFirmwareStart
  | .mainSupplyLoss
  | .powerUp
  | .hingelinkLinkDown
  | .flitReceive _ _ _
  | .packetHop _
  | .escapeTimeout _
  | .linkDown _
  | .remoteRequestTimeout _
  | .routeTableLoad _ _ _ _ _
  | .routeTableRetire _
  | .illegalRimWord _
  | .writeAcknowledgement _
  | .companionInvalidateAck _
  | .throttleByBudget
  | .cacheDieReturn _
  | .standbySupplyLoss
  | .slotEviction _ _ _
  | .poisonBitClear _ => true

end Sys2Proof
end

