-- ==== Sys2Proof/WellFormed.lean ====
section
/-! DEFINITION. Which instructions the spec admits: a word that R12, R15 and R20 to R40 make illegal is no well-formed
instruction. A cell word's own fields are checked here; what depends on the region is checked at COMMIT (R190, R204). -/

namespace Sys2Proof

/-- The well-formed instructions. An event is always well-formed. -/
def Instr.wellFormed (i : Instr) : Bool :=
  legalOperands i && (match i.cellRow with
    | some r => cellRowLegal r
    | none => true)

end Sys2Proof
end

