-- ==== Sys2Proof/Decode.lean ====
section
/-! DEFINITION. Decoding by the place a word is read from (R10): rim words (R20 to R34), C-words (R16) and cell words (R35 to
R40), each total on every 32-bit word and rejecting by name; then the encoder, from the same tables. A function that builds
one of the constructors past Lean's limit of 245 for compiled code is noncomputable; `Machine/Direct.lean` gives the machine
an equal compiled form. -/

namespace Sys2Proof

/-- The rows of opcode 0x01 (R25 to R32). -/
def decodeOp01 (w : Word) : Option Instr :=
  match (fld w 0 7).toNat with
  | 0 => some (.add (fld w 21 5) (fld w 16 5) (fld w 11 5) (fld w 7 4))
  | 1 => some (.sub (fld w 21 5) (fld w 16 5) (fld w 11 5) (fld w 7 4))
  | 2 => some (.and (fld w 21 5) (fld w 16 5) (fld w 11 5) (fld w 7 4))
  | 3 => some (.or (fld w 21 5) (fld w 16 5) (fld w 11 5) (fld w 7 4))
  | 4 => some (.xor (fld w 21 5) (fld w 16 5) (fld w 11 5) (fld w 7 4))
  | 5 => some (.andn (fld w 21 5) (fld w 16 5) (fld w 11 5) (fld w 7 4))
  | 6 => some (.sll (fld w 21 5) (fld w 16 5) (fld w 11 5) (fld w 7 4))
  | 7 => some (.srl (fld w 21 5) (fld w 16 5) (fld w 11 5) (fld w 7 4))
  | 8 => some (.sra (fld w 21 5) (fld w 16 5) (fld w 11 5) (fld w 7 4))
  | 9 => some (.rol (fld w 21 5) (fld w 16 5) (fld w 11 5) (fld w 7 4))
  | 10 => some (.mul (fld w 21 5) (fld w 16 5) (fld w 11 5) (fld w 7 4))
  | 11 => some (.mulh (fld w 21 5) (fld w 16 5) (fld w 11 5) (fld w 7 4))
  | 12 => some (.mulhu (fld w 21 5) (fld w 16 5) (fld w 11 5) (fld w 7 4))
  | 13 => some (.div (fld w 21 5) (fld w 16 5) (fld w 11 5) (fld w 7 4))
  | 14 => some (.divu (fld w 21 5) (fld w 16 5) (fld w 11 5) (fld w 7 4))
  | 15 => some (.rem (fld w 21 5) (fld w 16 5) (fld w 11 5) (fld w 7 4))
  | 16 => some (.remu (fld w 21 5) (fld w 16 5) (fld w 11 5) (fld w 7 4))
  | 17 => some (.min (fld w 21 5) (fld w 16 5) (fld w 11 5) (fld w 7 4))
  | 18 => some (.max (fld w 21 5) (fld w 16 5) (fld w 11 5) (fld w 7 4))
  | 19 => some (.minu (fld w 21 5) (fld w 16 5) (fld w 11 5) (fld w 7 4))
  | 20 => some (.maxu (fld w 21 5) (fld w 16 5) (fld w 11 5) (fld w 7 4))
  | 21 => if fld w 11 5 = 0 then some (.clz (fld w 21 5) (fld w 16 5) (fld w 7 4)) else none
  | 22 => if fld w 11 5 = 0 then some (.ctz (fld w 21 5) (fld w 16 5) (fld w 7 4)) else none
  | 23 => if fld w 11 5 = 0 then some (.popc (fld w 21 5) (fld w 16 5) (fld w 7 4)) else none
  | 24 => if fld w 11 5 = 0 then some (.bswap (fld w 21 5) (fld w 16 5) (fld w 7 4)) else none
  | 25 => if fld w 11 5 = 0 then some (.sextB (fld w 21 5) (fld w 16 5) (fld w 7 4)) else none
  | 26 => if fld w 11 5 = 0 then some (.sextH (fld w 21 5) (fld w 16 5) (fld w 7 4)) else none
  | 27 => if fld w 11 5 = 0 then some (.sextW (fld w 21 5) (fld w 16 5) (fld w 7 4)) else none
  | 28 => if fld w 11 5 = 0 then some (.zextB (fld w 21 5) (fld w 16 5) (fld w 7 4)) else none
  | 29 => if fld w 11 5 = 0 then some (.zextH (fld w 21 5) (fld w 16 5) (fld w 7 4)) else none
  | 30 => if fld w 11 5 = 0 then some (.zextW (fld w 21 5) (fld w 16 5) (fld w 7 4)) else none
  | 31 => some (.bfx (fld w 21 5) (fld w 16 5) (fld w 11 5) (fld w 7 4))
  | 32 => some (.bfi (fld w 21 5) (fld w 16 5) (fld w 11 5) (fld w 7 4))
  | 33 => some (.lea1 (fld w 21 5) (fld w 16 5) (fld w 11 5) (fld w 7 4))
  | 34 => some (.lea2 (fld w 21 5) (fld w 16 5) (fld w 11 5) (fld w 7 4))
  | 35 => some (.lea4 (fld w 21 5) (fld w 16 5) (fld w 11 5) (fld w 7 4))
  | 36 => some (.lea8 (fld w 21 5) (fld w 16 5) (fld w 11 5) (fld w 7 4))
  | 37 => some (.sel (fld w 21 5) (fld w 16 5) (fld w 11 5) (fld w 7 4))
  | _ => none

/-- The rows of opcode 0x15 (R25 to R32). -/
def decodeOp15 (w : Word) : Option Instr :=
  match (fld w 10 2).toNat with
  | 0 => some (.stb (fld w 21 5) (fld w 16 5) (fld w 12 4) (fld w 0 10))
  | 1 => some (.sth (fld w 21 5) (fld w 16 5) (fld w 12 4) (fld w 0 10))
  | 2 => some (.stw (fld w 21 5) (fld w 16 5) (fld w 12 4) (fld w 0 10))
  | 3 => some (.std (fld w 21 5) (fld w 16 5) (fld w 12 4) (fld w 0 10))
  | _ => none

/-- The rows of opcode 0x18 (R25 to R32). -/
def decodeOp18 (w : Word) : Option Instr :=
  match (fld w 0 4).toNat with
  | 0 => some (.amoAdd (fld w 21 5) (fld w 16 5) (fld w 11 5) (fld w 7 4) (fld w 5 2) (fld w 4 1))
  | 1 => some (.amoAnd (fld w 21 5) (fld w 16 5) (fld w 11 5) (fld w 7 4) (fld w 5 2) (fld w 4 1))
  | 2 => some (.amoOr (fld w 21 5) (fld w 16 5) (fld w 11 5) (fld w 7 4) (fld w 5 2) (fld w 4 1))
  | 3 => some (.amoXor (fld w 21 5) (fld w 16 5) (fld w 11 5) (fld w 7 4) (fld w 5 2) (fld w 4 1))
  | 4 => some (.amoMin (fld w 21 5) (fld w 16 5) (fld w 11 5) (fld w 7 4) (fld w 5 2) (fld w 4 1))
  | 5 => some (.amoMax (fld w 21 5) (fld w 16 5) (fld w 11 5) (fld w 7 4) (fld w 5 2) (fld w 4 1))
  | 6 => some (.amoMinu (fld w 21 5) (fld w 16 5) (fld w 11 5) (fld w 7 4) (fld w 5 2) (fld w 4 1))
  | 7 => some (.amoMaxu (fld w 21 5) (fld w 16 5) (fld w 11 5) (fld w 7 4) (fld w 5 2) (fld w 4 1))
  | 8 => some (.amoSwp (fld w 21 5) (fld w 16 5) (fld w 11 5) (fld w 7 4) (fld w 5 2) (fld w 4 1))
  | 9 => if fld w 4 1 = 0 then some (.amoFadd (fld w 21 5) (fld w 16 5) (fld w 11 5) (fld w 7 4) (fld w 5 2)) else none
  | 10 => if fld w 4 1 = 0 then some (.amoBfadd (fld w 21 5) (fld w 16 5) (fld w 11 5) (fld w 7 4) (fld w 5 2)) else none
  | _ => none

/-- The rows of opcode 0x19 (R25 to R32). -/
def decodeOp19 (w : Word) : Option Instr :=
  match (fld w 0 4).toNat with
  | 0 => some (.amocas (fld w 21 5) (fld w 16 5) (fld w 11 5) (fld w 7 4) (fld w 5 2) (fld w 4 1))
  | 8 => if fld w 21 5 = 0 ∧ fld w 4 1 = 0 then some (.redtAdd (fld w 16 5) (fld w 11 5) (fld w 7 4) (fld w 5 2)) else none
  | 9 => if fld w 21 5 = 0 ∧ fld w 4 1 = 0 then some (.redtFadd (fld w 16 5) (fld w 11 5) (fld w 7 4) (fld w 5 2)) else none
  | 10 => if fld w 21 5 = 0 ∧ fld w 4 1 = 0 then some (.redtBfadd (fld w 16 5) (fld w 11 5) (fld w 7 4) (fld w 5 2)) else none
  | 11 => if fld w 21 5 = 0 ∧ fld w 4 1 = 0 then some (.redtMin (fld w 16 5) (fld w 11 5) (fld w 7 4) (fld w 5 2)) else none
  | 12 => if fld w 21 5 = 0 ∧ fld w 4 1 = 0 then some (.redtMax (fld w 16 5) (fld w 11 5) (fld w 7 4) (fld w 5 2)) else none
  | _ => none

/-- R25, R34: opcode 0x1A is BR, and JMP when its guard field is zero. -/
def decodeBranch (w : Word) : Option Instr :=
  if fld w 22 4 = 0 then some (.jmp (fld w 0 22)) else some (.br (fld w 22 4) (fld w 0 22))

/-- The rows of opcode 0x1C (R25 to R32). -/
def decodeOp1C (w : Word) : Option Instr :=
  match (fld w 23 1).toNat with
  | 0 => if fld w 0 4 = 0 then some (.loopImm (fld w 24 2) (fld w 12 11) (fld w 4 8)) else none
  | 1 => if fld w 17 6 = 0 ∧ fld w 0 4 = 0 then some (.loopReg (fld w 24 2) (fld w 12 5) (fld w 4 8)) else none
  | _ => none

/-- R28: the compare, predicate and control group, opcode 0x1E. -/
def decodeOp1E (w : Word) : Option Instr :=
  if fld w 4 3 = 0 then
    if fld w 24 2 = 0 then some (.cmp (fld w 21 3) (fld w 16 5) (fld w 11 5) (fld w 7 4) (fld w 0 4)) else none
  else match (fld w 0 7).toNat with
  | 16 => if fld w 24 2 = 0 ∧ fld w 19 2 = 0 ∧ fld w 14 2 = 0 then some (.plogAnd (fld w 21 3) (fld w 16 3) (fld w 11 3) (fld w 7 4)) else none
  | 17 => if fld w 24 2 = 0 ∧ fld w 19 2 = 0 ∧ fld w 14 2 = 0 then some (.plogOr (fld w 21 3) (fld w 16 3) (fld w 11 3) (fld w 7 4)) else none
  | 18 => if fld w 24 2 = 0 ∧ fld w 19 2 = 0 ∧ fld w 14 2 = 0 then some (.plogXor (fld w 21 3) (fld w 16 3) (fld w 11 3) (fld w 7 4)) else none
  | 19 => if fld w 24 2 = 0 ∧ fld w 19 2 = 0 ∧ fld w 11 5 = 0 then some (.plogNot (fld w 21 3) (fld w 16 3) (fld w 7 4)) else none
  | 20 => if fld w 24 2 = 0 ∧ fld w 11 5 = 0 then some (.s2p (fld w 21 3) (fld w 16 5) (fld w 7 4)) else none
  | 21 => if fld w 19 2 = 0 ∧ fld w 11 5 = 0 then some (.p2s (fld w 21 5) (fld w 16 3) (fld w 7 4)) else none
  | 24 => if fld w 11 5 = 0 then some (.jr (fld w 21 5) (fld w 16 5) (fld w 7 4)) else none
  | 25 => if fld w 16 10 = 0 then some (.lbrk (fld w 11 5) (fld w 7 4)) else none
  | 26 => if fld w 21 5 = 0 ∧ fld w 11 5 = 0 then some (.wait (fld w 16 5) (fld w 7 4)) else none
  | 27 => if fld w 11 15 = 0 then some (.halt (fld w 7 4)) else none
  | _ => none

/-- The rows of opcode 0x1F (R25 to R32). -/
def decodeOp1F (w : Word) : Option Instr :=
  match (fld w 0 4).toNat with
  | 0 => if fld w 16 5 = 0 then some (.srd (fld w 21 5) (fld w 4 12)) else none
  | 1 => if fld w 21 5 = 0 then some (.swr (fld w 16 5) (fld w 4 12)) else none
  | 2 => some (.srs (fld w 21 5) (fld w 16 5) (fld w 4 12))
  | 3 => some (.src (fld w 21 5) (fld w 16 5) (fld w 4 12))
  | 4 => if fld w 16 10 = 0 then some (.trap (fld w 4 12)) else none
  | 5 => if fld w 4 22 = 0 then some .eret else none
  | 6 => if fld w 8 13 = 0 then some (.fence (fld w 21 5) (fld w 7 1) (fld w 4 3)) else none
  | 7 => if fld w 4 22 = 0 then some .wsync else none
  | 8 => if fld w 6 10 = 0 then some (.msg (fld w 21 5) (fld w 16 5) (fld w 4 2)) else none
  | 9 => if fld w 4 17 = 0 then some (.nextp (fld w 21 5)) else none
  | _ => none

/-- The rows of opcode 0x25 (R25 to R32). -/
def decodeOp25 (w : Word) : Option Instr :=
  match (fld w 6 5).toNat with
  | 0 => some (.vadd (fld w 21 5) (fld w 16 5) (fld w 11 5) (fld w 3 3) (fld w 2 1) (fld w 1 1) (fld w 0 1))
  | 1 => some (.vsub (fld w 21 5) (fld w 16 5) (fld w 11 5) (fld w 3 3) (fld w 2 1) (fld w 1 1) (fld w 0 1))
  | 2 => some (.vmul (fld w 21 5) (fld w 16 5) (fld w 11 5) (fld w 3 3) (fld w 2 1) (fld w 1 1) (fld w 0 1))
  | 3 => some (.vmax (fld w 21 5) (fld w 16 5) (fld w 11 5) (fld w 3 3) (fld w 2 1) (fld w 1 1) (fld w 0 1))
  | 4 => some (.vmin (fld w 21 5) (fld w 16 5) (fld w 11 5) (fld w 3 3) (fld w 2 1) (fld w 1 1) (fld w 0 1))
  | 5 => if fld w 11 5 = 0 then some (.vabs (fld w 21 5) (fld w 16 5) (fld w 3 3) (fld w 2 1) (fld w 1 1) (fld w 0 1)) else none
  | 6 => if fld w 11 5 = 0 then some (.vneg (fld w 21 5) (fld w 16 5) (fld w 3 3) (fld w 2 1) (fld w 1 1) (fld w 0 1)) else none
  | 7 => some (.vcps (fld w 21 5) (fld w 16 5) (fld w 11 5) (fld w 3 3) (fld w 2 1) (fld w 1 1) (fld w 0 1))
  | 8 => if fld w 11 5 = 0 ∧ fld w 1 1 = 0 then some (.vcls (fld w 21 5) (fld w 16 5) (fld w 3 3) (fld w 2 1) (fld w 0 1)) else none
  | 9 => some (.vdot (fld w 21 5) (fld w 16 5) (fld w 11 5) (fld w 3 3) (fld w 2 1) (fld w 1 1) (fld w 0 1))
  | 10 => if fld w 11 5 = 0 then some (.vexpf (fld w 21 5) (fld w 16 5) (fld w 3 3) (fld w 2 1) (fld w 1 1) (fld w 0 1)) else none
  | 11 => if fld w 11 5 = 0 then some (.vlogf (fld w 21 5) (fld w 16 5) (fld w 3 3) (fld w 2 1) (fld w 1 1) (fld w 0 1)) else none
  | 12 => some (.vscale (fld w 21 5) (fld w 16 5) (fld w 11 5) (fld w 3 3) (fld w 2 1) (fld w 1 1) (fld w 0 1))
  | 13 => if fld w 11 5 = 0 then some (.vgetx (fld w 21 5) (fld w 16 5) (fld w 3 3) (fld w 2 1) (fld w 1 1) (fld w 0 1)) else none
  | 14 => if fld w 11 5 = 0 then some (.vrcp (fld w 21 5) (fld w 16 5) (fld w 3 3) (fld w 2 1) (fld w 1 1) (fld w 0 1)) else none
  | 15 => if fld w 11 5 = 0 then some (.vrsq (fld w 21 5) (fld w 16 5) (fld w 3 3) (fld w 2 1) (fld w 1 1) (fld w 0 1)) else none
  | 16 | 17 | 18 | 19 | 20 | 21 | 22 | 23 => if fld w 1 1 = 0 then some (.vcmp (fld w 21 5) (fld w 16 5) (fld w 11 5) (fld w 6 3) (fld w 3 3) (fld w 2 1) (fld w 0 1)) else none
  | _ => none

/-- The rows of opcode 0x26 (R25 to R32). -/
noncomputable def decodeOp26 (w : Word) : Option Instr :=
  match (fld w 6 5).toNat with
  | 0 => if fld w 1 2 = 0 then some (.viadd (fld w 21 5) (fld w 16 5) (fld w 11 5) (fld w 3 3) (fld w 0 1)) else none
  | 1 => if fld w 1 2 = 0 then some (.visub (fld w 21 5) (fld w 16 5) (fld w 11 5) (fld w 3 3) (fld w 0 1)) else none
  | 2 => if fld w 1 2 = 0 then some (.vimul (fld w 21 5) (fld w 16 5) (fld w 11 5) (fld w 3 3) (fld w 0 1)) else none
  | 3 => if fld w 1 2 = 0 then some (.vand (fld w 21 5) (fld w 16 5) (fld w 11 5) (fld w 3 3) (fld w 0 1)) else none
  | 4 => if fld w 1 2 = 0 then some (.vor (fld w 21 5) (fld w 16 5) (fld w 11 5) (fld w 3 3) (fld w 0 1)) else none
  | 5 => if fld w 1 2 = 0 then some (.vxor (fld w 21 5) (fld w 16 5) (fld w 11 5) (fld w 3 3) (fld w 0 1)) else none
  | 6 => if fld w 1 2 = 0 then some (.vshl (fld w 21 5) (fld w 16 5) (fld w 11 5) (fld w 3 3) (fld w 0 1)) else none
  | 7 => if fld w 1 2 = 0 then some (.vshr (fld w 21 5) (fld w 16 5) (fld w 11 5) (fld w 3 3) (fld w 0 1)) else none
  | 8 => if fld w 1 2 = 0 then some (.vsar (fld w 21 5) (fld w 16 5) (fld w 11 5) (fld w 3 3) (fld w 0 1)) else none
  | 9 => if fld w 1 2 = 0 then some (.vimin (fld w 21 5) (fld w 16 5) (fld w 11 5) (fld w 3 3) (fld w 0 1)) else none
  | 10 => if fld w 1 2 = 0 then some (.vimax (fld w 21 5) (fld w 16 5) (fld w 11 5) (fld w 3 3) (fld w 0 1)) else none
  | 11 => if fld w 11 5 = 0 ∧ fld w 1 2 = 0 then some (.vcnt (fld w 21 5) (fld w 16 5) (fld w 3 3) (fld w 0 1)) else none
  | _ => none

/-- The rows of opcode 0x27 (R25 to R32). -/
noncomputable def decodeOp27 (w : Word) : Option Instr :=
  match (fld w 6 5).toNat with
  | 0 => if fld w 11 5 = 0 then some (.vsumt (fld w 21 5) (fld w 16 5) (fld w 3 3) (fld w 2 1) (fld w 1 1) (fld w 0 1)) else none
  | 1 => if fld w 11 5 = 0 then some (.vmaxt (fld w 21 5) (fld w 16 5) (fld w 3 3) (fld w 2 1) (fld w 1 1) (fld w 0 1)) else none
  | 2 => if fld w 11 5 = 0 then some (.vscan (fld w 21 5) (fld w 16 5) (fld w 3 3) (fld w 2 1) (fld w 1 1) (fld w 0 1)) else none
  | 3 => if fld w 1 2 = 0 then some (.vperm (fld w 21 5) (fld w 16 5) (fld w 11 5) (fld w 3 3) (fld w 0 1)) else none
  | 4 => if fld w 1 2 = 0 then some (.vshuf (fld w 21 5) (fld w 16 5) (fld w 11 5) (fld w 3 3) (fld w 0 1)) else none
  | 5 => if fld w 1 2 = 0 then some (.vbcst (fld w 21 5) (fld w 16 5) (fld w 11 5) (fld w 3 3) (fld w 0 1)) else none
  | 6 => if fld w 0 6 = 0 then some (.vins (fld w 21 5) (fld w 16 5) (fld w 11 5)) else none
  | 7 => if fld w 0 6 = 0 then some (.vext (fld w 21 5) (fld w 16 5) (fld w 11 5)) else none
  | 8 => if fld w 0 3 = 0 then some (.vhist (fld w 21 5) (fld w 16 5) (fld w 11 5) (fld w 3 3)) else none
  | 9 => if fld w 1 2 = 0 then some (.vhmrg (fld w 21 5) (fld w 16 5) (fld w 11 5) (fld w 3 3) (fld w 0 1)) else none
  | 10 => if fld w 1 2 = 0 then some (.vmsk (fld w 21 5) (fld w 16 5) (fld w 11 5) (fld w 3 3) (fld w 0 1)) else none
  | _ => none

/-- The rows of opcode 0x2E (R25 to R32). -/
noncomputable def decodeOp2E (w : Word) : Option Instr :=
  match (fld w 6 5).toNat with
  | 0 => if fld w 0 2 = 0 then some (.vbfp (fld w 21 5) (fld w 16 5) (fld w 11 5) (fld w 3 3) (fld w 2 1)) else none
  | 1 => if fld w 1 2 = 0 then some (.vpld (fld w 21 5) (fld w 16 5) (fld w 11 5) (fld w 3 3) (fld w 0 1)) else none
  | _ => none

/-- The rows of opcode 0x2F (R25 to R32). -/
noncomputable def decodeOp2F (w : Word) : Option Instr :=
  match (fld w 6 5).toNat with
  | 0 => if fld w 1 2 = 0 then some (.ldts (fld w 21 5) (fld w 16 5) (fld w 11 5) (fld w 3 3) (fld w 0 1)) else none
  | 1 => if fld w 1 2 = 0 then some (.stts (fld w 21 5) (fld w 16 5) (fld w 11 5) (fld w 3 3) (fld w 0 1)) else none
  | 2 => if fld w 1 2 = 0 then some (.ldtg (fld w 21 5) (fld w 16 5) (fld w 11 5) (fld w 3 3) (fld w 0 1)) else none
  | 3 => if fld w 1 2 = 0 then some (.sttg (fld w 21 5) (fld w 16 5) (fld w 11 5) (fld w 3 3) (fld w 0 1)) else none
  | _ => none

/-- The rows of opcode 0x30 (R25 to R32). -/
noncomputable def decodeOp30 (w : Word) : Option Instr :=
  match (fld w 0 7).toNat with
  | 0 => some (.cfg (fld w 21 5) (fld w 16 5) (fld w 11 5) (fld w 7 4))
  | 1 => if fld w 11 10 = 0 then some (.cfgw (fld w 21 5) (fld w 7 4)) else none
  | _ => none

/-- The rows of opcode 0x31 (R25 to R32). -/
noncomputable def decodeOp31 (w : Word) : Option Instr :=
  match (fld w 0 7).toNat with
  | 0 => if fld w 21 5 = 0 then some (.pusht (fld w 16 5) (fld w 11 5) (fld w 7 4)) else none
  | 1 => if fld w 11 5 = 0 then some (.popt (fld w 21 5) (fld w 16 5) (fld w 7 4)) else none
  | 2 => some (.drn (fld w 21 5) (fld w 16 5) (fld w 11 5) (fld w 7 4))
  | _ => none

/-- The rows of opcode 0x32 (R25 to R32). -/
noncomputable def decodeOp32 (w : Word) : Option Instr :=
  match (fld w 0 7).toNat with
  | 0 => if fld w 11 5 = 0 then some (.cpy (fld w 21 5) (fld w 16 5) (fld w 7 4)) else none
  | 1 => if fld w 11 10 = 0 then some (.cpyw (fld w 21 5) (fld w 7 4)) else none
  | _ => none

/-- The rows of opcode 0x33 (R25 to R32). -/
noncomputable def decodeOp33 (w : Word) : Option Instr :=
  match (fld w 0 7).toNat with
  | 0 => if fld w 11 5 = 0 then some (.ocl (fld w 21 5) (fld w 16 5) (fld w 7 4)) else none
  | 1 => if fld w 21 5 = 0 ∧ fld w 11 5 = 0 then some (.orl (fld w 16 5) (fld w 7 4)) else none
  | 2 => some (.old (fld w 21 5) (fld w 16 5) (fld w 11 5) (fld w 7 4))
  | 3 => some (.ost (fld w 21 5) (fld w 16 5) (fld w 11 5) (fld w 7 4))
  | _ => none

/-- The rows of opcode 0x34 (R25 to R32). -/
noncomputable def decodeOp34 (w : Word) : Option Instr :=
  match (fld w 0 7).toNat with
  | 0 => some (.hoopArrive (fld w 21 5) (fld w 16 5) (fld w 11 5) (fld w 7 4))
  | 1 => if fld w 11 5 = 0 then some (.pub (fld w 21 5) (fld w 16 5) (fld w 7 4)) else none
  | _ => none

/-- The rows of opcode 0x35 (R25 to R32). -/
noncomputable def decodeOp35 (w : Word) : Option Instr :=
  match (fld w 0 7).toNat with
  | 0 => if fld w 11 5 = 0 then some (.ple (fld w 21 5) (fld w 16 5) (fld w 7 4)) else none
  | 1 => if fld w 11 5 = 0 then some (.mig (fld w 21 5) (fld w 16 5) (fld w 7 4)) else none
  | 2 => if fld w 11 5 = 0 then some (.migSp (fld w 21 5) (fld w 16 5) (fld w 7 4)) else none
  | 3 => some (.hsplit (fld w 21 5) (fld w 16 5) (fld w 11 5) (fld w 7 4))
  | _ => none

/-- The rows of opcode 0x36 (R25 to R32). -/
noncomputable def decodeOp36 (w : Word) : Option Instr :=
  match (fld w 0 7).toNat with
  | 0 => some (.ptew (fld w 21 5) (fld w 16 5) (fld w 11 5) (fld w 7 4))
  | 1 => some (.ptecas (fld w 21 5) (fld w 16 5) (fld w 11 5) (fld w 7 4))
  | 2 => if fld w 11 5 = 0 then some (.pinv (fld w 21 5) (fld w 16 5) (fld w 7 4)) else none
  | _ => none

/-- The rows of opcode 0x37 (R25 to R32). -/
noncomputable def decodeOp37 (w : Word) : Option Instr :=
  match (fld w 0 7).toNat with
  | 0 => if fld w 21 5 = 0 then some (.wardw (fld w 16 5) (fld w 11 5) (fld w 7 4)) else none
  | _ => none

/-- The rim word as the opcode map reads it (R25), before the operand checks of `Instr.wellFormed`. -/
noncomputable def rawRim (w : Word) : Option Instr :=
  match (fld w 26 6).toNat with
  | 1 => decodeOp01 w
  | 2 => some (.addi (fld w 21 5) (fld w 16 5) (fld w 12 4) (fld w 0 12))
  | 3 => some (.andi (fld w 21 5) (fld w 16 5) (fld w 12 4) (fld w 0 12))
  | 4 => some (.ori (fld w 21 5) (fld w 16 5) (fld w 12 4) (fld w 0 12))
  | 5 => some (.xori (fld w 21 5) (fld w 16 5) (fld w 12 4) (fld w 0 12))
  | 6 => if fld w 6 6 = 0 then some (.slli (fld w 21 5) (fld w 16 5) (fld w 12 4) (fld w 0 6)) else none
  | 7 => if fld w 6 6 = 0 then some (.srli (fld w 21 5) (fld w 16 5) (fld w 12 4) (fld w 0 6)) else none
  | 8 => if fld w 6 6 = 0 then some (.srai (fld w 21 5) (fld w 16 5) (fld w 12 4) (fld w 0 6)) else none
  | 9 => some (.muli (fld w 21 5) (fld w 16 5) (fld w 12 4) (fld w 0 12))
  | 10 => if fld w 16 5 = 0 then some (.addpc (fld w 21 5) (fld w 12 4) (fld w 0 12)) else none
  | 12 => some (.lil (fld w 21 5) (fld w 0 21))
  | 13 => some (.lih (fld w 21 5) (fld w 0 21))
  | 14 => some (.ldb (fld w 21 5) (fld w 16 5) (fld w 12 4) (fld w 0 12))
  | 15 => some (.ldbu (fld w 21 5) (fld w 16 5) (fld w 12 4) (fld w 0 12))
  | 16 => some (.ldh (fld w 21 5) (fld w 16 5) (fld w 12 4) (fld w 0 12))
  | 17 => some (.ldhu (fld w 21 5) (fld w 16 5) (fld w 12 4) (fld w 0 12))
  | 18 => some (.ldw (fld w 21 5) (fld w 16 5) (fld w 12 4) (fld w 0 12))
  | 19 => some (.ldwu (fld w 21 5) (fld w 16 5) (fld w 12 4) (fld w 0 12))
  | 20 => some (.ldd (fld w 21 5) (fld w 16 5) (fld w 12 4) (fld w 0 12))
  | 21 => decodeOp15 w
  | 22 => some (.ldt (fld w 21 5) (fld w 16 5) (fld w 12 4) (fld w 0 12))
  | 23 => some (.stt (fld w 21 5) (fld w 16 5) (fld w 12 4) (fld w 0 12))
  | 24 => decodeOp18 w
  | 25 => decodeOp19 w
  | 26 => decodeBranch w
  | 27 => some (.call (fld w 21 5) (fld w 0 21))
  | 28 => decodeOp1C w
  | 29 => if fld w 24 2 = 0 then some (.cmpi (fld w 21 3) (fld w 16 5) (fld w 12 4) (fld w 0 12)) else none
  | 30 => decodeOp1E w
  | 31 => decodeOp1F w
  | 32 => some (.vfma (fld w 21 5) (fld w 16 5) (fld w 11 5) (fld w 6 5) (fld w 3 3) (fld w 2 1) (fld w 1 1) (fld w 0 1))
  | 33 => some (.vfms (fld w 21 5) (fld w 16 5) (fld w 11 5) (fld w 6 5) (fld w 3 3) (fld w 2 1) (fld w 1 1) (fld w 0 1))
  | 34 => some (.vfnma (fld w 21 5) (fld w 16 5) (fld w 11 5) (fld w 6 5) (fld w 3 3) (fld w 2 1) (fld w 1 1) (fld w 0 1))
  | 35 => if fld w 1 2 = 0 then some (.vsel (fld w 21 5) (fld w 16 5) (fld w 11 5) (fld w 6 5) (fld w 3 3) (fld w 0 1)) else none
  | 36 => if fld w 1 2 = 0 then some (.vimac (fld w 21 5) (fld w 16 5) (fld w 11 5) (fld w 6 5) (fld w 3 3) (fld w 0 1)) else none
  | 37 => decodeOp25 w
  | 38 => decodeOp26 w
  | 39 => decodeOp27 w
  | 40 => some (.vcvt (fld w 21 5) (fld w 16 5) (fld w 12 4) (fld w 8 4) (fld w 5 3) (fld w 3 2) (fld w 2 1) (fld w 1 1) (fld w 0 1))
  | 41 => some (.vrndi (fld w 21 5) (fld w 16 5) (fld w 12 4) (fld w 8 4) (fld w 5 3) (fld w 3 2) (fld w 2 1) (fld w 1 1) (fld w 0 1))
  | 42 => some (.vftoi (fld w 21 5) (fld w 16 5) (fld w 12 4) (fld w 8 4) (fld w 5 3) (fld w 3 2) (fld w 2 1) (fld w 1 1) (fld w 0 1))
  | 43 => some (.vitof (fld w 21 5) (fld w 16 5) (fld w 12 4) (fld w 8 4) (fld w 5 3) (fld w 3 2) (fld w 2 1) (fld w 1 1) (fld w 0 1))
  | 44 => some (.vpack (fld w 21 5) (fld w 16 5) (fld w 12 4) (fld w 8 4) (fld w 5 3) (fld w 3 2) (fld w 2 1) (fld w 1 1) (fld w 0 1))
  | 45 => some (.vunpk (fld w 21 5) (fld w 16 5) (fld w 12 4) (fld w 8 4) (fld w 5 3) (fld w 3 2) (fld w 2 1) (fld w 1 1) (fld w 0 1))
  | 46 => decodeOp2E w
  | 47 => decodeOp2F w
  | 48 => decodeOp30 w
  | 49 => decodeOp31 w
  | 50 => decodeOp32 w
  | 51 => decodeOp33 w
  | 52 => decodeOp34 w
  | 53 => decodeOp35 w
  | 54 => decodeOp36 w
  | 55 => decodeOp37 w
  | _ => none

/-- The C-word of kind [31:28] (R16), before the limits of `Instr.wellFormed`. -/
def rawCword (w : Word) : Option Instr :=
  match (fld w 28 4).toNat with
  | 0 => if fld w 0 28 = 0 then some .nopc else none
  | 1 => if fld w 1 7 = 0 then some (.tgt (fld w 18 10) (fld w 8 10) (fld w 0 1)) else none
  | 2 => if fld w 0 8 = 0 then some (.ext (fld w 18 10) (fld w 8 10)) else none
  | 3 => if fld w 1 3 = 0 then some (.tgtr (fld w 22 6) (fld w 16 6) (fld w 10 6) (fld w 4 6) (fld w 0 1)) else none
  | 4 => some (.fld (fld w 16 12) (fld w 0 16))
  | 5 => if fld w 16 12 = 0 then some (.fldh (fld w 0 16)) else none
  | 6 => if fld w 0 22 = 0 then some (.row (fld w 22 6)) else none
  | 7 => some (.typeWord (fld w 26 2) (fld w 16 10) (fld w 8 8) (fld w 5 3) (fld w 0 5))
  | 8 => if fld w 10 6 = 0 then some (.img (fld w 16 12) (fld w 0 10)) else none
  | 9 => if fld w 26 2 = 0 ∧ fld w 0 16 = 0 then some (.commit (fld w 16 10)) else none
  | 10 => if fld w 16 12 = 0 then some (.sealWord (fld w 0 16)) else none
  | 11 => if fld w 0 28 = 0 then some .clrt else none
  | _ => none

/-- R39: the integer group, whose function is x [4:0]. -/
noncomputable def decodeCell3E (w : Word) : Option Instr :=
  match (fld w 0 5).toNat with
  | 0 => if fld w 9 2 = 0 then some (.cellViadd (fld w 23 3) (fld w 20 3) (fld w 17 3) (fld w 14 3) (fld w 11 3) (fld w 5 4)) else none
  | 1 => if fld w 9 2 = 0 then some (.cellVisub (fld w 23 3) (fld w 20 3) (fld w 17 3) (fld w 14 3) (fld w 11 3) (fld w 5 4)) else none
  | 2 => if fld w 9 2 = 0 then some (.cellVimul (fld w 23 3) (fld w 20 3) (fld w 17 3) (fld w 14 3) (fld w 11 3) (fld w 5 4)) else none
  | 3 => if fld w 9 2 = 0 then some (.cellVand (fld w 23 3) (fld w 20 3) (fld w 17 3) (fld w 14 3) (fld w 11 3) (fld w 5 4)) else none
  | 4 => if fld w 9 2 = 0 then some (.cellVor (fld w 23 3) (fld w 20 3) (fld w 17 3) (fld w 14 3) (fld w 11 3) (fld w 5 4)) else none
  | 5 => if fld w 9 2 = 0 then some (.cellVxor (fld w 23 3) (fld w 20 3) (fld w 17 3) (fld w 14 3) (fld w 11 3) (fld w 5 4)) else none
  | 6 => if fld w 9 2 = 0 then some (.cellVshl (fld w 23 3) (fld w 20 3) (fld w 17 3) (fld w 14 3) (fld w 11 3) (fld w 5 4)) else none
  | 7 => if fld w 9 2 = 0 then some (.cellVshr (fld w 23 3) (fld w 20 3) (fld w 17 3) (fld w 14 3) (fld w 11 3) (fld w 5 4)) else none
  | 8 => if fld w 9 2 = 0 then some (.cellVsar (fld w 23 3) (fld w 20 3) (fld w 17 3) (fld w 14 3) (fld w 11 3) (fld w 5 4)) else none
  | 9 => if fld w 9 2 = 0 then some (.cellVimin (fld w 23 3) (fld w 20 3) (fld w 17 3) (fld w 14 3) (fld w 11 3) (fld w 5 4)) else none
  | 10 => if fld w 9 2 = 0 then some (.cellVimax (fld w 23 3) (fld w 20 3) (fld w 17 3) (fld w 14 3) (fld w 11 3) (fld w 5 4)) else none
  | 11 => if fld w 9 2 = 0 then some (.cellVcnt (fld w 23 3) (fld w 20 3) (fld w 17 3) (fld w 14 3) (fld w 11 3) (fld w 5 4)) else none
  | 12 => if fld w 9 2 = 0 then some (.cellVimac (fld w 23 3) (fld w 20 3) (fld w 17 3) (fld w 14 3) (fld w 11 3) (fld w 5 4)) else none
  | _ => none

/-- The cell word of op [31:26] (R38), before the checks of `Instr.wellFormed`. -/
noncomputable def rawCell (w : Word) : Option Instr :=
  match (fld w 26 6).toNat with
  | 1 => if fld w 14 12 = 2932 then some (.cellMacf (fld w 11 3) (fld w 10 1) (fld w 9 1) (fld w 5 4) (fld w 0 5)) else none
  | 2 => if fld w 14 12 = 2932 then some (.cellMacb (fld w 11 3) (fld w 10 1) (fld w 9 1) (fld w 5 4) (fld w 0 5)) else none
  | 3 => if fld w 14 12 = 2932 then some (.cellMacp (fld w 11 3) (fld w 10 1) (fld w 9 1) (fld w 5 4) (fld w 0 5)) else none
  | 4 => if fld w 14 6 = 0 ∧ fld w 5 4 = 0 then some (.cellWload (fld w 23 3) (fld w 20 3) (fld w 11 3) (fld w 10 1) (fld w 9 1) (fld w 0 5)) else none
  | 5 => if fld w 14 6 = 0 ∧ fld w 5 4 = 0 then some (.cellWplt (fld w 23 3) (fld w 20 3) (fld w 11 3) (fld w 10 1) (fld w 9 1) (fld w 0 5)) else none
  | 6 => if fld w 14 3 = 0 ∧ fld w 5 4 = 0 then some (.cellPsum (fld w 23 3) (fld w 20 3) (fld w 17 3) (fld w 11 3) (fld w 10 1) (fld w 9 1) (fld w 0 5)) else none
  | 7 => if fld w 14 6 = 0 ∧ fld w 5 4 = 0 then some (.cellPass (fld w 23 3) (fld w 20 3) (fld w 11 3) (fld w 10 1) (fld w 9 1) (fld w 0 5)) else none
  | 8 => if fld w 14 9 = 0 ∧ fld w 5 4 = 0 then some (.cellBubl (fld w 23 3) (fld w 11 3) (fld w 10 1) (fld w 9 1) (fld w 0 5)) else none
  | 9 => if fld w 14 3 = 0 ∧ fld w 5 4 = 0 then some (.cellSelr (fld w 23 3) (fld w 20 3) (fld w 17 3) (fld w 11 3) (fld w 10 1) (fld w 9 1) (fld w 0 5)) else none
  | 10 => if fld w 14 3 = 0 then some (.cellRsum (fld w 23 3) (fld w 20 3) (fld w 17 3) (fld w 11 3) (fld w 10 1) (fld w 9 1) (fld w 5 4) (fld w 0 5)) else none
  | 11 => if fld w 14 3 = 0 then some (.cellRmax (fld w 23 3) (fld w 20 3) (fld w 17 3) (fld w 11 3) (fld w 10 1) (fld w 9 1) (fld w 5 4) (fld w 0 5)) else none
  | 12 => if fld w 14 3 = 0 then some (.cellRmin (fld w 23 3) (fld w 20 3) (fld w 17 3) (fld w 11 3) (fld w 10 1) (fld w 9 1) (fld w 5 4) (fld w 0 5)) else none
  | 13 => if fld w 14 3 = 0 then some (.cellRfold (fld w 23 3) (fld w 20 3) (fld w 17 3) (fld w 11 3) (fld w 10 1) (fld w 9 1) (fld w 5 4) (fld w 0 5)) else none
  | 14 => if fld w 14 12 = 0 ∧ fld w 5 4 = 0 then some (.cellAgen (fld w 11 3) (fld w 10 1) (fld w 9 1) (fld w 0 5)) else none
  | 15 => if fld w 14 12 = 0 ∧ fld w 5 4 = 0 then some (.cellAreq (fld w 11 3) (fld w 10 1) (fld w 9 1) (fld w 0 5)) else none
  | 16 => if fld w 23 3 = 0 ∧ fld w 14 6 = 0 ∧ fld w 5 4 = 0 then some (.cellAstq (fld w 20 3) (fld w 11 3) (fld w 10 1) (fld w 9 1) (fld w 0 5)) else none
  | 17 => if fld w 23 3 = 0 ∧ fld w 14 6 = 0 ∧ fld w 5 4 = 0 then some (.cellAred (fld w 20 3) (fld w 11 3) (fld w 10 1) (fld w 9 1) (fld w 0 5)) else none
  | 18 => if fld w 14 9 = 0 ∧ fld w 5 4 = 0 then some (.cellAwin (fld w 23 3) (fld w 11 3) (fld w 10 1) (fld w 9 1) (fld w 0 5)) else none
  | 19 => if fld w 14 12 = 0 then some (.cellFeedr (fld w 11 3) (fld w 10 1) (fld w 9 1) (fld w 5 4) (fld w 0 5)) else none
  | 20 => if fld w 14 12 = 0 ∧ fld w 5 4 = 0 then some (.cellOutr (fld w 11 3) (fld w 10 1) (fld w 9 1) (fld w 0 5)) else none
  | 24 => some (.cellVadd (fld w 23 3) (fld w 20 3) (fld w 17 3) (fld w 14 3) (fld w 11 3) (fld w 10 1) (fld w 9 1) (fld w 5 4) (fld w 0 5))
  | 25 => some (.cellVsub (fld w 23 3) (fld w 20 3) (fld w 17 3) (fld w 14 3) (fld w 11 3) (fld w 10 1) (fld w 9 1) (fld w 5 4) (fld w 0 5))
  | 26 => some (.cellVmul (fld w 23 3) (fld w 20 3) (fld w 17 3) (fld w 14 3) (fld w 11 3) (fld w 10 1) (fld w 9 1) (fld w 5 4) (fld w 0 5))
  | 27 => some (.cellVfma (fld w 23 3) (fld w 20 3) (fld w 17 3) (fld w 14 3) (fld w 11 3) (fld w 10 1) (fld w 9 1) (fld w 5 4) (fld w 0 5))
  | 28 => some (.cellVfms (fld w 23 3) (fld w 20 3) (fld w 17 3) (fld w 14 3) (fld w 11 3) (fld w 10 1) (fld w 9 1) (fld w 5 4) (fld w 0 5))
  | 29 => some (.cellVfnma (fld w 23 3) (fld w 20 3) (fld w 17 3) (fld w 14 3) (fld w 11 3) (fld w 10 1) (fld w 9 1) (fld w 5 4) (fld w 0 5))
  | 30 => some (.cellVmax (fld w 23 3) (fld w 20 3) (fld w 17 3) (fld w 14 3) (fld w 11 3) (fld w 10 1) (fld w 9 1) (fld w 5 4) (fld w 0 5))
  | 31 => some (.cellVmin (fld w 23 3) (fld w 20 3) (fld w 17 3) (fld w 14 3) (fld w 11 3) (fld w 10 1) (fld w 9 1) (fld w 5 4) (fld w 0 5))
  | 32 => some (.cellVabs (fld w 23 3) (fld w 20 3) (fld w 17 3) (fld w 14 3) (fld w 11 3) (fld w 10 1) (fld w 9 1) (fld w 5 4) (fld w 0 5))
  | 33 => some (.cellVneg (fld w 23 3) (fld w 20 3) (fld w 17 3) (fld w 14 3) (fld w 11 3) (fld w 10 1) (fld w 9 1) (fld w 5 4) (fld w 0 5))
  | 34 => some (.cellVcps (fld w 23 3) (fld w 20 3) (fld w 17 3) (fld w 14 3) (fld w 11 3) (fld w 10 1) (fld w 9 1) (fld w 5 4) (fld w 0 5))
  | 35 => if fld w 3 2 = 0 then some (.cellVcmp (fld w 23 3) (fld w 20 3) (fld w 17 3) (fld w 14 3) (fld w 11 3) (fld w 10 1) (fld w 9 1) (fld w 5 4) (fld w 0 3)) else none
  | 36 => some (.cellVsel (fld w 23 3) (fld w 20 3) (fld w 17 3) (fld w 14 3) (fld w 11 3) (fld w 10 1) (fld w 9 1) (fld w 5 4) (fld w 0 5))
  | 37 => some (.cellVcls (fld w 23 3) (fld w 20 3) (fld w 17 3) (fld w 14 3) (fld w 11 3) (fld w 10 1) (fld w 9 1) (fld w 5 4) (fld w 0 5))
  | 38 => some (.cellVcvt (fld w 23 3) (fld w 20 3) (fld w 17 3) (fld w 14 3) (fld w 11 3) (fld w 10 1) (fld w 9 1) (fld w 5 4) (fld w 0 5))
  | 39 => some (.cellVrndi (fld w 23 3) (fld w 20 3) (fld w 17 3) (fld w 14 3) (fld w 11 3) (fld w 10 1) (fld w 9 1) (fld w 5 4) (fld w 0 5))
  | 40 => some (.cellVftoi (fld w 23 3) (fld w 20 3) (fld w 17 3) (fld w 14 3) (fld w 11 3) (fld w 10 1) (fld w 9 1) (fld w 5 4) (fld w 0 5))
  | 41 => some (.cellVitof (fld w 23 3) (fld w 20 3) (fld w 17 3) (fld w 14 3) (fld w 11 3) (fld w 10 1) (fld w 9 1) (fld w 5 4) (fld w 0 5))
  | 42 => some (.cellVexpf (fld w 23 3) (fld w 20 3) (fld w 17 3) (fld w 14 3) (fld w 11 3) (fld w 10 1) (fld w 9 1) (fld w 5 4) (fld w 0 5))
  | 43 => some (.cellVlogf (fld w 23 3) (fld w 20 3) (fld w 17 3) (fld w 14 3) (fld w 11 3) (fld w 10 1) (fld w 9 1) (fld w 5 4) (fld w 0 5))
  | 44 => some (.cellVscale (fld w 23 3) (fld w 20 3) (fld w 17 3) (fld w 14 3) (fld w 11 3) (fld w 10 1) (fld w 9 1) (fld w 5 4) (fld w 0 5))
  | 45 => some (.cellVgetx (fld w 23 3) (fld w 20 3) (fld w 17 3) (fld w 14 3) (fld w 11 3) (fld w 10 1) (fld w 9 1) (fld w 5 4) (fld w 0 5))
  | 46 => some (.cellVrcp (fld w 23 3) (fld w 20 3) (fld w 17 3) (fld w 14 3) (fld w 11 3) (fld w 10 1) (fld w 9 1) (fld w 5 4) (fld w 0 5))
  | 47 => some (.cellVrsq (fld w 23 3) (fld w 20 3) (fld w 17 3) (fld w 14 3) (fld w 11 3) (fld w 10 1) (fld w 9 1) (fld w 5 4) (fld w 0 5))
  | 48 => some (.cellVdot (fld w 23 3) (fld w 20 3) (fld w 17 3) (fld w 14 3) (fld w 11 3) (fld w 10 1) (fld w 9 1) (fld w 5 4) (fld w 0 5))
  | 49 => some (.cellVsumt (fld w 23 3) (fld w 20 3) (fld w 17 3) (fld w 14 3) (fld w 11 3) (fld w 10 1) (fld w 9 1) (fld w 5 4) (fld w 0 5))
  | 50 => some (.cellVmaxt (fld w 23 3) (fld w 20 3) (fld w 17 3) (fld w 14 3) (fld w 11 3) (fld w 10 1) (fld w 9 1) (fld w 5 4) (fld w 0 5))
  | 51 => some (.cellVscan (fld w 23 3) (fld w 20 3) (fld w 17 3) (fld w 14 3) (fld w 11 3) (fld w 10 1) (fld w 9 1) (fld w 5 4) (fld w 0 5))
  | 52 => some (.cellVperm (fld w 23 3) (fld w 20 3) (fld w 17 3) (fld w 14 3) (fld w 11 3) (fld w 10 1) (fld w 9 1) (fld w 5 4) (fld w 0 5))
  | 53 => if fld w 17 3 = 0 then some (.cellVshuf (fld w 23 3) (fld w 20 3) (fld w 14 3) (fld w 11 3) (fld w 10 1) (fld w 9 1) (fld w 5 4) (fld w 0 5)) else none
  | 54 => if fld w 17 3 = 0 then some (.cellVbcst (fld w 23 3) (fld w 20 3) (fld w 14 3) (fld w 11 3) (fld w 10 1) (fld w 9 1) (fld w 5 4) (fld w 0 5)) else none
  | 55 => some (.cellVhist (fld w 23 3) (fld w 20 3) (fld w 17 3) (fld w 14 3) (fld w 11 3) (fld w 10 1) (fld w 9 1) (fld w 5 4) (fld w 0 5))
  | 56 => some (.cellVhmrg (fld w 23 3) (fld w 20 3) (fld w 17 3) (fld w 14 3) (fld w 11 3) (fld w 10 1) (fld w 9 1) (fld w 5 4) (fld w 0 5))
  | 57 => some (.cellVpack (fld w 23 3) (fld w 20 3) (fld w 17 3) (fld w 14 3) (fld w 11 3) (fld w 10 1) (fld w 9 1) (fld w 5 4) (fld w 0 5))
  | 58 => some (.cellVunpk (fld w 23 3) (fld w 20 3) (fld w 17 3) (fld w 14 3) (fld w 11 3) (fld w 10 1) (fld w 9 1) (fld w 5 4) (fld w 0 5))
  | 59 => some (.cellVbfp (fld w 23 3) (fld w 20 3) (fld w 17 3) (fld w 14 3) (fld w 11 3) (fld w 10 1) (fld w 9 1) (fld w 5 4) (fld w 0 5))
  | 60 => if fld w 14 6 = 0 then some (.cellVpld (fld w 23 3) (fld w 20 3) (fld w 11 3) (fld w 10 1) (fld w 9 1) (fld w 5 4) (fld w 0 5)) else none
  | 61 => some (.cellVmsk (fld w 23 3) (fld w 20 3) (fld w 17 3) (fld w 14 3) (fld w 11 3) (fld w 10 1) (fld w 9 1) (fld w 5 4) (fld w 0 5))
  | 62 => decodeCell3E w
  | _ => none

/-- Why a word is no instruction of the kind it was read as. -/
inductive Reject where
  /-- a rim word that traps ILLEGAL (R11, R12, R33) -/
  | illegalRim (w : Word)
  /-- a C-word refused with BADWORD (R11, R12, R16) -/
  | badWord (w : Word)
  /-- a cell word whose row COMMIT refuses with BADROW (R11, R40) -/
  | badRow (w : Word)
  deriving DecidableEq, Repr

/-- Keeps an instruction only where it is well-formed. -/
def wellFormedOnly (r : Reject) : Option Instr → Except Reject Instr
  | some i => if i.wellFormed then .ok i else .error r
  | none => .error r

/-- R10, R33: a word of a rim core's code store. -/
noncomputable def decodeRim (w : Word) : Except Reject Instr := wellFormedOnly (.illegalRim w) (rawRim w)
/-- R10, R16: a word of a configuration stream. -/
def decodeCword (w : Word) : Except Reject Instr := wellFormedOnly (.badWord w) (rawCword w)
/-- R10, R40: a schedule row. -/
noncomputable def decodeCell (w : Word) : Except Reject Instr := wellFormedOnly (.badRow w) (rawCell w)

/-- The rim instruction that a core issues for a word: an illegal word issues as the ILLEGAL trap (R33). -/
noncomputable def rimInstr (w : Word) : Instr :=
  match decodeRim w with
  | .ok i => i
  | .error _ => .illegalRimWord w

/-- The word of the four bytes of a stored instruction, least significant byte first (R5). -/
def wordOfBytes : List Byte → Option (Word × List Byte)
  | b0 :: b1 :: b2 :: b3 :: rest => some (b3 ++ b2 ++ b1 ++ b0, rest)
  | _ => none

/-- The word whose bits are `w` in the table's numbering: bit 0 is the least significant bit of the word, and the word
is stored with its least significant byte at the lowest address (R5). -/
def tableWord (nbits w : Nat) : Option Word :=
  (wordOfBytes (bytesOf 4 (w % 2 ^ nbits))).map Prod.fst

/-- The instruction that a table word decodes to, by the first kind that accepts it in the order rim word, C-word, cell
word. The word alone does not say its kind (R10). -/
noncomputable def decodeTableWord (nbits w : Nat) : Option Instr :=
  match tableWord nbits w with
  | none => none
  | some v =>
    match decodeRim v, decodeCword v, decodeCell v with
    | .ok i, _, _ => some i
    | _, .ok i, _ => some i
    | _, _, .ok i => some i
    | _, _, _ => none

/-- Where the word of an instruction is read (R10): 0 a rim core's code store, 1 a configuration stream, 2 a schedule
row; 3 for an event, which has no word. -/
def Instr.kind : Instr → Nat
  | .add _ _ _ _
  | .sub _ _ _ _
  | .and _ _ _ _
  | .or _ _ _ _
  | .xor _ _ _ _
  | .andn _ _ _ _
  | .sll _ _ _ _
  | .srl _ _ _ _
  | .sra _ _ _ _
  | .rol _ _ _ _
  | .mul _ _ _ _
  | .mulh _ _ _ _
  | .mulhu _ _ _ _
  | .div _ _ _ _
  | .divu _ _ _ _
  | .rem _ _ _ _
  | .remu _ _ _ _
  | .min _ _ _ _
  | .max _ _ _ _
  | .minu _ _ _ _
  | .maxu _ _ _ _
  | .clz _ _ _
  | .ctz _ _ _
  | .popc _ _ _
  | .bswap _ _ _
  | .sextB _ _ _
  | .sextH _ _ _
  | .sextW _ _ _
  | .zextB _ _ _
  | .zextH _ _ _
  | .zextW _ _ _
  | .bfx _ _ _ _
  | .bfi _ _ _ _
  | .lea1 _ _ _ _
  | .lea2 _ _ _ _
  | .lea4 _ _ _ _
  | .lea8 _ _ _ _
  | .sel _ _ _ _
  | .addi _ _ _ _
  | .andi _ _ _ _
  | .ori _ _ _ _
  | .xori _ _ _ _
  | .slli _ _ _ _
  | .srli _ _ _ _
  | .srai _ _ _ _
  | .muli _ _ _ _
  | .addpc _ _ _
  | .lil _ _
  | .lih _ _
  | .ldb _ _ _ _
  | .ldbu _ _ _ _
  | .ldh _ _ _ _
  | .ldhu _ _ _ _
  | .ldw _ _ _ _
  | .ldwu _ _ _ _
  | .ldd _ _ _ _
  | .stb _ _ _ _
  | .sth _ _ _ _
  | .stw _ _ _ _
  | .std _ _ _ _
  | .ldt _ _ _ _
  | .stt _ _ _ _
  | .amoAdd _ _ _ _ _ _
  | .amoAnd _ _ _ _ _ _
  | .amoOr _ _ _ _ _ _
  | .amoXor _ _ _ _ _ _
  | .amoMin _ _ _ _ _ _
  | .amoMax _ _ _ _ _ _
  | .amoMinu _ _ _ _ _ _
  | .amoMaxu _ _ _ _ _ _
  | .amoSwp _ _ _ _ _ _
  | .amoFadd _ _ _ _ _
  | .amoBfadd _ _ _ _ _
  | .amocas _ _ _ _ _ _
  | .redtAdd _ _ _ _
  | .redtFadd _ _ _ _
  | .redtBfadd _ _ _ _
  | .redtMin _ _ _ _
  | .redtMax _ _ _ _
  | .br _ _
  | .jmp _
  | .call _ _
  | .loopImm _ _ _
  | .loopReg _ _ _
  | .cmpi _ _ _ _
  | .cmp _ _ _ _ _
  | .plogAnd _ _ _ _
  | .plogOr _ _ _ _
  | .plogXor _ _ _ _
  | .plogNot _ _ _
  | .s2p _ _ _
  | .p2s _ _ _
  | .jr _ _ _
  | .lbrk _ _
  | .wait _ _
  | .halt _
  | .srd _ _
  | .swr _ _
  | .srs _ _ _
  | .src _ _ _
  | .trap _
  | .eret
  | .fence _ _ _
  | .wsync
  | .msg _ _ _
  | .nextp _
  | .vfma _ _ _ _ _ _ _ _
  | .vfms _ _ _ _ _ _ _ _
  | .vfnma _ _ _ _ _ _ _ _
  | .vsel _ _ _ _ _ _
  | .vimac _ _ _ _ _ _
  | .vadd _ _ _ _ _ _ _
  | .vsub _ _ _ _ _ _ _
  | .vmul _ _ _ _ _ _ _
  | .vmax _ _ _ _ _ _ _
  | .vmin _ _ _ _ _ _ _
  | .vabs _ _ _ _ _ _
  | .vneg _ _ _ _ _ _
  | .vcps _ _ _ _ _ _ _
  | .vcls _ _ _ _ _
  | .vdot _ _ _ _ _ _ _
  | .vexpf _ _ _ _ _ _
  | .vlogf _ _ _ _ _ _
  | .vscale _ _ _ _ _ _ _
  | .vgetx _ _ _ _ _ _
  | .vrcp _ _ _ _ _ _
  | .vrsq _ _ _ _ _ _
  | .vcmp _ _ _ _ _ _ _
  | .viadd _ _ _ _ _
  | .visub _ _ _ _ _
  | .vimul _ _ _ _ _
  | .vand _ _ _ _ _
  | .vor _ _ _ _ _
  | .vxor _ _ _ _ _
  | .vshl _ _ _ _ _
  | .vshr _ _ _ _ _
  | .vsar _ _ _ _ _
  | .vimin _ _ _ _ _
  | .vimax _ _ _ _ _
  | .vcnt _ _ _ _
  | .vsumt _ _ _ _ _ _
  | .vmaxt _ _ _ _ _ _
  | .vscan _ _ _ _ _ _
  | .vperm _ _ _ _ _
  | .vshuf _ _ _ _ _
  | .vbcst _ _ _ _ _
  | .vins _ _ _
  | .vext _ _ _
  | .vhist _ _ _ _
  | .vhmrg _ _ _ _ _
  | .vmsk _ _ _ _ _
  | .vcvt _ _ _ _ _ _ _ _ _
  | .vrndi _ _ _ _ _ _ _ _ _
  | .vftoi _ _ _ _ _ _ _ _ _
  | .vitof _ _ _ _ _ _ _ _ _
  | .vpack _ _ _ _ _ _ _ _ _
  | .vunpk _ _ _ _ _ _ _ _ _
  | .vbfp _ _ _ _ _
  | .vpld _ _ _ _ _
  | .ldts _ _ _ _ _
  | .stts _ _ _ _ _
  | .ldtg _ _ _ _ _
  | .sttg _ _ _ _ _
  | .cfg _ _ _ _
  | .cfgw _ _
  | .pusht _ _ _
  | .popt _ _ _
  | .drn _ _ _ _
  | .cpy _ _ _
  | .cpySlice _ _ _
  | .cpyw _ _
  | .ocl _ _ _
  | .orl _ _
  | .old _ _ _ _
  | .ost _ _ _ _
  | .hoopArrive _ _ _ _
  | .hoopArm _ _ _ _
  | .hoopQuery _ _ _ _
  | .pub _ _ _
  | .ple _ _ _
  | .mig _ _ _
  | .migSp _ _ _
  | .hsplit _ _ _ _
  | .ptew _ _ _ _
  | .ptecas _ _ _ _
  | .pinv _ _ _
  | .wardw _ _ _ => 0
  | .nopc
  | .tgt _ _ _
  | .ext _ _
  | .tgtr _ _ _ _ _
  | .fld _ _
  | .fldh _
  | .row _
  | .typeWord _ _ _ _ _
  | .img _ _
  | .commit _
  | .sealWord _
  | .clrt => 1
  | .cellMacf _ _ _ _ _
  | .cellMacb _ _ _ _ _
  | .cellMacp _ _ _ _ _
  | .cellWload _ _ _ _ _ _
  | .cellWplt _ _ _ _ _ _
  | .cellPsum _ _ _ _ _ _ _
  | .cellPass _ _ _ _ _ _
  | .cellBubl _ _ _ _ _
  | .cellSelr _ _ _ _ _ _ _
  | .cellRsum _ _ _ _ _ _ _ _
  | .cellRmax _ _ _ _ _ _ _ _
  | .cellRmin _ _ _ _ _ _ _ _
  | .cellRfold _ _ _ _ _ _ _ _
  | .cellAgen _ _ _ _
  | .cellAreq _ _ _ _
  | .cellAstq _ _ _ _ _
  | .cellAred _ _ _ _ _
  | .cellAwin _ _ _ _ _
  | .cellFeedr _ _ _ _ _
  | .cellOutr _ _ _ _
  | .cellVadd _ _ _ _ _ _ _ _ _
  | .cellVsub _ _ _ _ _ _ _ _ _
  | .cellVmul _ _ _ _ _ _ _ _ _
  | .cellVfma _ _ _ _ _ _ _ _ _
  | .cellVfms _ _ _ _ _ _ _ _ _
  | .cellVfnma _ _ _ _ _ _ _ _ _
  | .cellVmax _ _ _ _ _ _ _ _ _
  | .cellVmin _ _ _ _ _ _ _ _ _
  | .cellVabs _ _ _ _ _ _ _ _ _
  | .cellVneg _ _ _ _ _ _ _ _ _
  | .cellVcps _ _ _ _ _ _ _ _ _
  | .cellVcmp _ _ _ _ _ _ _ _ _
  | .cellVsel _ _ _ _ _ _ _ _ _
  | .cellVcls _ _ _ _ _ _ _ _ _
  | .cellVcvt _ _ _ _ _ _ _ _ _
  | .cellVrndi _ _ _ _ _ _ _ _ _
  | .cellVftoi _ _ _ _ _ _ _ _ _
  | .cellVitof _ _ _ _ _ _ _ _ _
  | .cellVexpf _ _ _ _ _ _ _ _ _
  | .cellVlogf _ _ _ _ _ _ _ _ _
  | .cellVscale _ _ _ _ _ _ _ _ _
  | .cellVgetx _ _ _ _ _ _ _ _ _
  | .cellVrcp _ _ _ _ _ _ _ _ _
  | .cellVrsq _ _ _ _ _ _ _ _ _
  | .cellVdot _ _ _ _ _ _ _ _ _
  | .cellVsumt _ _ _ _ _ _ _ _ _
  | .cellVmaxt _ _ _ _ _ _ _ _ _
  | .cellVscan _ _ _ _ _ _ _ _ _
  | .cellVperm _ _ _ _ _ _ _ _ _
  | .cellVshuf _ _ _ _ _ _ _ _
  | .cellVbcst _ _ _ _ _ _ _ _
  | .cellVhist _ _ _ _ _ _ _ _ _
  | .cellVhmrg _ _ _ _ _ _ _ _ _
  | .cellVpack _ _ _ _ _ _ _ _ _
  | .cellVunpk _ _ _ _ _ _ _ _ _
  | .cellVbfp _ _ _ _ _ _ _ _ _
  | .cellVpld _ _ _ _ _ _ _
  | .cellVmsk _ _ _ _ _ _ _ _ _
  | .cellViadd _ _ _ _ _ _
  | .cellVisub _ _ _ _ _ _
  | .cellVimul _ _ _ _ _ _
  | .cellVand _ _ _ _ _ _
  | .cellVor _ _ _ _ _ _
  | .cellVxor _ _ _ _ _ _
  | .cellVshl _ _ _ _ _ _
  | .cellVshr _ _ _ _ _ _
  | .cellVsar _ _ _ _ _ _
  | .cellVimin _ _ _ _ _ _
  | .cellVimax _ _ _ _ _ _
  | .cellVcnt _ _ _ _ _ _
  | .cellVimac _ _ _ _ _ _ => 2
  | .tcrWrite _
  | .tcrReseed _
  | .fstatClear _
  | .rndWrite _ _
  | .statusWrite _
  | .lcsWrite _
  | .lcWrite _ _
  | .thdrWrite _
  | .mailstClear _
  | .nxcurWrite _
  | .energyWrite _
  | .registerWrite _ _
  | .frWrite _ _ _ _
  | .bankcmdGo _ _
  | .bankrtClear _ _ _
  | .preempt _
  | .mgmtreq _
  | .msgArrive _ _
  | .loadReturn _
  | .waitRelease _
  | .fenceComplete _
  | .haltComplete _
  | .commandStart _ _
  | .cfgStreamRead _
  | .regionStart _
  | .regionRunOut _ _
  | .regionDrainPoint _ _
  | .regionSwitch _ _
  | .holdRaise _ _
  | .holdDrop _ _
  | .windowCheck _ _ _
  | .windowReplyArrive _
  | .feedDeliver _ _
  | .omReadDeviation _ _ _ _
  | .drainSample _ _
  | .gateBeatArrive _
  | .droopStretch _
  | .spineSourceLoss _ _
  | .spineAltLocked _
  | .spineFreqChange _ _
  | .referenceTick
  | .hubRequest
  | .noticeMapped _
  | .noticeAbort _
  | .creelReplay _
  | .creelOutcomeReport _
  | .keyFlip _
  | .hoopOpen _
  | .hoopAbandon _
  | .oclGrant _ _
  | .copyComplete _ _
  | .encodeComplete _
  | .migTryEnd _
  | .migSpSwitch _
  | .hsplitSliceDone _ _
  | .pinvDone _ _
  | .bankRetireMark _ _ _
  | .restripeDone _ _
  | .cacheDieEarlyStop _
  | .cacheDiePowerLoss _
  | .queueTailNotify _
  | .launchRecord _
  | .launchPriorityAge
  | .bindDispatch _ _
  | .graphPreempt _
  | .graphRestore _ _
  | .drainRequest _
  | .graphDrained _
  | .drainTimeout _
  | .graphComplete _
  | .thermalEmergency
  | .thermalClear
  | .mbxComputeReset _
  | .mbxIslandReset _
  | .mbxReadJournal _ _ _ _
  | .mbxAttestation _ _ _
  | .mbxLoadFirmware _ _ _
  | .mbxInstallQueue _ _ _
  | .mbxSetPowerBudget _ _
  | .computeWatchdog
  | .orphanTimeout
  | .islandWatchdog
  | .hingelinkHotReset
  | .islandFirmwareStart
  | .mainSupplyLoss
  | .powerUp
  | .hingelinkLinkDown
  | .flitReceive _ _ _
  | .packetHop _
  | .escapeTimeout _
  | .linkDown _
  | .remoteRequestTimeout _
  | .routeTableLoad _ _ _ _ _
  | .routeTableRetire _
  | .writeAcknowledgement _
  | .companionInvalidateAck _
  | .throttleByBudget
  | .cacheDieReturn _
  | .standbySupplyLoss
  | .slotEviction _ _ _
  | .poisonBitClear _ => 3
  | .illegalRimWord _ => 0

/-- The word of an instruction: the table's fields laid from bit 31 down. An event has no word and encodes as zero;
an illegal rim word encodes as itself. -/
def encode : Instr → Word
  | .add d a b g => 1#6 ++ d ++ a ++ b ++ g ++ 0#7
  | .sub d a b g => 1#6 ++ d ++ a ++ b ++ g ++ 1#7
  | .and d a b g => 1#6 ++ d ++ a ++ b ++ g ++ 2#7
  | .or d a b g => 1#6 ++ d ++ a ++ b ++ g ++ 3#7
  | .xor d a b g => 1#6 ++ d ++ a ++ b ++ g ++ 4#7
  | .andn d a b g => 1#6 ++ d ++ a ++ b ++ g ++ 5#7
  | .sll d a b g => 1#6 ++ d ++ a ++ b ++ g ++ 6#7
  | .srl d a b g => 1#6 ++ d ++ a ++ b ++ g ++ 7#7
  | .sra d a b g => 1#6 ++ d ++ a ++ b ++ g ++ 8#7
  | .rol d a b g => 1#6 ++ d ++ a ++ b ++ g ++ 9#7
  | .mul d a b g => 1#6 ++ d ++ a ++ b ++ g ++ 10#7
  | .mulh d a b g => 1#6 ++ d ++ a ++ b ++ g ++ 11#7
  | .mulhu d a b g => 1#6 ++ d ++ a ++ b ++ g ++ 12#7
  | .div d a b g => 1#6 ++ d ++ a ++ b ++ g ++ 13#7
  | .divu d a b g => 1#6 ++ d ++ a ++ b ++ g ++ 14#7
  | .rem d a b g => 1#6 ++ d ++ a ++ b ++ g ++ 15#7
  | .remu d a b g => 1#6 ++ d ++ a ++ b ++ g ++ 16#7
  | .min d a b g => 1#6 ++ d ++ a ++ b ++ g ++ 17#7
  | .max d a b g => 1#6 ++ d ++ a ++ b ++ g ++ 18#7
  | .minu d a b g => 1#6 ++ d ++ a ++ b ++ g ++ 19#7
  | .maxu d a b g => 1#6 ++ d ++ a ++ b ++ g ++ 20#7
  | .clz d a g => 1#6 ++ d ++ a ++ 0#5 ++ g ++ 21#7
  | .ctz d a g => 1#6 ++ d ++ a ++ 0#5 ++ g ++ 22#7
  | .popc d a g => 1#6 ++ d ++ a ++ 0#5 ++ g ++ 23#7
  | .bswap d a g => 1#6 ++ d ++ a ++ 0#5 ++ g ++ 24#7
  | .sextB d a g => 1#6 ++ d ++ a ++ 0#5 ++ g ++ 25#7
  | .sextH d a g => 1#6 ++ d ++ a ++ 0#5 ++ g ++ 26#7
  | .sextW d a g => 1#6 ++ d ++ a ++ 0#5 ++ g ++ 27#7
  | .zextB d a g => 1#6 ++ d ++ a ++ 0#5 ++ g ++ 28#7
  | .zextH d a g => 1#6 ++ d ++ a ++ 0#5 ++ g ++ 29#7
  | .zextW d a g => 1#6 ++ d ++ a ++ 0#5 ++ g ++ 30#7
  | .bfx d a b g => 1#6 ++ d ++ a ++ b ++ g ++ 31#7
  | .bfi d a b g => 1#6 ++ d ++ a ++ b ++ g ++ 32#7
  | .lea1 d a b g => 1#6 ++ d ++ a ++ b ++ g ++ 33#7
  | .lea2 d a b g => 1#6 ++ d ++ a ++ b ++ g ++ 34#7
  | .lea4 d a b g => 1#6 ++ d ++ a ++ b ++ g ++ 35#7
  | .lea8 d a b g => 1#6 ++ d ++ a ++ b ++ g ++ 36#7
  | .sel d a b p => 1#6 ++ d ++ a ++ b ++ p ++ 37#7
  | .addi d a g i => 2#6 ++ d ++ a ++ g ++ i
  | .andi d a g i => 3#6 ++ d ++ a ++ g ++ i
  | .ori d a g i => 4#6 ++ d ++ a ++ g ++ i
  | .xori d a g i => 5#6 ++ d ++ a ++ g ++ i
  | .slli d a g s => 6#6 ++ d ++ a ++ g ++ 0#6 ++ s
  | .srli d a g s => 7#6 ++ d ++ a ++ g ++ 0#6 ++ s
  | .srai d a g s => 8#6 ++ d ++ a ++ g ++ 0#6 ++ s
  | .muli d a g i => 9#6 ++ d ++ a ++ g ++ i
  | .addpc d g i => 10#6 ++ d ++ 0#5 ++ g ++ i
  | .lil d i => 12#6 ++ d ++ i
  | .lih d i => 13#6 ++ d ++ i
  | .ldb d a g i => 14#6 ++ d ++ a ++ g ++ i
  | .ldbu d a g i => 15#6 ++ d ++ a ++ g ++ i
  | .ldh d a g i => 16#6 ++ d ++ a ++ g ++ i
  | .ldhu d a g i => 17#6 ++ d ++ a ++ g ++ i
  | .ldw d a g i => 18#6 ++ d ++ a ++ g ++ i
  | .ldwu d a g i => 19#6 ++ d ++ a ++ g ++ i
  | .ldd d a g i => 20#6 ++ d ++ a ++ g ++ i
  | .stb d a g i => 21#6 ++ d ++ a ++ g ++ 0#2 ++ i
  | .sth d a g i => 21#6 ++ d ++ a ++ g ++ 1#2 ++ i
  | .stw d a g i => 21#6 ++ d ++ a ++ g ++ 2#2 ++ i
  | .std d a g i => 21#6 ++ d ++ a ++ g ++ 3#2 ++ i
  | .ldt d a g i => 22#6 ++ d ++ a ++ g ++ i
  | .stt d a g i => 23#6 ++ d ++ a ++ g ++ i
  | .amoAdd d a b g o z => 24#6 ++ d ++ a ++ b ++ g ++ o ++ z ++ 0#4
  | .amoAnd d a b g o z => 24#6 ++ d ++ a ++ b ++ g ++ o ++ z ++ 1#4
  | .amoOr d a b g o z => 24#6 ++ d ++ a ++ b ++ g ++ o ++ z ++ 2#4
  | .amoXor d a b g o z => 24#6 ++ d ++ a ++ b ++ g ++ o ++ z ++ 3#4
  | .amoMin d a b g o z => 24#6 ++ d ++ a ++ b ++ g ++ o ++ z ++ 4#4
  | .amoMax d a b g o z => 24#6 ++ d ++ a ++ b ++ g ++ o ++ z ++ 5#4
  | .amoMinu d a b g o z => 24#6 ++ d ++ a ++ b ++ g ++ o ++ z ++ 6#4
  | .amoMaxu d a b g o z => 24#6 ++ d ++ a ++ b ++ g ++ o ++ z ++ 7#4
  | .amoSwp d a b g o z => 24#6 ++ d ++ a ++ b ++ g ++ o ++ z ++ 8#4
  | .amoFadd d a b g o => 24#6 ++ d ++ a ++ b ++ g ++ o ++ 9#5
  | .amoBfadd d a b g o => 24#6 ++ d ++ a ++ b ++ g ++ o ++ 10#5
  | .amocas d a b g o z => 25#6 ++ d ++ a ++ b ++ g ++ o ++ z ++ 0#4
  | .redtAdd a b g o => 800#11 ++ a ++ b ++ g ++ o ++ 8#5
  | .redtFadd a b g o => 800#11 ++ a ++ b ++ g ++ o ++ 9#5
  | .redtBfadd a b g o => 800#11 ++ a ++ b ++ g ++ o ++ 10#5
  | .redtMin a b g o => 800#11 ++ a ++ b ++ g ++ o ++ 11#5
  | .redtMax a b g o => 800#11 ++ a ++ b ++ g ++ o ++ 12#5
  | .br g o => 26#6 ++ g ++ o
  | .jmp o => 416#10 ++ o
  | .call d i => 27#6 ++ d ++ i
  | .loopImm l c n => 28#6 ++ l ++ 0#1 ++ c ++ n ++ 0#4
  | .loopReg l s n => 28#6 ++ l ++ 64#7 ++ s ++ n ++ 0#4
  | .cmpi d a c i => 116#8 ++ d ++ a ++ c ++ i
  | .cmp d a b g c => 120#8 ++ d ++ a ++ b ++ g ++ 0#3 ++ c
  | .plogAnd d a b g => 120#8 ++ d ++ 0#2 ++ a ++ 0#2 ++ b ++ g ++ 16#7
  | .plogOr d a b g => 120#8 ++ d ++ 0#2 ++ a ++ 0#2 ++ b ++ g ++ 17#7
  | .plogXor d a b g => 120#8 ++ d ++ 0#2 ++ a ++ 0#2 ++ b ++ g ++ 18#7
  | .plogNot d a g => 120#8 ++ d ++ 0#2 ++ a ++ 0#5 ++ g ++ 19#7
  | .s2p d a g => 120#8 ++ d ++ a ++ 0#5 ++ g ++ 20#7
  | .p2s d a g => 30#6 ++ d ++ 0#2 ++ a ++ 0#5 ++ g ++ 21#7
  | .jr d a g => 30#6 ++ d ++ a ++ 0#5 ++ g ++ 24#7
  | .lbrk l g => 30720#16 ++ l ++ g ++ 25#7
  | .wait a g => 960#11 ++ a ++ 0#5 ++ g ++ 26#7
  | .halt g => 983040#21 ++ g ++ 27#7
  | .srd d n => 31#6 ++ d ++ 0#5 ++ n ++ 0#4
  | .swr a n => 992#11 ++ a ++ n ++ 1#4
  | .srs d a n => 31#6 ++ d ++ a ++ n ++ 2#4
  | .src d a n => 31#6 ++ d ++ a ++ n ++ 3#4
  | .trap n => 31744#16 ++ n ++ 4#4
  | .eret => 2080374789#32
  | .fence d w s => 31#6 ++ d ++ 0#13 ++ w ++ s ++ 6#4
  | .wsync => 2080374791#32
  | .msg d a m => 31#6 ++ d ++ a ++ 0#10 ++ m ++ 8#4
  | .nextp d => 31#6 ++ d ++ 9#21
  | .vfma d a b c m i o k => 32#6 ++ d ++ a ++ b ++ c ++ m ++ i ++ o ++ k
  | .vfms d a b c m i o k => 33#6 ++ d ++ a ++ b ++ c ++ m ++ i ++ o ++ k
  | .vfnma d a b c m i o k => 34#6 ++ d ++ a ++ b ++ c ++ m ++ i ++ o ++ k
  | .vsel d a b c m k => 35#6 ++ d ++ a ++ b ++ c ++ m ++ 0#2 ++ k
  | .vimac d a b c m k => 36#6 ++ d ++ a ++ b ++ c ++ m ++ 0#2 ++ k
  | .vadd d a b m i o k => 37#6 ++ d ++ a ++ b ++ 0#5 ++ m ++ i ++ o ++ k
  | .vsub d a b m i o k => 37#6 ++ d ++ a ++ b ++ 1#5 ++ m ++ i ++ o ++ k
  | .vmul d a b m i o k => 37#6 ++ d ++ a ++ b ++ 2#5 ++ m ++ i ++ o ++ k
  | .vmax d a b m i o k => 37#6 ++ d ++ a ++ b ++ 3#5 ++ m ++ i ++ o ++ k
  | .vmin d a b m i o k => 37#6 ++ d ++ a ++ b ++ 4#5 ++ m ++ i ++ o ++ k
  | .vabs d a m i o k => 37#6 ++ d ++ a ++ 5#10 ++ m ++ i ++ o ++ k
  | .vneg d a m i o k => 37#6 ++ d ++ a ++ 6#10 ++ m ++ i ++ o ++ k
  | .vcps d a b m i o k => 37#6 ++ d ++ a ++ b ++ 7#5 ++ m ++ i ++ o ++ k
  | .vcls d a m i k => 37#6 ++ d ++ a ++ 8#10 ++ m ++ i ++ 0#1 ++ k
  | .vdot d a b m i o k => 37#6 ++ d ++ a ++ b ++ 9#5 ++ m ++ i ++ o ++ k
  | .vexpf d a m i o k => 37#6 ++ d ++ a ++ 10#10 ++ m ++ i ++ o ++ k
  | .vlogf d a m i o k => 37#6 ++ d ++ a ++ 11#10 ++ m ++ i ++ o ++ k
  | .vscale d a b m i o k => 37#6 ++ d ++ a ++ b ++ 12#5 ++ m ++ i ++ o ++ k
  | .vgetx d a m i o k => 37#6 ++ d ++ a ++ 13#10 ++ m ++ i ++ o ++ k
  | .vrcp d a m i o k => 37#6 ++ d ++ a ++ 14#10 ++ m ++ i ++ o ++ k
  | .vrsq d a m i o k => 37#6 ++ d ++ a ++ 15#10 ++ m ++ i ++ o ++ k
  | .vcmp d a b c m i k => 37#6 ++ d ++ a ++ b ++ 2#2 ++ c ++ m ++ i ++ 0#1 ++ k
  | .viadd d a b m k => 38#6 ++ d ++ a ++ b ++ 0#5 ++ m ++ 0#2 ++ k
  | .visub d a b m k => 38#6 ++ d ++ a ++ b ++ 1#5 ++ m ++ 0#2 ++ k
  | .vimul d a b m k => 38#6 ++ d ++ a ++ b ++ 2#5 ++ m ++ 0#2 ++ k
  | .vand d a b m k => 38#6 ++ d ++ a ++ b ++ 3#5 ++ m ++ 0#2 ++ k
  | .vor d a b m k => 38#6 ++ d ++ a ++ b ++ 4#5 ++ m ++ 0#2 ++ k
  | .vxor d a b m k => 38#6 ++ d ++ a ++ b ++ 5#5 ++ m ++ 0#2 ++ k
  | .vshl d a b m k => 38#6 ++ d ++ a ++ b ++ 6#5 ++ m ++ 0#2 ++ k
  | .vshr d a b m k => 38#6 ++ d ++ a ++ b ++ 7#5 ++ m ++ 0#2 ++ k
  | .vsar d a b m k => 38#6 ++ d ++ a ++ b ++ 8#5 ++ m ++ 0#2 ++ k
  | .vimin d a b m k => 38#6 ++ d ++ a ++ b ++ 9#5 ++ m ++ 0#2 ++ k
  | .vimax d a b m k => 38#6 ++ d ++ a ++ b ++ 10#5 ++ m ++ 0#2 ++ k
  | .vcnt d a m k => 38#6 ++ d ++ a ++ 11#10 ++ m ++ 0#2 ++ k
  | .vsumt d a m i o k => 39#6 ++ d ++ a ++ 0#10 ++ m ++ i ++ o ++ k
  | .vmaxt d a m i o k => 39#6 ++ d ++ a ++ 1#10 ++ m ++ i ++ o ++ k
  | .vscan d a m i o k => 39#6 ++ d ++ a ++ 2#10 ++ m ++ i ++ o ++ k
  | .vperm d a b m k => 39#6 ++ d ++ a ++ b ++ 3#5 ++ m ++ 0#2 ++ k
  | .vshuf d a b m k => 39#6 ++ d ++ a ++ b ++ 4#5 ++ m ++ 0#2 ++ k
  | .vbcst d a b m k => 39#6 ++ d ++ a ++ b ++ 5#5 ++ m ++ 0#2 ++ k
  | .vins d a b => 39#6 ++ d ++ a ++ b ++ 384#11
  | .vext d a b => 39#6 ++ d ++ a ++ b ++ 448#11
  | .vhist d a b m => 39#6 ++ d ++ a ++ b ++ 8#5 ++ m ++ 0#3
  | .vhmrg d a b m k => 39#6 ++ d ++ a ++ b ++ 9#5 ++ m ++ 0#2 ++ k
  | .vmsk d a b m k => 39#6 ++ d ++ a ++ b ++ 10#5 ++ m ++ 0#2 ++ k
  | .vcvt d a t f r v i o k => 40#6 ++ d ++ a ++ t ++ f ++ r ++ v ++ i ++ o ++ k
  | .vrndi d a t f r v i o k => 41#6 ++ d ++ a ++ t ++ f ++ r ++ v ++ i ++ o ++ k
  | .vftoi d a t f r v i o k => 42#6 ++ d ++ a ++ t ++ f ++ r ++ v ++ i ++ o ++ k
  | .vitof d a t f r v i o k => 43#6 ++ d ++ a ++ t ++ f ++ r ++ v ++ i ++ o ++ k
  | .vpack d a t f r v i o k => 44#6 ++ d ++ a ++ t ++ f ++ r ++ v ++ i ++ o ++ k
  | .vunpk d a t f r v i o k => 45#6 ++ d ++ a ++ t ++ f ++ r ++ v ++ i ++ o ++ k
  | .vbfp d a b m i => 46#6 ++ d ++ a ++ b ++ 0#5 ++ m ++ i ++ 0#2
  | .vpld d a b m k => 46#6 ++ d ++ a ++ b ++ 1#5 ++ m ++ 0#2 ++ k
  | .ldts d a b m k => 47#6 ++ d ++ a ++ b ++ 0#5 ++ m ++ 0#2 ++ k
  | .stts d a b m k => 47#6 ++ d ++ a ++ b ++ 1#5 ++ m ++ 0#2 ++ k
  | .ldtg d a b m k => 47#6 ++ d ++ a ++ b ++ 2#5 ++ m ++ 0#2 ++ k
  | .sttg d a b m k => 47#6 ++ d ++ a ++ b ++ 3#5 ++ m ++ 0#2 ++ k
  | .cfg d a b g => 48#6 ++ d ++ a ++ b ++ g ++ 0#7
  | .cfgw d g => 48#6 ++ d ++ 0#10 ++ g ++ 1#7
  | .pusht a b g => 1568#11 ++ a ++ b ++ g ++ 0#7
  | .popt d a g => 49#6 ++ d ++ a ++ 0#5 ++ g ++ 1#7
  | .drn d a b g => 49#6 ++ d ++ a ++ b ++ g ++ 2#7
  | .cpy d a g => 50#6 ++ d ++ a ++ 0#5 ++ g ++ 0#7
  | .cpySlice d a g => 50#6 ++ d ++ a ++ 0#5 ++ g ++ 0#7
  | .cpyw d g => 50#6 ++ d ++ 0#10 ++ g ++ 1#7
  | .ocl d a g => 51#6 ++ d ++ a ++ 0#5 ++ g ++ 0#7
  | .orl a g => 1632#11 ++ a ++ 0#5 ++ g ++ 1#7
  | .old d a b g => 51#6 ++ d ++ a ++ b ++ g ++ 2#7
  | .ost d a b g => 51#6 ++ d ++ a ++ b ++ g ++ 3#7
  | .hoopArrive d a b g => 52#6 ++ d ++ a ++ b ++ g ++ 0#7
  | .hoopArm d a b g => 52#6 ++ d ++ a ++ b ++ g ++ 0#7
  | .hoopQuery d a b g => 52#6 ++ d ++ a ++ b ++ g ++ 0#7
  | .pub d a g => 52#6 ++ d ++ a ++ 0#5 ++ g ++ 1#7
  | .ple d a g => 53#6 ++ d ++ a ++ 0#5 ++ g ++ 0#7
  | .mig d a g => 53#6 ++ d ++ a ++ 0#5 ++ g ++ 1#7
  | .migSp d a g => 53#6 ++ d ++ a ++ 0#5 ++ g ++ 2#7
  | .hsplit d a b g => 53#6 ++ d ++ a ++ b ++ g ++ 3#7
  | .ptew d a b g => 54#6 ++ d ++ a ++ b ++ g ++ 0#7
  | .ptecas d a b g => 54#6 ++ d ++ a ++ b ++ g ++ 1#7
  | .pinv d a g => 54#6 ++ d ++ a ++ 0#5 ++ g ++ 2#7
  | .wardw a b g => 1760#11 ++ a ++ b ++ g ++ 0#7
  | .nopc => 0#32
  | .tgt r c l => 1#4 ++ r ++ c ++ 0#7 ++ l
  | .ext r c => 2#4 ++ r ++ c ++ 0#8
  | .tgtr r c h w l => 3#4 ++ r ++ c ++ h ++ w ++ 0#3 ++ l
  | .fld f v => 4#4 ++ f ++ v
  | .fldh v => 20480#16 ++ v
  | .row n => 6#4 ++ n ++ 0#22
  | .typeWord t i s p m => 7#4 ++ t ++ i ++ s ++ p ++ m
  | .img c s => 8#4 ++ c ++ 0#6 ++ s
  | .commit i => 36#6 ++ i ++ 0#16
  | .sealWord c => 40960#16 ++ c
  | .clrt => 2952790016#32
  | .cellMacf q i o f x => 7028#18 ++ q ++ i ++ o ++ f ++ x
  | .cellMacb q i o f x => 11124#18 ++ q ++ i ++ o ++ f ++ x
  | .cellMacp q i o f x => 15220#18 ++ q ++ i ++ o ++ f ++ x
  | .cellWload d a q i o x => 4#6 ++ d ++ a ++ 0#6 ++ q ++ i ++ o ++ 0#4 ++ x
  | .cellWplt d a q i o x => 5#6 ++ d ++ a ++ 0#6 ++ q ++ i ++ o ++ 0#4 ++ x
  | .cellPsum d a b q i o x => 6#6 ++ d ++ a ++ b ++ 0#3 ++ q ++ i ++ o ++ 0#4 ++ x
  | .cellPass d a q i o x => 7#6 ++ d ++ a ++ 0#6 ++ q ++ i ++ o ++ 0#4 ++ x
  | .cellBubl d q i o x => 8#6 ++ d ++ 0#9 ++ q ++ i ++ o ++ 0#4 ++ x
  | .cellSelr d a b q i o x => 9#6 ++ d ++ a ++ b ++ 0#3 ++ q ++ i ++ o ++ 0#4 ++ x
  | .cellRsum d a b q i o f x => 10#6 ++ d ++ a ++ b ++ 0#3 ++ q ++ i ++ o ++ f ++ x
  | .cellRmax d a b q i o f x => 11#6 ++ d ++ a ++ b ++ 0#3 ++ q ++ i ++ o ++ f ++ x
  | .cellRmin d a b q i o f x => 12#6 ++ d ++ a ++ b ++ 0#3 ++ q ++ i ++ o ++ f ++ x
  | .cellRfold d a b q i o f x => 13#6 ++ d ++ a ++ b ++ 0#3 ++ q ++ i ++ o ++ f ++ x
  | .cellAgen q i o s => 57344#18 ++ q ++ i ++ o ++ 0#4 ++ s
  | .cellAreq q i o s => 61440#18 ++ q ++ i ++ o ++ 0#4 ++ s
  | .cellAstq a q i o s => 128#9 ++ a ++ 0#6 ++ q ++ i ++ o ++ 0#4 ++ s
  | .cellAred a q i o s => 136#9 ++ a ++ 0#6 ++ q ++ i ++ o ++ 0#4 ++ s
  | .cellAwin d q i o w => 18#6 ++ d ++ 0#9 ++ q ++ i ++ o ++ 0#4 ++ w
  | .cellFeedr q i o f e => 77824#18 ++ q ++ i ++ o ++ f ++ e
  | .cellOutr q i o e => 81920#18 ++ q ++ i ++ o ++ 0#4 ++ e
  | .cellVadd d a b c q i o f x => 24#6 ++ d ++ a ++ b ++ c ++ q ++ i ++ o ++ f ++ x
  | .cellVsub d a b c q i o f x => 25#6 ++ d ++ a ++ b ++ c ++ q ++ i ++ o ++ f ++ x
  | .cellVmul d a b c q i o f x => 26#6 ++ d ++ a ++ b ++ c ++ q ++ i ++ o ++ f ++ x
  | .cellVfma d a b c q i o f x => 27#6 ++ d ++ a ++ b ++ c ++ q ++ i ++ o ++ f ++ x
  | .cellVfms d a b c q i o f x => 28#6 ++ d ++ a ++ b ++ c ++ q ++ i ++ o ++ f ++ x
  | .cellVfnma d a b c q i o f x => 29#6 ++ d ++ a ++ b ++ c ++ q ++ i ++ o ++ f ++ x
  | .cellVmax d a b c q i o f x => 30#6 ++ d ++ a ++ b ++ c ++ q ++ i ++ o ++ f ++ x
  | .cellVmin d a b c q i o f x => 31#6 ++ d ++ a ++ b ++ c ++ q ++ i ++ o ++ f ++ x
  | .cellVabs d a b c q i o f x => 32#6 ++ d ++ a ++ b ++ c ++ q ++ i ++ o ++ f ++ x
  | .cellVneg d a b c q i o f x => 33#6 ++ d ++ a ++ b ++ c ++ q ++ i ++ o ++ f ++ x
  | .cellVcps d a b c q i o f x => 34#6 ++ d ++ a ++ b ++ c ++ q ++ i ++ o ++ f ++ x
  | .cellVcmp d a b c q i o f n => 35#6 ++ d ++ a ++ b ++ c ++ q ++ i ++ o ++ f ++ 0#2 ++ n
  | .cellVsel d a b c q i o f x => 36#6 ++ d ++ a ++ b ++ c ++ q ++ i ++ o ++ f ++ x
  | .cellVcls d a b c q i o f x => 37#6 ++ d ++ a ++ b ++ c ++ q ++ i ++ o ++ f ++ x
  | .cellVcvt d a b c q i o f x => 38#6 ++ d ++ a ++ b ++ c ++ q ++ i ++ o ++ f ++ x
  | .cellVrndi d a b c q i o f x => 39#6 ++ d ++ a ++ b ++ c ++ q ++ i ++ o ++ f ++ x
  | .cellVftoi d a b c q i o f x => 40#6 ++ d ++ a ++ b ++ c ++ q ++ i ++ o ++ f ++ x
  | .cellVitof d a b c q i o f x => 41#6 ++ d ++ a ++ b ++ c ++ q ++ i ++ o ++ f ++ x
  | .cellVexpf d a b c q i o f x => 42#6 ++ d ++ a ++ b ++ c ++ q ++ i ++ o ++ f ++ x
  | .cellVlogf d a b c q i o f x => 43#6 ++ d ++ a ++ b ++ c ++ q ++ i ++ o ++ f ++ x
  | .cellVscale d a b c q i o f x => 44#6 ++ d ++ a ++ b ++ c ++ q ++ i ++ o ++ f ++ x
  | .cellVgetx d a b c q i o f x => 45#6 ++ d ++ a ++ b ++ c ++ q ++ i ++ o ++ f ++ x
  | .cellVrcp d a b c q i o f x => 46#6 ++ d ++ a ++ b ++ c ++ q ++ i ++ o ++ f ++ x
  | .cellVrsq d a b c q i o f x => 47#6 ++ d ++ a ++ b ++ c ++ q ++ i ++ o ++ f ++ x
  | .cellVdot d a b c q i o f x => 48#6 ++ d ++ a ++ b ++ c ++ q ++ i ++ o ++ f ++ x
  | .cellVsumt d a b c q i o f x => 49#6 ++ d ++ a ++ b ++ c ++ q ++ i ++ o ++ f ++ x
  | .cellVmaxt d a b c q i o f x => 50#6 ++ d ++ a ++ b ++ c ++ q ++ i ++ o ++ f ++ x
  | .cellVscan d a b c q i o f x => 51#6 ++ d ++ a ++ b ++ c ++ q ++ i ++ o ++ f ++ x
  | .cellVperm d a b c q i o f x => 52#6 ++ d ++ a ++ b ++ c ++ q ++ i ++ o ++ f ++ x
  | .cellVshuf d a c q i o f x => 53#6 ++ d ++ a ++ 0#3 ++ c ++ q ++ i ++ o ++ f ++ x
  | .cellVbcst d a c q i o f x => 54#6 ++ d ++ a ++ 0#3 ++ c ++ q ++ i ++ o ++ f ++ x
  | .cellVhist d a b c q i o f x => 55#6 ++ d ++ a ++ b ++ c ++ q ++ i ++ o ++ f ++ x
  | .cellVhmrg d a b c q i o f x => 56#6 ++ d ++ a ++ b ++ c ++ q ++ i ++ o ++ f ++ x
  | .cellVpack d a b c q i o f x => 57#6 ++ d ++ a ++ b ++ c ++ q ++ i ++ o ++ f ++ x
  | .cellVunpk d a b c q i o f x => 58#6 ++ d ++ a ++ b ++ c ++ q ++ i ++ o ++ f ++ x
  | .cellVbfp d a b c q i o f x => 59#6 ++ d ++ a ++ b ++ c ++ q ++ i ++ o ++ f ++ x
  | .cellVpld d a q i o f x => 60#6 ++ d ++ a ++ 0#6 ++ q ++ i ++ o ++ f ++ x
  | .cellVmsk d a b c q i o f x => 61#6 ++ d ++ a ++ b ++ c ++ q ++ i ++ o ++ f ++ x
  | .cellViadd d a b c q f => 62#6 ++ d ++ a ++ b ++ c ++ q ++ 0#2 ++ f ++ 0#5
  | .cellVisub d a b c q f => 62#6 ++ d ++ a ++ b ++ c ++ q ++ 0#2 ++ f ++ 1#5
  | .cellVimul d a b c q f => 62#6 ++ d ++ a ++ b ++ c ++ q ++ 0#2 ++ f ++ 2#5
  | .cellVand d a b c q f => 62#6 ++ d ++ a ++ b ++ c ++ q ++ 0#2 ++ f ++ 3#5
  | .cellVor d a b c q f => 62#6 ++ d ++ a ++ b ++ c ++ q ++ 0#2 ++ f ++ 4#5
  | .cellVxor d a b c q f => 62#6 ++ d ++ a ++ b ++ c ++ q ++ 0#2 ++ f ++ 5#5
  | .cellVshl d a b c q f => 62#6 ++ d ++ a ++ b ++ c ++ q ++ 0#2 ++ f ++ 6#5
  | .cellVshr d a b c q f => 62#6 ++ d ++ a ++ b ++ c ++ q ++ 0#2 ++ f ++ 7#5
  | .cellVsar d a b c q f => 62#6 ++ d ++ a ++ b ++ c ++ q ++ 0#2 ++ f ++ 8#5
  | .cellVimin d a b c q f => 62#6 ++ d ++ a ++ b ++ c ++ q ++ 0#2 ++ f ++ 9#5
  | .cellVimax d a b c q f => 62#6 ++ d ++ a ++ b ++ c ++ q ++ 0#2 ++ f ++ 10#5
  | .cellVcnt d a b c q f => 62#6 ++ d ++ a ++ b ++ c ++ q ++ 0#2 ++ f ++ 11#5
  | .cellVimac d a b c q f => 62#6 ++ d ++ a ++ b ++ c ++ q ++ 0#2 ++ f ++ 12#5
  | .illegalRimWord w => w
  | .tcrWrite _
  | .tcrReseed _
  | .fstatClear _
  | .rndWrite _ _
  | .statusWrite _
  | .lcsWrite _
  | .lcWrite _ _
  | .thdrWrite _
  | .mailstClear _
  | .nxcurWrite _
  | .energyWrite _
  | .registerWrite _ _
  | .frWrite _ _ _ _
  | .bankcmdGo _ _
  | .bankrtClear _ _ _
  | .preempt _
  | .mgmtreq _
  | .msgArrive _ _
  | .loadReturn _
  | .waitRelease _
  | .fenceComplete _
  | .haltComplete _
  | .commandStart _ _
  | .cfgStreamRead _
  | .regionStart _
  | .regionRunOut _ _
  | .regionDrainPoint _ _
  | .regionSwitch _ _
  | .holdRaise _ _
  | .holdDrop _ _
  | .windowCheck _ _ _
  | .windowReplyArrive _
  | .feedDeliver _ _
  | .omReadDeviation _ _ _ _
  | .drainSample _ _
  | .gateBeatArrive _
  | .droopStretch _
  | .spineSourceLoss _ _
  | .spineAltLocked _
  | .spineFreqChange _ _
  | .referenceTick
  | .hubRequest
  | .noticeMapped _
  | .noticeAbort _
  | .creelReplay _
  | .creelOutcomeReport _
  | .keyFlip _
  | .hoopOpen _
  | .hoopAbandon _
  | .oclGrant _ _
  | .copyComplete _ _
  | .encodeComplete _
  | .migTryEnd _
  | .migSpSwitch _
  | .hsplitSliceDone _ _
  | .pinvDone _ _
  | .bankRetireMark _ _ _
  | .restripeDone _ _
  | .cacheDieEarlyStop _
  | .cacheDiePowerLoss _
  | .queueTailNotify _
  | .launchRecord _
  | .launchPriorityAge
  | .bindDispatch _ _
  | .graphPreempt _
  | .graphRestore _ _
  | .drainRequest _
  | .graphDrained _
  | .drainTimeout _
  | .graphComplete _
  | .thermalEmergency
  | .thermalClear
  | .mbxComputeReset _
  | .mbxIslandReset _
  | .mbxReadJournal _ _ _ _
  | .mbxAttestation _ _ _
  | .mbxLoadFirmware _ _ _
  | .mbxInstallQueue _ _ _
  | .mbxSetPowerBudget _ _
  | .computeWatchdog
  | .orphanTimeout
  | .islandWatchdog
  | .hingelinkHotReset
  | .islandFirmwareStart
  | .mainSupplyLoss
  | .powerUp
  | .hingelinkLinkDown
  | .flitReceive _ _ _
  | .packetHop _
  | .escapeTimeout _
  | .linkDown _
  | .remoteRequestTimeout _
  | .routeTableLoad _ _ _ _ _
  | .routeTableRetire _
  | .writeAcknowledgement _
  | .companionInvalidateAck _
  | .throttleByBudget
  | .cacheDieReturn _
  | .standbySupplyLoss
  | .slotEviction _ _ _
  | .poisonBitClear _ => 0

/-- The decoder of an instruction's own kind (R10). -/
noncomputable def decodeAs (kind : Nat) (w : Word) : Except Reject Instr :=
  match kind with
  | 0 => decodeRim w
  | 1 => decodeCword w
  | _ => decodeCell w

end Sys2Proof
end

