-- ==== Sys2Proof/Machine/Types.lean ====
section
/-! DEFINITION. Tokens and beats as plain data (R13, R53, R74, R187). -/

namespace Sys2Proof.Machine

/-- A token (R53, R74): 16 lanes of 32 bits, lane l at bits [32 l + 31 : 32 l], and its header: format tag, exponent byte,
bubble flag, and the valid and predicate bits of its elements. -/
structure Token where
  data : Line
  tag : BitVec 4
  exp : BitVec 8
  bub : Bool
  valid : BitVec 16
  pred : BitVec 16
  deriving DecidableEq, Repr

/-- The reset token (R74): lanes 0, tag FP32, exponent 0, bubble clear, every valid bit set, every predicate bit clear. -/
def Token.reset : Token := ⟨0, 0, 0, false, 0xFFFF, 0⟩

/-- The bubble token of a tag (R120, R187): lanes 0, valid and predicate bits clear, bubble flag set, exponent 0. -/
def Token.bubble (tag : BitVec 4) : Token := ⟨0, tag, 0, true, 0, 0⟩

/-- A beat (R13, R187): 512 data bits holding P tokens of its tag end to end, and the sideband: the tag, one exponent byte
per token position, the bubble flag, and valid and predicate bits, those of token position q at bits [16 q + 15 : 16 q]. -/
structure Beat where
  data : Line
  tag : BitVec 4
  exps : BitVec 64
  bub : Bool
  valid : BitVec 128
  pred : BitVec 128
  deriving DecidableEq, Repr

/-- The bubble beat (R187, R251). -/
def Beat.bubble : Beat := ⟨0, 0, 0, true, 0, 0⟩

/-- The sixteen stochastic-rounding generators of a rim context or of a cell (R56). -/
abbrev Gens := Vector (BitVec 32) 16

/-- R56: the generators seeded by a 16-bit value: (S << 16) OR 0x5A00 OR lane. -/
def Gens.seeded (s : BitVec 16) : Gens :=
  Vector.ofFn fun l => s ++ (0x5A00#16 ||| BitVec.ofNat 16 l.val)

end Sys2Proof.Machine
end

