-- ==== Sys2Proof/Machine/RimState.lean ====
section
/-! DEFINITION. The state of a rim core and of its tile as plain data (R74 to R85, R159 to R162, R207, R211, R212, R235 to
R237, R274, R285 to R289, R294, R305, R356, R377, R391 to R395). A register file is a vector of its registers; a memory, a
code store or a table is a list of (address, value) pairs with rising addresses and no entry equal to what an unlisted
address reads as. -/

namespace Sys2Proof.Machine

/-- A sparse table: keys strictly rising, no entry equal to the default. -/
abbrev Sparse (α : Type) := List (Nat × α)

/-- A ward (R305). Its reserved bits are never set (R306). -/
structure Ward where
  v : Bool
  pr : Bool
  pw : Bool
  px : Bool
  scope : BitVec 3
  vbase : BitVec 32
  vlimit : BitVec 32
  iabase : BitVec 28
  modnum : BitVec 14
  isRemote : Bool
  deriving DecidableEq, Repr

/-- R305: all four words reset to 0. -/
def Ward.reset : Ward := ⟨false, false, false, false, 0, 0, 0, 0, 0, false⟩

/-- The staged words 1 to 3 of a ward (R235). -/
structure StagedWard where
  w1 : BitVec 64
  w2 : BitVec 64
  w3 : BitVec 64
  deriving DecidableEq, Repr

/-- The accumulated FENCE state (R111, R229). -/
structure FenceAcc where
  dead : Bool
  refused : Bool
  poison : Bool
  orphan : Bool
  aborted : Bool
  fails : BitVec 12
  firstIa : BitVec 44
  deriving DecidableEq, Repr

/-- Nothing accumulated. -/
def FenceAcc.reset : FenceAcc := ⟨false, false, false, false, false, 0, 0⟩

/-- The command that a job works for: tile of the issuing core and number of the command. -/
structure CmdRef where
  tile : Nat
  serial : Nat
  deriving DecidableEq, Repr

/-- A status in the making: code, reason, detail (R208, R209). -/
structure Status where
  code : BitVec 8
  reason : BitVec 8
  detail : BitVec 32
  deriving DecidableEq, Repr

/-- What came back over the strand ports for a read (R326, R403, R408): its value, or the failure as a status has it. -/
inductive RemoteAnswer where
  | value (v : Nat)
  | failed (st : Status)
  deriving DecidableEq, Repr

/-- STATE of a creel entry (R288). -/
inductive EntryState where
  | pending
  | ended
  deriving DecidableEq, Repr

/-- A creel entry (R288), or the entry that is reserved for a write on its way (R285). `key`, `hoop` and `ref` are those of an engine's line write (R225, R226, R289). -/
structure CreelEntry where
  ia : BitVec 44
  op : BitVec 3
  scope : BitVec 3
  attr : BitVec 2
  ord : Bool
  state : EntryState
  mask : BitVec 64
  ctx : BitVec 16
  out : BitVec 6
  seq : Nat
  data : Line
  key : Option (BitVec 8)
  hoop : Option (BitVec 6)
  ref : Option CmdRef
  /-- the module that the write goes to, for an access through a ward with REMOTE = 1 (R326) -/
  dest : Option (BitVec 14)
  deriving DecidableEq, Repr

/-- A store or reduction on its way to another module: the number of its request, the creel entry that is reserved for it
(R285, R326), and whether it is replayed from the creel (R287). -/
structure RemoteWrite where
  id : Nat
  entry : CreelEntry
  again : Bool
  deriving DecidableEq, Repr

/-- An instruction that has been fetched and waits: its word, and the scalar registers that it read at issue (R157, R169). The
other registers do not change while their core waits. -/
structure Held where
  word : BitVec 32
  sregs : Vector (BitVec 64) 32
  deriving DecidableEq, Repr

/-- A write that has been sent and not yet reported: the reservation of R285. `out` is the outcome that its report carries, in
the bit positions of R229 [5:0]. -/
structure SentWrite where
  ia : BitVec 44
  ctx : BitVec 16
  attr : BitVec 2
  out : BitVec 6
  deriving DecidableEq, Repr

/-- The status commands (R206, R208). -/
inductive CmdKind where
  | cfg | cfgw | drn | cpy | cpyw | ocl | hoop | pub | ple | mig | migSp | hsplit | ptew | ptecas | pinv
  deriving DecidableEq, Repr

/-- Where a status command stands (R207). -/
inductive CmdState where
  /-- queued at the core -/
  | queued
  /-- its start waits for its record's page (R207 step 4) -/
  | recordWait
  /-- started: at its engine, hub, root, key or hoop -/
  | started
  deriving DecidableEq, Repr

/-- An outstanding status command: its number in issue order, kind, status register, operands, the context and mode it was
issued in, the ward that holds its record (R207 step 1), the creel entries that were made before it (those numbered below
`barrier`, R207 step 3), and where it stands. `back` is the entry that a PTECAS has still to write back to its record (R230), and
`request` the number of the request that carries it to another module. -/
structure Cmd where
  serial : Nat
  kind : CmdKind
  d : BitVec 5
  sa : BitVec 64
  sb : BitVec 64
  ctx : BitVec 16
  user : Bool
  ward : Ward
  barrier : Nat
  state : CmdState
  back : Option (BitVec 128)
  request : Option Nat
  deriving DecidableEq, Repr

/-- Why a core waits (R170). -/
inductive Stall where
  | none
  /-- WAIT on register n (R96) -/
  | wait (n : BitVec 5)
  /-- FENCE with its destination, .nw bit and scope (R111) -/
  | fence (d : BitVec 5) (nw : BitVec 1) (scope : BitVec 3)
  /-- HALT (R97) -/
  | halt
  /-- the instruction issues afresh at the core's next turn: a full creel, a full outgoing buffer, a full latch, an empty
  capture buffer, 16 outstanding commands, an SO access behind another, a slot still in use -/
  | again
  /-- a load held by a page that is not mapped (R99) -/
  | load (va : BitVec 64) (page : Nat)
  /-- a load or atomic held by a creel entry or a write on its way (R286, R319), or by a line that the companion holds modified
  (R326) -/
  | held (va : BitVec 64)
  /-- the load's notice was answered by ABORT (R284) -/
  | aborted (va : BitVec 64)
  /-- NEXTP held by a drain request, which no event interrupts (R372) -/
  | nextp
  /-- a load on its way to another module, by request number (R326) -/
  | away (id : Nat)
  deriving DecidableEq, Repr

/-- Whether the core runs a context (R97, R107, R371). -/
inductive RunState where
  /-- no context has been dispatched, or none is left -/
  | idle
  | running
  /-- HALT completed -/
  | halted
  /-- StopContext (R107) -/
  | stopped
  deriving DecidableEq, Repr

/-- The rim fault record (R294). -/
structure RimFault where
  ctx : BitVec 16
  trow : BitVec 6
  tcol : BitVec 6
  cause : BitVec 8
  async : Bool
  super : Bool
  eaddr : BitVec 64
  estat : BitVec 32
  epc : BitVec 10
  time : BitVec 64
  fenceAcc : BitVec 64
  pend : BitVec 32
  deriving DecidableEq, Repr

/-- A message in an outgoing or inbound buffer (R113, R114). -/
structure Msg where
  src : Nat
  dst : Nat
  mail : BitVec 2
  value : BitVec 64
  deriving DecidableEq, Repr

/-- A word with its check-bit condition (R159). -/
inductive CodeMark where
  | clean | corrected | uncorrectable
  deriving DecidableEq, Repr

/-- A rim core with the context it holds. -/
structure Core where
  sregs : Vector (BitVec 64) 32
  preds : BitVec 8
  toks : Vector Token 32
  masks : Vector (BitVec 16) 8
  lc : Vector (BitVec 32) 3
  pc : BitVec 10
  mode : Bool
  pmode : Bool
  le : Bool
  ple : Bool
  ctx : BitVec 16
  trow : BitVec 6
  tcol : BitVec 6
  lcsStart : Vector (BitVec 10) 3
  lcsEnd : Vector (BitVec 10) 3
  lcsAct : BitVec 3
  tsel : BitVec 5
  rm : BitVec 3
  remap : BitVec 8
  seed : BitVec 16
  fstat : BitVec 6
  rnd : Gens
  mailFull : BitVec 4
  mailOvr : BitVec 4
  tvecEntry : BitVec 10
  tvecValid : Bool
  epc : BitVec 10
  ecause : BitVec 8
  easync : Bool
  eaddr : BitVec 64
  estat : BitVec 32
  sscr : Vector (BitVec 64) 4
  energy : BitVec 48
  energySat : Bool
  ew : Vector (BitVec 16) 8
  statw : BitVec 16
  wards : Vector Ward 8
  staged : Vector StagedWard 8
  fence : FenceAcc
  nxcur : BitVec 10
  exh : Bool
  /-- the parcel number of the entry that NEXTP returned last, under this mapping or an earlier one of its graph (R236) -/
  parcel : Option Nat
  pendPreempt : Bool
  pendMgmt : Bool
  stall : Stall
  /-- registers whose last result has a latency above 1, each with the number of instructions since: an asynchronous write may
  still precede the result (R158, R169) -/
  late : List (BitVec 5 × Nat)
  /-- the fetched instruction that a stall holds (R157, R159, R169) -/
  held : Option Held
  run : RunState
  /-- the context is resident in user mode, so that reference ticks are charged (R358) -/
  resident : Bool
  /-- the rim fault record of the stopped context (R294) -/
  fault : Option RimFault
  /-- completion status of the context (R97) -/
  doneStatus : BitVec 64
  /-- outcomes and number of the creel entries that ended after a fault stop (R294, R376) -/
  lateOut : BitVec 6
  lateCnt : BitVec 12
  cmds : List Cmd
  cmdSerial : Nat
  /-- statuses of CFG since the last CFGW (R178), and of CPY and PLE since the last CPYW (R221), in issue order -/
  cfgLog : List (Nat × BitVec 64)
  cpyLog : List (Nat × BitVec 64)
  loopBuf : Sparse (BitVec 32 × CodeMark)
  outbox : List Msg
  creel : List CreelEntry
  creelSeq : Nat
  sent : List SentWrite
  /-- writes on their way to their home hub, oldest first (R99, R319) -/
  aloft : List CreelEntry
  /-- SYSTEM acknowledgements owed: lines of HC pages held by the companion, and writes on their way to other modules (R326) -/
  owedLines : List Nat
  owedRemote : List RemoteWrite
  /-- answers of other modules to the load in progress, by IA (R326) -/
  answers : List (Nat × RemoteAnswer)
  /-- attribute cache of 16 pages, newest first (R320) -/
  attrs : List (Nat × BitVec 2)
  deriving DecidableEq, Repr

/-- SPINE fields of a tile (R377). -/
structure Spine where
  sel : BitVec 3
  onAlt : Bool
  pLost : Bool
  aLost : Bool
  freq : BitVec 6
  stretch : BitVec 16
  debt : BitVec 8
  deriving DecidableEq, Repr

/-- A token of operand memory as a port slot found it (R275): token number (slot × 1024 + token), data, exponent sideband, and
whether it was poisoned. -/
structure OmImage where
  token : Nat
  data : Line
  exp : BitVec 8
  poison : Bool
  deriving DecidableEq, Repr

/-- A tile: its core, code store, operand memory bookkeeping, stream ports and fused registers. -/
structure Tile where
  core : Core
  code : Sparse (BitVec 32)
  codeMarks : Sparse CodeMark
  softErr : BitVec 32
  /-- slot owners by context number; an unlisted slot is free (R273) -/
  owners : Sparse (BitVec 16)
  omCorr : BitVec 32
  /-- poisoned tokens, numbered slot × 1024 + token (R276) -/
  omPoison : List Nat
  /-- 64-bit words with a single-bit error, numbered slot × 8192 + word (R276) -/
  omErrors : List Nat
  /-- tokens written in the present port slot, as they were before (R275) -/
  omBefore : List OmImage
  pushBeat : Beat
  /-- the slot at whose boundary the drain port last sampled (R272) -/
  lastDrain : Option Nat
  /-- capture buffers, keyed by region × 32 + position for the S edge and 16 more for the E edge, oldest beat first (R212) -/
  capture : Sparse (List Beat)
  parcels : List (BitVec 64)
  inbox : List Msg
  spine : Spine
  cdef : BitVec 22
  soff : BitVec 15
  txlt : BitVec 22
  seamLat : BitVec 48
  fdmap : Vector (BitVec 64) 3
  deriving DecidableEq, Repr

end Sys2Proof.Machine
end

