-- ==== Sys2Proof/Machine/HubState.lean ====
section
/-! DEFINITION. The state of the stack hubs as plain data: page tables, caches of translations, requests, notices, copy
engines, encoders, migrations, cache splits, format ranges, keys and hoops (R220 to R234, R283 to R289, R308 to R315, R342 to
R353). -/

namespace Sys2Proof.Machine

/-- A notice in a hub's fault queue (R283), with the IA of the access that raised it. `kind` is 0 held load, 1 creel entry, 2
engine read. -/
structure Notice where
  id : Nat
  page : Nat
  who : Issuer
  ctx : BitVec 16
  kind : BitVec 2
  ia : Nat
  time : BitVec 64
  deriving DecidableEq, Repr

/-- A copy that an engine runs or has queued (R217, R218). The wards and the context are the issuer's when the engine took it;
`tile` is that of its operand memory endpoint, `next` counts the elements or slices walked, `bytes` the destination bytes
written, `counted` the bytes still counted on the hoop, `before` the bytes that its own writes replaced (R282), `header` the segment
header of a SLICE copy, `waits` is the page that a read of the source waits for (R284), `status` is set once the copy has ended, and
`cmplDone` once CMPL has been written. -/
structure Copy where
  ref : CmdRef
  record : BitVec 1024
  wards : List Ward
  ctx : BitVec 16
  graph : Nat
  tile : Nat
  next : Nat
  bytes : Nat
  counted : Nat
  before : List (Nat × Byte)
  waits : Option Nat
  header : Option (BitVec 128)
  status : Option Status
  cmplDone : Bool
  deriving DecidableEq, Repr

/-- A copy engine (R220): its queue, oldest first, its creel of 256 entries, its writes on the way to other modules with the entries
reserved for them (R285, R326), and its attribute cache (R320). -/
structure Engine where
  queue : List Copy
  creel : List CreelEntry
  creelSeq : Nat
  owedRemote : List RemoteWrite
  attrs : List (Nat × BitVec 2)
  deriving DecidableEq, Repr

/-- An encoder record that runs or is queued (R222): the targets read so far, the segment with the final metric once the search
has run, the lines of it written, and the page that a read of the targets waits for (R284). -/
structure Encoding where
  ref : CmdRef
  record : BitVec 512
  wards : List Ward
  ctx : BitVec 16
  graph : Nat
  targets : List (BitVec 32)
  segment : Option (List Byte × BitVec 32)
  next : Nat
  waits : Option Nat
  status : Option Status
  cmplDone : Bool
  deriving DecidableEq, Repr

/-- A migration under way (R232, R233, R350): page, target frames, the entry read, the try, the write-seen mark, the lines
copied and whether it is the spliced form. -/
structure Migration where
  ref : CmdRef
  page : Nat
  frame : BitVec 24
  shadow : Option (BitVec 24)
  entry : BitVec 128
  tries : Nat
  attempt : Nat
  seen : Bool
  splice : Bool
  deriving DecidableEq, Repr

/-- An HSPLIT under way (R234): the range, the new size and the slices still to change. -/
structure Split where
  ref : CmdRef
  size : BitVec 4
  todo : List Nat
  deriving DecidableEq, Repr

/-- An arrival at a hoop (R224, R324, R403): of a HOOP ARRIVE, whose status is pending, of an engine, or of a request of another
module, whose answer is pending. -/
inductive Arrival where
  | cmd (ref : CmdRef)
  | engine
  | remote (p : Packet)
  deriving DecidableEq, Repr

/-- A hoop (R223), with the arrivals of the superstep and the early arrivals of the next one (R224). -/
structure Hoop where
  p : BitVec 13
  g : BitVec 32
  bytes : BitVec 36
  arrivals : List Arrival
  early : List Arrival
  deriving DecidableEq, Repr

/-- A hoop at compute reset. -/
def Hoop.reset : Hoop := ⟨0, 0, 0, [], []⟩

/-- A key (R226, R227): its parity, the PUB of its pending flip, the keyed work that the PUB waits for, and the instant T of the
flip once it is set. -/
structure Key where
  parity : Bool
  pending : Option CmdRef
  waits : List CmdRef
  flip : Option (BitVec 64)
  deriving DecidableEq, Repr

/-- A key at reset. -/
def Key.reset : Key := ⟨false, none, [], none⟩

/-- A format range of a hub: its four words (R342), and the staged words 1 to 3. -/
structure FormatRange where
  w0 : BitVec 64
  w1 : BitVec 64
  w2 : BitVec 64
  w3 : BitVec 64
  s1 : BitVec 64
  s2 : BitVec 64
  s3 : BitVec 64
  deriving DecidableEq, Repr

/-- A format range at reset. -/
def FormatRange.reset : FormatRange := ⟨0, 0, 0, 0, 0, 0, 0⟩

/-- One stack hub. Sparse tables: an unlisted slice has C = 8 (R234), an unlisted format range is reset, an unlisted bank map
word has every bank live. -/
structure Hub where
  cacheSize : Sparse (BitVec 4)
  ranges : Sparse FormatRange
  engines : Vector Engine 4
  encodings : List Encoding
  tlb : List (Nat × BitVec 128)
  bankMap : Sparse (BitVec 64)
  bankRt : Sparse (BitVec 64)
  setSt : BitVec 64
  frames : BitVec 64
  bankCmd : BitVec 64
  /-- frames in use, by number in the stack (R349) -/
  used : List Nat
  /-- the frame poison map (R412) and the lines cleared in poisoned frames (R413) -/
  poisonMap : List Nat
  cleared : List Nat
  /-- bank sets whose lines RESTRIPE has marked poisoned (R353) -/
  restriped : List Nat
  /-- notices of banks marked for retirement, as set and pseudo-channel, and the choice that says which lines of each marked bank are
  lost (R353) -/
  retired : List (Nat × Nat)
  lost : List (Nat × Nat × Nat)
  /-- dirty lines by frame, one bit per line (R412) -/
  dirty : Sparse Nat
  /-- 0 powered, 1 in early stop, 2 off (R412) -/
  cacheDie : BitVec 2
  deriving DecidableEq, Repr

/-- A request of the companion over HingeLink (R303, R322, R326, R409), by a number of its own. A line is numbered by its IA / 64. -/
inductive CompanionReq where
  /-- load of `n` bytes at IA `ia`; `got` holds the bytes that an earlier part has read -/
  | load (id ia n : Nat) (got : List Byte)
  /-- store of some bytes at IA `ia` -/
  | store (id ia : Nat) (bytes : List Byte)
  /-- the companion takes a copy of a line of an HC page, to read it, or to modify it -/
  | cache (id line : Nat) (modify : Bool)
  /-- the companion returns a line that it holds modified -/
  | writeBack (line : Nat) (data : Line)
  /-- the companion reads eight bytes of the status block (R410) -/
  | status (id off : Nat)
  deriving DecidableEq, Repr

/-- What the companion is answered. -/
inductive CompanionAnswer where
  | bytes (l : List Byte)
  | done
  | refused (reason : BitVec 8)
  | poisoned
  | aborted
  | orphan
  deriving DecidableEq, Repr

/-- What a request on its way to a hub asks (R309): the retry of a core's held load, the oldest write of a core on its way, the line
read of an AREQ by its number, the oldest write that a region holds back, one line of a copy or of an encoding, the next slice of an
HSPLIT, the end of a copy of a migration, a request of another module, an answer to one that waits for the companion's copy of a
line, or a request of the companion. -/
inductive HubReq where
  | rimLoad (t : Nat)
  | rimStore (t : Nat)
  | areq (g id : Nat)
  | agnStore (g r : Nat)
  | copyStep (hub e : Nat)
  | encodeStep (hub : Nat)
  | split (n slice : Nat)
  | migrate (page : Nat)
  | remote (port : Nat) (pkt : Packet)
  | answer (line : Nat) (pkt : Packet) (body : PacketBody)
  | companion (req : CompanionReq)
  deriving DecidableEq, Repr

end Sys2Proof.Machine
end

