-- ==== Sys2Proof/Machine/FabState.lean ====
section
/-! DEFINITION. The state of the fabric as plain data: cells, regions with their configuration, loop context and status,
configuration streams, graphs and gates (R176 to R205, R248 to R270, R291 to R293). -/

namespace Sys2Proof.Machine

/-- The registers of a cell that outlive its region (R187): c0 to c3 and w0 to w31. -/
structure Cell where
  c : Vector Beat 4
  w : Vector Token 32
  deriving DecidableEq, Repr

/-- R187: a cell as dispatch sets it at bind. -/
def Cell.bound : Cell := ⟨Vector.replicate 4 Beat.bubble, Vector.replicate 32 (Token.bubble 0)⟩

/-- The configuration of a region (R180, R184 to R186). `fields` holds region and stream fields by number, `words` the row
words by row, `rrte` the routes by row × 2^20 + i × 2^10 + j, `dlyIn` and `dlyOut` the delays by i × 2^10 + j, for cell (i, j)
of the region. Unlisted entries are at their reset value. -/
structure RegionCfg where
  typ : BitVec 2
  row0 : Nat
  col0 : Nat
  rows : Nat
  cols : Nat
  stage : BitVec 8
  spine : BitVec 3
  mode : BitVec 5
  fields : Sparse (BitVec 32)
  words : Sparse (BitVec 32)
  rrte : Sparse (BitVec 6)
  dlyIn : Sparse (BitVec 14)
  dlyOut : Sparse (BitVec 14)
  deriving DecidableEq, Repr

/-- An edge of a region or of a cell. -/
inductive Edge where
  | w | n | s | e
  deriving DecidableEq, Repr

/-- One window request of an edge position (R199, R200): its number, window, edge, position in the region, issue slot, and the
reply once it is in the latch. -/
structure Latch where
  id : Nat
  win : BitVec 5
  edge : Edge
  pos : Nat
  issue : Nat
  reply : Option Beat
  deriving DecidableEq, Repr

/-- An AREQ on its way (R198): its number, which is that of the latch it answers, the AGN region, the consumer region, the IA of
its line and the module of it, whether DEC is set and the tag of the reply. `barrier` counts the creel entries that were made before
it, `remote` is the number of its request to another module, `held` the page that it waits for (R284), and `answer` the reply on its
way to the latch. -/
structure AgnReq where
  id : Nat
  agn : Nat
  consumer : Nat
  ia : Nat
  dest : Option (BitVec 14)
  dec : Bool
  tag : BitVec 4
  barrier : Nat
  remote : Option Nat
  held : Option Nat
  answer : Option Beat
  deriving DecidableEq, Repr

/-- A result that lands at the end of a slot (R188): cell (i, j), destination code, slot, beat, and the elements that the guard
lets through (R37). -/
structure Landing where
  i : Nat
  j : Nat
  dest : BitVec 3
  slot : Nat
  beat : Beat
  allow : BitVec 128
  deriving DecidableEq, Repr

/-- A feed beat on its way to an edge input (R201): cell of the region, edge, the slot in which it is the input, and the tile and
byte X of the token that it carries (R276). -/
structure FeedBeat where
  i : Nat
  j : Nat
  edge : Edge
  due : Nat
  tile : Nat
  x : Nat
  beat : Beat
  deriving DecidableEq, Repr

/-- An OUTR of the slot that runs, which waits for the beats of the slot's end (R202): the feed's fields and its cursor. -/
structure OutTake where
  fda : BitVec 32
  fdb : BitVec 32
  cur : Nat
  deriving DecidableEq, Repr

/-- The region status bits of R291 that are not read from elsewhere. -/
structure RegionStatus where
  flags : BitVec 6
  coll : Bool
  drop : Bool
  refused : Bool
  poison : Bool
  aborted : Bool
  gatef : Bool
  fails : BitVec 12
  firstIa : BitVec 44
  deriving DecidableEq, Repr

/-- A clear status. -/
def RegionStatus.reset : RegionStatus := ⟨0, false, false, false, false, false, false, 0, 0⟩

/-- STATE of a region's loop context (R291). -/
inductive LoopState where
  | idle | running | paused | runOut
  deriving DecidableEq, Repr

/-- A write that a region holds back (R285, R319, R320): the number that its graph's next request had as it was issued, and the
write. -/
structure HeldWrite where
  pos : Nat
  entry : CreelEntry
  deriving DecidableEq, Repr

/-- A committed region. -/
structure Region where
  id : Nat
  cfg : RegionCfg
  /-- the configuration that a running region switches to at its drain point (R266) -/
  next : Option RegionCfg
  loop : LoopState
  slots : Nat
  pass : Nat
  sv : BitVec 8
  /-- counters n0, n1, n2 of the streams (R198) -/
  counters : Sparse (Nat × Nat × Nat)
  /-- cursors and executions of the feeds (R201) -/
  cursors : Sparse (Nat × Nat)
  /-- drain accumulators by column × 64 + index, and the index per column (R203) -/
  acc : Sparse (BitVec 32)
  accIdx : Sparse Nat
  /-- generators: the seed of COMMIT, and the cells (i × 2^10 + j) that have stepped since (R56) -/
  seed : BitVec 16
  gens : List (Nat × Gens)
  latches : List Latch
  landings : List Landing
  feeds : List FeedBeat
  outs : List OutTake
  wards : Vector Ward 8
  creel : List CreelEntry
  creelSeq : Nat
  sent : List SentWrite
  /-- its writes on the way to other modules, with the entries reserved for them (R285, R326) -/
  owedRemote : List RemoteWrite
  /-- writes held back, oldest first -/
  heldWrites : List HeldWrite
  attrs : List (Nat × BitVec 2)
  status : RegionStatus
  deriving DecidableEq, Repr

/-- A beat on its way to an input of a cell (R188, R258, R259): global row and column, input edge, the slot in which it is the
input and the slot in which it left its source. -/
structure Flight where
  row : Nat
  col : Nat
  edge : Edge
  due : Nat
  left : Nat
  beat : Beat
  deriving DecidableEq, Repr

/-- A write of an OUTR to operand memory in its port slot (R202, R275): tile, byte X of the token, the slot whose port it takes. -/
structure OmWrite where
  tile : Nat
  x : Nat
  due : Nat
  beat : Beat
  deriving DecidableEq, Repr

/-- The graph fault record (R293). -/
structure GraphFault where
  cause : BitVec 8
  row : BitVec 8
  region : BitVec 10
  slot : BitVec 32
  detail : BitVec 64
  time : BitVec 64
  tcol : BitVec 6
  trow : BitVec 6
  more : Bool
  deriving DecidableEq, Repr

/-- A beat in a gate (R261): position, slots of transit left, 0 once it is in the consumer's latch. -/
structure GateBeat where
  pos : Nat
  left : Nat
  beat : Beat
  deriving DecidableEq, Repr

/-- A gate (R261, R369): its number and port, the producer edge and the consumer edge with their first positions, the window, the
stages that bind recorded, buffer size B, transit t_g, and the beats it holds, oldest first. -/
structure Gate where
  num : Nat
  port : BitVec 32
  count : Nat
  fromGraph : Nat
  fromRegion : Nat
  fromEdge : Edge
  fromFirst : Nat
  fromStage : BitVec 8
  toGraph : Nat
  toRegion : Nat
  toEdge : Edge
  toFirst : Nat
  toStage : BitVec 8
  win : BitVec 5
  depth : Nat
  transit : Nat
  beats : List GateBeat
  closed : Bool
  deriving DecidableEq, Repr

/-- Where a graph stands in its present spine cycle: before the cycle, in a slot whose events have been raised, running the rows
of the slot, or before the end of the cycle. -/
inductive SlotPhase where
  | idle | opened | rows | closing
  deriving DecidableEq, Repr

/-- One end of a gate as the image lists it (R369). -/
abbrev GateEnd := BitVec 128

/-- A graph that is bound (R248, R254, R292, R371, R372, R380). -/
structure Graph where
  slot : Nat
  record : BitVec 1024
  trow0 : Nat
  tcol0 : Nat
  trows : Nat
  tcols : Nat
  ctx : BitVec 16
  spine : BitVec 3
  net : Nat
  wards : Vector Ward 8
  gateEnds : List GateEnd
  regions : List Region
  phase : SlotPhase
  /-- regions of a slot still to run their row in the present slot -/
  todo : List Nat
  /-- regions that run a row in the present slot -/
  ran : List Nat
  slotNo : Nat
  /-- raised hold sources, and whether any was raised in each of the last eight cycles, newest at bit 0 (R254) -/
  holds : List Nat
  hist : BitVec 8
  stopped : Bool
  /-- slots left to run after a stop (R292) -/
  grace : Nat
  fault : Option GraphFault
  /-- regions whose row has faulted, which issue no further row (R292) -/
  faulted : List Nat
  /-- streams whose SEAL has been applied: the cycles to go before their regions start, and the regions (R252) -/
  starts : List (Nat × List Nat)
  drain : Bool
  /-- the budget has turned the mapping away (R380) -/
  limited : Bool
  /-- management saves the graph: its cores stop, and its slots end (R373) -/
  saving : Bool
  /-- POWER of its mapping in W (R367, R380) -/
  power : Nat
  /-- what dispatch has replaced in its tiles and cells, until its cores start (R371) -/
  prior : List (Nat × Tile)
  priorCells : List (Nat × Cell)
  /-- tiles with a RIM section, whose cores step 6 of dispatch starts (R371, R376) -/
  rims : List Nat
  /-- operand memory slots that the bind claimed, as tile and slot, and the words that it loaded into each tile's code store from
  word 0 on (R371, R373) -/
  claims : List (Nat × Nat)
  loaded : List (Nat × Nat)
  flights : List Flight
  omWrites : List OmWrite
  /-- operand memory deviations to come: slot and tile (R256, R275) -/
  devs : List (Nat × Nat)
  requests : List AgnReq
  reqId : Nat
  energy : BitVec 48
  energySat : Bool
  tstart : BitVec 64
  deriving DecidableEq, Repr

/-- A rectangle of a target list: cells, or tiles after TGTR (R16). -/
structure Target where
  tiles : Bool
  row : Nat
  col : Nat
  rows : Nat
  cols : Nat
  deriving DecidableEq, Repr

/-- A configuration stream that runs or is queued (R176 to R182). `ref` is the CFG that submitted it, none for a section that
dispatch submits (R371). -/
structure Stream where
  ref : Option CmdRef
  graph : Nat
  ctx : BitVec 16
  user : Bool
  wards : List Ward
  va : Nat
  len : Nat
  /-- word offset of the next word -/
  offset : Nat
  targets : List Target
  /-- a TGT or TGTR that an EXT may still complete (R17) -/
  extOpen : Bool
  /-- the open region: id, the pending copy (R180) -/
  region : Option (Nat × RegionCfg)
  rowSel : Option (BitVec 6)
  high : Option (BitVec 16)
  sum : BitVec 16
  /-- raw words of an IMG still to come, and the address of the next (R182) -/
  raw : Nat
  rawAt : Nat
  /-- committed regions and what they held before (R18) -/
  undo : List (Nat × Option Region)
  started : Bool
  /-- the SEAL has passed its tests -/
  sealed : Bool
  /-- the status once SEAL is applied or the stream is refused -/
  result : Option Status
  /-- the status has been reported -/
  landed : Bool
  paused : Bool
  deriving DecidableEq, Repr

/-- A net: its running stream, of length 0 where none runs, and the streams that wait (R176). -/
structure Net where
  running : Stream
  queue : List Stream
  deriving DecidableEq, Repr

end Sys2Proof.Machine
end

