-- ==== Sys2Proof/Machine/MgmtState.lean ====
section
/-! DEFINITION. The state of management and of the pintle island as plain data (R363 to R382, R396 to R420). -/

namespace Sys2Proof.Machine

/-- A launch queue: its descriptor and head (R363, R364), and what R366 orders by: the SEQ of the launches that management has
read, and SEQ and status of those whose completion record has been written. -/
structure Queue where
  descr : BitVec 256
  head : BitVec 64
  seen : List (BitVec 32)
  ended : List (BitVec 32 × BitVec 8)
  deriving DecidableEq, Repr

/-- What management keeps of an image that it has checked (R367): the footprints of its mappings as rows and columns of tiles, and the
hoops and keys that it uses. -/
structure ImageInfo where
  maps : List (Nat × Nat)
  hoops : BitVec 64
  keys : BitVec 256
  deriving DecidableEq, Repr

/-- A launch read from a queue and not yet started (R365, R366): queue, record, the time at which it arrived, its effective priority
and its image. -/
structure Launch where
  queue : Nat
  record : BitVec 512
  since : BitVec 64
  prio : Nat
  image : ImageInfo
  deriving DecidableEq, Repr

/-- The save record of a pre-empted graph (R373): the slot-table entry it was bound by, the graph, its tiles, and the slots
and statuses kept for its restore. -/
structure Saved where
  record : BitVec 1024
  graph : Graph
  tiles : List (Nat × Tile)
  cells : List (Nat × Cell)
  deriving DecidableEq, Repr

/-- What a completion record settles once it has been written: its queue, SEQ and status (R366), and the slot table entry whose VALID
is cleared then (R376 step 4). -/
structure Note where
  queue : Nat
  seq : BitVec 32
  status : BitVec 8
  slot : Option Nat
  deriving DecidableEq, Repr

/-- A line that management writes and that waits for its page: address, byte mask, data, and what follows. -/
structure MgmtWrite where
  ia : Nat
  mask : BitVec 64
  data : Line
  note : Option Note
  deriving DecidableEq, Repr

/-- What a drained graph leaves for its next mapping (R236, R372): the context, the last parcel that its NEXTP returned, the mapping and
the frequency that a budget has turned away (R380), the time of its first bind and its fabric counter. -/
structure Drained where
  ctx : BitVec 16
  parcel : Option Nat
  limit : Option (Nat × BitVec 6)
  tstart : BitVec 64
  energy : BitVec 48
  energySat : Bool
  deriving DecidableEq, Repr

/-- A unit of a boot step that fails its test by a method, 0 primary or 1 alternate (R414): `whole` where it is a fault of the field's
regulator or spine, or of a hub beside its cache die; `detail` goes to the journal. -/
structure PartFault where
  step : Nat
  unit : Nat
  method : Nat
  whole : Bool
  detail : Nat
  deriving DecidableEq, Repr

/-- R1: the management harts of the pintle die. -/
def mgmtHarts : Nat := 4

/-- What management decides, or what a neighbour, the companion or the parts bring about, that no event of the opcode table stands for;
each hart takes one at its turn. -/
inductive HartAct where
  /-- the power-off command (R400) -/
  | powerOff
  /-- management starts a compute reset (R400) -/
  | computeReset
  /-- the free-frame bitmap of a stack is set: the frames in use (R349) -/
  | setFrames (hub : Nat) (used : List Nat)
  /-- a frame is allocated from the bitmap, or returned to it (R349) -/
  | allocFrame (frame : Nat) (use : Bool)
  /-- the split of a slice is changed through the hub registers (R234) -/
  | split (slice : Nat) (size : BitVec 4)
  /-- word +8 or +16 of a region status is written with ones that clear (R291) -/
  | clearStatus (g r : Nat) (fails : Bool) (v : BitVec 64)
  /-- a region status is read (R291) -/
  | readStatus (g r : Nat)
  /-- the n-th entry of a creel is read (R288) -/
  | readCreel (who : Issuer) (n : Nat)
  /-- the energy weights of a core's next launch are supplied (R354) -/
  | supply (t : Nat) (ew : List (BitVec 16)) (statw : BitVec 16)
  /-- FEW0 to FEW2 and STATG are written (R380) -/
  | setFew (k : Nat) (v : BitVec 16)
  | setStatg (v : BitVec 16)
  /-- the oldest notice of a bank that retires is taken (R353) -/
  | takeRetired (hub : Nat)
  /-- the system coordinates are configured: modules along x, y and z (R406) -/
  | setDims (x y z : Nat)
  /-- the neighbour at a port asks for the flits from number `n` on again (R404) -/
  | resend (port n : Nat)
  /-- the neighbour at a port advertises a lag for a generation, or ends it (R407) -/
  | lag (port : Nat) (gen : BitVec 16) (on : Bool)
  /-- the module's parts wear: the units that fail their tests at boot, the tiles that its self-test will find dead, and the nets that
  do not reach a tile (R396, R397, R414) -/
  | wear (units : List PartFault) (tiles : List Nat) (cuts : List (Nat × Nat))
  /-- an island reports the newest generation that it holds (R407) -/
  | report (m : BitVec 14) (gen : BitVec 16)
  /-- the alternate source of a tile's spine is lost (R377) -/
  | alternateLoss (t : Nat)
  /-- the companion asks something over HingeLink (R409) -/
  | hinge (q : CompanionReq)
  deriving DecidableEq, Repr

/-- Management and its clocks. -/
structure Mgmt where
  /-- the slot table: bind records by slot (R370) -/
  slots : Sparse (BitVec 1024)
  queues : List (Nat × Queue)
  /-- what closed queues leave (R364, R366) -/
  closed : List (Nat × Queue)
  /-- records that management ends unread and that wait for their page: queue, IA and status (R364, R401) -/
  rejects : List (Nat × Nat × BitVec 8)
  launches : List Launch
  saved : List Saved
  drained : List Drained
  writes : List MgmtWrite
  /-- energy weights supplied for a core's next launch: tile, EW0 to EW7, STATW (R354) -/
  weights : List (Nat × List (BitVec 16) × BitVec 16)
  few : Vector (BitVec 16) 3
  statg : BitVec 16
  budget : Nat
  /-- frequency codes of CK0 to CK7 (R378) -/
  freqs : Vector (BitVec 6) 8
  thermal : Bool
  /-- evicted slots (R273): tile, slot, and the bytes with their sidebands -/
  evicted : List (Nat × Nat × List Host.Cell)
  /-- what the harts will do next, and what they have read -/
  acts : List HartAct
  reads : List (List Byte)
  deriving DecidableEq, Repr

/-- Island states (R398). -/
inductive IslandState where
  | serve | transit | ireset | off
  deriving DecidableEq, Repr

/-- A strand port (R404, R408): link up, number of the next flit expected, whether a flit is asked for again, number of the next flit
to send, the replay buffer of the last 256 flits, and the flits on the line, oldest first. -/
structure Port where
  up : Bool
  nextFlit : Nat
  retry : Bool
  sentFlits : Nat
  replay : List (Nat × Packet)
  line : List (Nat × Packet)
  deriving DecidableEq, Repr

/-- A packet in the island's crossbar: number, the packet, the port it came by (none: from this module), whether it travels by
the escape channel (R406). -/
structure Transit where
  id : Nat
  pkt : Packet
  port : Option Nat
  escape : Bool
  deriving DecidableEq, Repr

/-- A remote request of this module that waits for its answer (R326, R408). -/
structure Remote where
  id : Nat
  who : Issuer
  ctx : BitVec 16
  dest : BitVec 14
  ia : Nat
  store : Bool
  /-- the single bytes that it asks for (R152) -/
  ias : List Nat
  deriving DecidableEq, Repr

/-- A page of another module that writes of an issuer have found unmapped, by its number (R283, R320): their entries wait for that
module's word. -/
structure FarPage where
  who : Issuer
  ctx : BitVec 16
  key : Nat
  deriving DecidableEq, Repr

/-- A routing table generation (R407): number and the next hop of each module. -/
structure RouteGen where
  gen : BitVec 16
  table : List (BitVec 8)
  deriving DecidableEq, Repr

/-- A journal entry (R415). -/
abbrev JournalEntry := BitVec 256

/-- The pintle die. -/
structure Island where
  st : IslandState
  /-- the state held before an island reset (R400) -/
  held : IslandState
  safeTalk : Bool
  degraded : Bool
  bstep : BitVec 8
  cresets : BitVec 16
  iresets : BitVec 16
  jhead : Nat
  journal : List JournalEntry
  /-- physical tiles that boot found dead, and the fuses: dead tiles and cell defects (R389, R396) -/
  overlay : List Nat
  deadTiles : List Nat
  cellDefects : Sparse (BitVec 22)
  /-- the fused stage counts of the 24 seam segments (R2, R394) -/
  seamFuse : BitVec 48
  /-- the units that fail their tests, the physical tiles that the self-test will find dead, and the nets, 0 A and 1 B, that do not reach
  a physical tile: as the parts are, and the last as boot has found them (R396, R397, R414) -/
  wear : List PartFault
  found : List Nat
  cuts : List (Nat × Nat)
  unreached : List (Nat × Nat)
  bootCount : BitVec 32
  /-- the standby supply has been removed since the last power-up (R399) -/
  cold : Bool
  ports : Vector Port 16
  moduleNum : BitVec 14
  gens : List RouteGen
  /-- the island advertises a lag; ports whose neighbour advertises a lag, with the generation (R407) -/
  ownLag : Bool
  lags : List (Nat × BitVec 16)
  /-- what other islands report: the newest generation that each holds (R407) -/
  reports : List (Nat × BitVec 16)
  /-- modules along x, y and z (R406) -/
  dims : Nat × Nat × Nat
  /-- packets in the crossbar, and packets answered and delivered -/
  transit : List Transit
  pktId : Nat
  remotes : List Remote
  /-- answers that wait for an engine, a root or an encoder to take them: issuer, IA, answer (R326) -/
  arrived : List (Issuer × Nat × RemoteAnswer)
  /-- mailbox answer: sequence and code (R411) -/
  answer : BitVec 64 × BitVec 32
  /-- the images that command 5 wrote into the two flash slots, empty where none was, and the active slot (R418) -/
  fwSlots : Vector (List Byte) 2
  fwActive : Bool
  /-- the inactive slot holds an image that has not been tried yet (R418) -/
  fwFresh : Bool
  rollback : BitVec 32
  mrs : Vector (BitVec 384) 8
  /-- lines of HC pages that the companion holds, and those it holds modified (R326) -/
  heldLines : List Nat
  dirtyLines : List Nat
  /-- the bytes of lines held modified that the device has written since -/
  overlaid : Sparse (BitVec 64)
  /-- what the companion's requests have been answered, by their numbers -/
  hinge : List (Nat × CompanionAnswer)
  farPages : List FarPage
  /-- lines that the hubs have recalled -/
  recalls : List Nat
  linkUp : Bool
  deriving DecidableEq, Repr

end Sys2Proof.Machine
end

