-- ==== Sys2Proof/Machine/State.lean ====
section
/-! DEFINITION. The state of a Graix module as plain data, the reasons a step can stop, and the state after reset. -/

namespace Sys2Proof.Machine

/-- Who moves next when the agenda is empty: the reference, the hubs with their engines, the management harts, a rim core, a configuration net, or a
graph (assumption 2). -/
inductive Agent where
  | tick
  | hubs
  | harts
  | rim (t : Nat)
  | net (n : Nat)
  | graph (g : Nat)
  deriving DecidableEq, Repr

/-- The module. `mem` is every byte memory of the module in one canonical list (numbering in `Machine/Memory.lean`). The tile,
the graph, the region and the stream that the next step acts on stand apart from the others (assumption 2): `tile` is tile
`tileIdx`, and `tiles` holds the other tiles that have left their reset state; `graph` is one bound graph and `graphs` the
others; `region`, where its id is below 1,024, stands for the region of that id in `graph`; `stream` is the running stream of
net `netIdx`. `agenda` is the list of events
that happen next, `turns` the agents that move when it is empty, and `free` the counter that feeds free values
(assumptions 2 and 11). `cycle` counts the rounds of turns since the last reference tick. -/
structure State where
  mem : List Host.Cell
  tileIdx : Nat
  tile : Tile
  tiles : List (Nat × Tile)
  cells : List (Nat × Cell)
  graph : Graph
  graphs : List Graph
  region : Region
  netIdx : Nat
  stream : Stream
  nets : Vector Net 2
  linePoison : List Nat
  ptes : Sparse (BitVec 128)
  hubs : Vector Hub 12
  hubq : List HubReq
  notices : List Notice
  noticeId : Nat
  migrations : List Migration
  splits : List Split
  hoops : Vector Hoop 64
  keys : Sparse Key
  gates : List Gate
  time : BitVec 64
  cycle : Nat
  mgmt : Mgmt
  island : Island
  agenda : List Instr
  turns : List Agent
  free : Nat
  deriving DecidableEq, Repr

/-- Why the machine stops: the spec stops it nowhere, so there is no reason. A module that is OFF keeps its reference (R399). -/
inductive Fault
  deriving DecidableEq, Repr

/-- Why an instruction has no meaning. -/
inductive Refusal where
  /-- Raised by an arm of `exec` that has no meaning yet. Safe: nothing is claimed of it. -/
  | notModelled (mnemonic : String)
  deriving DecidableEq, Repr

/-- The result of a step. -/
abbrev Result := Host.Outcome State Fault Refusal

/-- R74, R79 to R85: a core before its context starts; its coordinates are its tile's. -/
def Core.reset (trow tcol : BitVec 6) : Core where
  sregs := Vector.replicate 32 0
  preds := 0
  toks := Vector.replicate 32 Token.reset
  masks := Vector.replicate 8 0xFFFF
  lc := Vector.replicate 3 0
  pc := 0
  mode := false
  pmode := false
  le := true
  ple := true
  ctx := 0
  trow := trow
  tcol := tcol
  lcsStart := Vector.replicate 3 0
  lcsEnd := Vector.replicate 3 0
  lcsAct := 0
  tsel := 0
  rm := 0
  remap := 0x80
  seed := 0
  fstat := 0
  rnd := Gens.seeded 0
  mailFull := 0
  mailOvr := 0
  tvecEntry := 0
  tvecValid := false
  epc := 0
  ecause := 0
  easync := false
  eaddr := 0
  estat := 0
  sscr := Vector.replicate 4 0
  energy := 0
  energySat := false
  ew := Vector.replicate 8 0
  statw := 0
  wards := Vector.replicate 8 Ward.reset
  staged := Vector.replicate 8 ⟨0, 0, 0⟩
  fence := FenceAcc.reset
  nxcur := 0
  exh := false
  parcel := none
  pendPreempt := false
  pendMgmt := false
  stall := .none
  late := []
  held := none
  run := .idle
  resident := false
  fault := none
  doneStatus := 0
  lateOut := 0
  lateCnt := 0
  cmds := []
  cmdSerial := 0
  cfgLog := []
  cpyLog := []
  loopBuf := []
  outbox := []
  creel := []
  creelSeq := 0
  sent := []
  aloft := []
  owedLines := []
  owedRemote := []
  answers := []
  attrs := []

/-- R377: SPINE at reset. -/
def Spine.reset : Spine := ⟨0, false, false, false, 44, 0, 0⟩

/-- R389, R392, R393: the translation of a tile on a part without defects (assumption 6): the removed row and column are the
last of 17, each logical column is the physical column of the same number, and the tile's coordinates give its field. -/
def Tile.reset (idx : Nat) : Tile :=
  let r := idx / 44
  let c := idx % 44
  { core := Core.reset (BitVec.ofNat 6 r) (BitVec.ofNat 6 c)
    code := []
    codeMarks := []
    softErr := 0
    owners := []
    omCorr := 0
    omPoison := []
    omErrors := []
    omBefore := []
    pushBeat := ⟨0, 0, 0, false, 0, 0⟩
    lastDrain := none
    capture := []
    parcels := []
    inbox := []
    spine := Spine.reset
    cdef := 0
    soff := BitVec.ofNat 15 (16 + 16 * 32)
    txlt := BitVec.ofNat 22 (c % 11 + 16 * (r % 12) + 256 * (c / 11) + 1024 * (r / 12) + 4096 * (c % 11) + 65536 * (r % 12) +
      1048576 * 3)
    seamLat := 0
    fdmap := Vector.replicate 3 0 }

/-- R220, R285: an idle copy engine. -/
def Engine.reset : Engine := ⟨[], [], 0, [], []⟩

/-- R234, R308, R342, R352: a hub after compute reset, every bank live (assumption 6). -/
def Hub.reset : Hub where
  cacheSize := []
  ranges := []
  engines := Vector.replicate 4 Engine.reset
  encodings := []
  tlb := []
  bankMap := []
  bankRt := []
  setSt := 0
  frames := 0x100000
  bankCmd := 0
  used := []
  poisonMap := []
  cleared := []
  restriped := []
  retired := []
  lost := []
  dirty := []
  cacheDie := 0

/-- A graph slot in which nothing is bound. -/
def Graph.empty : Graph where
  slot := 64
  record := 0
  trow0 := 0
  tcol0 := 0
  trows := 0
  tcols := 0
  ctx := 0
  spine := 0
  net := 0
  wards := Vector.replicate 8 Ward.reset
  gateEnds := []
  regions := []
  phase := .idle
  todo := []
  ran := []
  slotNo := 0
  holds := []
  hist := 0
  stopped := false
  grace := 0
  fault := none
  faulted := []
  starts := []
  drain := false
  limited := false
  saving := false
  power := 0
  prior := []
  priorCells := []
  rims := []
  claims := []
  loaded := []
  flights := []
  omWrites := []
  devs := []
  requests := []
  reqId := 0
  energy := 0
  energySat := false
  tstart := 0

/-- A region configuration with every field at its reset value (R180). -/
def RegionCfg.empty : RegionCfg := ⟨0, 0, 0, 0, 0, 0, 0, 0, [], [], [], [], []⟩

/-- A region slot in which nothing is committed. -/
def Region.empty : Region where
  id := 1024
  cfg := RegionCfg.empty
  next := none
  loop := .idle
  slots := 0
  pass := 0
  sv := 0
  counters := []
  cursors := []
  acc := []
  accIdx := []
  seed := 0
  gens := []
  latches := []
  landings := []
  feeds := []
  outs := []
  wards := Vector.replicate 8 Ward.reset
  creel := []
  creelSeq := 0
  sent := []
  owedRemote := []
  heldWrites := []
  attrs := []
  status := RegionStatus.reset

/-- No stream. -/
def Stream.empty : Stream where
  ref := none
  graph := 64
  ctx := 0
  user := true
  wards := []
  va := 0
  len := 0
  offset := 0
  targets := []
  extOpen := false
  region := none
  rowSel := none
  high := none
  sum := 0
  raw := 0
  rawAt := 0
  undo := []
  started := false
  sealed := false
  result := none
  landed := false
  paused := false

/-- R363 to R381: management after boot (assumption 3). -/
def Mgmt.reset : Mgmt where
  slots := []
  queues := []
  closed := []
  rejects := []
  launches := []
  saved := []
  drained := []
  writes := []
  weights := []
  few := Vector.replicate 3 0
  statg := 0
  budget := 7000
  freqs := Vector.replicate 8 44
  thermal := false
  evicted := []
  acts := []
  reads := []

/-- R398 to R420: the island after boot (assumptions 1, 6, 9, 10). -/
def Island.reset : Island where
  st := .serve
  held := .serve
  safeTalk := false
  degraded := false
  bstep := 9
  cresets := 0
  iresets := 0
  jhead := 0
  journal := []
  overlay := []
  deadTiles := []
  cellDefects := []
  seamFuse := 0
  wear := []
  found := []
  cuts := []
  unreached := []
  bootCount := 0
  cold := false
  ports := Vector.replicate 16 ⟨true, 0, false, 0, [], []⟩
  moduleNum := 0
  gens := []
  ownLag := false
  lags := []
  reports := []
  dims := (1, 1, 1)
  transit := []
  pktId := 0
  remotes := []
  arrived := []
  answer := (0, 0)
  fwSlots := Vector.replicate 2 []
  fwActive := false
  fwFresh := false
  rollback := 0
  mrs := Vector.replicate 8 0
  heldLines := []
  dirtyLines := []
  overlaid := []
  hinge := []
  farPages := []
  recalls := []
  linkUp := true

/-- The module right after reset: booted to SERVE, nothing bound, memory with nothing listed (assumptions 1 to 11). -/
def State.reset : State where
  mem := []
  tileIdx := 0
  tile := Tile.reset 0
  tiles := []
  cells := []
  graph := Graph.empty
  graphs := []
  region := Region.empty
  netIdx := 0
  stream := Stream.empty
  nets := Vector.replicate 2 ⟨Stream.empty, []⟩
  linePoison := []
  ptes := []
  hubs := Vector.replicate 12 Hub.reset
  hubq := []
  notices := []
  noticeId := 0
  migrations := []
  splits := []
  hoops := Vector.replicate 64 Hoop.reset
  keys := []
  gates := []
  time := 0
  cycle := 0
  mgmt := Mgmt.reset
  island := Island.reset
  agenda := []
  turns := [.tick, .hubs, .harts, .net 0, .net 1]
  free := 0

end Sys2Proof.Machine
end

