-- ==== Sys2Proof/Machine/Memory.lean ====
section
/-! DEFINITION. Sparse tables, byte memory, and the home hub: page homes, translation, checks and the access itself (R303, R304,
R308 to R314, R342 to R348, R351). -/

namespace Sys2Proof.Machine

/-! ### Sparse tables -/

/-- The value at a key; `d` where the table lists none. -/
def sparseGet {α : Type} (d : α) : Sparse α → Nat → α
  | [], _ => d
  | (a, v) :: r, k => if a = k then v else sparseGet d r k

/-- Puts an entry in front of the first greater key. -/
def sparseInsert {α : Type} : Sparse α → Nat → α → Sparse α
  | [], k, v => [(k, v)]
  | (a, x) :: r, k, v => if k < a then (k, v) :: (a, x) :: r else (a, x) :: sparseInsert r k v

/-- Writes a value at a key, keeping the keys rising and listing no default. -/
def sparsePut {α : Type} [DecidableEq α] (d : α) (t : Sparse α) (k : Nat) (v : α) : Sparse α :=
  let rest := t.filter fun x => x.1 != k
  if v = d then rest else sparseInsert rest k v

/-- The keys of a table are strictly rising from `lo` on, and no entry is the default. -/
def sparseWfFrom {α : Type} [DecidableEq α] (d : α) : Nat → Sparse α → Bool
  | _, [] => true
  | lo, (a, v) :: r => decide (lo ≤ a) && v != d && sparseWfFrom d (a + 1) r

/-- The canonical form of a sparse table. -/
def sparseWf {α : Type} [DecidableEq α] (d : α) (t : Sparse α) : Bool := sparseWfFrom d 0 t

/-- An association list entry. -/
def assocGet {α : Type} : List (Nat × α) → Nat → Option α
  | [], _ => none
  | (a, v) :: r, k => if a = k then some v else assocGet r k

/-- Replaces or appends an association list entry. -/
def assocPut {α : Type} : List (Nat × α) → Nat → α → List (Nat × α)
  | [], k, v => [(k, v)]
  | (a, x) :: r, k, v => if a = k then (k, v) :: r else (a, x) :: assocPut r k v

/-- Drops an association list entry. -/
def assocDrop {α : Type} (l : List (Nat × α)) (k : Nat) : List (Nat × α) := l.filter fun p => p.1 != k

/-! ### Byte memory

One list holds every byte memory of the module. A location number is space × 2^48 + address: space 0 is the HBM frames
(frame × 65536 + offset, R308), 1 hub scratch (slice × 2^23 + byte of the slice, R314), 2 operand memory (tile × 2^24 + slot ×
65536 + offset, R216), 3 its exponent sideband (tile × 2^18 + slot × 1024 + token, R421), 4 companion memory (R411). An
unlisted byte reads 0 (assumption 5). -/

/-- The form of memory: addresses strictly rising, no listed byte zero. -/
def Memory.wf (m : List Host.Cell) : Bool := sparseWf (0 : Byte) m

/-- One byte. -/
def readByte (m : List Host.Cell) (a : Nat) : Byte := sparseGet 0 m a

/-- One byte written. -/
def writeByte (m : List Host.Cell) (a : Nat) (b : Byte) : List Host.Cell := sparsePut 0 m a b

/-- `n` bytes from an address on, as a number (R5). -/
def readBytes (m : List Host.Cell) (a : Nat) : Nat → Nat
  | 0 => 0
  | n + 1 => (readByte m a).toNat + 256 * readBytes m (a + 1) n

/-- Writes the low `n` bytes of a number from an address on (R5). -/
def writeBytes (m : List Host.Cell) (a : Nat) : Nat → Nat → List Host.Cell
  | 0, _ => m
  | n + 1, v => writeBytes (writeByte m a (BitVec.ofNat 8 v)) (a + 1) n (v / 256)

/-- Writes the bytes of a number whose mask bit is set. -/
def writeMasked (m : List Host.Cell) (a : Nat) (mask : Nat → Bool) (n v : Nat) : List Host.Cell :=
  (List.range n).foldl (fun m k => if mask k then writeByte m (a + k) (BitVec.ofNat 8 (v >>> (8 * k))) else m) m

/-- The size of one space of locations. -/
def spaceSize : Nat := 2 ^ 48
/-- Location of a byte of a frame. -/
def frameLoc (frame off : Nat) : Nat := frame * 65536 + off
/-- Location of a byte of a slice's scratch. -/
def scratchLoc (slice byte : Nat) : Nat := spaceSize + slice * 2 ^ 23 + byte
/-- Location of a byte of operand memory: X = slot × 65536 + offset (R216). -/
def omLoc (tile x : Nat) : Nat := 2 * spaceSize + tile * 2 ^ 24 + x
/-- Location of a token's exponent sideband (R421): x is a byte of the token. -/
def sideLoc (tile x : Nat) : Nat := 3 * spaceSize + tile * 2 ^ 18 + x / 64
/-- Location of a byte of companion memory (R411). -/
def companionLoc (a : Nat) : Nat := 4 * spaceSize + a

/-! ### Pages and homes -/

/-- R304: the home slice of a page. -/
def homeSlice (p : Nat) : Nat :=
  let h := (p % 1024) ^^^ ((p / 1024) % 1024) ^^^ ((p / 1048576) % 256)
  3 * h / 4

/-- R304: the home hub of a page. -/
def homeHub (p : Nat) : Nat := homeSlice p / 64

/-- A hub by number. -/
def getHub (s : State) (h : Nat) : Hub := s.hubs.toList.getD h Hub.reset

/-- A hub replaced. -/
def putHub (s : State) (h : Nat) (x : Hub) : State := { s with hubs := s.hubs.setIfInBounds h x }

/-- PTE of a page at the page-table port (R308). -/
def getPte (s : State) (p : Nat) : BitVec 128 := sparseGet 0 s.ptes p
/-- PTE of a page written at the port. -/
def putPte (s : State) (p : Nat) (e : BitVec 128) : State := { s with ptes := sparsePut 0 s.ptes p e }

/-- R308 fields. -/
def pteV (e : BitVec 128) : Bool := e.getLsbD 0
/-- Reads permitted. -/
def ptePr (e : BitVec 128) : Bool := e.getLsbD 1
/-- Writes permitted. -/
def ptePw (e : BitVec 128) : Bool := e.getLsbD 2
/-- Other modules may reach the page. -/
def pteRmt (e : BitVec 128) : Bool := e.getLsbD 3
/-- The companion may cache the page's lines. -/
def pteHc (e : BitVec 128) : Bool := e.getLsbD 4
/-- Attribute: 0 SO, 1 RC, 2 UN. -/
def pteAttr (e : BitVec 128) : BitVec 2 := fld e 5 2
/-- Accessed. -/
def pteA (e : BitVec 128) : Bool := e.getLsbD 7
/-- Dirty. -/
def pteD (e : BitVec 128) : Bool := e.getLsbD 8
/-- Migration under way. -/
def pteMig (e : BitVec 128) : Bool := e.getLsbD 9
/-- The page is poisoned. -/
def ptePsn (e : BitVec 128) : Bool := e.getLsbD 10
/-- Keyed. -/
def pteKeyed (e : BitVec 128) : Bool := e.getLsbD 11
/-- Key number. -/
def pteKey (e : BitVec 128) : BitVec 8 := fld e 12 8
/-- Write version. -/
def pteVer (e : BitVec 128) : BitVec 16 := fld e 20 16
/-- Frame. -/
def pteFrame (e : BitVec 128) : BitVec 24 := fld e 36 24
/-- Shadow frame. -/
def pteShadow (e : BitVec 128) : BitVec 24 := fld e 64 24

/-- R226, R227: a key's parity as hubs select by it at the present TIME. -/
def keyParity (s : State) (k : BitVec 8) : Bool :=
  let key := sparseGet Key.reset s.keys k.toNat
  match key.flip with
  | some t => if t.ule s.time then !key.parity else key.parity
  | none => key.parity

/-- R226, R309: the frame of an access; a KEYEN write takes the invisible one. -/
def pickFrame (s : State) (e : BitVec 128) (keyen : Bool) : BitVec 24 :=
  if pteKeyed e && (keyParity s (pteKey e) != keyen) then pteShadow e else pteFrame e

/-! ### Requests at the home hub -/

/-- R309: what an access asks. -/
structure Access where
  load : Bool
  store : Bool
  /-- a rim context in supervisor mode or the management harts (R310) -/
  super : Bool
  /-- the access comes from another module (R309) -/
  remote : Bool
  /-- key of a KEYEN write (R226) -/
  key : Option (BitVec 8)
  /-- a line write that a PLAIT range accepts (R348) -/
  plait : Bool
  deriving DecidableEq, Repr

/-- A load. -/
def Access.loads (super : Bool) : Access := ⟨true, false, super, false, none, false⟩
/-- A store or reduction. -/
def Access.stores : Access := ⟨false, true, false, false, none, false⟩
/-- An atomic. -/
def Access.atomic (super : Bool) : Access := ⟨true, true, super, false, none, false⟩

/-- What the hub answers: the location of byte 0 of the access with its attribute and the state as the walker leaves it, 64
bytes of a decoded line, an entry of the page-table window, or a failure (R99, R209 reasons). -/
inductive HubAnswer where
  | at (loc : Nat) (attr : BitVec 2) (s : State)
  | value (v : Nat) (attr : BitVec 2) (s : State)
  | unmapped (page : Nat)
  | refused (reason : BitVec 8)
  | poisoned

/-- A format range of a hub (R342). -/
def getRange (h : Hub) (n : Nat) : FormatRange := sparseGet FormatRange.reset h.ranges n
/-- KIND of a range. -/
def FormatRange.kind (r : FormatRange) : Nat := (fld r.w0 1 4).toNat
/-- First byte of the packed range. -/
def FormatRange.pbase (r : FormatRange) : Nat := (fld r.w0 16 28).toNat * 65536
/-- First byte past the packed range. -/
def FormatRange.plimit (r : FormatRange) : Nat := (fld r.w1 16 28).toNat * 65536
/-- First byte of the decoded window. -/
def FormatRange.dbase (r : FormatRange) : Nat := (fld r.w2 16 28).toNat * 65536
/-- R344: mantissa width of a packed kind. -/
def FormatRange.width (r : FormatRange) : Nat := if r.kind = 8 then 4 else r.kind + 1
/-- R344: bytes of a block. -/
def FormatRange.blockBytes (r : FormatRange) : Nat := 6 * r.width + 1
/-- R344: number of blocks. -/
def FormatRange.blocks (r : FormatRange) : Nat := (r.plimit - r.pbase) / r.blockBytes
/-- R345: the kinds with a decoded window. -/
def FormatRange.decodes (r : FormatRange) : Bool := decide (1 ≤ r.kind ∧ r.kind ≤ 8)
/-- R345: whether an address lies in the pages of the decoded window (assumption 14). -/
def FormatRange.inWindow (r : FormatRange) (ia : Nat) : Bool :=
  r.decodes && decide (r.dbase ≤ ia ∧ ia < r.dbase + (64 * r.blocks + 65535) / 65536 * 65536)
/-- R344: whether an address lies in the packed range. -/
def FormatRange.inPacked (r : FormatRange) (ia : Nat) : Bool := decide (r.pbase ≤ ia ∧ ia < r.plimit)

/-- R343: the lowest-numbered valid range that governs an address. -/
def rangeOf (h : Hub) (ia : Nat) : Option FormatRange :=
  ((List.range 16).map (getRange h)).find? fun r => r.w0.getLsbD 0 && (r.inPacked ia || r.inWindow ia)

/-- R351: whether a frame exists in its stack, and lies in a set that holds data (R353 step 2 poisons a set by its lines). -/
def liveBanks (h : Hub) (sigma : Nat) : Nat := popCount (sparseGet (BitVec.allOnes 64) h.bankMap sigma)

/-- R351: a frame exists when its index lies below 1,024 per live bank of its set. -/
def frameExists (s : State) (f : BitVec 24) : Bool :=
  let n := f.toNat % 2 ^ 20
  decide (f.toNat / 2 ^ 20 < 12) && decide (n / 16 < 1024 * liveBanks (getHub s (f.toNat / 2 ^ 20)) (n % 16))

/-- The place of the m-th set bit of a word, counted from 0. -/
def nthSet (v : BitVec 64) (m : Nat) : Nat := ((List.range 64).filter v.getLsbD).getD m 0

/-- R351: where line `l` of frame `f` of a stack lies: pseudo-channel, bank and row. -/
def Hub.linePlace (h : Hub) (f l : Nat) : Nat × Nat × Nat :=
  let sigma := f % 16
  let n := liveBanks h sigma
  let g := f / 16 * 1024 + l
  (nthSet (sparseGet (BitVec.allOnes 64) h.bankMap sigma) (g % n), sigma, g / n)

/-- R353: a line that a retiring bank cannot return while its set drains. -/
def Hub.lineGone (h : Hub) (f l : Nat) : Bool :=
  fld h.setSt (2 * (f % 16)) 2 == 1 &&
    h.lost.any fun x => x.1 == f % 16 && x.2.1 == (h.linePlace f l).1 && Config.lineLost x.2.2 (f * 1024 + l)

/-- R353: the set of a frame is being striped afresh. -/
def restriping (s : State) (f : BitVec 24) : Bool :=
  fld (getHub s (f.toNat / 2 ^ 20)).setSt (2 * (f.toNat % 16)) 2 == 2

/-- R353, R412, R413: a line of a poisoned frame, of a set striped afresh, or of a bank that cannot return it, reads POISON until it has
been cleared. -/
def framePoisoned (s : State) (f : BitVec 24) (line : Nat) : Bool :=
  let h := getHub s (f.toNat / 2 ^ 20)
  (h.poisonMap.contains (f.toNat % 2 ^ 20) || h.restriped.contains (f.toNat % 16) || h.lineGone (f.toNat % 2 ^ 20) line) &&
    !h.cleared.contains ((f.toNat % 2 ^ 20) * 1024 + line)

/-- R99, R309, R412: whether the line at a location is poisoned. -/
def linePoisoned (s : State) (loc : Nat) : Bool :=
  s.linePoison.contains (loc / 64) ||
  (decide (loc < spaceSize) && framePoisoned s (BitVec.ofNat 24 (loc / 65536)) (loc % 65536 / 64))

/-- R99, R413: a full-line store clears the line's poison. -/
def clearPoison (s : State) (loc : Nat) : State :=
  let s := { s with linePoison := s.linePoison.filter fun l => l != loc / 64 }
  if loc < spaceSize ∧ framePoisoned s (BitVec.ofNat 24 (loc / 65536)) (loc % 65536 / 64) = true then
    let hub := loc / 65536 / 2 ^ 20
    let h := getHub s hub
    putHub s hub { h with cleared := h.cleared ++ [(loc / 65536 % 2 ^ 20) * 1024 + loc % 65536 / 64] }
  else s

/-- R311: the entry that translates a request to a page: the hub's cached copy, or the entry at the port. -/
def cachedPte (s : State) (p : Nat) : BitVec 128 :=
  (assocGet (getHub s (homeHub p)).tlb p).getD (getPte s p)

/-- Caches an entry at the page's home (R311). -/
def cachePte (s : State) (p : Nat) (e : BitVec 128) : State :=
  let h := getHub s (homeHub p)
  putHub s (homeHub p) { h with tlb := assocPut h.tlb p e }

/-- R309 steps 1 to 3 and R226: the outcome of an access under an entry. -/
def pteCheck (e : BitVec 128) (a : Access) : Option (HubAnswer) :=
  if ptePsn e then some .poisoned
  else if (a.load && !ptePr e) || (a.store && !ptePw e) then some (.refused 1)
  else if a.remote && !pteRmt e then some (.refused 5)
  else match a.key with
    | some k => if pteKeyed e && pteKey e == k then none else some (.refused 7)
    | none => none

/-- R311: sets A, and D for a write, by compare-and-set at the port. The expected entry is the cached copy. -/
def walkerUpdate (s : State) (p : Nat) (e : BitVec 128) (write : Bool) : State :=
  let e' := if write then setBit (setBit e 7 true) 8 true else setBit e 7 true
  if e' = e then s
  else if getPte s p = e then cachePte (putPte s p e') p e' else s

/-- R308: VER rises by one for each write performed at a page under migration, and the hub's write-seen mark is set (R232), also
where a PTEW has cleared the flag meanwhile. -/
def noteWrite (s : State) (p : Nat) : State :=
  let e := getPte s p
  let s := { s with migrations := s.migrations.map fun m => if m.page = p then { m with seen := true } else m }
  if pteMig e then putPte s p (putField e 20 16 ((pteVer e).toNat + 1)) else s

/-- R311: the entry under which a request proceeds. A write that a cached copy with D clear would translate is translated
afresh where the entry at the port has changed. -/
def proceedPte (s : State) (p : Nat) (a : Access) : BitVec 128 :=
  let e := cachedPte s p
  if a.store && !pteD e && getPte s p != e then getPte s p else e

/-- R309, R348: an access to an ordinary page: its location, or its failure. -/
def pageAccess (s : State) (ia : Nat) (a : Access) : HubAnswer :=
  let p := ia / 65536
  let e := proceedPte s p a
  if !pteV e then .unmapped p
  else match pteCheck e a with
    | some r => r
    | none =>
      let packed := (rangeOf (getHub s (homeHub p)) ia).any fun r => r.kind == 9 && r.inPacked ia
      if packed && a.store && !a.plait then .refused 2
      else
        let f := pickFrame s e a.key.isSome
        if !frameExists s f || restriping s f then .poisoned
        else
          let s := cachePte s p e
          .at (frameLoc f.toNat (ia % 65536)) (pteAttr e) (walkerUpdate s p e a.store)

/-- R310: four entries of the page-table window from the line of an address on. -/
def windowBytes (s : State) (ia : Nat) : Nat :=
  let p := (ia - 0xF0000000000) / 16 / 4 * 4
  (List.range 4).foldr (fun k acc => (getPte s (p + k)).toNat + acc * 2 ^ 128) 0

/-- R314, R234: the size of a slice's cache in MiB. -/
def cacheMiB (s : State) (slice : Nat) : Nat := (sparseGet 8 (getHub s (slice / 64)).cacheSize (slice % 64)).toNat

/-- R234: the slice's change under way, if any. -/
def splitOf (s : State) (slice : Nat) : Option Split := s.splits.find? fun x => x.todo.contains slice

/-- R314, R412: an access to hub scratch. A cache die without power has none. -/
def scratchAccess (s : State) (ia : Nat) : HubAnswer :=
  let off := ia - 0x80000000000
  let slice := off / 2 ^ 23
  let b := off % 2 ^ 23
  let c := cacheMiB s slice
  if 768 ≤ slice ∨ (8 - c) * 2 ^ 20 ≤ b ∨ (getHub s (slice / 64)).cacheDie = 2 then .refused 4
  else
    let changing := (splitOf s slice).any fun x => decide (c * 2 ^ 20 + b < x.size.toNat * 2 ^ 20)
    if changing then .refused 4 else .at (scratchLoc slice (c * 2 ^ 20 + b)) 1 s

/-- One packed byte range of a decoded fill, checked page by page in address order (R345, R347): one load of the issuer that asks
for the decoded line. -/
def packedAccess (s : State) (ia len : Nat) (a : Access) : HubAnswer :=
  let first := pageAccess s ia a
  let last := ia + len - 1
  match first with
  | .at loc attr s1 =>
    let lines1 := linePoisoned s loc || linePoisoned s (loc + (min len (65536 - ia % 65536) - 1))
    if lines1 then .poisoned
    else if last / 65536 = ia / 65536 then .value (readBytes s.mem loc len) attr s1
    else
      match pageAccess s1 (last / 65536 * 65536) a with
      | .at loc2 _ s2 =>
        let n1 := 65536 - ia % 65536
        if linePoisoned s loc2 then .poisoned
        else .value (readBytes s.mem loc n1 + 2 ^ (8 * n1) * readBytes s.mem loc2 (len - n1)) attr s2
      | .value v at2 s2 => .value v at2 s2
      | .unmapped p => .unmapped p
      | .refused r => .refused r
      | .poisoned => .poisoned
  | .value v at2 s2 => .value v at2 s2
  | .unmapped p => .unmapped p
  | .refused r => .refused r
  | .poisoned => .poisoned

/-- R345: the FP4R element: the E2M1 code converted exactly to E4M3, the remap code giving REMAP. -/
def fp4ToE4m3 (code : Nat) (remap : Nat) : Nat :=
  match code with
  | 0 => 0x00
  | 1 => 0x30
  | 2 => 0x38
  | 3 => 0x3C
  | 4 => 0x40
  | 5 => 0x44
  | 6 => 0x48
  | 7 => 0x4C
  | 8 => remap
  | 9 => 0xB0
  | 10 => 0xB8
  | 11 => 0xBC
  | 12 => 0xC0
  | 13 => 0xC4
  | 14 => 0xC8
  | _ => 0xCC

/-- R345: the 64 bytes of a decoded line from the packed block. -/
def decodedLine (r : FormatRange) (block : Nat) : Nat :=
  let w := r.width
  let elem (e : Nat) : Nat :=
    let c := (block >>> (e * w)) % 2 ^ w
    if r.kind = 8 then fp4ToE4m3 c (fld r.w0 8 8).toNat
    else
      let m : Nat := if 2 ^ (w - 1) ≤ c then 256 - 2 ^ w + c else c
      if w = 7 then 2 * m % 256 else m
  let bytes := (List.range 48).map elem ++ [(block >>> (48 * w)) % 256, r.kind]
  bytes.foldr (fun b acc => b + 256 * acc) 0

/-- R345, R347: a decoded fill of the line that holds an address. -/
def decodedAccess (s : State) (r : FormatRange) (ia : Nat) (a : Access) : HubAnswer :=
  let q := (ia - r.dbase) / 64
  if a.store || decide (r.blocks ≤ q) then .refused 3
  else
    match packedAccess s (r.pbase + q * r.blockBytes) r.blockBytes a with
    | .value v attr s' => .value (decodedLine r v) attr s'
    | x => x

/-- R345: the packed bytes that a read of a decoded line reads: the first, and how many; none where the address lies in no line of
a decoded window. -/
def fillRange (s : State) (ia : Nat) : Option (Nat × Nat) :=
  if (0x80000000000 ≤ ia ∧ ia ≤ 0x8FFFFFFFFFF) ∨ (0xF0000000000 ≤ ia ∧ ia ≤ 0xF00FFFFFFFF) then none
  else
    match rangeOf (getHub s (homeHub (ia / 65536))) ia with
    | some r =>
      let q := (ia - r.dbase) / 64
      if r.inWindow ia && !r.inPacked ia && decide (q < r.blocks) then some (r.pbase + q * r.blockBytes, r.blockBytes) else none
    | none => none

/-- R286, R345: the lines that a load at an address reads. -/
def loadLines (s : State) (ia : Nat) : List Nat :=
  match fillRange s ia with
  | some (b, n) => (List.range ((b + n - 1) / 64 + 1 - b / 64)).map (b / 64 + ·)
  | none => [ia / 64]

/-- R309, R310, R314, R343: the home hub meets an access within one 64-byte line. -/
def hubAccess (s : State) (ia : Nat) (a : Access) : HubAnswer :=
  if 0x80000000000 ≤ ia ∧ ia ≤ 0x8FFFFFFFFFF then
    (if a.key.isSome then .refused 7 else scratchAccess s ia)
  else if 0xF0000000000 ≤ ia ∧ ia ≤ 0xF00FFFFFFFF then
    (if a.store || !a.super then .refused 1 else .value (windowBytes s ia) 0 s)
  else
    match rangeOf (getHub s (homeHub (ia / 65536))) ia with
    | some r => if r.inWindow ia && !r.inPacked ia then decodedAccess s r ia a else pageAccess s ia a
    | none => pageAccess s ia a

/-- The outcome of a load at the hub. -/
inductive LoadOut where
  | value (v : Nat) (attr : BitVec 2) (s : State)
  | unmapped (page : Nat)
  | refused (reason : BitVec 8)
  | poisoned (s : State)

/-- R99, R318: a load of `n` bytes within one line. -/
def hubLoad (s : State) (ia n : Nat) (a : Access) : LoadOut :=
  match hubAccess s ia a with
  | .at loc attr s' => if linePoisoned s loc then .poisoned s' else .value (readBytes s.mem loc n) attr s'
  | .value v attr s' => .value ((v >>> (8 * (ia % 64))) % 2 ^ (8 * n)) attr s'
  | .unmapped p => .unmapped p
  | .refused r => .refused r
  | .poisoned => .poisoned s

/-- The outcome of a store or reduction at the hub. -/
inductive StoreOut where
  | done (attr : BitVec 2) (s : State)
  | unmapped (page : Nat)
  | refused (reason : BitVec 8)
  | poisoned (s : State)

/-- A line rewritten under a byte mask: `f` gives the new line from the old. -/
def applyLine (s : State) (loc : Nat) (mask : BitVec 64) (f : Nat → Nat) : State :=
  let base := loc / 64 * 64
  { s with mem := writeMasked s.mem base (fun k => mask.getLsbD k) 64 (f (readBytes s.mem base 64)) }

/-- R313, R412: whether the home slice of a page caches its lines: its share is not 0, and its cache die has power. -/
def sliceCaches (s : State) (p : Nat) : Bool :=
  cacheMiB s (homeSlice p) != 0 && (getHub s (homeHub p)).cacheDie != 2

/-- R313, R412: the line written is dirty in the cache of its page's home slice. -/
def noteDirty (s : State) (p loc : Nat) : State :=
  if decide (loc < spaceSize) && sliceCaches s p then
    let f := loc / 65536
    let h := getHub s (f / 2 ^ 20)
    putHub s (f / 2 ^ 20) { h with dirty := sparsePut 0 h.dirty (f % 2 ^ 20) (sparseGet 0 h.dirty (f % 2 ^ 20) ||| 1 <<< (loc / 64 % 1024)) }
  else s

/-- R311: the walker discards a cached copy whose compare-and-set for D has failed, where the access then goes no further. -/
def discardStale (s : State) (ia : Nat) (a : Access) : State :=
  let p := ia / 65536
  let e := cachedPte s p
  if a.store && !pteD e && getPte s p != e then
    let h := getHub s (homeHub p)
    putHub s (homeHub p) { h with tlb := assocDrop h.tlb p }
  else s

/-- R232, R308, R313, R326: what a write of a line of an ordinary page leaves besides the bytes. A write of another module is not
cached. -/
def noteLine (s : State) (ia loc : Nat) (a : Access) : State :=
  let s := noteWrite s (ia / 65536)
  if a.remote then s else noteDirty s (ia / 65536) loc

/-- R99, R309: a store or reduction of one line under a byte mask; `ia` is byte 0 of the line. A full-line store clears poison,
and a partial one or a reduction (`full` false) meets it. -/
def hubStore (s : State) (ia : Nat) (mask : BitVec 64) (full : Bool) (a : Access) (f : Nat → Nat) : StoreOut :=
  match hubAccess s ia a with
  | .at loc attr s' =>
    if linePoisoned s loc && !full then .poisoned s'
    else
      let s' := clearPoison s' loc
      let s' := applyLine s' loc mask f
      .done attr (if 0x80000000000 ≤ ia ∧ ia ≤ 0x8FFFFFFFFFF then s' else noteLine s' ia loc a)
  | .value _ _ _ => .refused 1
  | .unmapped p => .unmapped p
  | .refused r => .refused r
  | .poisoned => .poisoned s

end Sys2Proof.Machine
end

