-- ==== Sys2Proof/Machine/Flags.lean ====
section
/-! DEFINITION. The sticky arithmetic flags (R55) and the comparison conditions of CMP, CMPI and VCMP (R27, R127). -/

namespace Sys2Proof.Machine

/-- FSTAT bits [5:0] in the order of R55: NV, DZ, OF, UF, NX, SI. -/
abbrev Flags := BitVec 6

/-- R55 [0]: invalid. -/
def flagNV : Flags := 0x01
/-- R55 [1]: division by zero. -/
def flagDZ : Flags := 0x02
/-- R55 [2]: overflow. -/
def flagOF : Flags := 0x04
/-- R55 [3]: underflow. -/
def flagUF : Flags := 0x08
/-- R55 [4]: inexact. -/
def flagNX : Flags := 0x10
/-- R55 [5]: an integer result was saturated. -/
def flagSI : Flags := 0x20

/-- `f` when the condition holds, no flag otherwise. -/
def flagIf (c : Bool) (f : Flags) : Flags := if c then f else 0

/-- R27: the condition of CMP and CMPI on two scalar values. Codes 12 to 15 never reach it (they trap ILLEGAL). -/
def scalarCond (c : BitVec 4) (a b : Dword) : Bool :=
  match c.toNat with
  | 0 => a == b
  | 1 => a != b
  | 2 => a.slt b
  | 3 => !a.slt b
  | 4 => a.ult b
  | 5 => !a.ult b
  | 6 => !b.slt a
  | 7 => b.slt a
  | 8 => !b.ult a
  | 9 => b.ult a
  | 10 => (a &&& b) != 0
  | 11 => (a &&& b) == 0
  | _ => false

end Sys2Proof.Machine
end

