-- ==== Sys2Proof/Machine/Numbers.lean ====
section
/-! DEFINITION. Formats and the one rounding step (R47 to R66): decoding an element to an exact value, RoundToFormat,
overflow, NaN, rounding to an integer, and the exact special functions of R138. -/

namespace Sys2Proof.Machine

/-- The rounding modes of R57. -/
inductive Rounding where
  | rne | rtz | rdn | rup | rna | rsr
  deriving DecidableEq, Repr

/-- R54, R57: the mode of a code; TCR.RM holds 0 to 5 only. -/
def Rounding.ofCode (c : Nat) : Rounding :=
  match c with
  | 1 => .rtz
  | 2 => .rdn
  | 3 => .rup
  | 4 => .rna
  | 5 => .rsr
  | _ => .rne

/-- The overflow policies: those of the ov field (R60), and `ieee` where an operation has no ov field (R61). -/
inductive Overflow where
  | sat | inf | nan | trap | ieee
  deriving DecidableEq, Repr

/-- R20: the ov codes. -/
def Overflow.ofCode (c : BitVec 2) : Overflow :=
  match c.toNat with
  | 0 => .sat
  | 1 => .inf
  | 2 => .nan
  | _ => .trap

/-- A decoded element. `fin neg m e` is (-1)^neg × m × 2^e, a zero keeping its sign. A NaN carries its sign, whether it is
signalling, and its payload placed in the 22 bits below the FP32 quiet bit (R66). -/
inductive Val where
  | nan (neg sig : Bool) (payload : Nat)
  | inf (neg : Bool)
  | fin (neg : Bool) (m : Nat) (e : Int)
  deriving DecidableEq, Repr

/-- An exact nonnegative magnitude with a sign; `sticky` says that the true magnitude lies strictly between m × 2^e and
(m + 1) × 2^e. -/
structure Exact where
  neg : Bool
  m : Nat
  e : Int
  sticky : Bool
  deriving DecidableEq, Repr

/-- +0. -/
def Val.zero : Val := .fin false 0 0

/-- Mantissa bits of a floating-point format code (R47). -/
def mbits (fmt : Nat) : Nat :=
  match fmt with
  | 0 => 23
  | 1 => 10
  | 2 => 7
  | 3 => 3
  | 4 => 2
  | _ => 1

/-- Exponent bits of a floating-point format code (R47). -/
def ebits (fmt : Nat) : Nat :=
  match fmt with
  | 0 => 8
  | 1 => 5
  | 2 => 8
  | 3 => 4
  | 4 => 5
  | _ => 2

/-- Bias of a floating-point format code (R47). -/
def bias (fmt : Nat) : Nat :=
  match fmt with
  | 0 => 127
  | 1 => 15
  | 2 => 127
  | 3 => 7
  | 4 => 15
  | _ => 1

/-- The exponent of the smallest normal (R47). -/
def emin (fmt : Nat) : Int := 1 - (bias fmt : Int)

/-- FP32, FP16, BF16 and E5M2 have infinities (R47). -/
def hasInf (fmt : Nat) : Bool := decide (fmt ≤ 2) || fmt == 4

/-- The code of the largest finite magnitude (R47). -/
def maxFiniteCode (fmt : Nat) : Nat :=
  match fmt with
  | 0 => 0x7F7FFFFF
  | 1 => 0x7BFF
  | 2 => 0x7F7F
  | 3 => 0x7E
  | 4 => 0x7B
  | _ => 0x7

/-- The code of +∞, in a format that has one (R47). -/
def infCode (fmt : Nat) : Nat := (2 ^ ebits fmt - 1) * 2 ^ mbits fmt

/-- The position of the sign bit (R47). -/
def signPos (fmt : Nat) : Nat := ebits fmt + mbits fmt

/-- The default NaN (R47); E2M1 has none and takes +0. -/
def defaultNaN (fmt : Nat) : Nat :=
  match fmt with
  | 0 => 0x7FC00000
  | 1 => 0x7E00
  | 2 => 0x7FC0
  | 3 => 0x7F
  | 4 => 0x7E
  | _ => 0

/-- Puts a sign on a magnitude code. The E2M1 code 0b1000 is the remap code, so a zero of E2M1 has no sign (R130). -/
def withSign (fmt : Nat) (neg : Bool) (code : Nat) : Nat :=
  if neg && !(fmt == 5 && code == 0) then code + 2 ^ signPos fmt else code

/-- The largest finite magnitude as m × 2^e. -/
def maxFiniteVal (fmt : Nat) : Nat × Int :=
  match fmt with
  | 3 => (7, 6)
  | 5 => (3, 1)
  | _ => (2 ^ (mbits fmt + 1) - 1, (2 ^ ebits fmt : Nat) - 2 - (bias fmt : Int) - (mbits fmt : Int))

/-- R48: a code of FP32, FP16, BF16 or E5M2, R49: of E4M3. -/
def decodeFloat (fmt code : Nat) : Val :=
  let n := mbits fmt
  let neg := (code >>> signPos fmt) % 2 == 1
  let ex := (code >>> n) % 2 ^ ebits fmt
  let m := code % 2 ^ n
  if fmt == 3 && ex == 15 && m == 7 then .nan neg false 0
  else if hasInf fmt && ex == 2 ^ ebits fmt - 1 then
    if m == 0 then .inf neg
    else .nan neg (decide (m < 2 ^ (n - 1))) ((m % 2 ^ (n - 1)) <<< (23 - n))
  else if ex == 0 then .fin neg m (emin fmt - (n : Int))
  else .fin neg (2 ^ n + m) ((ex : Int) - (bias fmt : Int) - (n : Int))

/-- R49, R51: an E2M1 code under a remap value and the header exponent. -/
def decodeE2M1 (code : Nat) (remap : BitVec 8) (exp : BitVec 8) : Val :=
  if exp == 0 then .zero
  else
    let base : Val :=
      if code % 16 == 8 then decodeFloat 3 remap.toNat else
        let neg := decide (8 ≤ code % 16)
        let ex := (code >>> 1) % 4
        if ex == 0 then .fin neg (code % 2) (-1) else .fin neg (2 + code % 2) ((ex : Int) - 2)
    match base with
    | .fin neg m e => .fin neg m (e + ((exp.toNat : Int) - 127))
    | v => v

/-- The mantissa width of a BFP code (R13). -/
def bfpWidth (fmt : Nat) : Nat := if fmt == 15 then 8 else fmt - 8

/-- A value read as a signed integer of `w` bits. -/
def signedOf (w v : Nat) : Int :=
  if 2 ^ (w - 1) ≤ v % 2 ^ w then ((v % 2 ^ w : Nat) : Int) - (2 ^ w : Nat) else ((v % 2 ^ w : Nat) : Int)

/-- An integer as an exact value, zero being +0 (R118). -/
def Val.ofInt (n : Int) (e : Int) : Val := .fin (decide (n < 0)) n.natAbs e

/-- R50: a container is a legal element when its bits above bit w-1 copy it. -/
def containerLegal (w c : Nat) : Bool := signedOf 8 c == signedOf w c

/-- R50: the value of a BFPw container under block exponent `exp`. -/
def decodeBfp (w c : Nat) (exp : BitVec 8) : Val :=
  if exp == 0 then .zero
  else Val.ofInt (signedOf w c) ((exp.toNat : Int) - 127 - ((w : Int) - 1))

/-- The element of a lane, by tag (R117, R118), with the flags that reading it raises (R50). -/
def decodeElem (tag : Nat) (exp remap : BitVec 8) (lane : Nat) : Val × Flags :=
  if tag ≤ 4 then (decodeFloat tag lane, 0)
  else if tag = 5 then (decodeE2M1 lane remap exp, 0)
  else if tag = 6 then (Val.ofInt (signedOf 8 lane) 0, 0)
  else if tag = 7 then (Val.ofInt ((lane % 256 : Nat) : Int) 0, 0)
  else if tag = 8 then (Val.ofInt (signedOf 16 lane) 0, 0)
  else if tag = 9 then (Val.ofInt (signedOf 32 lane) 0, 0)
  else
    let w := bfpWidth tag
    (decodeBfp w (lane % 256) exp, flagIf (!containerLegal w (lane % 256)) flagNV)

/-- |m × 2^e| < 2^k, for m ≠ 0. -/
def belowPow2 (m : Nat) (e k : Int) : Bool := decide ((Nat.log2 m : Int) + e < k)

/-- R59: input flush. -/
def flushIn (tag : Nat) (v : Val) : Val :=
  match v with
  | .fin neg m e =>
    if m ≠ 0 ∧ tag ≤ 5 ∧ belowPow2 m e (if tag = 5 then -126 else emin tag) = true then .fin neg 0 e else v
  | _ => v

/-- R118: the operation format of an operand tag. -/
def opFormat (tag : Nat) : Nat := if tag ≤ 4 then tag else 0

/-- The result of a rounding: the element's bits, the flags, and whether it overflowed under TRAP (R63). -/
structure Rounded where
  bits : Nat
  flags : Flags
  trap : Bool
  deriving DecidableEq, Repr

/-- R57: whether the magnitude i + (r + δ)/2^k is rounded up, δ being 0 or, when sticky, strictly between 0 and 1. Under RSR
a sticky value carries at least 24 fraction bits. -/
def roundsUp (rm : Rounding) (neg : Bool) (i r k : Nat) (sticky : Bool) (g : BitVec 32) : Bool :=
  let half := 2 ^ k
  let nz := r ≠ 0 || sticky
  match rm with
  | .rne => decide (half < 2 * r) || (2 * r == half && k ≠ 0 && (sticky || i % 2 == 1))
  | .rtz => false
  | .rdn => nz && neg
  | .rup => nz && !neg
  | .rna => k ≠ 0 && decide (half ≤ 2 * r)
  | .rsr =>
    let a := r * 2 ^ 24
    let b := (g.toNat >>> 8) * 2 ^ k
    decide (b < a) || (sticky && a == b)

/-- R60, R61: the result of an overflow. -/
def overflowResult (fmt : Nat) (neg : Bool) (rm : Rounding) (ov : Overflow) : Rounded :=
  let big := withSign fmt neg (maxFiniteCode fmt)
  let fl := flagOF ||| flagNX
  match ov with
  | .sat => ⟨big, fl, false⟩
  | .inf =>
    if fmt == 5 then ⟨big, fl, false⟩
    else if fmt == 3 then ⟨withSign 3 neg 0x7F, fl, false⟩
    else ⟨withSign fmt neg (infCode fmt), fl, false⟩
  | .nan => if fmt == 5 then ⟨big, fl, false⟩ else ⟨defaultNaN fmt, fl, false⟩
  | .trap => ⟨0, 0, true⟩
  | .ieee =>
    let toInf : Bool :=
      match rm with
      | .rne | .rna | .rsr => true
      | .rtz => false
      | .rdn => neg
      | .rup => !neg
    ⟨if toInf && hasInf fmt then withSign fmt neg (infCode fmt) else big, fl, false⟩

/-- Encode(fmt, sign, i × 2^q) for a magnitude that the format holds (R58). -/
def encodeMag (fmt : Nat) (neg : Bool) (i : Nat) (q : Int) : Nat :=
  let n := mbits fmt
  let (i, q) := if 2 ^ (n + 1) ≤ i then (i / 2, q + 1) else (i, q)
  if i < 2 ^ n then withSign fmt neg i
  else withSign fmt neg (((q + (n : Int) + (bias fmt : Int)).toNat) * 2 ^ n + (i - 2 ^ n))

/-- m × 2^e > m' × 2^e'. -/
def magGt (m : Nat) (e : Int) (m' : Nat) (e' : Int) : Bool :=
  if e ≤ e' then decide (m' * 2 ^ (e' - e).toNat < m) else decide (m' < m * 2 ^ (e - e').toNat)

/-- R58: RoundToFormat of a nonzero or zero exact value; the generator is the lane's after its step (R56). -/
def roundExact (fmt : Nat) (rm : Rounding) (ov : Overflow) (fo : Bool) (g : BitVec 32) (x : Exact) : Rounded :=
  if x.m = 0 ∧ x.sticky = false then ⟨withSign fmt x.neg 0, 0, false⟩
  else
    let e := (Nat.log2 x.m : Int) + x.e
    let q := max e (emin fmt) - (mbits fmt : Int)
    let k := (q - x.e).toNat
    let i := if q ≤ x.e then x.m * 2 ^ (x.e - q).toNat else x.m >>> k
    let r := if q ≤ x.e then 0 else x.m - i * 2 ^ k
    let up := roundsUp rm x.neg i r k x.sticky g
    let i' := if up then i + 1 else i
    let tiny := decide (e < emin fmt)
    let mx := maxFiniteVal fmt
    if magGt i' q mx.1 mx.2 then overflowResult fmt x.neg rm ov
    else
      let inexact := r ≠ 0 || x.sticky
      let fl := flagIf inexact flagNX ||| flagIf (inexact && tiny) flagUF
      if fo && i' ≠ 0 && decide (i' < 2 ^ mbits fmt) then
        ⟨withSign fmt x.neg 0, fl ||| flagUF ||| flagNX, false⟩
      else ⟨encodeMag fmt x.neg i' q, fl, false⟩

/-- R58 for an exact value without a remainder. -/
def roundFin (fmt : Nat) (rm : Rounding) (ov : Overflow) (fo : Bool) (g : BitVec 32) (neg : Bool) (m : Nat) (e : Int) : Rounded :=
  roundExact fmt rm ov fo g ⟨neg, m, e, false⟩

/-- R64, R66: a NaN quieted in a format, with the flag of a signalling source. E4M3 keeps the sign only, and E2M1 takes +0
with NV (R60). -/
def nanBits (fmt : Nat) (neg : Bool) (payload : Nat) : Nat :=
  match fmt with
  | 3 => withSign 3 neg 0x7F
  | 5 => 0
  | _ =>
    let n := mbits fmt
    withSign fmt neg (infCode fmt + 2 ^ (n - 1) + payload >>> (23 - n))

/-- The quieted NaN of a format as a rounding result. -/
def roundNan (fmt : Nat) (neg sig : Bool) (payload : Nat) : Rounded :=
  ⟨nanBits fmt neg payload, flagIf (sig || fmt == 5) flagNV, false⟩

/-- R61: an exact infinite result of an operation without an ov field. -/
def roundInf (fmt : Nat) (neg : Bool) : Rounded :=
  if hasInf fmt then ⟨withSign fmt neg (infCode fmt), 0, false⟩
  else ⟨withSign fmt neg (maxFiniteCode fmt), flagNV ||| flagNX, false⟩

/-- R60: an infinite input of a conversion to a format without infinities. -/
def convertInf (fmt : Nat) (neg : Bool) (rm : Rounding) (ov : Overflow) : Rounded :=
  if hasInf fmt then ⟨withSign fmt neg (infCode fmt), 0, false⟩
  else
    let r := overflowResult fmt neg rm ov
    ⟨r.bits, if r.trap then 0 else flagNV ||| flagNX, r.trap⟩

/-- RoundToFormat of a decoded value in an operation without an ov field (R58, R61, R64). -/
def roundVal (fmt : Nat) (rm : Rounding) (fo : Bool) (g : BitVec 32) (v : Val) : Rounded :=
  match v with
  | .nan neg sig p => roundNan fmt neg sig p
  | .inf neg => roundInf fmt neg
  | .fin neg m e => roundFin fmt rm .ieee fo g neg m e

/-- RoundToFormat of a decoded value in a conversion (R60, R66, R130). -/
def convertVal (fmt : Nat) (rm : Rounding) (ov : Overflow) (fo : Bool) (g : BitVec 32) (v : Val) : Rounded :=
  match v with
  | .nan neg sig p => roundNan fmt neg sig p
  | .inf neg => convertInf fmt neg rm ov
  | .fin neg m e => roundFin fmt rm ov fo g neg m e

/-- The default NaN with NV (R65). -/
def invalidResult (fmt : Nat) : Rounded := ⟨defaultNaN fmt, flagNV, false⟩

/-- An exact sum's outcome: a value, or the invalid ∞ - ∞ or 0 × ∞ (R65). -/
inductive Outc where
  | val (v : Val)
  | invalid
  deriving DecidableEq, Repr

/-- x × y on non-NaN values (R65). -/
def mulVal (x y : Val) : Outc :=
  match x, y with
  | .inf s, .inf t => .val (.inf (s != t))
  | .inf s, .fin t m _ => if m = 0 then .invalid else .val (.inf (s != t))
  | .fin s m _, .inf t => if m = 0 then .invalid else .val (.inf (s != t))
  | .fin s m e, .fin t n f => .val (.fin (s != t) (m * n) (e + f))
  | _, _ => .invalid

/-- m × 2^e as an integer multiple of 2^lo, for lo ≤ e. -/
def scaledTo (lo : Int) (neg : Bool) (m : Nat) (e : Int) : Int :=
  let v : Int := ((m * 2 ^ (e - lo).toNat : Nat) : Int)
  if neg then -v else v

/-- The exact sum of finite values as a finite value; an exact zero takes the sign of R58: -0 when every term is -0, else
+0, or -0 under RDN. -/
def sumFin (rm : Rounding) (ts : List (Bool × Nat × Int)) : Val :=
  let lo := ts.foldl (fun a t => min a t.2.2) (match ts with | [] => 0 | t :: _ => t.2.2)
  let s := ts.foldl (fun (a : Int) t => a + scaledTo lo t.1 t.2.1 t.2.2) 0
  if s = 0 then
    let allNeg := !ts.isEmpty && ts.all fun t => t.1 && t.2.1 == 0
    let allPos := ts.all fun t => !t.1 && t.2.1 == 0
    .fin (allNeg || (!allPos && rm == .rdn)) 0 0
  else Val.ofInt s lo

/-- The exact sum of non-NaN values (R65). -/
def sumVals (rm : Rounding) (vs : List Val) : Outc :=
  let pos := vs.any fun v => v == .inf false
  let neg := vs.any fun v => v == .inf true
  if pos && neg then .invalid
  else if pos then .val (.inf false)
  else if neg then .val (.inf true)
  else .val (sumFin rm (vs.filterMap fun v => match v with | .fin s m e => some (s, m, e) | _ => none))

/-- Whether a value is a NaN. -/
def Val.isNaN : Val → Bool
  | .nan _ _ _ => true
  | _ => false

/-- Whether a value is a signalling NaN. -/
def Val.isSNaN : Val → Bool
  | .nan _ s _ => s
  | _ => false

/-- Whether a value is a zero. -/
def Val.isZero : Val → Bool
  | .fin _ m _ => m == 0
  | _ => false

/-- The sign of a value. -/
def Val.neg : Val → Bool
  | .nan s _ _ => s
  | .inf s => s
  | .fin s _ _ => s

/-- A value with its sign inverted. -/
def Val.negate : Val → Val
  | .nan s g p => .nan (!s) g p
  | .inf s => .inf (!s)
  | .fin s m e => .fin (!s) m e

/-- The first NaN of a list (R64). -/
def firstNaN (vs : List Val) : Option Val := vs.find? Val.isNaN

/-- NV when any value is a signalling NaN (R64). -/
def snanFlag (vs : List Val) : Flags := flagIf (vs.any Val.isSNaN) flagNV

/-- A result of an operation on values: the first NaN of `order` if there is one, with NV for a signalling operand or,
under `extra`, for a 0 × ∞ beside it; else the outcome rounded (R64, R65). -/
def roundOutc (fmt : Nat) (rm : Rounding) (fo : Bool) (g : BitVec 32) (order : List Val) (extra : Bool) (o : Outc) : Rounded :=
  match firstNaN order with
  | some (.nan s _ p) => ⟨nanBits fmt s p, snanFlag order ||| flagIf extra flagNV, false⟩
  | _ =>
    match o with
    | .invalid => invalidResult fmt
    | .val v => roundVal fmt rm fo g v

/-- Order of two non-NaN values, -0 below +0 when `signedZero` (R124), equal zeros otherwise (R127). -/
def ltVal (signedZero : Bool) (x y : Val) : Bool :=
  match x, y with
  | .inf s, .inf t => s && !t
  | .inf s, _ => s
  | _, .inf t => !t
  | .fin s m e, .fin t n f =>
    let lo := min e f
    let a := scaledTo lo s m e
    let b := scaledTo lo t n f
    decide (a < b) || (signedZero && a == 0 && b == 0 && s && !t)
  | _, _ => false

/-- Equality of two non-NaN values, -0 equal to +0 (R127). -/
def eqVal (x y : Val) : Bool := !ltVal false x y && !ltVal false y x

/-- RoundToInteger(m × 2^e, rm) with the sign, and whether it was inexact (R62, R131, R133). -/
def roundInteger (rm : Rounding) (g : BitVec 32) (neg : Bool) (m : Nat) (e : Int) : Int × Bool :=
  if 0 ≤ e then
    (if neg then -((m * 2 ^ e.toNat : Nat) : Int) else ((m * 2 ^ e.toNat : Nat) : Int), false)
  else
    let k := (-e).toNat
    let i := m >>> k
    let r := m - i * 2 ^ k
    let i' := if roundsUp rm neg i r k false g then i + 1 else i
    (if neg then -(i' : Int) else (i' : Int), decide (r ≠ 0))

/-- The least and greatest values of an integer format code (R52), or of a BFP mantissa (R50). -/
def intRange (fmt : Nat) : Int × Int :=
  match fmt with
  | 6 => (-128, 127)
  | 7 => (0, 255)
  | 8 => (-32768, 32767)
  | 9 => (-2147483648, 2147483647)
  | _ => (-((2 ^ (bfpWidth fmt - 1) : Nat) : Int), ((2 ^ (bfpWidth fmt - 1) : Nat) : Int) - 1)

/-- Lane form of an integer (R117): sign-extended to the lane, but UINT8 zero-extended. -/
def intLane (fmt : Nat) (n : Int) : Nat :=
  match fmt with
  | 7 => (n % 256).toNat
  | 6 => (signedOf 8 (n % 256).toNat % 2 ^ 32).toNat
  | 8 => (signedOf 16 (n % 65536).toNat % 2 ^ 32).toNat
  | 9 => (n % 2 ^ 32).toNat
  | _ => (signedOf 8 (n % 256).toNat % 2 ^ 32).toNat

/-- The element bits of an integer format (R13). -/
def intWidth (fmt : Nat) : Nat :=
  match fmt with
  | 6 => 8
  | 7 => 8
  | 8 => 16
  | _ => 32

/-- R62: an integer that came from floating point. -/
def narrowFloatInt (fmt : Nat) (ov : Overflow) (n : Int) (inexact : Bool) : Rounded :=
  let (lo, hi) := intRange fmt
  if lo ≤ n ∧ n ≤ hi then ⟨intLane fmt n, flagIf inexact flagNX, false⟩
  else match ov with
    | .trap => ⟨0, 0, true⟩
    | .sat | .ieee => ⟨intLane fmt (if n < lo then lo else hi), flagNV, false⟩
    | .inf | .nan => ⟨intLane fmt lo, flagNV, false⟩

/-- R62: VFTOI of a decoded value. An infinity is out of range in its direction. -/
def floatToInt (fmt : Nat) (rm : Rounding) (ov : Overflow) (g : BitVec 32) (v : Val) : Rounded :=
  match v with
  | .nan _ _ _ =>
    match ov with
    | .trap => ⟨0, 0, true⟩
    | .sat | .ieee => ⟨0, flagNV, false⟩
    | .inf | .nan => ⟨intLane fmt (intRange fmt).1, flagNV, false⟩
  | .inf neg =>
    narrowFloatInt fmt ov (if neg then (intRange fmt).1 - 1 else (intRange fmt).2 + 1) false
  | .fin neg m e =>
    let (n, ix) := roundInteger rm g neg m e
    narrowFloatInt fmt ov n ix

/-- R62, R132: an integer narrowed to an integer format. -/
def narrowInt (fmt : Nat) (ov : Overflow) (n : Int) : Rounded :=
  let (lo, hi) := intRange fmt
  if lo ≤ n ∧ n ≤ hi then ⟨intLane fmt n, 0, false⟩
  else match ov with
    | .trap => ⟨0, 0, true⟩
    | .sat | .ieee => ⟨intLane fmt (if n < lo then lo else hi), flagSI, false⟩
    | .inf | .nan => ⟨intLane fmt n, 0, false⟩

/-- R131: the range rule of a mantissa of width w. -/
def narrowBfp (fmt : Nat) (ov : Overflow) (n : Int) (inexact : Bool) : Rounded :=
  let (lo, hi) := intRange fmt
  let nx := flagIf inexact flagNX
  if lo ≤ n ∧ n ≤ hi then ⟨intLane fmt n, nx, false⟩
  else match ov with
    | .trap => ⟨0, 0, true⟩
    | _ => ⟨intLane fmt (if n < lo then lo else hi), nx ||| flagOF ||| flagNX, false⟩

/-- R131: VCVT of a decoded value to BFPw under block exponent `exp`. -/
def toBfp (fmt : Nat) (rm : Rounding) (ov : Overflow) (g : BitVec 32) (exp : BitVec 8) (v : Val) : Rounded :=
  if exp == 0 then ⟨0, flagIf (!v.isZero) flagNX, false⟩
  else match v with
    | .nan _ _ _ => ⟨0, flagNV, false⟩
    | .inf neg =>
      match ov with
      | .trap => ⟨0, 0, true⟩
      | _ => ⟨intLane fmt (if neg then (intRange fmt).1 else (intRange fmt).2), flagNV, false⟩
    | .fin neg m e =>
      let (n, ix) := roundInteger rm g neg m (e + (127 - (exp.toNat : Int)) + ((bfpWidth fmt : Int) - 1))
      narrowBfp fmt ov n ix

/-- R131: VCVT between BFP widths. -/
def bfpToBfp (dst frm : Nat) (rm : Rounding) (ov : Overflow) (g : BitVec 32) (c : Nat) : Rounded :=
  let w := bfpWidth frm
  let m := signedOf w c
  let (n, ix) := roundInteger rm g (decide (m < 0)) m.natAbs ((bfpWidth dst : Int) - (w : Int))
  let r := narrowBfp dst ov n ix
  ⟨r.bits, if r.trap then 0 else r.flags ||| flagIf (!containerLegal w c) flagNV, r.trap⟩

/-- R130: the scale exponent of a conversion into E2M1. -/
def e2m1Scale (exp : BitVec 8) : BitVec 8 := if exp == 0 then 127 else exp

/-- R130, R135: RoundToFormat into a floating-point format, divided by the header scale for E2M1. -/
def toFloat (fmt : Nat) (rm : Rounding) (ov : Overflow) (fo : Bool) (g : BitVec 32) (exp : BitVec 8) (v : Val) : Rounded :=
  if fmt == 5 then
    match v with
    | .fin neg m e => roundFin 5 rm ov fo g neg m (e + (127 - ((e2m1Scale exp).toNat : Int)))
    | _ => convertVal 5 rm ov fo g v
  else convertVal fmt rm ov fo g v

/-! ### Exact special functions (R138) -/

/-- The bits of a nonzero natural number. -/
def bitLen (n : Nat) : Nat := if n = 0 then 0 else Nat.log2 n + 1

/-- Integer square root, one bit of the root per unit of fuel. -/
def isqrtAux (n : Nat) : Nat → Nat → Nat
  | 0, r => r
  | k + 1, r =>
    let c := r + 2 ^ k
    isqrtAux n k (if c * c ≤ n then c else r)

/-- ⌊√n⌋. -/
def isqrt (n : Nat) : Nat := isqrtAux n (bitLen n / 2 + 1) 0

/-- 1/(m × 2^e), m ≠ 0, to 96 bits beyond m with a remainder mark. -/
def recipExact (neg : Bool) (m : Nat) (e : Int) : Exact :=
  let k := bitLen m + 96
  ⟨neg, 2 ^ k / m, -(k : Int) - e, decide (2 ^ k % m ≠ 0)⟩

/-- 1/√(m × 2^e), m ≠ 0, with a remainder mark. -/
def rsqrtExact (m : Nat) (e : Int) : Exact :=
  let (m, e) := if e % 2 = 0 then (m, e) else (2 * m, e - 1)
  let k := bitLen m + 96
  let r := isqrt (2 ^ (2 * k) / m)
  ⟨false, r, -(k : Int) - e / 2, decide (r * r * m ≠ 2 ^ (2 * k))⟩

/-- Fraction bits of the fixed-point series below. -/
def fixBits : Nat := 320

/-- Σ z^(2j+1)/(2j+1) for j from `j` on, z² = `z2` and `t` = z^(2j+1), in units of 2^-fixBits. -/
def atanhAux (z2 : Nat) : Nat → Nat → Nat → Nat
  | 0, _, _ => 0
  | fuel + 1, j, t => t / (2 * j + 1) + atanhAux z2 fuel (j + 1) ((t * z2) >>> fixBits)

/-- ln(a / b) for b ≤ a ≤ 2 b, in units of 2^-fixBits. -/
def lnFix (a b : Nat) : Nat :=
  let z := ((a - b) <<< fixBits) / (a + b)
  2 * atanhAux ((z * z) >>> fixBits) 110 0 z

/-- ln 2 in units of 2^-fixBits. -/
def ln2Fix : Nat := lnFix 2 1

/-- Σ yⁿ/n! from term `n` on, `t` the current term, in units of 2^-fixBits. -/
def expAux (y : Int) : Nat → Nat → Int → Int
  | 0, _, _ => 0
  | fuel + 1, n, t => t + expAux y fuel (n + 1) (t * y / ((2 ^ fixBits * (n + 1) : Nat) : Int))

/-- 2^x for x = ± m × 2^e with |x| ≤ 1/2 and x ≠ 0. The series is carried to 320 bits and cut to 256 with the remainder mark,
which fixes every rounding unless the value lies within 2^-250 of a rounding boundary (assumption 13). -/
def exp2Exact (neg : Bool) (m : Nat) (e : Int) : Exact :=
  let x : Int := if 0 ≤ (fixBits : Int) + e then ((m * 2 ^ ((fixBits : Int) + e).toNat : Nat) : Int)
    else ((m >>> (-((fixBits : Int) + e)).toNat : Nat) : Int)
  let x : Int := if neg then -x else x
  let y : Int := x * (ln2Fix : Int) / ((2 ^ fixBits : Nat) : Int)
  let r := expAux y 90 0 ((2 ^ fixBits : Nat) : Int)
  ⟨false, r.toNat >>> 64, -256, true⟩

/-- log₂(m × 2^e) for m ≠ 0: exact for a power of two, else with the remainder mark (assumption 13). -/
def log2Exact (m : Nat) (e : Int) : Exact :=
  let n := Nat.log2 m
  if m = 2 ^ n then ⟨decide ((n : Int) + e < 0), ((n : Int) + e).natAbs, 0, false⟩
  else
    let f := (lnFix m (2 ^ n) <<< fixBits) / ln2Fix
    let v : Int := ((n : Int) + e) * ((2 ^ fixBits : Nat) : Int) + (f : Int)
    ⟨decide (v < 0), v.natAbs >>> 64, -256, true⟩

end Sys2Proof.Machine
end

