-- ==== Sys2Proof/Machine/Tokens.lean ====
section
/-! DEFINITION. The token operations of R117 to R151 on tokens, shared by the rim core and the cells: lanes, activity, and
one function per operation. -/

namespace Sys2Proof.Machine

/-- R56: one step of a stochastic-rounding generator. -/
def stepGen (g : BitVec 32) : BitVec 32 :=
  if g.getLsbD 0 then (g >>> 1) ^^^ 0x80200003 else g >>> 1

/-- Lane l of a token's data. -/
def Token.lane (t : Token) (l : Nat) : BitVec 32 := fld t.data (32 * l) 32

/-- The data of sixteen lanes, lane 0 lowest. -/
def lineOfLanes (ls : List (BitVec 32)) : Line :=
  ls.foldr (fun x acc => (acc <<< 32) ||| x.setWidth 512) 0

/-- The sixteen lanes of 512 bits of data. -/
def lanesOf (d : Line) : List (BitVec 32) := (List.range 16).map fun l => fld d (32 * l) 32

/-- R117: the element bits of a tag in a lane. -/
def elemBits (tag : Nat) : Nat :=
  match tag with
  | 0 => 32
  | 1 => 16
  | 2 => 16
  | 3 => 8
  | 4 => 8
  | 5 => 4
  | 8 => 16
  | 9 => 32
  | _ => 8

/-- R117: the lane form of an element code. -/
def laneForm (tag code : Nat) : BitVec 32 :=
  let w := elemBits tag
  let c := code % 2 ^ w
  if tag = 6 ∨ tag = 8 ∨ 10 ≤ tag then BitVec.ofInt 32 (signedOf w c) else BitVec.ofNat 32 c

/-- What the numeric environment of an operation is: the mode that DYN selects, and the remap value (R49, R57). -/
structure NumEnv where
  rm : Rounding
  remap : BitVec 8
  deriving DecidableEq, Repr

/-- R57: the mode of an rm field; 6 is DYN. -/
def NumEnv.mode (env : NumEnv) (r : BitVec 3) : Rounding :=
  if r = 6 then env.rm else Rounding.ofCode r.toNat

/-- The outcome of a token operation: the destination token, the generators, the flags, and the lanes that overflowed under
TRAP (R63). -/
structure TokOut where
  tok : Token
  gens : Gens
  flags : Flags
  ovf : BitVec 16
  deriving DecidableEq, Repr

/-- The outcome of one lane; `step` says that it was a rounding step (R56). -/
structure LaneOut where
  bits : BitVec 32
  flags : Flags
  trap : Bool
  step : Bool
  deriving DecidableEq, Repr

/-- A rounding result in lane form, as one rounding step. -/
def laneOf (tag : Nat) (r : Rounded) (extra : Flags) : LaneOut :=
  ⟨laneForm tag r.bits, r.flags ||| extra, r.trap, true⟩

/-- Running state over the lanes. -/
structure LaneAcc where
  out : List (Option (BitVec 32))
  gens : Gens
  flags : Flags
  ovf : BitVec 16

/-- Lane l's generator. -/
def Gens.at (gs : Gens) (l : Nat) : BitVec 32 := gs.toList.getD l 0

/-- R56: the generators after lane l took the stepped value under RSR. -/
def Gens.put (gs : Gens) (rm : Rounding) (l : Nat) (step : Bool) : Gens :=
  if step && rm == .rsr then gs.setIfInBounds l (stepGen (gs.at l)) else gs

/-- R56, R119: runs a lane function over the active lanes in order, stepping the generator of each lane that rounds. -/
def runLanes (rm : Rounding) (gens : Gens) (act : Nat → Bool) (f : Nat → BitVec 32 → LaneOut) : LaneAcc :=
  (List.range 16).foldl (fun acc l =>
    if act l then
      let r := f l (stepGen (acc.gens.at l))
      ⟨acc.out ++ [some r.bits], acc.gens.put rm l r.step, acc.flags ||| r.flags,
        if r.trap then setBit acc.ovf l true else acc.ovf⟩
    else { acc with out := acc.out ++ [none] }) ⟨[], gens, 0, 0⟩

/-- R119, R120: the destination of an operation whose active lanes are `out`: inactive lanes are zero with their bits clear,
or keep the old lane and bits when k is set. -/
def buildToken (old : Token) (k : Bool) (tag : BitVec 4) (exp : BitVec 8) (out : List (Option (BitVec 32)))
    (valid pred : BitVec 16) : Token :=
  let act := maskOf 16 fun l => (out.getD l none).isSome
  let lanes := (List.range 16).map fun l =>
    match out.getD l none with
    | some v => v
    | none => if k then old.lane l else 0
  let keep : BitVec 16 := if k then ~~~act else 0
  ⟨lineOfLanes lanes, tag, exp, false, (valid &&& act) ||| (old.valid &&& keep), (pred &&& act) ||| (old.pred &&& keep)⟩

/-- R120: the destination when a source token is a bubble. -/
def bubbleDest (old : Token) (k : Bool) (tag : BitVec 4) : Token := if k then old else Token.bubble tag

/-- R119: lane l is active when its mask bit and every source's valid bit are set. -/
def laneActive (mask : BitVec 16) (srcs : List Token) (l : Nat) : Bool :=
  mask.getLsbD l && srcs.all fun t => t.valid.getLsbD l

/-- R118, R59: the decoded element of a lane, after input flush. -/
def decLane (env : NumEnv) (fi : Bool) (t : Token) (l : Nat) : Val × Flags :=
  let (v, f) := decodeElem t.tag.toNat t.exp env.remap (t.lane l).toNat
  (if fi then flushIn t.tag.toNat v else v, f)

/-- A per-lane operation under R119 and R120: tag and rounding mode given, activity from mask and sources, predicate bits from
operand a. -/
def laneOp (rm : Rounding) (gens : Gens) (old a : Token) (k : Bool) (mask : BitVec 16) (srcs : List Token) (tag : BitVec 4)
    (f : Nat → BitVec 32 → LaneOut) : TokOut :=
  if srcs.any Token.bub then ⟨bubbleDest old k tag, gens, 0, 0⟩
  else
    let r := runLanes rm gens (laneActive mask srcs) f
    ⟨buildToken old k tag a.exp r.out 0xFFFF a.pred, r.gens, r.flags, r.ovf⟩

/-- The tag of an operation format. -/
def opTag (a : Token) : BitVec 4 := BitVec.ofNat 4 (opFormat a.tag.toNat)

/-- The two-operand and three-operand arithmetic forms of R123. -/
inductive Arith where
  | add | sub | mul | fma | fms | fnma
  deriving DecidableEq, Repr

/-- x × y where invalid is 0 × ∞; `none` when a NaN is among them. -/
def arithOutc (rm : Rounding) (op : Arith) (x y z : Val) : Outc :=
  match op with
  | .add => sumVals rm [x, y]
  | .sub => sumVals rm [x, y.negate]
  | .mul => mulVal x y
  | .fma => match mulVal x y with | .val p => sumVals rm [p, z] | .invalid => .invalid
  | .fms => match mulVal x y with | .val p => sumVals rm [p, z.negate] | .invalid => .invalid
  | .fnma => match mulVal x y with | .val p => sumVals rm [p.negate, z] | .invalid => .invalid

/-- Whether a form has the third operand. -/
def Arith.three : Arith → Bool
  | .add => false
  | .sub => false
  | .mul => false
  | .fma => true
  | .fms => true
  | .fnma => true

/-- R123: VADD, VSUB, VMUL, VFMA, VFMS and VFNMA. -/
def tokArith (env : NumEnv) (gens : Gens) (op : Arith) (old a b c : Token) (mask : BitVec 16) (fi fo k : Bool) : TokOut :=
  let fmt := opFormat a.tag.toNat
  let srcs := if op.three then [a, b, c] else [a, b]
  laneOp env.rm gens old a k mask srcs (opTag a) fun l g =>
    let (x, f1) := decLane env fi a l
    let (y, f2) := decLane env fi b l
    let (z, f3) := if op.three then decLane env fi c l else (Val.zero, 0)
    let order := if op.three then [z, x, y] else [x, y]
    let zeroInf := op.three && !x.isNaN && !y.isNaN && mulVal x y == .invalid
    laneOf fmt (roundOutc fmt env.rm fo g order zeroInf (arithOutc env.rm op x y z)) (f1 ||| f2 ||| f3)

/-- R124: VMAX and VMIN. -/
def tokMinMax (env : NumEnv) (gens : Gens) (isMax : Bool) (old a b : Token) (mask : BitVec 16) (fi fo k : Bool) : TokOut :=
  let fmt := opFormat a.tag.toNat
  laneOp env.rm gens old a k mask [a, b] (opTag a) fun l g =>
    let (x, f1) := decLane env fi a l
    let (y, f2) := decLane env fi b l
    let pick := if ltVal true x y == isMax then y else x
    laneOf fmt (roundOutc fmt env.rm fo g [x, y] false (.val pick)) (f1 ||| f2)

/-- The sign operations of R125. -/
inductive SignOp where
  | abs | neg | cps
  deriving DecidableEq, Repr

/-- Whether a code of a floating-point format is a nonzero subnormal. -/
def isSubnormalCode (fmt code : Nat) : Bool :=
  (code >>> mbits fmt) % 2 ^ ebits fmt == 0 && code % 2 ^ mbits fmt != 0

/-- R125: VABS, VNEG and VCPS. The rounding of an element whose tag is not the operation format is the step of R118, where R59 has
fi act on the operand and fo on the result, and raises NX, OF and UF only. -/
def tokSign (env : NumEnv) (gens : Gens) (op : SignOp) (old a b : Token) (mask : BitVec 16) (fi fo k : Bool) : TokOut :=
  let tag := a.tag.toNat
  let fmt := opFormat tag
  let srcs := if op = .cps then [a, b] else [a]
  laneOp env.rm gens old a k mask srcs (opTag a) fun l g =>
    let direct := tag ≤ 4
    let pre : Rounded :=
      if direct then ⟨(a.lane l).toNat % 2 ^ (signPos fmt + 1), 0, false⟩
      else roundVal fmt env.rm fo g (decLane env fi a l).1
    let low := pre.bits % 2 ^ signPos fmt
    let s0 := decide (2 ^ signPos fmt ≤ pre.bits)
    let s : Bool :=
      match op with
      | .abs => false
      | .neg => !s0
      | .cps => (decLane env false b l).1.neg
    let low' := if decide direct && (fi || fo) && isSubnormalCode fmt low then 0 else low
    ⟨laneForm fmt (low' + if s then 2 ^ signPos fmt else 0), pre.flags &&& (flagNX ||| flagOF ||| flagUF), false, !decide direct⟩

/-- R126: the class bit of a decoded element. -/
def classBit (tag : Nat) (v : Val) : Nat :=
  match v with
  | .nan _ sig _ => if sig then 8 else 9
  | .inf neg => if neg then 0 else 7
  | .fin neg m e =>
    if m = 0 then (if neg then 3 else 4)
    else
      let sub := decide (tag ≤ 5) && belowPow2 m e (if tag = 5 then -126 else emin tag)
      if neg then (if sub then 2 else 1) else (if sub then 5 else 6)

/-- R126: VCLS. -/
def tokClass (env : NumEnv) (gens : Gens) (old a : Token) (mask : BitVec 16) (fi k : Bool) : TokOut :=
  laneOp env.rm gens old a k mask [a] 9 fun l _ =>
    ⟨BitVec.ofNat 32 (2 ^ classBit a.tag.toNat (decLane env fi a l).1), 0, false, false⟩

/-- R127: the conditions of VCMP, by code: eq, ne, lt, le, gt, ge, uo, ord. -/
def tokenCond (c : Nat) (x y : Val) : Bool :=
  let un := x.isNaN || y.isNaN
  match c with
  | 0 => !un && eqVal x y
  | 1 => un || !eqVal x y
  | 2 => !un && ltVal false x y
  | 3 => !un && !ltVal false y x
  | 4 => !un && ltVal false y x
  | 5 => !un && !ltVal false x y
  | 6 => un
  | _ => !un

/-- R127: VCMP sets predicate bits. -/
def tokCmp (env : NumEnv) (gens : Gens) (cond : Nat) (old a b : Token) (mask : BitVec 16) (fi k : Bool) : TokOut :=
  if a.bub || b.bub then ⟨bubbleDest old k a.tag, gens, 0, 0⟩
  else
    let act := laneActive mask [a, b]
    let r := runLanes env.rm gens act fun l _ =>
      let (x, f1) := decLane env fi a l
      let (y, f2) := decLane env fi b l
      let ordered := decide (2 ≤ cond ∧ cond ≤ 5)
      ⟨a.lane l, f1 ||| f2 ||| snanFlag [x, y] ||| flagIf (ordered && (x.isNaN || y.isNaN)) flagNV, false, false⟩
    let p := maskOf 16 fun l => tokenCond cond (decLane env fi a l).1 (decLane env fi b l).1
    ⟨buildToken old k a.tag a.exp r.out 0xFFFF p, r.gens, r.flags, 0⟩

/-- A move of lanes with their own valid and predicate bits: `src l` is the (token, lane) that active lane l takes. -/
def moveLanes (old hdr : Token) (k : Bool) (act : Nat → Bool) (src : Nat → Token × Nat) : Token :=
  let out := (List.range 16).map fun l => if act l then some ((src l).1.lane (src l).2) else none
  buildToken old k hdr.tag hdr.exp out
    (maskOf 16 fun l => (src l).1.valid.getLsbD (src l).2) (maskOf 16 fun l => (src l).1.pred.getLsbD (src l).2)

/-- R128: VSEL. -/
def tokSel (gens : Gens) (old a b c : Token) (mask : BitVec 16) (k : Bool) : TokOut :=
  if a.bub || b.bub || c.bub then ⟨bubbleDest old k a.tag, gens, 0, 0⟩
  else
    let t := moveLanes old a k (laneActive mask [c]) fun l => if c.pred.getLsbD l then (a, l) else (b, l)
    let act := maskOf 16 (laneActive mask [c])
    ⟨{ t with pred := (t.pred &&& ~~~act) ||| (c.pred &&& act) }, gens, 0, 0⟩

/-- R129 to R135: one conversion of an element code, by instruction. The source is read as format `f` (R129). An integer narrowed to
an integer format meets no RoundToFormat and steps no generator (assumption 58). -/
def convertElem (env : NumEnv) (kind : Conv) (dst f : Nat) (rm : Rounding) (ov : Overflow) (fi fo : Bool) (exp : BitVec 8)
    (lane : Nat) (g : BitVec 32) : LaneOut :=
  let (v0, fl) := decodeElem f exp env.remap lane
  let v := if fi then flushIn f v0 else v0
  match kind with
  | .vftoi => laneOf dst (floatToInt dst rm ov g v) fl
  | .vitof => laneOf dst (toFloat dst rm ov fo g exp v) fl
  | .vrndi =>
    match v with
    | .nan s sg p => laneOf dst (roundNan dst s sg p) fl
    | .inf s => ⟨laneForm dst (roundInf dst s).bits, 0, false, false⟩
    | .fin s m e =>
      let (n, ix) := roundInteger rm g s m e
      ⟨laneForm dst (roundFin dst .rtz .sat false 0 s n.natAbs 0).bits, flagIf ix flagNX, false, true⟩
  | _ =>
    if dst ≤ 5 then laneOf dst (toFloat dst rm ov fo g exp v) fl
    else if dst ≤ 9 then
      let r := narrowInt dst ov (match v with | .fin s m _ => if s then -(m : Int) else (m : Int) | _ => 0)
      ⟨laneForm dst r.bits, r.flags, r.trap, false⟩
    else if 10 ≤ f then laneOf dst (bfpToBfp dst f rm ov g lane) 0
    else laneOf dst (toBfp dst rm ov g exp v) fl

/-- The exponent of a conversion's result: into E2M1 it is the scale used (R130), else a's. -/
def convertExp (dst : Nat) (exp : BitVec 8) : BitVec 8 := if dst = 5 then e2m1Scale exp else exp

/-- R129 to R135: VCVT, VRNDI, VFTOI and VITOF. -/
def tokConvert (env : NumEnv) (gens : Gens) (kind : Conv) (dst f : BitVec 4) (rm : Rounding) (ov : Overflow) (old a : Token)
    (fi fo k : Bool) : TokOut :=
  let r := laneOp rm gens old a k 0xFFFF [a] dst fun l g =>
    convertElem env kind dst.toNat f.toNat rm ov fi fo a.exp (a.lane l).toNat g
  if a.bub then r else ⟨{ r.tok with exp := convertExp dst.toNat a.exp }, r.gens, r.flags, r.ovf⟩

/-- Codes of width w laid end to end, element 0 lowest (R136). -/
def packCodes (w : Nat) (codes : List Nat) : Nat := codes.foldr (fun c acc => acc * 2 ^ w + c % 2 ^ w) 0

/-- The width of a packed code: the element bits of a format, or the mantissa width of a BFP code (R13, R136). -/
def codeWidth (fmt : Nat) : Nat := if 10 ≤ fmt then bfpWidth fmt else elemBits fmt

/-- R50, R136: VPACK. A code taken as stored is read as R50 has it: the low bits of its container, with NV where that is illegal. -/
def tokPack (env : NumEnv) (gens : Gens) (dst f : BitVec 4) (rm : Rounding) (ov : Overflow) (old a : Token) (fi fo k : Bool) :
    TokOut :=
  let w := codeWidth dst.toNat
  let live := fun l => !a.bub && a.valid.getLsbD l
  let r := runLanes rm gens live fun l g =>
    if dst = f then ⟨a.lane l, (decodeElem f.toNat a.exp env.remap (a.lane l).toNat).2, false, false⟩
    else convertElem env .vpack dst.toNat f.toNat rm ov fi fo a.exp (a.lane l).toNat g
  let p := packCodes w (r.out.map fun o => match o with | some v => v.toNat | none => 0)
  let stale : Line := if k then old.data >>> (16 * w) else 0
  ⟨⟨stale ||| (BitVec.ofNat 512 p <<< (512 - 16 * w)), 9, a.exp, false, 0xFFFF, 0⟩, r.gens, r.flags, r.ovf⟩

/-- R137: VUNPK; the second token is a as it is left. -/
def tokUnpack (env : NumEnv) (gens : Gens) (dst f : BitVec 4) (rm : Rounding) (ov : Overflow) (a : Token) (fi fo k : Bool) :
    TokOut × Token :=
  let w := codeWidth f.toNat
  let r := runLanes rm gens (fun _ => true) fun e g =>
    let code := (fld a.data (e * w) w).toNat
    let lane := if 10 ≤ f.toNat then (BitVec.ofInt 32 (signedOf w code)).toNat else code
    if dst = f then ⟨laneForm f.toNat lane, 0, false, false⟩
    else convertElem env .vunpk dst.toNat f.toNat rm ov fi fo a.exp lane g
  (⟨⟨lineOfLanes (r.out.map fun o => o.getD 0), dst, a.exp, false, 0xFFFF, 0⟩, r.gens, r.flags, r.ovf⟩,
    if k then { a with data := a.data >>> (16 * w) } else a)

/-- The special functions of R138. -/
inductive Special where
  | expf | logf | getx | rcp | rsq
  deriving DecidableEq, Repr

/-- R138: the result of a special function on a decoded element. -/
def specialVal (fmt : Nat) (rm : Rounding) (fo : Bool) (g : BitVec 32) (op : Special) (v : Val) : Rounded :=
  let withDZ (r : Rounded) : Rounded := ⟨r.bits, r.flags ||| flagDZ, r.trap⟩
  match v with
  | .nan s sg p => roundNan fmt s sg p
  | .inf neg =>
    match op with
    | .expf => invalidResult fmt
    | .logf => if neg then invalidResult fmt else roundInf fmt false
    | .getx => roundInf fmt false
    | .rcp => ⟨withSign fmt neg 0, 0, false⟩
    | .rsq => if neg then invalidResult fmt else ⟨0, 0, false⟩
  | .fin neg m e =>
    if m = 0 then
      match op with
      | .expf => roundFin fmt rm .ieee fo g false 1 0
      | .logf => withDZ (roundInf fmt true)
      | .getx => withDZ (roundInf fmt true)
      | .rcp => withDZ (roundInf fmt neg)
      | .rsq => withDZ (roundInf fmt neg)
    else
      match op with
      | .expf =>
        if magGt m e 1 (-1) then invalidResult fmt else roundExact fmt rm .ieee fo g (exp2Exact neg m e)
      | .logf => if neg then invalidResult fmt else roundExact fmt rm .ieee fo g (log2Exact m e)
      | .getx =>
        let n : Int := (Nat.log2 m : Int) + e
        roundFin fmt rm .ieee fo g (decide (n < 0)) n.natAbs 0
      | .rcp => roundExact fmt rm .ieee fo g (recipExact neg m e)
      | .rsq => if neg then invalidResult fmt else roundExact fmt rm .ieee fo g (rsqrtExact m e)

/-- R138: VEXPF, VLOGF, VGETX, VRCP and VRSQ. -/
def tokSpecial (env : NumEnv) (gens : Gens) (op : Special) (old a : Token) (mask : BitVec 16) (fi fo k : Bool) : TokOut :=
  let fmt := opFormat a.tag.toNat
  laneOp env.rm gens old a k mask [a] (opTag a) fun l g =>
    let (x, f1) := decLane env fi a l
    laneOf fmt (specialVal fmt env.rm fo g op x) f1

/-- R139: the scale count of VSCALE. -/
def scaleCount (v : Val) : Int :=
  match v with
  | .nan _ _ _ => 0
  | .inf neg => if neg then -1048576 else 1048576
  | .fin neg m e =>
    let n : Int := if m = 0 then 0 else if 0 ≤ e then
        (if (Nat.log2 m : Int) + e > 24 then 1048576 else ((m * 2 ^ e.toNat : Nat) : Int))
      else ((m >>> (-e).toNat : Nat) : Int)
    let n := min n 1048576
    if neg then -n else n

/-- R139: VSCALE. -/
def tokScale (env : NumEnv) (gens : Gens) (old a b : Token) (mask : BitVec 16) (fi fo k : Bool) : TokOut :=
  let fmt := opFormat a.tag.toNat
  laneOp env.rm gens old a k mask [a, b] (opTag a) fun l g =>
    let (x, f1) := decLane env fi a l
    let (y, f2) := decLane env fi b l
    let fl := f1 ||| f2
    if x.isNaN || y.isNaN then laneOf fmt (roundOutc fmt env.rm fo g [x, y] false .invalid) fl
    else
      match x with
      | .fin s m e =>
        if m = 0 then ⟨laneForm fmt (withSign fmt s 0), fl, false, false⟩
        else laneOf fmt (roundFin fmt env.rm .ieee fo g s m (e + scaleCount y)) fl
      | .inf s => ⟨laneForm fmt (roundInf fmt s).bits, fl, false, false⟩
      | .nan _ _ _ => ⟨0, fl, false, false⟩

/-- R140, R141: a result written to lane 0 alone, valid and with its predicate bit clear. -/
def laneZero (old a : Token) (k : Bool) (tag : BitVec 4) (bits : BitVec 32) : Token :=
  buildToken old k tag a.exp ((List.range 16).map fun l => if l = 0 then some bits else none) 0xFFFF 0

/-- R140: VDOT. `old` is the destination before the instruction, whose lane 0 is the addend. -/
def tokDot (env : NumEnv) (gens : Gens) (old a b : Token) (mask : BitVec 16) (fi fo k : Bool) : TokOut :=
  let fmt := opFormat a.tag.toNat
  if a.bub || b.bub then ⟨bubbleDest old k (opTag a), gens, 0, 0⟩
  else
    let g := stepGen (gens.at 0)
    let lanes := (List.range 16).filter (laneActive mask [a, b])
    let (z, fz) := if old.valid.getLsbD 0 && !old.bub then decLane env fi old 0 else (Val.zero, 0)
    let xs := lanes.map (decLane env fi a)
    let ys := lanes.map (decLane env fi b)
    let fl := (xs ++ ys).foldl (fun f p => f ||| p.2) fz
    let prods := (xs.zip ys).map fun p => mulVal p.1.1 p.2.1
    let o : Outc := if prods.contains .invalid then .invalid
      else sumVals env.rm (z :: prods.filterMap fun p => match p with | .val v => some v | .invalid => none)
    let r := roundOutc fmt env.rm fo g (z :: (xs.map Prod.fst ++ ys.map Prod.fst)) false o
    ⟨laneZero old a k (opTag a) (laneForm fmt r.bits), gens.put env.rm 0 true, r.flags ||| fl, 0⟩

/-- A node of the tree of pairs: its value, and its rounded bits once a step has rounded it (R69). -/
abbrev Node := Option (Val × Option Nat)

/-- Running state of a tree: generators and flags. -/
structure TreeAcc where
  nodes : List Node
  gens : Gens
  flags : Flags

/-- R69, R141: one level of VSUMT; `p` is the lane position of the first node and `d` the distance of neighbouring results. -/
def sumLevel (env : NumEnv) (fmt : Nat) (fo : Bool) (d : Nat) : List Node → Nat → Gens → Flags → TreeAcc
  | [], _, gens, fl => ⟨[], gens, fl⟩
  | [x], _, gens, fl => ⟨[x], gens, fl⟩
  | x :: y :: rest, p, gens, fl =>
    match x, y with
    | some (u, _), some (v, _) =>
      let r := roundOutc fmt env.rm fo (stepGen (gens.at p)) [u, v] false (sumVals env.rm [u, v])
      let t := sumLevel env fmt fo d rest (p + d) (gens.put env.rm p true) (fl ||| r.flags)
      { t with nodes := some (decodeFloat fmt r.bits, some r.bits) :: t.nodes }
    | some u, none =>
      let t := sumLevel env fmt fo d rest (p + d) gens fl
      { t with nodes := some u :: t.nodes }
    | none, v =>
      let t := sumLevel env fmt fo d rest (p + d) gens fl
      { t with nodes := v :: t.nodes }

/-- R69: one level of VMAXT: exact selections. -/
def maxLevel : List Node → Flags → List Node × Flags
  | [], fl => ([], fl)
  | [x], fl => ([x], fl)
  | x :: y :: rest, fl =>
    match x, y with
    | some (u, _), some (v, _) =>
      let pick : Val :=
        match firstNaN [u, v] with
        | some (.nan s _ p) => .nan s false p
        | some w => w
        | none => if ltVal true u v then v else u
      let t := maxLevel rest (fl ||| snanFlag [u, v])
      (some (pick, none) :: t.1, t.2)
    | some u, none => let t := maxLevel rest fl; (some u :: t.1, t.2)
    | none, v => let t := maxLevel rest fl; (v :: t.1, t.2)

/-- The leaves of a tree: the active elements (R69). -/
def treeLeaves (env : NumEnv) (fi : Bool) (a : Token) (mask : BitVec 16) : List Node :=
  (List.range 16).map fun l => if laneActive mask [a] l then some ((decLane env fi a l).1, none) else none

/-- The flags of reading the active elements (R50). -/
def readFlags (env : NumEnv) (fi : Bool) (a : Token) (mask : BitVec 16) : Flags :=
  (List.range 16).foldl (fun f l => if laneActive mask [a] l then f ||| (decLane env fi a l).2 else f) 0

/-- R69: the bits of a lone active element of VSUMT whose tag is the operation format, passed on unchanged, a signalling NaN
included (assumption 58). -/
def loneBits (env : NumEnv) (fi : Bool) (a : Token) (mask : BitVec 16) : BitVec 32 :=
  let fmt := opFormat a.tag.toNat
  (List.range 16).foldl (fun r l =>
    if laneActive mask [a] l then
      (match (decLane env fi a l).1 with
       | .fin s m _ => if m = 0 then laneForm fmt (withSign fmt s 0) else laneForm fmt (a.lane l).toNat
       | _ => laneForm fmt (a.lane l).toNat)
    else r) 0

/-- R69, R141: VSUMT and VMAXT. A lone active element of VSUMT whose tag is not the operation format is rounded to it once, with
generator 0 (assumption 58). -/
def tokTree (env : NumEnv) (gens : Gens) (isSum : Bool) (old a : Token) (mask : BitVec 16) (fi fo k : Bool) : TokOut :=
  let fmt := opFormat a.tag.toNat
  if a.bub then ⟨bubbleDest old k (opTag a), gens, 0, 0⟩
  else
    let f0 := readFlags env fi a mask
    let leaves := treeLeaves env fi a mask
    let t : TreeAcc :=
      if isSum then
        let t1 := sumLevel env fmt fo 2 leaves 0 gens f0
        let t2 := sumLevel env fmt fo 4 t1.nodes 0 t1.gens t1.flags
        let t3 := sumLevel env fmt fo 8 t2.nodes 0 t2.gens t2.flags
        sumLevel env fmt fo 16 t3.nodes 0 t3.gens t3.flags
      else
        let t1 := maxLevel leaves f0
        let t2 := maxLevel t1.1 t1.2
        let t3 := maxLevel t2.1 t2.2
        let t4 := maxLevel t3.1 t3.2
        ⟨t4.1, gens, t4.2⟩
    match t.nodes.getD 0 none with
    | none => ⟨laneZero old a k (opTag a) 0, t.gens, t.flags, 0⟩
    | some (_, some bits) => ⟨laneZero old a k (opTag a) (laneForm fmt bits), t.gens, t.flags, 0⟩
    | some (v, none) =>
      if isSum && decide (a.tag.toNat ≤ 4) then
        ⟨laneZero old a k (opTag a) (loneBits env fi a mask), t.gens, t.flags, 0⟩
      else
        let r := roundVal fmt env.rm fo (stepGen (t.gens.at 0)) v
        ⟨laneZero old a k (opTag a) (laneForm fmt r.bits), t.gens.put env.rm 0 true, t.flags ||| r.flags, 0⟩

/-- Running state of VSCAN. -/
structure ScanAcc where
  run : Option Val
  out : List (Option (BitVec 32))
  gens : Gens
  flags : Flags

/-- R69, R141: VSCAN. -/
def tokScan (env : NumEnv) (gens : Gens) (old a : Token) (mask : BitVec 16) (fi fo k : Bool) : TokOut :=
  let fmt := opFormat a.tag.toNat
  if a.bub then ⟨bubbleDest old k (opTag a), gens, 0, 0⟩
  else
    let t := (List.range 16).foldl (fun (acc : ScanAcc) l =>
      if laneActive mask [a] l then
        let (x, f1) := decLane env fi a l
        let g := stepGen (acc.gens.at l)
        let r := match acc.run with
          | none => roundVal fmt env.rm fo g x
          | some u => roundOutc fmt env.rm fo g [u, x] false (sumVals env.rm [u, x])
        ⟨some (decodeFloat fmt r.bits), acc.out ++ [some (laneForm fmt r.bits)], acc.gens.put env.rm l true,
          acc.flags ||| f1 ||| r.flags⟩
      else { acc with out := acc.out ++ [none] }) ⟨none, [], gens, 0⟩
    ⟨buildToken old k (opTag a) a.exp t.out 0xFFFF a.pred, t.gens, t.flags, 0⟩

/-- R142: VPERM. -/
def tokPerm (gens : Gens) (old a b : Token) (mask : BitVec 16) (k : Bool) : TokOut :=
  if a.bub || b.bub then ⟨bubbleDest old k a.tag, gens, 0, 0⟩
  else ⟨moveLanes old a k (laneActive mask [b]) fun l => (a, (b.lane l).toNat % 16), gens, 0, 0⟩

/-- R143: the source lane of a shuffle pattern. -/
def shufLane (p l : Nat) : Nat := if p < 16 then (l ^^^ p) % 16 else (l + (p - 16)) % 16

/-- R143: VSHUF under a pattern; `srcs` are the source tokens of R120. -/
def tokShuf (gens : Gens) (p : Nat) (old a : Token) (srcs : List Token) (mask : BitVec 16) (k : Bool) : TokOut :=
  if srcs.any Token.bub then ⟨bubbleDest old k a.tag, gens, 0, 0⟩
  else ⟨moveLanes old a k (fun l => mask.getLsbD l) fun l => (a, shufLane p l), gens, 0, 0⟩

/-- R144: VBCST of lane j. -/
def tokBcst (gens : Gens) (j : Nat) (old a : Token) (srcs : List Token) (mask : BitVec 16) (k : Bool) : TokOut :=
  if srcs.any Token.bub then ⟨bubbleDest old k a.tag, gens, 0, 0⟩
  else ⟨moveLanes old a k (fun l => mask.getLsbD l) fun _ => (a, j % 16), gens, 0, 0⟩

/-- R146: VMSK. -/
def tokMask (gens : Gens) (old a b : Token) (mask : BitVec 16) (k : Bool) : TokOut :=
  if a.bub || b.bub then ⟨bubbleDest old k a.tag, gens, 0, 0⟩
  else
    let out := (List.range 16).map fun l => if mask.getLsbD l then some (a.lane l) else none
    ⟨buildToken old k a.tag a.exp out (a.valid &&& b.pred) a.pred, gens, 0, 0⟩

/-- The integer operations of R147. -/
inductive IntOp where
  | add | sub | mul | and | or | xor | shl | shr | sar | min | max | cnt | mac
  deriving DecidableEq, Repr

/-- R147: the tag of an integer operation's result. -/
def intTag (a : Token) : BitVec 4 := if isIntCode a.tag then a.tag else 9

/-- R147: one integer result on the low w bits of the operands. -/
def intElem (op : IntOp) (w : Nat) (unsigned : Bool) (a b c : Nat) : Nat :=
  let n := 2 ^ w
  let x := a % n
  let y := b % n
  let z := c % n
  let less := if unsigned then decide (x < y) else decide (signedOf w x < signedOf w y)
  match op with
  | .add => (x + y) % n
  | .sub => (x + n - y) % n
  | .mul => (x * y) % n
  | .and => x &&& y
  | .or => x ||| y
  | .xor => x ^^^ y
  | .shl => if w ≤ y then 0 else (x <<< y) % n
  | .shr => if w ≤ y then 0 else x >>> y
  | .sar => (signedOf w x / (2 ^ min y w : Nat) % (n : Nat)).toNat
  | .min => if less then x else y
  | .max => if less then y else x
  | .cnt => popCount (BitVec.ofNat 32 x)
  | .mac => (x * y + z) % n

/-- R147: the integer group. `srcs` are the operands the form has. -/
def tokInt (gens : Gens) (op : IntOp) (old a b c : Token) (srcs : List Token) (mask : BitVec 16) (k : Bool) : TokOut :=
  let tag := intTag a
  let w := intWidth tag.toNat
  laneOp .rne gens old a k mask srcs tag fun l _ =>
    ⟨laneForm tag.toNat (intElem op w (a.tag == 7) (a.lane l).toNat (b.lane l).toNat (c.lane l).toNat), 0, false, false⟩

/-- R148: the bins after VHIST; `bins` are the registers from d on. -/
def histBins (bins : List Token) (a b : Token) (mask : BitVec 16) : List Token :=
  if a.bub || b.bub then bins
  else
    let idx (j : Nat) (t : Token) : Token :=
      { t with data := lineOfLanes ((List.range 16).map fun l =>
          if laneActive mask [a, b] l && (a.lane l).toNat == j then t.lane l + b.lane l else t.lane l) }
    (List.range bins.length).zipWith idx bins

/-- R120, R149: VHMRG over the bin registers from a to b. -/
def tokHmrg (gens : Gens) (old : Token) (bins : List Token) (mask : BitVec 16) (k : Bool) : TokOut :=
  if bins.any Token.bub then ⟨bubbleDest old k 9, gens, 0, 0⟩
  else
    let out := (List.range 16).map fun j =>
      if mask.getLsbD j then
        match bins[j]? with
        | some t => some ((lanesOf t.data).foldl (· + ·) 0)
        | none => none
      else none
    ⟨buildToken old k 9 0 out 0xFFFF 0, gens, 0, 0⟩

/-- R150: the shared exponent of a block and its flag. -/
def blockExp (env : NumEnv) (fi : Bool) (mask : BitVec 16) (ts : List Token) : BitVec 8 × Flags :=
  let vs := ts.flatMap fun t =>
    ((List.range 16).filter fun l => !t.bub && laneActive mask [t] l).map (decLane env fi t)
  let fl := vs.foldl (fun f p => f ||| p.2) 0
  if vs.any fun p => p.1.isNaN then (255, fl ||| flagNV)
  else if vs.any fun p => p.1 == .inf true || p.1 == .inf false then (255, fl)
  else
    let tops := vs.filterMap fun p => match p.1 with
      | .fin _ m e => if m = 0 then none else some ((Nat.log2 m : Int) + e)
      | _ => none
    match tops with
    | [] => (0, fl)
    | t :: rest =>
      let top := rest.foldl max t
      (BitVec.ofInt 8 (max 1 (min 255 (top + 128))), fl)

/-! ### Plait values (R151, R194) -/

/-- R151: the value function of a 16-bit window. -/
def plaitValue (win mul add : Nat) : Int :=
  let t := (win * mul + add) % 2 ^ 32
  let s : Int := ((t % 256 + (t >>> 8) % 256 + (t >>> 16) % 256 + (t >>> 24) % 256 : Nat) : Int) - 510
  s / 16

/-- R151, R194: the rate (b, g) of a code: 0 (1,1), 1 (3,2), 2 (7,4). -/
def plaitRate (c : Nat) : Option (Nat × Nat) :=
  match c with
  | 0 => some (1, 1)
  | 1 => some (3, 2)
  | 2 => some (7, 4)
  | _ => none

/-- R194, R195: a slice is checked by its rate code and its odd multiplier. -/
def sliceOk (w : Token) : Bool := (plaitRate ((w.lane 4).toNat % 4)).isSome && (w.lane 2).getLsbD 0

/-- R194: weight e of a plait slice; 0 where the slice is not well-formed. -/
def sliceWeight (w : Token) (e : Nat) : Int :=
  match plaitRate ((w.lane 4).toNat % 4) with
  | none => 0
  | some (b, g) =>
    if (w.lane 2).getLsbD 0 then
      let bits := (w.lane 0).toNat + (w.lane 1).toNat * 2 ^ 32
      plaitValue ((bits >>> (e * b / g)) % 65536) (w.lane 2).toNat (w.lane 3).toNat
    else 0

/-- R191, R194: the cell form of VPLD on a slice. -/
def tokSlice (gens : Gens) (a : Token) : TokOut :=
  if a.bub then ⟨Token.bubble 14, gens, 0, 0⟩
  else if sliceOk a then
    ⟨⟨lineOfLanes ((List.range 16).map fun e => BitVec.ofInt 32 (sliceWeight a e)), 14, a.exp, false, 0xFFFF, 0⟩, gens, 0, 0⟩
  else ⟨⟨0, 14, 0, false, 0, 0⟩, gens, flagNV, 0⟩

end Sys2Proof.Machine
end

