-- ==== Sys2Proof/Machine/Operands.lean ====
section
/-! DEFINITION. The operands of rim words (R20 to R24, R74): register files with their fixed entries, guards, immediates and
addresses; and the selection of the tile that a step acts on. -/

namespace Sys2Proof.Machine

/-! ### Register files (R74) -/

/-- Scalar register: s0 reads as zero. -/
def Core.s (c : Core) (r : BitVec 5) : BitVec 64 := if r = 0 then 0 else c.sregs[r.toNat]'(r.isLt)

/-- Scalar register write: a write to s0 is discarded. -/
def Core.setS (c : Core) (r : BitVec 5) (v : BitVec 64) : Core :=
  if r = 0 then c else { c with sregs := c.sregs.set r.toNat v (r.isLt) }

/-- Predicate register: p0 reads as true. -/
def Core.p (c : Core) (r : BitVec 3) : Bool := if r = 0 then true else c.preds.getLsbD r.toNat

/-- Predicate register write: a write to p0 is discarded. -/
def Core.setP (c : Core) (r : BitVec 3) (v : Bool) : Core :=
  if r = 0 then c else { c with preds := setBit c.preds r.toNat v }

/-- Token register. -/
def Core.t (c : Core) (r : BitVec 5) : Token := c.toks[r.toNat]'(r.isLt)

/-- Token register write. -/
def Core.setT (c : Core) (r : BitVec 5) (v : Token) : Core := { c with toks := c.toks.set r.toNat v (r.isLt) }

/-- Mask register: m0 reads as 0xFFFF. -/
def Core.m (c : Core) (r : BitVec 3) : BitVec 16 := if r = 0 then 0xFFFF else c.masks[r.toNat]'(r.isLt)

/-- Mask register write: a write to m0 is ignored. -/
def Core.setM (c : Core) (r : BitVec 3) (v : BitVec 16) : Core :=
  if r = 0 then c else { c with masks := c.masks.set r.toNat v (r.isLt) }

/-- R21: the guard. Its top bit negates. -/
def Core.guard (c : Core) (g : BitVec 4) : Bool := c.p (fld g 0 3) != g.getLsbD 3

/-! ### Immediates (R22) -/

/-- Sign-extended imm12. -/
def immS (i : BitVec 12) : BitVec 64 := i.signExtend 64
/-- Zero-extended imm12. -/
def immZ (i : BitVec 12) : BitVec 64 := i.setWidth 64
/-- The address of a load: imm12 signed, times the access size. -/
def loadAddr (base : BitVec 64) (i : BitVec 12) (size : Nat) : BitVec 64 := base + i.signExtend 64 * BitVec.ofNat 64 size
/-- The address of a scalar store: imm10 signed, times the access size. -/
def storeAddr (base : BitVec 64) (i : BitVec 10) (size : Nat) : BitVec 64 := base + i.signExtend 64 * BitVec.ofNat 64 size

/-- A branch target, as an integer word address (R22, R23). -/
def targetOf {n : Nat} (pc : BitVec 10) (o : BitVec n) : Int := (pc.toNat : Int) + o.toInt

/-- A word address lies in the code store (R23). -/
def inStore (t : Int) : Bool := decide (0 ≤ t ∧ t ≤ 1023)

/-- EADDR of an integer detail. -/
def detailInt (t : Int) : BitVec 64 := BitVec.ofInt 64 t

/-! ### The tile in focus -/

/-- A tile by number. -/
def State.getTile (s : State) (t : Nat) : Tile :=
  if t = s.tileIdx then s.tile else (assocGet s.tiles t).getD (Tile.reset t)

/-- A tile replaced. -/
def State.putTile (s : State) (t : Nat) (x : Tile) : State :=
  if t = s.tileIdx then { s with tile := x } else { s with tiles := assocPut s.tiles t x }

/-- Makes a tile the one that the next rim instruction acts on. -/
def State.focusTile (s : State) (t : Nat) : State :=
  if t = s.tileIdx then s
  else { s with tile := s.getTile t, tileIdx := t, tiles := assocDrop (assocPut s.tiles s.tileIdx s.tile) t }

/-- A change of the core in focus. -/
def State.setCore (s : State) (c : Core) : State := { s with tile := { s.tile with core := c } }

/-- A change of a tile's core. -/
def State.onCore (s : State) (t : Nat) (f : Core → Core) : State :=
  let x := s.getTile t
  s.putTile t { x with core := f x.core }

/-- The tile number of logical coordinates. -/
def tileNum (trow tcol : Nat) : Nat := trow * 44 + tcol

/-- R273: a tile's slot is owned by a context. -/
def Tile.owns (t : Tile) (slot : Nat) (ctx : BitVec 16) : Bool := assocGet t.owners slot == some ctx

/-! ### The graph, region and cells in focus -/

/-- The numeric environment of a rim context (R49, R54). -/
def Core.env (c : Core) : NumEnv := ⟨Rounding.ofCode c.rm.toNat, c.remap⟩

/-- A graph by its slot-table number. -/
def State.getGraph (s : State) (g : Nat) : Option Graph :=
  if s.graph.slot = g then some s.graph else s.graphs.find? fun x => x.slot == g

/-- A graph replaced. -/
def State.putGraph (s : State) (x : Graph) : State :=
  if s.graph.slot = x.slot then { s with graph := x }
  else { s with graphs := s.graphs.map fun y => if y.slot = x.slot then x else y }

/-- Every bound graph. -/
def State.allGraphs (s : State) : List Graph := if s.graph.slot < 64 then s.graph :: s.graphs else s.graphs

/-- The graph whose bound rectangle holds a tile. -/
def State.graphOfTile (s : State) (t : Nat) : Option Graph :=
  s.allGraphs.find? fun g =>
    decide (g.trow0 ≤ t / 44 ∧ t / 44 < g.trow0 + g.trows ∧ g.tcol0 ≤ t % 44 ∧ t % 44 < g.tcol0 + g.tcols)

/-- A region of a graph by id. -/
def Graph.getRegion (g : Graph) (r : Nat) : Option Region := g.regions.find? fun x => x.id == r

/-- A region of a graph replaced, or added. -/
def Graph.putRegion (g : Graph) (x : Region) : Graph :=
  if g.regions.any fun y => y.id == x.id then { g with regions := g.regions.map fun y => if y.id = x.id then x else y }
  else { g with regions := g.regions ++ [x] }

end Sys2Proof.Machine
end

