-- ==== Sys2Proof/Machine/Ops.lean ====
section
/-! DEFINITION. The named operations of a rim core: hardware loops, retirement, traps and the return from one, special
registers aside (R91 to R97, R107 to R111, R162, R168, R173, R174, R229, R289, R294, R356 to R359). -/

namespace Sys2Proof.Machine

/-! ### Cause codes (R173) -/

def causeIllegal : BitVec 8 := 0x01
def causePriv : BitVec 8 := 0x02
def causeBadTgt : BitVec 8 := 0x03
def causeLoopErr : BitVec 8 := 0x04
def causeAlign : BitVec 8 := 0x05
def causeWardMiss : BitVec 8 := 0x06
def causeWardPerm : BitVec 8 := 0x07
def causeRefused : BitVec 8 := 0x08
def causePoison : BitVec 8 := 0x09
def causePageAbort : BitVec 8 := 0x0A
def causeOverflow : BitVec 8 := 0x0B
def causeSwTrap : BitVec 8 := 0x0C
def causeCodeErr : BitVec 8 := 0x0D
def causePreempt : BitVec 8 := 0x40
def causeMgmtReq : BitVec 8 := 0x41

/-! ### Free values (assumption 11) -/

/-- `n` free bytes as a number (assumption 11). -/
def freeNat (s : State) : Nat → Nat
  | 0 => 0
  | n + 1 => (Config.freeByte (s.free + n)).toNat + 256 * freeNat s n

/-- The free values of a step have been used. -/
def State.useFree (s : State) (n : Nat) : State := { s with free := s.free + n }

/-! ### Hardware loops (R93 to R95) -/

/-- R94: one level of LoopEnd(a) on (next, done, core). -/
def loopLevel (a : Nat) (l : Fin 3) (x : Nat × Bool × Core) : Nat × Bool × Core :=
  if !x.2.1 && x.2.2.lcsAct.getLsbD l && (x.2.2.lcsEnd.get l).toNat == a then
    if 1 < (x.2.2.lc.get l).toNat then
      ((x.2.2.lcsStart.get l).toNat, true, { x.2.2 with lc := x.2.2.lc.set l (x.2.2.lc.get l - 1) })
    else (x.1, false, { x.2.2 with lc := x.2.2.lc.set l 0, lcsAct := setBit x.2.2.lcsAct l false })
  else x

/-- R94: LoopEnd(a): the next address, and the core with its loop state after the evaluation. -/
def Core.loopEnd (c : Core) (a : Nat) : Nat × Core :=
  if c.le then
    let r := loopLevel a 0 (loopLevel a 1 (loopLevel a 2 (a + 1, false, c)))
    (r.1, r.2.2)
  else (a + 1, c)

/-- The loop counters and activity of another core (R168). -/
def Core.withLoops (c l : Core) : Core := { c with lc := l.lc, lcsAct := l.lcsAct }

/-- R95: ends the loops from a level inwards. -/
def Core.breakLoops (c : Core) (l : Nat) : Core :=
  { c with
    lc := Vector.ofFn fun k : Fin 3 => if l ≤ k.val then 0 else c.lc.get k
    lcsAct := maskOf 3 fun k => decide (k < l) && c.lcsAct.getLsbD k }

/-! ### Retirement (R157, R174, R357, R359) -/

/-- R359: adds a charge to COUNT, saturating. -/
def Core.addEnergy (c : Core) (n : Nat) : Core :=
  if 2 ^ 48 ≤ c.energy.toNat + n then { c with energy := BitVec.allOnes 48, energySat := true }
  else { c with energy := BitVec.ofNat 48 (c.energy.toNat + n) }

/-- R357: the charge of a retiring instruction of a class, by the mode it issued in. -/
def Core.charge (c : Core) (cls : Fin 8) (super : Bool) : Core :=
  if super then c else c.addEnergy (c.ew.get cls).toNat

/-- R168, R174, R358: an instruction of class `cls` that issued on core `pre` retires with the next address and loop state
`r`; `c` is the core with the instruction's own effects. Residency has ended where an event has arrived. -/
def Core.retire (c pre : Core) (cls : Fin 8) (r : Nat × Core) : Core :=
  { ((c.withLoops r.2).charge cls pre.mode) with
    pc := BitVec.ofNat 10 r.1, stall := .none, resident := !pre.mode && !pre.pendPreempt && !pre.pendMgmt, answers := [], held := none }

/-! ### Results that are written late (R158, R165, R169) -/

/-- R165: the scalar destination of a word whose latency is above 1: multiplications, divisions, SRD of ENERGY, VEXT, scalar loads
and atomics. -/
def slowDest (w : Word) : Option (BitVec 5) :=
  let op := (fld w 26 6).toNat
  let slow : Bool :=
    match op with
    | 0x01 => decide (10 ≤ (fld w 0 7).toNat ∧ (fld w 0 7).toNat ≤ 16)
    | 0x09 => true
    | 0x0E => true
    | 0x0F => true
    | 0x10 => true
    | 0x11 => true
    | 0x12 => true
    | 0x13 => true
    | 0x14 => true
    | 0x18 => true
    | 0x19 => true
    | 0x1F => fld w 4 12 == 0x201 && fld w 0 4 == 0
    | 0x27 => fld w 0 11 == 448
    | _ => false
  if slow then some (fld w 21 5) else none

/-- R158: one more instruction has issued behind the late results; a result is written before eight more can have. -/
def ageLate (l : List (BitVec 5 × Nat)) : List (BitVec 5 × Nat) :=
  (l.filter fun x => decide (x.2 < 7)).map fun x => (x.1, x.2 + 1)

/-- R158, R169: the destinations that an asynchronous write may still meet before the result that the model has written. -/
def Core.noteLate (c : Core) (w : Word) : Core :=
  { c with late := match slowDest w with
    | some d => (d, 0) :: ageLate c.late
    | none => ageLate c.late }

/-- R169: whether an asynchronous write to a register lands before a late result, which then replaces it: a free choice where the
result may still be on its way. -/
def State.landsFirst (s : State) (c : Core) (n : BitVec 5) : Bool := (c.late.any fun x => x.1 == n) && Config.landsFirst s.free

/-! ### Fence state (R111, R229, R289) -/

/-- R229: the status word of an accumulated state. -/
def FenceAcc.word (f : FenceAcc) (creelp : Bool) : BitVec 64 :=
  BitVec.ofNat 64 (f.dead.toNat + 2 * f.refused.toNat + 4 * creelp.toNat + 8 * f.poison.toNat + 16 * f.orphan.toNat +
    32 * f.aborted.toNat + 2 ^ 8 * f.fails.toNat + 2 ^ 20 * f.firstIa.toNat)

/-- R229, R289: adds an outcome, in the bit positions of R229 [5:0], at an IA. -/
def FenceAcc.add (f : FenceAcc) (out : BitVec 6) (ia : BitVec 44) : FenceAcc :=
  if out = 0 then f
  else
    { dead := f.dead || out.getLsbD 0
      refused := f.refused || out.getLsbD 1
      poison := f.poison || out.getLsbD 3
      orphan := f.orphan || out.getLsbD 4
      aborted := f.aborted || out.getLsbD 5
      fails := if f.fails = 4095 then 4095 else f.fails + 1
      firstIa := if f.fails = 0 then ia else f.firstIa }

/-- R229 [0]: the outcome of a store whose link is down. -/
def outDead : BitVec 6 := 0x01
/-- R229 [1]. -/
def outRefused : BitVec 6 := 0x02
/-- R229 [3]. -/
def outPoison : BitVec 6 := 0x08
/-- R229 [4]. -/
def outOrphan : BitVec 6 := 0x10
/-- R229 [5]. -/
def outAborted : BitVec 6 := 0x20

/-- R111: whether an entry's recorded scope lies within a named scope. -/
def scopeWithin (entry named : BitVec 3) : Bool := decide (entry.toNat ≤ 4) || named == 5

/-- R111: every access of the resident context has been performed at a scope, and in the default form every entry of its
creel within the scope has ended and been reported. -/
def Core.fenceReady (c : Core) (nw : Bool) (scope : BitVec 3) : Bool :=
  (c.sent.all fun x => x.ctx != c.ctx) && (c.aloft.all fun e => e.ctx != c.ctx) &&
  (nw || c.creel.all fun e => e.ctx != c.ctx || !scopeWithin e.scope scope) &&
  (scope != 5 || (c.owedLines.isEmpty && c.owedRemote.all fun x => x.entry.ctx != c.ctx))

/-- R229 [2]: entries in scope remain. -/
def Core.creelRemains (c : Core) (scope : BitVec 3) : Bool :=
  c.creel.any fun e => e.ctx == c.ctx && scopeWithin e.scope scope

/-! ### Command statuses (R84, R166) -/

/-- R84, R166: PEND: bit n is set while a command that names sn has not landed. -/
def Core.pend (c : Core) : BitVec 32 := maskOf 32 fun n => n != 0 && c.cmds.any fun x => x.d.toNat == n

/-! ### Traps (R107, R108, R110, R294) -/

/-- R294: the rim fault record of a core that stops, from its trap registers. -/
def Core.faultRecord (c : Core) (time : BitVec 64) : RimFault where
  ctx := c.ctx
  trow := c.trow
  tcol := c.tcol
  cause := c.ecause
  async := c.easync
  super := c.mode
  eaddr := c.eaddr
  estat := c.estat
  epc := c.epc
  time := time
  fenceAcc := c.fence.word false
  pend := c.pend

/-- R107, R294, R114: the context stops, its record is written, and the messages waiting for it are discarded. -/
def stopContext (s : State) : State :=
  let c := s.tile.core
  { s with tile := { s.tile with
      core := { c with run := .stopped, fault := some (c.faultRecord s.time), stall := .none }
      inbox := [] } }

/-- R107: EnterTrap. `word` is the word of the trapping instruction. -/
def enterTrap (s : State) (cause : BitVec 8) (detail : BitVec 64) (resume : BitVec 10) (async : Bool) (word : Word) : State :=
  let c := { s.tile.core with
    epc := resume, ecause := cause, easync := async, eaddr := detail, estat := if async then 0 else word,
    stall := .none, resident := false, answers := [], held := none }
  if c.mode || !c.tvecValid then stopContext (s.setCore c)
  else s.setCore { c with pmode := c.mode, ple := c.le, mode := true, le := false, pc := c.tvecEntry }

/-- A synchronous trap at the core's pc of the instruction whose word is `word` (R107). -/
def trapAt (s : State) (cause : BitVec 8) (detail : BitVec 64) (word : Word) : State :=
  enterTrap s cause detail s.tile.core.pc false word

/-- R110: the return from a trap, in supervisor mode. -/
def Core.returnFromTrap (c : Core) : Core :=
  { c with mode := c.pmode, le := c.ple, pc := c.epc, stall := .none, resident := false }

/-! ### The course of an instruction -/

/-- What the effect of an instruction amounts to: done with a state, a trap with its cause and EADDR (`trapIn`: after accesses
that left a state), or a stall. -/
inductive Act where
  | done (s : State)
  | trap (cause : BitVec 8) (detail : BitVec 64)
  | trapIn (s : State) (cause : BitVec 8) (detail : BitVec 64)
  | stall (st : Stall) (s : State)

/-- R170, R358: the core waits with the instruction whose word is `word`. One that waits at issue starts no residency. -/
def stallCore (st : Stall) (word : Word) (s : State) : State :=
  let c := s.tile.core
  let res := match st with
    | .again => c.resident
    | .nextp => c.resident
    | .halt => false
    | _ => !c.mode && !c.pendPreempt && !c.pendMgmt
  s.setCore { c with stall := st, resident := res, held := some ⟨word, c.sregs⟩ }

/-- The state after an instruction retires (R168, R174): `s'` is the state with its effects. -/
def retireTo (s s' : State) (cls : Fin 8) (r : Nat × Core) : State :=
  s'.setCore (s'.tile.core.retire s.tile.core cls r)

/-- R158, R169: the core in focus notes the late result of a word. -/
def lateIn (word : Word) (s : State) : State := s.setCore (s.tile.core.noteLate word)

/-- The course of a sequential instruction (R21, R23, R94, R109, R168): the check of word 1,023, the guard, the effect, and
retirement. `post` is what a write of loop state does on top of the loop end (R168). -/
def seqWith (cls : Fin 8) (word : Word) (guard : Bool) (body : State → Act) (post : State → State) (s : State) : Result :=
  let r := s.tile.core.loopEnd s.tile.core.pc.toNat
  if r.1 = 1024 then .next (trapAt s causeBadTgt 1024 word)
  else if guard then
    match body s with
    | .done s' => .next (post (lateIn word (retireTo s s' cls r)))
    | .trap cause detail => .next (trapAt s cause detail word)
    | .trapIn s' cause detail => .next (trapAt s' cause detail word)
    | .stall st s' => .next (stallCore st word s')
  else .next (retireTo s s cls r)

/-- A sequential instruction without a write of loop state. -/
def seqInstr (cls : Fin 8) (word : Word) (guard : Bool) (body : State → Act) (s : State) : Result :=
  seqWith cls word guard body id s

/-- A sequential instruction that only changes its core (R86 and others). -/
def coreInstr (cls : Fin 8) (word : Word) (guard : Bool) (f : Core → Core) (s : State) : Result :=
  seqInstr cls word guard (fun s => .done (s.setCore (f s.tile.core))) s

/-- R31, R109: PRIV is taken before every cause but ILLEGAL, whatever the guard says. -/
def privInstr (word : Word) (run : State → Result) (s : State) : Result :=
  if s.tile.core.mode then run s else .next (trapAt s causePriv 0 word)

/-- R91, R92: a taken transfer to a word address, linking in `link`. -/
def transfer (word : Word) (t : Int) (link : BitVec 5) (s : State) : Result :=
  if inStore t then
    let c := s.tile.core
    let c' := (c.setS link (BitVec.ofNat 64 (c.pc.toNat + 1))).charge 1 c.mode
    .next (s.setCore { c' with pc := BitVec.ofInt 10 t, stall := .none, resident := !c.mode })
  else .next (trapAt s causeBadTgt (detailInt t) word)

/-! ### Asynchronous events (R170 to R172) -/

/-- R171, R292, R373: the graph that owns a tile holds its cores, has stopped, or is being saved. -/
def Graph.stalls (g : Graph) : Bool := g.hist.getLsbD 7 || (g.stopped && g.grace == 0) || g.saving

/-- R171: whether a tile's core may issue. -/
def State.mayIssue (s : State) (t : Nat) : Bool := (s.graphOfTile t).all fun g => !g.stalls

/-- R170: whether an event can be taken in a stall. -/
def Stall.open : Stall → Bool
  | .none => true
  | .wait _ => true
  | .fence _ _ _ => true
  | .halt => true
  | .again => true
  | .load _ _ => true
  | .held _ => true
  | .aborted _ => false
  | .nextp => false
  | .away _ => false

/-- R107, R170, R172: whether the core in focus can take an event now. -/
def State.takesEvent (s : State) : Bool :=
  let c := s.tile.core
  c.run == .running && !c.mode && c.stall.open && s.mayIssue s.tileIdx

end Sys2Proof.Machine
end

