-- ==== Sys2Proof/Machine/Access.lean ====
section
/-! DEFINITION. Memory accesses of a rim core: ward translation, the checks at issue, loads, stores, reductions and atomics, with
the creel, notices and strand requests (R98, R99, R103 to R106, R283 to R289, R305, R315, R319, R320, R326, R405). -/

namespace Sys2Proof.Machine

/-! ### Wards (R98, R305, R306) -/

/-- Whether a ward's range holds a VA below 2^48. -/
def Ward.holds (w : Ward) (va : Nat) : Bool :=
  w.v && decide (w.vbase.toNat ≤ va / 65536 ∧ va / 65536 < w.vlimit.toNat)

/-- R306: the lowest-numbered valid ward whose range holds a VA. -/
def findWard (ws : List Ward) (va : Nat) : Option Ward := if va < 2 ^ 48 then ws.find? fun w => w.holds va else none

/-- R306: the IA of a VA under a ward. -/
def Ward.ia (w : Ward) (va : Nat) : Nat := (w.iabase.toNat * 65536 + va - w.vbase.toNat * 65536) % 2 ^ 44

/-- Whether a ward grants what an access asks. -/
def Ward.grants (w : Ward) (rd wr : Bool) : Bool := (!rd || w.pr) && (!wr || w.pw)

/-- R98, R109: the first check that an access of one or several VAs fails, with its VA: alignment of every VA first, then wards,
then permissions, each at the lowest-numbered lane. -/
def checkVas (ws : List Ward) (vas : List (BitVec 64)) (align : Nat) (rd wr : Bool) : Option (BitVec 8 × BitVec 64) :=
  match vas.find? fun v => v.toNat % align != 0 with
  | some v => some (causeAlign, v)
  | none =>
    match vas.find? fun v => (findWard ws v.toNat).isNone with
    | some v => some (causeWardMiss, v)
    | none =>
      (vas.find? fun v => !((findWard ws v.toNat).any fun w => w.grants rd wr)).map fun v => (causeWardPerm, v)

/-- R305, R326: the module that a ward leads to; none for this one. -/
def Ward.dest (w : Ward) : Option (BitVec 14) := if w.isRemote then some w.modnum else none

/-! ### Attribute cache (R320) -/

/-- R320, R326: the number by which an issuer knows the page of an IA: pages of other modules stand apart from this module's. -/
def pageKey (dest : Option (BitVec 14)) (ia : Nat) : Nat :=
  match dest with
  | none => ia / 65536
  | some m => ia / 65536 + 2 ^ 28 * (m.toNat + 1)

/-- The page of an entry, as its issuer knows it. -/
def CreelEntry.pageKey (e : CreelEntry) : Nat := Machine.pageKey e.dest e.ia.toNat

/-- The attribute that an issuer holds for a page; without one the access is ordered as SO. -/
def attrOf (attrs : List (Nat × BitVec 2)) (page : Nat) : BitVec 2 := (assocGet attrs page).getD 0

/-- R320: the cache of 16 pages after a reply. -/
def seeAttr (attrs : List (Nat × BitVec 2)) (page : Nat) (attr : BitVec 2) : List (Nat × BitVec 2) :=
  ((page, attr) :: assocDrop attrs page).take 16

/-! ### Notices (R283) -/

/-- R283: an open notice for an issuer, which is a core by its tile and context, and a page, added unless one is open. -/
def addNotice (s : State) (page : Nat) (who : Issuer) (ctx : BitVec 16) (kind : BitVec 2) (ia : Nat) : State :=
  if s.notices.any fun n => n.page == page && n.who == who && n.ctx == ctx then s
  else
    { s with
      notices := s.notices ++ [⟨s.noticeId, page, who, ctx, kind, ia, s.time⟩]
      noticeId := s.noticeId + 1 }

/-! ### The creel (R285 to R288) -/

/-- An entry that has not ended. -/
def CreelEntry.live (e : CreelEntry) : Bool := e.state == .pending

/-- R285: whether a write to a page becomes an entry without asking the hub, and then its ORD bit. -/
def creelGate (entries : List CreelEntry) (key : Nat) (so rel : Bool) : Option Bool :=
  let live := entries.filter CreelEntry.live
  if (so && live.any fun e => e.attr == 0) || (rel && !live.isEmpty) then some true
  else if live.any fun e => e.pageKey == key then some false
  else none

/-- Whether a write is to one of some lines of a module. -/
def CreelEntry.meets (e : CreelEntry) (dest : Option (BitVec 14)) (lines : List Nat) : Bool :=
  e.dest == dest && lines.contains (e.ia.toNat / 64)

/-- R286: whether a load of some lines is held by an issuer's creel. -/
def creelHolds (entries : List CreelEntry) (dest : Option (BitVec 14)) (lines : List Nat) (so : Bool) : Bool :=
  entries.any fun e => e.live && (e.meets dest lines || (so && e.attr == 0))

/-- R319: whether an access to some lines follows a write of the core that is on its way. A page whose attribute is UN gives the
access no order. -/
def Core.aloftMeets (c : Core) (dest : Option (BitVec 14)) (lines : List Nat) (attr : BitVec 2) : Bool :=
  attr != 2 && ((c.aloft.any fun e => e.meets dest lines) || c.owedRemote.any fun x => x.entry.meets dest lines)

/-- R320: an SO write of the core is on its way, behind which every SO access waits. -/
def Core.soAloft (c : Core) : Bool := (c.owedRemote.any fun x => x.entry.attr == 0) || c.aloft.any fun e => e.attr == 0

/-! ### Combining (R103, R105, R281, R315) -/

/-- A floating-point sum at a bank ALU: RNE, the overflow of R61, no flags. -/
def bankAdd (fmt : Nat) (old v : Nat) : Nat :=
  let x := decodeFloat fmt old
  let y := decodeFloat fmt v
  (roundOutc fmt .rne false 0 [x, y] false (sumVals .rne [x, y])).bits % 2 ^ (if fmt = 0 then 32 else 16)

/-- Signed 32-bit order. -/
def less32 (a b : Nat) : Bool := (BitVec.ofNat 32 a).slt (BitVec.ofNat 32 b)

/-- One 32-bit word combined (R288 OP): 0 store, 1 INT32 add, 2 FP32 add, 3 BF16 add in each half, 4 INT32 min, 5 INT32 max. -/
def combineWord (op : Nat) (old v : Nat) : Nat :=
  match op with
  | 1 => (old + v) % 2 ^ 32
  | 2 => bankAdd 0 old v
  | 3 => bankAdd 2 (old % 65536) (v % 65536) + 65536 * bankAdd 2 (old / 65536) (v / 65536)
  | 4 => if less32 v old then v else old
  | 5 => if less32 old v then v else old
  | _ => v

/-- The sixteen words of a line combined. -/
def combineLine (op : Nat) (data old : Nat) : Nat :=
  (List.range 16).foldr (fun l acc =>
    acc * 2 ^ 32 + combineWord op ((old >>> (32 * l)) % 2 ^ 32) ((data >>> (32 * l)) % 2 ^ 32)) 0

/-- R103, R104, R29: the new element of an atomic, or none where AMOCAS does not match. Functions 0 to 10 are those of AMO, 11 is
AMOCAS. -/
def amoNew (func size : Nat) (old v cmp : Nat) : Option Nat :=
  let n := 8 * size
  let so := signedOf n old
  let sv := signedOf n v
  match func with
  | 0 => some ((old + v) % 2 ^ n)
  | 1 => some (old &&& v)
  | 2 => some (old ||| v)
  | 3 => some (old ^^^ v)
  | 4 => some (if sv < so then v else old)
  | 5 => some (if so < sv then v else old)
  | 6 => some (min old v)
  | 7 => some (max old v)
  | 8 => some v
  | 9 => some (bankAdd 0 old v)
  | 10 => some (combineWord 3 old v)
  | _ => if old = cmp then some v else none

/-! ### Lines of the companion (R326) -/

/-- R326: whether the companion holds one of some lines modified. -/
def State.recalls (s : State) (lines : List Nat) : Bool := lines.any fun l => s.island.dirtyLines.contains l

/-- R326: the hubs recall the lines that the companion holds modified. -/
def recallLines (s : State) (lines : List Nat) : State :=
  { s with island := { s.island with
      recalls := s.island.recalls ++ lines.filter fun l => s.island.dirtyLines.contains l && !s.island.recalls.contains l } }

/-- R326: a reduction reads its line, which is recalled first. -/
def State.reducesHeld (s : State) (op : BitVec 3) (line : Nat) : Bool := op != 0 && s.recalls [line]

/-! ### Writes at the home hub -/

/-- R364: a store to the line of a queue's tail word notifies management. -/
def notifyTails (s : State) (ia : Nat) : State :=
  { s with agenda := s.agenda ++
      (s.mgmt.queues.filter fun q => (fld q.2.descr 64 44).toNat / 64 == ia / 64).map fun q => .queueTailNotify q.1 }

/-- R326: the bytes that the device writes of a line that the companion holds modified stand above those that it returns. -/
def noteOverlay (s : State) (line : Nat) (mask : BitVec 64) : State :=
  if s.island.dirtyLines.contains line then
    { s with island := { s.island with overlaid := sparsePut 0 s.island.overlaid line (sparseGet 0 s.island.overlaid line ||| mask) } }
  else s

/-- R99, R309, R326, R364: a write of one line at its home. -/
def performWrite (s : State) (ia : Nat) (mask : BitVec 64) (full : Bool) (a : Access) (f : Nat → Nat) : StoreOut :=
  match hubStore s ia mask full a f with
  | .done attr s' => .done attr (notifyTails (noteOverlay s' (ia / 64) mask) ia)
  | .unmapped p => .unmapped p
  | .refused r => .refused r
  | .poisoned s' => .poisoned s'

/-- R229, R284: the address that an ended entry reports: for a store, of the first byte that its mask names. -/
def CreelEntry.failIa (e : CreelEntry) : BitVec 44 :=
  if e.op = 0 then e.ia + BitVec.ofNat 44 (((List.range 64).find? e.mask.getLsbD).getD 0) else e.ia

/-- R103, R104, R315: an atomic at its home. -/
def hubAtomic (s : State) (ia size : Nat) (a : Access) (f : Nat → Option Nat) : LoadOut :=
  match hubAccess s ia a with
  | .at loc attr s' =>
    if linePoisoned s loc then .poisoned s'
    else
      let old := readBytes s'.mem loc size
      match f old with
      | none => .value old attr s'
      | some v =>
        let s' := { s' with mem := writeBytes s'.mem loc size v }
        .value old attr (notifyTails (if loc < spaceSize then noteLine s' ia loc a else s') ia)
  | .value _ _ _ => .refused 1
  | .unmapped p => .unmapped p
  | .refused r => .refused r
  | .poisoned => .poisoned s

/-- Whether a write of a line is the full-line store that clears poison (R99). -/
def fullLine (op : BitVec 3) (mask : BitVec 64) : Bool := op == 0 && mask == BitVec.allOnes 64

/-! ### Strand requests (R326, R405) -/

/-- GEN of a packet that this module injects (R405, R407). -/
def State.ownGen (s : State) : BitVec 16 := match s.island.gens with | g :: _ => g.gen | [] => 0

/-- R405, R407: a packet of this module enters the crossbar under the newest table generation. -/
def injectPacket (s : State) (dest : BitVec 14) (response : Bool) (body : PacketBody) : State :=
  let id := s.island.pktId
  let p : Packet := ⟨dest, s.island.moduleNum, s.ownGen, if response then 1 else 0, response, body⟩
  { s with
    island := { s.island with pktId := id + 1, transit := s.island.transit ++ [⟨id, p, none, false⟩] }
    agenda := s.agenda ++ [.packetHop id] }

/-- R405, R407: a request leaves for another module; its number is that of its packet. `ias` are the bytes that it asks for one by
one. -/
def sendRequest (s : State) (who : Issuer) (ctx : BitVec 16) (dest : BitVec 14) (ia : Nat) (store : Bool) (ias : List Nat)
    (body : Nat → PacketBody) : State :=
  let id := s.island.pktId
  let s := injectPacket s dest false (body id)
  { s with island := { s.island with remotes := s.island.remotes ++ [⟨id, who, ctx, dest, ia, store, ias⟩] } }

/-- The number of a request or answer. -/
def bodyId : PacketBody → Nat
  | .read id _ _ => id
  | .segment id _ _ _ => id
  | .bytes id _ => id
  | .write id _ _ _ _ _ => id
  | .atomic id _ _ _ _ _ => id
  | .arrive id _ => id
  | .data id _ _ => id
  | .got id _ _ => id
  | .ack id _ => id
  | .refused id _ => id
  | .poisoned id => id
  | .orphan id => id
  | .unmapped id => id
  | .aborted id => id
  | .mapped page => page
  | .cancelled page => page

/-- R405: an answer sets out to the module that asked. -/
def answerPacket (s : State) (req : Packet) (body : PacketBody) : State := injectPacket s req.src true body

/-! ### Loads of the core in focus (R99, R286, R319, R320, R326) -/

/-- What a read gives: its value and the state, or how the instruction ends or waits. -/
inductive Got where
  | value (v : Nat) (s : State)
  | stop (a : Act)

/-- The issuer that the core in focus is. -/
def State.rimIssuer (s : State) : Issuer := .rim s.tileIdx

/-- R320: a reply's attribute enters a core's cache. -/
def Core.sawAttr (c : Core) (key : Nat) (attr : BitVec 2) : Core := { c with attrs := seeAttr c.attrs key attr }

/-- R320: a reply's attribute enters the cache of the core in focus. -/
def State.sawAttr (s : State) (ia : Nat) (attr : BitVec 2) : State := s.setCore (s.tile.core.sawAttr (ia / 65536) attr)

/-- R283, R99: the core in focus waits for a page. -/
def holdLoad (s : State) (va : BitVec 64) (ia page : Nat) : Got :=
  .stop (.stall (.load va page) (addNotice s page s.rimIssuer s.tile.core.ctx 0 ia))

/-- R108, R347: EADDR of a load that is refused: the VA of the access, or of the decoded line. -/
def refusedVa (s : State) (va : BitVec 64) (ia : Nat) : BitVec 64 :=
  if (fillRange s ia).isSome then va &&& ~~~63 else va

/-- R99: what the outcome at the hub means to the core in focus. -/
def afterLoad (s : State) (va : BitVec 64) (ia : Nat) (r : LoadOut) : Got :=
  match r with
  | .value v attr s' => .value v (s'.sawAttr ia attr)
  | .unmapped p => holdLoad s va ia p
  | .refused _ => .stop (.trapIn s causeRefused (refusedVa s va ia))
  | .poisoned s' => .stop (.trapIn s' causePoison va)

/-- R99, R326, R284: a load through a ward of another module has failed with a status. -/
def remoteFailed (s : State) (va : BitVec 64) (st : Status) : Got :=
  .stop (.trapIn s (if st.code = 0x12 then causePoison else if st.code = 0x13 then causePageAbort else causeRefused) va)

/-- The number by which a core keeps the answer for a byte of another module. -/
def answerKey (dest : Option (BitVec 14)) (ia : Nat) : Nat := pageKey dest ia * 65536 + ia % 65536

/-- R286, R319, R320: why the core in focus may not send a load or atomic of some lines yet. -/
def Core.loadWaits (c : Core) (va : BitVec 64) (dest : Option (BitVec 14)) (lines : List Nat) (attr : BitVec 2) : Option Stall :=
  if creelHolds c.creel dest lines (attr == 0) || c.aloftMeets dest lines attr then some (.held va)
  else if attr == 0 && c.soAloft then some .again
  else none

/-- R326: an access through a ward of another module: its answer where it has returned, else the request. -/
def remoteRead (s : State) (va : BitVec 64) (w : Ward) (ia : Nat) (body : Nat → PacketBody) : Got :=
  let c := s.tile.core
  match assocGet c.answers (answerKey w.dest ia) with
  | some (.value v) => .value v s
  | some (.failed st) => remoteFailed s va st
  | none =>
    match c.loadWaits va w.dest [ia / 64] (attrOf c.attrs (pageKey w.dest ia)) with
    | some st => .stop (.stall st s)
    | none => .stop (.stall (.away s.island.pktId) (sendRequest s s.rimIssuer c.ctx w.modnum ia false [] body))

/-- R99, R286, R326, R345: the core in focus reads `n` bytes within one line, after the checks of R98. -/
def rimRead (va : BitVec 64) (n : Nat) (s : State) : Got :=
  let c := s.tile.core
  match findWard c.wards.toList va.toNat with
  | none => .stop (.trapIn s causeWardMiss va)
  | some w =>
    let ia := w.ia va.toNat
    if w.isRemote then remoteRead s va w ia fun id => .read id ia n
    else
      let lines := loadLines s ia
      match c.loadWaits va none lines (attrOf c.attrs (ia / 65536)) with
      | some st => .stop (.stall st s)
      | none =>
        if s.recalls lines then .stop (.stall (.held va) (recallLines s lines))
        else afterLoad s va ia (hubLoad s ia n (Access.loads c.mode))

/-- R102, R152: several reads in order; the first that stops ends them. -/
def rimReads (n : Nat) : List (BitVec 64) → State → List Nat → (List Nat → State → Act) → Act
  | [], s, got, k => k got s
  | va :: rest, s, got, k =>
    match rimRead va n s with
    | .value v s' => rimReads n rest s' (got ++ [v]) k
    | .stop a => a

/-- R98, R100, R101: a single load with its checks. -/
def loadThen (va : BitVec 64) (n : Nat) (k : Nat → State → State) (s : State) : Act :=
  match checkVas s.tile.core.wards.toList [va] n true false with
  | some (cause, v) => .trap cause v
  | none =>
    match rimRead va n s with
    | .value v s' => .done (k v s')
    | .stop a => a

/-- R152: the bytes at some VAs that lie in one page of another module and have not been read: one request brings them. -/
def bytesAhead (vas : List (BitVec 64)) (s : State) : Option Act :=
  let c := s.tile.core
  let away (va : BitVec 64) : Option (Ward × Nat) :=
    match findWard c.wards.toList va.toNat with
    | some w =>
      let ia := w.ia va.toNat
      if w.isRemote && (assocGet c.answers (answerKey w.dest ia)).isNone then some (w, ia) else none
    | none => none
  match vas.findSome? fun va => (away va).map fun x => (va, x) with
  | none => none
  | some (va, w, ia) =>
    let key := pageKey w.dest ia
    let ias := (vas.filterMap away).filterMap fun x => if pageKey x.1.dest x.2 = key then some x.2 else none
    match c.loadWaits va w.dest (ias.map (· / 64)) (attrOf c.attrs key) with
    | some st => some (.stall st s)
    | none => some (.stall (.away s.island.pktId)
        (sendRequest s s.rimIssuer c.ctx w.modnum ia false ias fun id => .bytes id ias))

/-- R152: the bytes of a plait segment in another module that lie in the page of its header, for the lanes of the elements from `i0`
on: one request brings them. It waits for every write of the core to that page. -/
def segmentAhead (va : BitVec 64) (i0 : Nat) (lanes : BitVec 16) (s : State) : Option Act :=
  let c := s.tile.core
  match findWard c.wards.toList va.toNat with
  | none => none
  | some w =>
    let ia := w.ia va.toNat
    let key := pageKey w.dest ia
    if !w.isRemote || !w.pr || (assocGet c.answers (answerKey w.dest ia)).isSome then none
    else
      let lines := (List.range 1024).map fun l => ia / 65536 * 1024 + l
      match c.loadWaits va w.dest lines (attrOf c.attrs key) with
      | some st => some (.stall st s)
      | none => some (.stall (.away s.island.pktId)
          (sendRequest s s.rimIssuer c.ctx w.modnum ia false [] fun id => .segment id ia i0 lanes))

/-! ### Stores of the core in focus (R99, R285, R319, R320, R326) -/

/-- R285: room for `n` entries more beside those in use and those reserved. -/
def Core.creelRoom (c : Core) (n : Nat) : Bool :=
  decide (c.creel.length + c.sent.length + c.aloft.length + c.owedRemote.length + n ≤ 64)

/-- The entry of a write of the core in focus to the line of an IA (R288). -/
def writeEntry (c : Core) (w : Ward) (ia : Nat) (op : BitVec 3) (mask : BitVec 64) (data : Line) : CreelEntry :=
  { ia := BitVec.ofNat 44 (ia / 64 * 64)
    op := op
    scope := w.scope
    attr := attrOf c.attrs (pageKey w.dest ia)
    ord := false
    state := .pending
    mask := mask
    ctx := c.ctx
    out := 0
    seq := 0
    data := data
    key := none
    hoop := none
    ref := none
    dest := w.dest }

/-- R288: an entry takes its place in a core's creel. -/
def Core.pushEntry (c : Core) (e : CreelEntry) : Core :=
  { c with creel := c.creel ++ [{ e with seq := c.creelSeq }], creelSeq := c.creelSeq + 1 }

/-- R285: a write of a core has been sent, with the outcome that its acknowledgement will report. -/
def pushSent (s : State) (t : Nat) (e : CreelEntry) (attr : BitVec 2) (out : BitVec 6) : State :=
  { s.onCore t fun c => { c with sent := c.sent ++ [⟨e.failIa, e.ctx, attr, out⟩] } with
    agenda := s.agenda ++ [.writeAcknowledgement (.rim t)] }

/-- R326: a write of a core to a line that the companion caches owes its SYSTEM acknowledgement. -/
def oweLine (s : State) (t line : Nat) : State :=
  if s.island.heldLines.contains line then s.onCore t fun c => { c with owedLines := c.owedLines ++ [line] } else s

/-- R99, R285, R326: a write of a core reaches its home hub. -/
def landWrite (s : State) (t : Nat) (e : CreelEntry) : State :=
  let ia := e.ia.toNat
  match performWrite s ia e.mask (fullLine e.op e.mask) Access.stores (combineLine e.op.toNat e.data.toNat) with
  | .done attr s' => pushSent (oweLine (s'.onCore t fun c => c.sawAttr (ia / 65536) attr) t (ia / 64)) t e attr 0
  | .unmapped p =>
    (addNotice (discardStale s ia Access.stores) p (.rim t) e.ctx 1 e.failIa.toNat).onCore t fun c => c.pushEntry e
  | .refused _ => pushSent (discardStale s ia Access.stores) t e 0 outRefused
  | .poisoned s' => pushSent s' t e 0 outPoison

/-- R99, R319: whether a write is performed later than at its issue: as the hubs choose, and behind an older write of the core to its
line that is on its way, unless its page is UN. A write that is ordered as SO is so only where its line is recalled first. -/
def writesLate (s : State) (c : Core) (e : CreelEntry) : Bool :=
  e.attr != 0 && (Config.storeLate s.free || c.aloftMeets none [e.ia.toNat / 64] e.attr)

/-- R99, R285, R326: the core in focus sends one line write; `ia` is the address of the access. -/
def rimWrite (w : Ward) (ia : Nat) (op : BitVec 3) (mask : BitVec 64) (data : Line) (rel : Bool) (s : State) : State :=
  let c := s.tile.core
  let e := writeEntry c w ia op mask data
  match creelGate c.creel (pageKey w.dest ia) (e.attr == 0) rel with
  | some ord => s.setCore (c.pushEntry { e with ord := ord })
  | none =>
    if w.isRemote then
      let id := s.island.pktId
      (sendRequest s s.rimIssuer c.ctx w.modnum e.failIa.toNat true [] fun id => .write id e.ia.toNat op mask data false).setCore
        { c with owedRemote := c.owedRemote ++ [⟨id, e, false⟩] }
    else if s.reducesHeld op (ia / 64) || writesLate s c e then
      { s.setCore { c with aloft := c.aloft ++ [e] } with hubq := s.hubq ++ [.rimStore s.tileIdx], free := s.free + 1 }
    else { landWrite s s.tileIdx e with free := s.free + 1 }

/-- R319, R320: a write of a core waits for one that is on its way: an SO write for an SO write, and one to another module for one to
its line there. -/
def Core.soWaits (c : Core) (w : Ward) (ia : Nat) : Bool :=
  let attr := attrOf c.attrs (pageKey w.dest ia)
  (attr == 0 && c.soAloft) ||
    (w.isRemote && attr != 2 && c.owedRemote.any fun x => x.entry.meets w.dest [ia / 64])

/-- R106, R316, R319: the accesses that a release in a scope class waits for, apart from creel entries: the writes on their way, and
for SYSTEM those that have not been acknowledged. -/
def Core.releaseOwes (c : Core) (scope : BitVec 3) : Bool :=
  !c.aloft.isEmpty || (scope == 5 && !(c.owedLines.isEmpty && c.owedRemote.isEmpty))

/-- The byte mask of `n` bytes at an address within its line. -/
def byteMask (ia n : Nat) : BitVec 64 := BitVec.ofNat 64 ((2 ^ n - 1) <<< (ia % 64))

/-- The line data of a value of `n` bytes at an address within its line. -/
def byteData (ia n v : Nat) : Line := BitVec.ofNat 512 ((v % 2 ^ (8 * n)) <<< (8 * (ia % 64)))

/-- R98, R100 to R102: stores of `n` bytes at each VA, in order, after every check and once the creel has room for all. -/
def storeAll (n : Nat) (vs : List (BitVec 64 × Nat)) (s : State) : Act :=
  let c := s.tile.core
  match checkVas c.wards.toList (vs.map Prod.fst) n false true with
  | some (cause, v) => .trap cause v
  | none =>
    if !c.creelRoom vs.length || vs.any fun x => (findWard c.wards.toList x.1.toNat).any fun w => c.soWaits w (w.ia x.1.toNat) then
      .stall .again s
    else
      .done (vs.foldl (fun s x =>
        match findWard c.wards.toList x.1.toNat with
        | some w =>
          let ia := w.ia x.1.toNat
          rimWrite w ia 0 (byteMask ia n) (byteData ia n x.2) false s
        | none => s) s)

/-! ### Atomics of the core in focus (R103, R104, R106, R286) -/

/-- R106, R286, R319: why an atomic waits before it is sent. -/
def Core.atomicWaits (c : Core) (va : BitVec 64) (dest : Option (BitVec 14)) (ia : Nat) (rel : Bool) (scope : BitVec 3) :
    Option Stall :=
  if rel && ((c.creel.any fun e => e.live && scopeWithin e.scope scope) || c.releaseOwes scope) then some (.held va)
  else c.loadWaits va dest [ia / 64] (attrOf c.attrs (pageKey dest ia))

/-- R103, R104, R326: the core in focus performs an atomic at its home, or sends it to another module; an answer that has returned
is its outcome. -/
def atomicGot (va : BitVec 64) (w : Ward) (size func : Nat) (o : BitVec 2) (v cmp : Nat) (s : State) : Got :=
  let c := s.tile.core
  let ia := w.ia va.toNat
  let waits := c.atomicWaits va w.dest ia (o.getLsbD 1) w.scope
  if w.isRemote then
    match (if (assocGet c.answers (answerKey w.dest ia)).isSome then none else waits) with
    | some st => .stop (.stall st s)
    | none => remoteRead s va w ia fun id =>
        .atomic id ia (BitVec.ofNat 4 func) size (BitVec.ofNat 64 v) (BitVec.ofNat 64 cmp)
  else
    match waits with
    | some st => .stop (.stall st s)
    | none =>
      if s.recalls [ia / 64] then .stop (.stall (.held va) (recallLines s [ia / 64]))
      else
        match hubAtomic s ia size (Access.atomic c.mode) fun old => amoNew func size old v cmp with
        | .value old attr s' => .value old (if (amoNew func size old v cmp).isSome then oweLine (s'.sawAttr ia attr) s.tileIdx (ia / 64)
            else s'.sawAttr ia attr)
        | r => afterLoad (discardStale s ia (Access.atomic c.mode)) va ia r

/-- R98, R99, R103, R104: an atomic on `size` bytes; sd takes the old element. -/
def atomicThen (va : BitVec 64) (size func : Nat) (o : BitVec 2) (v cmp : Nat) (d : BitVec 5) (s : State) : Act :=
  let c := s.tile.core
  match checkVas c.wards.toList [va] size true true with
  | some (cause, x) => .trap cause x
  | none =>
    match findWard c.wards.toList va.toNat with
    | none => .trap causeWardMiss va
    | some w =>
      match atomicGot va w size func o v cmp s with
      | .value old s' =>
        let x := if size = 4 then sext64 (BitVec.ofNat 32 old) else BitVec.ofNat 64 old
        .done (s'.setCore (s'.tile.core.setS d x))
      | .stop a => a

end Sys2Proof.Machine
end

