-- ==== Sys2Proof/Machine/Harts.lean ====
section
/-! DEFINITION. What the management harts read and write in IA space: they act as a supervisor, without wards (R310, R363 to R368,
R373, R376). -/

namespace Sys2Proof.Machine

/-- R398: the harts run in SERVE and TRANSIT. -/
def State.hartsRun (s : State) : Bool := s.island.st == .serve || s.island.st == .transit

/-! ### Reads -/

/-- What a read of the harts gives: a value, a failure, or an address whose page is not mapped. -/
inductive HartRead (α : Type) where
  | ok (a : α) (s : State)
  | bad (s : State)
  | hold (page ia : Nat)

/-- One read after another. -/
def HartRead.andThen {α β : Type} (x : HartRead α) (f : α → State → HartRead β) : HartRead β :=
  match x with
  | .ok a s => f a s
  | .bad s => .bad s
  | .hold p ia => .hold p ia

/-- A number of `n` bytes within one line. -/
def hartNum (ia n : Nat) (s : State) : HartRead Nat :=
  if 2 ^ 44 ≤ ia then .bad s
  else
    match hubLoad s ia n (Access.loads true) with
    | .value v _ s' => .ok v s'
    | .unmapped p => .hold p ia
    | .refused _ => .bad s
    | .poisoned s' => .bad s'

/-- `n` 32-bit words. -/
def hartWords : Nat → Nat → State → HartRead (List Word)
  | 0, _, s => .ok [] s
  | n + 1, ia, s =>
    (hartNum ia 4 s).andThen fun v s => (hartWords n (ia + 4) s).andThen fun l s => .ok (BitVec.ofNat 32 v :: l) s

/-- R283: the harts wait for a page. -/
def hartHold (s : State) (page ia : Nat) : State := addNotice s page .harts 0 2 ia

/-! ### Writes (R364, R366, R376) -/

/-- A slot table entry is no longer in force. -/
def clearValid (s : State) (slot : Nat) : State :=
  let r := sparseGet 0 s.mgmt.slots slot
  { s with mgmt := { s.mgmt with slots := sparsePut 0 s.mgmt.slots slot (setBit r 24 false) } }

/-- R366: a queue's log of the completion records that have been written. -/
def Note.log (n : Note) (x : Nat × Queue) : Nat × Queue :=
  if x.1 = n.queue then (x.1, { x.2 with ended := x.2.ended ++ [(n.seq, n.status)] }) else x

/-- R366, R376: the completion record of a launch has been written. -/
def noteEnded (s : State) (note : Option Note) : State :=
  match note with
  | none => s
  | some n =>
    let s := { s with mgmt := { s.mgmt with queues := s.mgmt.queues.map n.log, closed := s.mgmt.closed.map n.log } }
    match n.slot with
    | some k => clearValid s k
    | none => s

/-- A write of the harts: performed at its home, or kept until its page is mapped. -/
def hartWrite (s : State) (w : MgmtWrite) : State :=
  match performWrite s (w.ia / 64 * 64) w.mask (fullLine 0 w.mask) Access.stores (combineLine 0 w.data.toNat) with
  | .done _ s' => noteEnded s' w.note
  | .unmapped p => { hartHold s p w.ia with mgmt := { s.mgmt with writes := s.mgmt.writes ++ [w] } }
  | .refused _ => noteEnded s w.note
  | .poisoned s' => noteEnded s' w.note

/-- A whole line written. -/
def hartLine (s : State) (ia : Nat) (data : Line) (note : Option Note) : State :=
  hartWrite s ⟨ia, BitVec.allOnes 64, data, note⟩

/-- Eight bytes written. -/
def hartDword (s : State) (ia v : Nat) : State := hartWrite s ⟨ia, byteMask ia 8, byteData ia 8 v, none⟩

/-- R283: the writes that wait for a page are tried again. -/
def retryWrites (s : State) : State :=
  s.mgmt.writes.foldl hartWrite { s with mgmt := { s.mgmt with writes := [] } }

end Sys2Proof.Machine
end

