-- ==== Sys2Proof/Machine/Beats.lean ====
section
/-! DEFINITION. Beats and their tokens: lane form and packed form (R13, R74, R117, R184, R187, R212). -/

namespace Sys2Proof.Machine

/-- R13: the tokens of a beat of a format. -/
def tokensOf (fmt : Nat) : Nat := 32 / elemBits fmt

/-- Element e of token position q, in the layout of a format. -/
def Beat.code (b : Beat) (fmt q e : Nat) : Nat := (fld b.data ((16 * q + e) * elemBits fmt) (elemBits fmt)).toNat

/-- A token of a tag with every element invalid. -/
def Token.invalid (tag : BitVec 4) : Token := ⟨0, tag, 0, false, 0, 0⟩

/-- Token position q of a beat in lane form (R117), in the layout of a format; a position above P holds an invalid token. -/
def Beat.tok (b : Beat) (fmt q : Nat) : Token :=
  if q < tokensOf fmt then
    ⟨lineOfLanes ((List.range 16).map fun e => laneForm b.tag.toNat (b.code fmt q e)), b.tag, fld b.exps (8 * q) 8, b.bub,
      fld b.valid (16 * q) 16, fld b.pred (16 * q) 16⟩
  else Token.invalid b.tag

/-- The data bits of a token packed to a format's element width. -/
def packToken (fmt : Nat) (t : Token) : Nat :=
  (List.range 16).foldr (fun e acc => (t.lane e).toNat % 2 ^ elemBits fmt + acc * 2 ^ elemBits fmt) 0

/-- A token put at position q of a beat, in the layout of a format. -/
def Beat.putTok (b : Beat) (fmt q : Nat) (t : Token) : Beat :=
  { b with
    data := putField b.data (16 * q * elemBits fmt) (16 * elemBits fmt) (packToken fmt t)
    exps := putField b.exps (8 * q) 8 t.exp.toNat
    valid := putField b.valid (16 * q) 16 t.valid.toNat
    pred := putField b.pred (16 * q) 16 t.pred.toNat }

/-- A beat of a tag with every token invalid. -/
def Beat.invalid (tag : BitVec 4) : Beat := ⟨0, tag, 0, false, 0, 0⟩

/-- A bubble beat of a tag (R120, R187). -/
def Beat.bubbleOf (tag : BitVec 4) : Beat := ⟨0, tag, 0, true, 0, 0⟩

/-- A beat of a tag from its tokens, position 0 first; the positions that the list does not reach are invalid. -/
def beatOf (tag : BitVec 4) (ts : List Token) : Beat :=
  ((List.range (tokensOf tag.toNat)).zip ts).foldl (fun b x => b.putTok tag.toNat x.1 x.2) (Beat.invalid tag)

/-- The tokens of a beat, by its own tag. -/
def Beat.toks (b : Beat) : List Token := (List.range (tokensOf b.tag.toNat)).map (b.tok b.tag.toNat)

/-- A token that stands in every position of a format's layout (R36). -/
def spreadToken (fmt : Nat) (t : Token) : Beat :=
  (List.range (tokensOf fmt)).foldl (fun b q => b.putTok fmt q t) ⟨0, t.tag, 0, t.bub, 0, 0⟩

/-- R184: the constant operand of a format: every element holds the low bits of the constant. -/
def constBeat (fmt : BitVec 4) (k : BitVec 32) : Beat :=
  spreadToken fmt.toNat ⟨lineOfLanes (List.replicate 16 k), fmt, 0, false, 0xFFFF, 0⟩

/-- R212, R261: a beat that a capture buffer or a gate takes: not a bubble, and not wholly invalid. -/
def Beat.live (b : Beat) : Bool := !b.bub && b.valid != 0

/-- The data bits of the elements that a mask of element bits names, in the layout of a format. -/
def elemMask (fmt : Nat) (allow : BitVec 128) : Line :=
  (List.range (16 * tokensOf fmt)).foldl (fun m e =>
    if allow.getLsbD e then m ||| (BitVec.ofNat 512 (2 ^ elemBits fmt - 1) <<< (e * elemBits fmt)) else m) 0

/-- R122: a result written to a c-register under the guard: an element that the guard refuses keeps its previous value. -/
def mergeBeat (old new : Beat) (allow : BitVec 128) : Beat :=
  if new.bub then new
  else
    let m := elemMask new.tag.toNat allow
    { new with
      data := (new.data &&& m) ||| (old.data &&& ~~~m)
      valid := (new.valid &&& allow) ||| (old.valid &&& ~~~allow)
      pred := (new.pred &&& allow) ||| (old.pred &&& ~~~allow) }

/-- R122: a result sent to an output under the guard: an element that the guard refuses leaves with its valid bit clear. -/
def gateBeat (new : Beat) (allow : BitVec 128) : Beat := if new.bub then new else { new with valid := new.valid &&& allow }

end Sys2Proof.Machine
end

