-- ==== Sys2Proof/Machine/Fabric.lean ====
section
/-! DEFINITION. The fabric's bookkeeping: the graph, region and stream in focus, cells, the places of edge cells in tiles, holds,
stops, region status, operand memory (R55, R187, R202, R254, R255, R258, R259, R276, R291 to R293, R421). -/

namespace Sys2Proof.Machine

/-! ### Focus -/

/-- Writes the region in focus back to its graph, so that the graph's list is whole. -/
def State.settle (s : State) : State :=
  if s.region.id < 1024 then { s with graph := s.graph.putRegion s.region, region := Region.empty } else s

/-- Makes a graph the one in focus. -/
def State.focusGraph (s : State) (g : Nat) : State :=
  let s := s.settle
  if s.graph.slot = g then s
  else
    match s.graphs.find? fun x => x.slot == g with
    | none => s
    | some x =>
      let rest := s.graphs.filter fun y => y.slot != g
      { s with graph := x, graphs := if s.graph.slot < 64 then s.graph :: rest else rest }

/-- Makes a region of the graph in focus the one in focus. -/
def State.focusRegion (s : State) (r : Nat) : State :=
  let s := s.settle
  match s.graph.getRegion r with
  | some x => { s with region := x }
  | none => s

/-- Makes a net the one in focus. -/
def State.focusNet (s : State) (n : Nat) : State :=
  if s.netIdx = n then s
  else
    let old := s.nets.toList.getD s.netIdx ⟨Stream.empty, []⟩
    let new := s.nets.toList.getD n ⟨Stream.empty, []⟩
    { s with
      netIdx := n
      stream := new.running
      nets := (s.nets.setIfInBounds s.netIdx { old with running := s.stream }).setIfInBounds n { new with running := Stream.empty } }

/-- A change of a graph by its slot. -/
def State.onGraph (s : State) (g : Nat) (f : Graph → Graph) : State :=
  match s.getGraph g with
  | some x => s.putGraph (f x)
  | none => s

/-- A change of a region of a graph. -/
def Graph.onRegion (g : Graph) (r : Nat) (f : Region → Region) : Graph :=
  { g with regions := g.regions.map fun x => if x.id = r then f x else x }

/-- A change of a region, in a state without a region in focus. -/
def State.onRegion (s : State) (g r : Nat) (f : Region → Region) : State := s.onGraph g fun x => x.onRegion r f

/-- A region of a graph, in a state without a region in focus. -/
def State.getRegion (s : State) (g r : Nat) : Option Region := (s.getGraph g).bind fun x => x.getRegion r

/-! ### Cells (R187) -/

/-- The number of a cell. -/
def cellNum (row col : Nat) : Nat := row * 704 + col

/-- A cell by its logical coordinates. -/
def State.cellAt (s : State) (row col : Nat) : Cell := (assocGet s.cells (cellNum row col)).getD Cell.bound

/-- A cell replaced. -/
def State.putCell (s : State) (row col : Nat) (x : Cell) : State := { s with cells := assocPut s.cells (cellNum row col) x }

/-- Weight store entry x. -/
def Cell.weight (x : Cell) (n : BitVec 5) : Token := x.w[n.toNat]'(n.isLt)

/-- c-register k. -/
def Cell.creg (x : Cell) (k : BitVec 2) : Beat := x.c[k.toNat]'(k.isLt)

/-! ### Places of edge cells (R201, R211, R369) -/

/-- The cells of an edge. -/
def RegionCfg.edgeLen (c : RegionCfg) : Edge → Nat
  | .w => c.rows
  | .e => c.rows
  | .n => c.cols
  | .s => c.cols

/-- The cell (i, j) of the region at a position of an edge. -/
def RegionCfg.edgeCell (c : RegionCfg) (pos : Nat) : Edge → Nat × Nat
  | .w => (pos, 0)
  | .e => (pos, c.cols - 1)
  | .n => (0, pos)
  | .s => (c.rows - 1, pos)

/-- R211: the position in the region's edge of the edge cell at tile-local position p of a tile, where there is one. -/
def RegionCfg.localPos (c : RegionCfg) (edge : Edge) (tile p : Nat) : Option Nat :=
  let trow := tile / 44
  let tcol := tile % 44
  let row := 16 * trow + p
  let col := 16 * tcol + p
  let rowIn := decide (c.row0 ≤ row ∧ row < c.row0 + c.rows)
  let colIn := decide (c.col0 ≤ col ∧ col < c.col0 + c.cols)
  let here : Bool :=
    match edge with
    | .w => rowIn && c.col0 / 16 == tcol
    | .e => rowIn && (c.col0 + c.cols - 1) / 16 == tcol
    | .n => colIn && c.row0 / 16 == trow
    | .s => colIn && (c.row0 + c.rows - 1) / 16 == trow
  if p < 16 ∧ here = true then
    some (match edge with
      | .w => row - c.row0
      | .e => row - c.row0
      | .n => col - c.col0
      | .s => col - c.col0)
  else none

/-- The tile of the edge cell at a position of an edge, and its tile-local position. -/
def RegionCfg.edgeTile (c : RegionCfg) (edge : Edge) (pos : Nat) : Nat × Nat :=
  let (i, j) := c.edgeCell pos edge
  let row := c.row0 + i
  let col := c.col0 + j
  (tileNum (row / 16) (col / 16), match edge with | .w => row % 16 | .e => row % 16 | .n => col % 16 | .s => col % 16)

/-- The tiles that hold cells of an edge, rising. -/
def RegionCfg.edgeTiles (c : RegionCfg) (edge : Edge) : List Nat :=
  match edge with
  | .w => (List.range 48).filterMap fun r =>
      if c.row0 / 16 ≤ r ∧ r ≤ (c.row0 + c.rows - 1) / 16 then some (tileNum r (c.col0 / 16)) else none
  | .e => (List.range 48).filterMap fun r =>
      if c.row0 / 16 ≤ r ∧ r ≤ (c.row0 + c.rows - 1) / 16 then some (tileNum r ((c.col0 + c.cols - 1) / 16)) else none
  | .n => (List.range 44).filterMap fun k =>
      if c.col0 / 16 ≤ k ∧ k ≤ (c.col0 + c.cols - 1) / 16 then some (tileNum (c.row0 / 16) k) else none
  | .s => (List.range 44).filterMap fun k =>
      if c.col0 / 16 ≤ k ∧ k ≤ (c.col0 + c.cols - 1) / 16 then some (tileNum ((c.row0 + c.rows - 1) / 16) k) else none

/-- Whether a cell lies in a region's rectangle. -/
def RegionCfg.holds (c : RegionCfg) (row col : Nat) : Bool :=
  decide (c.row0 ≤ row ∧ row < c.row0 + c.rows ∧ c.col0 ≤ col ∧ col < c.col0 + c.cols)

/-- The region of a graph that holds a cell. -/
def Graph.regionAt (g : Graph) (row col : Nat) : Option Region := g.regions.find? fun r => r.cfg.holds row col

/-- A region or stream field; 0 and the values of R184 at reset. -/
def RegionCfg.field (c : RegionCfg) (n : Nat) : BitVec 32 :=
  (assocGet c.fields n).getD (match n with | 0 => 1 | 4 => 1 | 6 => 0x80 | _ => 0)

/-- RROWS. -/
def RegionCfg.rrows (c : RegionCfg) : Nat := (fld (c.field 0) 0 7).toNat
/-- RACC. -/
def RegionCfg.racc (c : RegionCfg) : Nat := (fld (c.field 7) 0 7).toNat
/-- RWINx. -/
def RegionCfg.window (c : RegionCfg) (x : Nat) : BitVec 32 := c.field (0x40 + x)
/-- W of a window, in slots. -/
def RegionCfg.winLen (c : RegionCfg) (x : Nat) : Nat := (fld (c.window x) 0 10).toNat + 1
/-- HOLD of a window. -/
def RegionCfg.winHold (c : RegionCfg) (x : Nat) : Bool := (c.window x).getLsbD 16
/-- DEF of a window. -/
def RegionCfg.winDef (c : RegionCfg) (x : Nat) : Bool := (c.window x).getLsbD 17

/-! ### Extra latency of hops (R258, R259, R385, R390, R392, R394) -/

/-- DELTA of a tile. -/
def State.detour (s : State) (tile : Nat) : Nat := (fld (s.getTile tile).soff 10 4).toNat

/-- The stage count of the seam that a hop into a cell crosses from the west, or from the north (`south` set). -/
def State.seam (s : State) (row col : Nat) (south : Bool) : Nat :=
  let lat := (s.getTile (tileNum (row / 16) (col / 16))).seamLat
  if south then
    if row % 192 = 0 ∧ row ≠ 0 then (fld lat (2 * (12 + 4 * (row / 192 - 1) + col / 176)) 2).toNat + 2 else 0
  else if col % 176 = 0 ∧ col ≠ 0 then (fld lat (2 * (3 * (row / 192) + col / 176 - 1)) 2).toNat + 2 else 0

/-- R258: the extra latency of the hop that enters a cell from its west neighbour, or from its north neighbour. -/
def State.hopExtra (s : State) (row col : Nat) (south : Bool) : Nat :=
  let dst := tileNum (row / 16) (col / 16)
  let src := if south then tileNum ((row - 1) / 16) (col / 16) else tileNum (row / 16) ((col - 1) / 16)
  let soff := (s.getTile dst).soff
  let bypass := if south then (if (fld soff 0 5).toNat = row % 16 then 1 else 0)
    else (if (fld soff 5 5).toNat = col % 16 then 1 else 0)
  s.seam row col south + bypass + (if src = dst then 0 else s.detour src + s.detour dst)

/-- The sum of the extra latencies of the hops of an eastward path in a row. -/
def State.eastSum (s : State) (row c0 c1 : Nat) : Nat :=
  ((List.range (c1 - c0)).map fun k => s.hopExtra row (c0 + k + 1) false).foldl (· + ·) 0

/-- The sum of the extra latencies of the hops of a southward path in a column. -/
def State.southSum (s : State) (col r0 r1 : Nat) : Nat :=
  ((List.range (r1 - r0)).map fun k => s.hopExtra (r0 + k + 1) col true).foldl (· + ·) 0

/-- R258: the skew of a cell of a region. -/
def State.skew (s : State) (c : RegionCfg) (row col : Nat) : Nat := s.eastSum c.row0 c.col0 col + s.southSum col c.row0 row

/-- R258: the region is skew-consistent at its placement. -/
def State.skewOk (s : State) (c : RegionCfg) : Bool :=
  (List.range c.rows).all fun i => (List.range c.cols).all fun j =>
    s.skew c (c.row0 + i) (c.col0 + j) == s.southSum c.col0 c.row0 (c.row0 + i) + s.eastSum (c.row0 + i) c.col0 (c.col0 + j)

/-- R259: the correction stage in front of an input of an edge cell. -/
def State.kappa (s : State) (c : RegionCfg) (row col : Nat) (edge : Edge) : Nat :=
  match edge with
  | .w => s.skew c row c.col0
  | .n => s.skew c c.row0 col
  | _ => 0

/-- R205 reason 9: no edge cell needs a correction stage above 127. -/
def State.kappaOk (s : State) (c : RegionCfg) : Bool :=
  ((List.range c.rows).all fun i => decide (s.kappa c (c.row0 + i) c.col0 .w ≤ 127)) &&
  ((List.range c.cols).all fun j => decide (s.kappa c c.row0 (c.col0 + j) .n ≤ 127))

/-! ### Holds and stops (R254, R255, R292, R293) -/

/-- The number of a hold source: an operand memory deviation in a tile. -/
def holdOm (t : Nat) : Nat := 16 * t
/-- A HOLD window that waits for a request's reply. -/
def holdWindow (id : Nat) : Nat := 16 * id + 1
/-- An AGN load that waits for a page. -/
def holdLoadSrc (id : Nat) : Nat := 16 * id + 2
/-- A region whose creel is full. -/
def holdCreel (r : Nat) : Nat := 16 * r + 3
/-- A gate whose producer is short of credit. -/
def holdGateOut (n : Nat) : Nat := 16 * n + 4
/-- A gate whose consumer is short of beats. -/
def holdGateIn (n : Nat) : Nat := 16 * n + 5
/-- A tile whose phase debt passed 2 cycles. -/
def holdDroop (t : Nat) : Nat := 16 * t + 6
/-- A tile that switches its spine source. -/
def holdSpine (t : Nat) : Nat := 16 * t + 7
/-- Management's own hold source (R373, R402). -/
def holdMgmt : Nat := 8

/-- R254: a source is raised. -/
def Graph.raise (g : Graph) (src : Nat) : Graph := if g.holds.contains src then g else { g with holds := g.holds ++ [src] }

/-- R254: a source drops. -/
def Graph.drop (g : Graph) (src : Nat) : Graph := { g with holds := g.holds.filter fun x => x != src }

/-- R292, R293: a fault stops the graph; a later one before the stop takes effect is only noted. -/
def Graph.stop (g : Graph) (f : GraphFault) (grace : Nat) : Graph :=
  match g.fault with
  | none => { g with stopped := true, grace := grace, fault := some f }
  | some x => if g.grace = 0 then g else { g with fault := some { x with more := true } }

/-- The causes of R293. -/
def graphSchedMiss : BitVec 8 := 1
/-- R293. -/
def graphOverflow : BitVec 8 := 2
/-- R293. -/
def graphOmErr : BitVec 8 := 3
/-- R293. -/
def graphGate : BitVec 8 := 4
/-- R293. -/
def graphSpineLoss : BitVec 8 := 5

/-- The row of a region's present slot. -/
def Region.rowNo (r : Region) : Nat := r.slots % r.cfg.rrows

/-- R293: the fault record of a region in its present slot, detected by a tile. -/
def Region.faultRec (r : Region) (time : BitVec 64) (cause : BitVec 8) (detail : BitVec 64) (tile : Nat) : GraphFault where
  cause := cause
  row := BitVec.ofNat 8 r.rowNo
  region := BitVec.ofNat 10 r.id
  slot := BitVec.ofNat 32 r.slots
  detail := detail
  time := time
  tcol := BitVec.ofNat 6 (tile % 44)
  trow := BitVec.ofNat 6 (tile / 44)
  more := false

/-! ### Region status (R55, R291) -/

/-- The flags of a row. -/
def Region.addFlags (r : Region) (f : BitVec 6) : Region := { r with status := { r.status with flags := r.status.flags ||| f } }

/-- R291: an AGN access that failed, at an IA, with its outcome in the bit positions of R229. -/
def Region.addFailure (r : Region) (out : BitVec 6) (ia : BitVec 44) : Region :=
  if out = 0 then r
  else
    let x := r.status
    { r with status := { x with
        refused := x.refused || out.getLsbD 1 || out.getLsbD 0 || out.getLsbD 4
        poison := x.poison || out.getLsbD 3
        aborted := x.aborted || out.getLsbD 5
        fails := if x.fails = 4095 then 4095 else x.fails + 1
        firstIa := if x.fails = 0 then ia else x.firstIa } }

/-! ### Operand memory (R216, R273, R276, R421) -/

/-- R273: the slots of a context in a tile are released. -/
def Tile.release (t : Tile) (ctx : BitVec 16) : Tile := { t with owners := t.owners.filter fun p => p.2 != ctx }

/-- The token of a tile's operand memory at byte X. -/
def State.omToken (s : State) (tile x : Nat) : Line := BitVec.ofNat 512 (readBytes s.mem (omLoc tile x) 64)

/-- R421: the exponent sideband of a token. -/
def State.omSide (s : State) (tile x : Nat) : BitVec 8 := readByte s.mem (sideLoc tile x)

/-- R276: whether a token is poisoned. -/
def State.omPoisoned (s : State) (tile x : Nat) : Bool := (s.getTile tile).omPoison.contains (x / 64)

/-- R276: the words of a token that hold a single-bit error. -/
def Tile.errorsAt (t : Tile) (x : Nat) : List Nat := t.omErrors.filter fun k => k / 8 == x / 64

/-- R274, R276: a read corrects some single-bit errors and counts them in OMCORR, saturating. -/
def Tile.countOm (t : Tile) (k : Nat) : Tile :=
  let n := t.omCorr.toNat + k
  { t with omCorr := if 2 ^ 32 ≤ n then BitVec.allOnes 32 else BitVec.ofNat 32 n }

/-- R276: a tile's token is read; where no word of it has an error, nothing changes. -/
def State.omRead (s : State) (tile x : Nat) : State :=
  let n := ((s.getTile tile).errorsAt x).length
  if n = 0 then s else s.putTile tile ((s.getTile tile).countOm n)

/-- R276: some bytes of one 64-bit word of a tile's token are read. -/
def State.omReadWord (s : State) (tile x : Nat) : State :=
  if (s.getTile tile).omErrors.contains (x / 8) then s.putTile tile ((s.getTile tile).countOm 1) else s

/-- R276: a tile after a write of some bytes of a token: a whole one clears its poison, and each word written has no error. -/
def Tile.omWritten (t : Tile) (x : Nat) (mask : BitVec 64) : Tile :=
  { t with
    omPoison := if mask = BitVec.allOnes 64 then t.omPoison.filter fun k => k != x / 64 else t.omPoison
    omErrors := t.omErrors.filter fun k => !(k / 8 == x / 64 && fld mask (8 * (k % 8)) 8 != 0) }

/-- A tile after a write of some bytes of a token, where it has changed. -/
def State.omTouch (s : State) (tile x : Nat) (mask : BitVec 64) : State :=
  let t := s.getTile tile
  if t.omPoison.contains (x / 64) || !(t.errorsAt x).isEmpty then s.putTile tile (t.omWritten x mask) else s

/-- R276, R421: a write of a whole token with its sideband. -/
def State.omWrite (s : State) (tile x : Nat) (data : Line) (exp : BitVec 8) : State :=
  ({ s with mem := writeByte (writeBytes s.mem (omLoc tile x) 64 data.toNat) (sideLoc tile x) exp } : State).omTouch tile x
    (BitVec.allOnes 64)

/-- R282, R421: a copy's write of some bytes of a token. -/
def State.omWriteMasked (s : State) (tile x : Nat) (mask : BitVec 64) (data : Line) : State :=
  if mask = BitVec.allOnes 64 then s.omWrite tile x data 0
  else
    ({ s with mem := writeByte (writeMasked s.mem (omLoc tile x) (fun k => mask.getLsbD k) 64 data.toNat) (sideLoc tile x) 0 }
      : State).omTouch tile x mask

/-- A token as it is now. -/
def State.omImage (s : State) (tile x : Nat) : OmImage := ⟨x / 64, s.omToken tile x, s.omSide tile x, s.omPoisoned tile x⟩

/-- R275: a token as the present port slot found it. -/
def State.omSeen (s : State) (tile x : Nat) : OmImage :=
  ((s.getTile tile).omBefore.find? fun b => b.token == x / 64).getD (s.omImage tile x)

/-- R275: an OUTR or OST writes a token in the present port slot of a graph's tile: the reads of the slot find what it held. -/
def State.omPort (s : State) (tile x : Nat) (data : Line) (exp : BitVec 8) : State :=
  let t := s.getTile tile
  let s' :=
    if (s.graphOfTile tile).isSome && !t.omBefore.any fun b => b.token == x / 64 then
      s.putTile tile { t with omBefore := t.omBefore ++ [s.omImage tile x] }
    else s
  s'.omWrite tile x data exp

/-- R275: a port slot of a tile ends. -/
def Tile.endPort (t : Tile) : Tile := { t with omBefore := [] }

/-- R214: a newly claimed slot reads as zero, sidebands included, and holds no poison. -/
def State.omZero (s : State) (tile slot : Nat) : State :=
  let lo := omLoc tile (slot * 65536)
  let side := sideLoc tile (slot * 65536)
  let m := s.mem.filter fun c =>
    !(decide (lo ≤ c.1 ∧ c.1 < lo + 65536) || decide (side ≤ c.1 ∧ c.1 < side + 1024))
  let t := s.getTile tile
  { s with mem := m }.putTile tile { t with
    omPoison := t.omPoison.filter fun k => k / 1024 != slot
    omErrors := t.omErrors.filter fun k => k / 8192 != slot
    omBefore := t.omBefore.filter fun b => b.token / 1024 != slot }

end Sys2Proof.Machine
end

