-- ==== Sys2Proof/Machine/Cells.lean ====
section
/-! DEFINITION. The rows of cells that only compute and move beats (R36, R37, R53, R67, R68, R122, R184, R187 to R197, R250, R251):
what one cell does, and the row over every cell of the region in focus. -/

namespace Sys2Proof.Machine

/-! ### Operands, guard and destinations (R36, R37) -/

/-- What a cell of a region reads in a slot: its place in the region, its registers and generators, its N and W inputs, and the
region's configuration. -/
structure CellIn where
  i : Nat
  j : Nat
  cell : Cell
  gens : Gens
  north : Beat
  west : Beat
  cfg : RegionCfg
  deriving DecidableEq, Repr

/-- What a cell's row gives: destinations with their beats and the elements that the guard lets through, the new value of weight
entry x, the generators, the flags, and the lanes that overflowed under TRAP with their token position (R63). -/
structure CellOut where
  outs : List (BitVec 3 × Beat × BitVec 128)
  weight : Option Token
  gens : Gens
  flags : Flags
  ovf : Option (Nat × BitVec 16)
  deriving DecidableEq, Repr

/-- The fields of a row that its operands use: guard, format and x. An operation whose x names a code reads x as 0 here. -/
structure RowUse where
  d : BitVec 3
  a : BitVec 3
  b : BitVec 3
  c : BitVec 3
  q : BitVec 3
  f : BitVec 4
  x : BitVec 5
  deriving DecidableEq, Repr

/-- R49, R57, R180: the numeric environment of a cell. -/
def CellIn.env (n : CellIn) : NumEnv := ⟨Rounding.ofCode (fld n.cfg.mode 2 3).toNat, fld (n.cfg.field 6) 0 8⟩

/-- R36, R184: the beat that an operand code supplies. -/
def CellIn.operand (n : CellIn) (u : RowUse) (code : BitVec 3) : Beat :=
  match code.toNat with
  | 4 => n.north
  | 5 => n.west
  | 6 => spreadToken u.f.toNat (n.cell.weight u.x)
  | 7 => constBeat u.f (n.cfg.field (0x20 + u.x.toNat))
  | _ => n.cell.creg (fld code 0 2)

/-- R36, R191: the beat of an operand that is read by its own tag: a weight entry stands in every position of its own layout. -/
def CellIn.ownOperand (n : CellIn) (u : RowUse) (code : BitVec 3) : Beat :=
  if code = 6 then spreadToken (n.cell.weight u.x).tag.toNat (n.cell.weight u.x) else n.operand u code

/-- R37: the elements that the guard of a row lets through. A guard on an operand that the operation does not have reads the operand
that its zero field names (assumption 59). -/
def CellIn.allow (n : CellIn) (u : RowUse) : BitVec 128 :=
  match u.q.toNat with
  | 1 => (n.operand u u.a).pred
  | 2 => ~~~(n.operand u u.a).pred
  | 3 => (n.operand u u.b).pred
  | 4 => ~~~(n.operand u u.b).pred
  | 5 => (n.operand u u.c).pred
  | 6 => ~~~(n.operand u u.c).pred
  | _ => BitVec.allOnes 128

/-- R36: the destinations of a code: c0 to c3, E, S, both, or none. -/
def destsOf (d : BitVec 3) : List (BitVec 3) :=
  match d.toNat with
  | 6 => [4, 5]
  | 7 => []
  | _ => [d]

/-- A result beat sent to the destinations of a row. -/
def CellIn.sends (n : CellIn) (u : RowUse) (b : Beat) : List (BitVec 3 × Beat × BitVec 128) :=
  (destsOf u.d).map fun k => (k, b, n.allow u)

/-- A row that gives one beat and raises no flag. -/
def CellIn.plain (n : CellIn) (u : RowUse) (b : Beat) : CellOut := ⟨n.sends u b, none, n.gens, 0, none⟩

/-! ### Inputs (R188, R189, R201) -/

/-- The beat of the greatest departure slot (R188). -/
def latest (l : List Flight) : Option Beat :=
  (l.foldl (fun (best : Option Flight) x =>
    match best with
    | some y => if y.left ≤ x.left then some x else best
    | none => some x) none).map fun x => x.beat

/-- R187 to R189: the beat on an input of cell (i, j) of the region in focus, in the present slot. -/
def State.inputBeat (s : State) (i j : Nat) (edge : Edge) : Beat :=
  match s.region.feeds.find? fun f => f.i == i && f.j == j && f.edge == edge && f.due == s.graph.slotNo with
  | some f => f.beat
  | none =>
    (latest (s.graph.flights.filter fun f => f.row == s.region.cfg.row0 + i && f.col == s.region.cfg.col0 + j && f.edge == edge &&
      f.due == s.graph.slotNo)).getD Beat.bubble

/-- R56: the number of a cell of a region. -/
def genKey (i j : Nat) : Nat := i * 1024 + j

/-- R56: the generators of a cell. -/
def Region.gensAt (r : Region) (i j : Nat) : Gens :=
  (assocGet r.gens (genKey i j)).getD (Gens.seeded (r.seed + BitVec.ofNat 16 (721 * i + j)))

/-- What cell (i, j) of the region in focus reads. -/
def State.cellIn (s : State) (p : Nat × Nat) : CellIn :=
  ⟨p.1, p.2, s.cellAt (s.region.cfg.row0 + p.1) (s.region.cfg.col0 + p.2), s.region.gensAt p.1 p.2, s.inputBeat p.1 p.2 .n,
    s.inputBeat p.1 p.2 .w, s.region.cfg⟩

/-- The cells of a region, by row, then column. -/
def RegionCfg.cells (c : RegionCfg) : List (Nat × Nat) :=
  (List.range c.rows).flatMap fun i => (List.range c.cols).map fun j => (i, j)

/-! ### A row over the region in focus (R63, R187, R188, R292) -/

/-- R292, R293: the region in focus stops its graph. -/
def State.stopRow (s : State) (cause : BitVec 8) (detail : BitVec 64) (p : Nat × Nat) : State :=
  let c := s.region.cfg
  let g := s.graph.stop (s.region.faultRec s.time cause detail (tileNum ((c.row0 + p.1) / 16) ((c.col0 + p.2) / 16))) 8
  { s with graph := { g with faulted := g.faulted ++ [s.region.id] } }

/-- R188: what the outputs of a cell leave to land. -/
def CellOut.landings (o : CellOut) (p : Nat × Nat) (slot : Nat) : List Landing :=
  o.outs.map fun x => ⟨p.1, p.2, x.1, slot, x.2.1, x.2.2⟩

/-- R55, R56, R188: the region in focus after one cell's row of latency `lat`. -/
def Region.takeCell (r : Region) (slotNo lat : Nat) (p : Nat × Nat) (o : CellOut) : Region :=
  let r : Region := { r with landings := r.landings ++ o.landings p (slotNo + lat - 1) }
  let r : Region := if o.gens = r.gensAt p.1 p.2 then r else { r with gens := assocPut r.gens (genKey p.1 p.2) o.gens }
  r.addFlags o.flags

/-- R195: a weight entry of one cell written. -/
def State.takeWeight (s : State) (p : Nat × Nat) (x : BitVec 5) (o : CellOut) : State :=
  match o.weight with
  | some t =>
    let row := s.region.cfg.row0 + p.1
    let col := s.region.cfg.col0 + p.2
    let cell := s.cellAt row col
    s.putCell row col { cell with w := cell.w.set x.toNat t x.isLt }
  | none => s

/-- The state after a row of latency `lat` of the region in focus, `x` being its weight entry: every cell's results, or the stop of
the graph where a lane overflowed under TRAP (R63). -/
def rowState (lat : Nat) (x : BitVec 5) (f : CellIn → CellOut) (s : State) : State :=
  let outs := s.region.cfg.cells.map fun p => (p, f (s.cellIn p))
  match outs.find? fun o => o.2.ovf.isSome with
  | some (p, o) =>
    let v := o.ovf.getD (0, 0)
    s.stopRow graphOverflow (BitVec.ofNat 64 (v.2.toNat + 2 ^ 16 * (v.1 % 4))) p
  | none =>
    outs.foldl (fun s o => ({ s with region := s.region.takeCell s.graph.slotNo lat o.1 o.2 } : State).takeWeight o.1 x o.2) s

/-- A row of cells. -/
def cellRow (lat : Nat) (x : BitVec 5) (f : CellIn → CellOut) (s : State) : Result := .next (rowState lat x f s)

/-! ### Multiply and accumulate (R67, R68, R192 to R194) -/

/-- An exact element product, or that it is invalid (R65). -/
def prodOf (x y : Val) : Outc := mulVal x y

/-- R67: one dot product of MACF: the FP32 bits and flags; `act` says which elements take part. -/
def macDot (env : NumEnv) (fi fo : Bool) (psum : BitVec 32) (a w : Token) (act : Nat → Bool) : BitVec 32 × Flags :=
  let p0 := decodeFloat 0 psum.toNat
  let p := if fi then flushIn 0 p0 else p0
  let lanes := (List.range 16).filter act
  let xs := lanes.map fun e => decLane env fi a e
  let ys := lanes.map fun e => decLane env fi w e
  let fl := (xs ++ ys).foldl (fun f v => f ||| v.2) 0
  let ops := xs.map Prod.fst ++ ys.map Prod.fst
  match p with
  | .nan s sig pay => let r := roundNan 0 s sig pay; (BitVec.ofNat 32 r.bits, fl ||| r.flags ||| snanFlag ops)
  | _ =>
    if ops.any Val.isNaN then (BitVec.ofNat 32 (defaultNaN 0), fl ||| snanFlag ops)
    else
      let prods := (xs.zip ys).map fun v => prodOf v.1.1 v.2.1
      let o : Outc := if prods.contains .invalid then .invalid
        else sumVals .rne (p :: prods.filterMap fun v => match v with | .val y => some y | .invalid => none)
      let r := roundOutc 0 .rne fo 0 [] false o
      (BitVec.ofNat 32 r.bits, fl ||| r.flags)

/-- R189, R192: the partial-sum token of a beat; a bubble reads as +0 with every valid bit set. -/
def psumToken (s : Beat) : Token := if s.bub then Token.reset else s.tok 0 0

/-- R189, R193: the exponent of a partial-sum beat. -/
def psumExp (s : Beat) : BitVec 8 := if s.bub then 0 else fld s.exps 0 8

/-- R192: MACF in one cell. -/
def macfOut (env : NumEnv) (fi fo : Bool) (f : BitVec 4) (a s : Beat) (w : Token) : Beat × Flags :=
  let st := psumToken s
  let lanes := (List.range (tokensOf f.toNat)).map fun q =>
    let t := a.tok f.toNat q
    if t.valid = 0 then (st.lane q, (0 : Flags))
    else macDot env fi fo (st.lane q) t w fun e => t.valid.getLsbD e && w.valid.getLsbD e && !w.bub
  let out : Token := ⟨lineOfLanes (lanes.map Prod.fst), 0, 0, false,
    st.valid &&& BitVec.ofNat 16 (2 ^ tokensOf f.toNat - 1), 0⟩
  (beatOf 0 [out], lanes.foldl (fun fl x => fl ||| x.2) 0)

/-- R53, R192, R193, R243: a row of MACF, MACB or MACP: E takes the activation, S the partial sums, and a bubble activation passes
the partial sums on. -/
def macCell (u : RowUse) (body : CellIn → Beat → Beat → Token → Beat × Flags) (n : CellIn) : CellOut :=
  let a := n.west
  let s := n.north
  let r := if a.bub then (s, 0) else body n a s (n.cell.weight u.x)
  ⟨[(4, a, BitVec.allOnes 128), (5, r.1, n.allow u)], none, n.gens, r.2, none⟩

/-- The operands of a multiply and accumulate row (R190). -/
def macUse (q : BitVec 3) (f : BitVec 4) (x : BitVec 5) : RowUse := ⟨5, 5, 6, 4, q, f, x⟩

/-- R192: MACF. -/
def execCellMacf (q : BitVec 3) (i o : BitVec 1) (f : BitVec 4) (x : BitVec 5) (s : State) : Result :=
  cellRow 1 x (macCell (macUse q f x) fun n a p w => macfOut n.env (i == 1) (o == 1) f a p w) s

/-- R50, R193: the signed mantissas of a weight token of width `ww`, over its valid lanes, and whether a container is illegal. -/
def macbWeights (w : Token) (ww : Nat) : List Int × Bool :=
  let on (e : Nat) : Bool := w.valid.getLsbD e && !w.bub
  ((List.range 16).map fun e => if on e then signedOf ww ((w.lane e).toNat % 256) else 0,
    (List.range 16).any fun e => on e && !containerLegal ww ((w.lane e).toNat % 256))

/-- R193: the integer product sum of activation row q. -/
def macbSum (a : Beat) (aw q : Nat) (ms : List Int) : Int :=
  ((List.range 16).zip ms).foldl (fun (t : Int) x => t + signedOf aw (fld a.data ((16 * q + x.1) * aw) aw).toNat * x.2) 0

/-- R193: a NaN partial sum is quieted, anything else passes unchanged. -/
def quietPsum (v : BitVec 32) : BitVec 32 × Flags :=
  match decodeFloat 0 v.toNat with
  | .nan s sig pay => let r := roundNan 0 s sig pay; (BitVec.ofNat 32 r.bits, r.flags)
  | _ => (v, 0)

/-- R68: the partial sum after a block of three rows. -/
def blockPsum (fi fo : Bool) (v : BitVec 32) (it : Int) (ea ew : BitVec 8) (aw ww : Nat) : BitVec 32 × Flags :=
  let p0 := decodeFloat 0 v.toNat
  let p := if fi then flushIn 0 p0 else p0
  let it : Int := if ea = 0 ∨ ew = 0 then 0 else it
  let term := Val.ofInt it ((ea.toNat : Int) - 127 + ((ew.toNat : Int) - 127) - ((aw : Int) - 1) - ((ww : Int) - 1))
  let r :=
    match p with
    | .nan s sig pay => roundNan 0 s sig pay
    | _ =>
      match sumVals .rne [p, term] with
      | .val y => convertVal 0 .rne .sat fo 0 y
      | .invalid => invalidResult 0
  (BitVec.ofNat 32 r.bits, r.flags)

/-- R68, R193: MACB and MACP in one cell, `ms` the weights of width `ww`, `bad` where the weight tag is no BFP code. -/
def macbOut (n : CellIn) (fi fo : Bool) (f : BitVec 4) (a s : Beat) (w : Token) (ms : List Int) (ww : Nat) (bad : Bool) : Beat × Flags :=
  let st := psumToken s
  let aw := bfpWidth f.toNat
  let rows := 16 / aw
  let first := n.i % 3 == 0
  let last := n.i % 3 == 2
  let ew := if first then w.exp else psumExp s
  let one (q : Nat) : (BitVec 32 × BitVec 32) × Flags :=
    let sum := macbSum a aw q ms
    let h := st.lane (8 + q)
    let it : Int := if first then sum else (fld h 0 24).toInt + sum
    let ea : BitVec 8 := if first then fld a.data (256 + 8 * q) 8 else fld h 24 8
    if last then
      let r := if bad then (BitVec.ofNat 32 (defaultNaN 0), (0 : Flags)) else blockPsum fi fo (st.lane q) it ea ew aw ww
      ((r.1, 0), r.2)
    else
      let r := if bad then (BitVec.ofNat 32 (defaultNaN 0), (0 : Flags)) else quietPsum (st.lane q)
      ((r.1, ea ++ BitVec.ofInt 24 it), r.2)
  let got := (List.range rows).map one
  let pad : List (BitVec 32) := List.replicate (8 - rows) 0
  let lanes := got.map (fun x => x.1.1) ++ pad ++ got.map (fun x => x.1.2)
  let v := BitVec.ofNat 16 (2 ^ rows - 1)
  (beatOf 0 [⟨lineOfLanes lanes, 0, ew, false, v ||| (v <<< 8), 0⟩], got.foldl (fun fl x => fl ||| x.2) 0)

/-- R193: the weights of MACB. -/
def macbBody (fi fo : Bool) (f : BitVec 4) (n : CellIn) (a s : Beat) (w : Token) : Beat × Flags :=
  let bfp := decide (10 ≤ w.tag.toNat)
  let bad := !w.bub && !bfp
  let ww := if bfp then bfpWidth w.tag.toNat else 8
  let ms := if bad then (List.replicate 16 (0 : Int), false) else macbWeights w ww
  let r := macbOut n fi fo f a s w ms.1 ww bad
  (r.1, r.2 ||| flagIf (bad || ms.2) flagNV)

/-- R193, R194: the weights of MACP, decoded from the slice. -/
def macpBody (fi fo : Bool) (f : BitVec 4) (n : CellIn) (a s : Beat) (w : Token) : Beat × Flags :=
  let on (e : Nat) : Bool := w.valid.getLsbD e && !w.bub
  let ms := (List.range 16).map fun e => if on e then sliceWeight w e else 0
  let r := macbOut n fi fo f a s w ms 6 false
  (r.1, r.2 ||| flagIf (!w.bub && w.valid != 0 && !sliceOk w) flagNV)

/-- R193: MACB. -/
def execCellMacb (q : BitVec 3) (i o : BitVec 1) (f : BitVec 4) (x : BitVec 5) (s : State) : Result :=
  cellRow 1 x (macCell (macUse q f x) (macbBody (i == 1) (o == 1) f)) s

/-- R193: MACP. -/
def execCellMacp (q : BitVec 3) (i o : BitVec 1) (f : BitVec 4) (x : BitVec 5) (s : State) : Result :=
  cellRow 1 x (macCell (macUse q f x) (macpBody (i == 1) (o == 1) f)) s

/-! ### Weights (R195) -/

/-- R195: token 0 of a beat, as a weight entry takes it. -/
def firstToken (b : Beat) : Token := if b.bub then Token.bubble b.tag else b.tok b.tag.toNat 0

/-- R195: a weight token as a one-token beat. -/
def oneToken (t : Token) : Beat := if t.bub then Beat.bubbleOf t.tag else beatOf t.tag [t]

/-- R195: the slice that WPLT stores instead of one that is not well-formed: stream 0, M = 1 and an addend whose bytes sum to 510,
so that every weight decodes as 0 (assumption 17). -/
def zeroSlice (t : Token) : Token := { t with data := lineOfLanes [0, 0, 1, 0x80807F7F], exp := 0 }

/-- R195: a row of WLOAD or WPLT. -/
def weightCell (u : RowUse) (check : Bool) (n : CellIn) : CellOut :=
  let t := firstToken (n.operand u u.a)
  let bad := check && !t.bub && !sliceOk t
  ⟨n.sends u (oneToken (n.cell.weight u.x)), some (if bad then zeroSlice t else t), n.gens, flagIf bad flagNV, none⟩

/-- R195: WLOAD. -/
def execCellWload (d a q : BitVec 3) (i o : BitVec 1) (x : BitVec 5) (s : State) : Result :=
  cellRow 1 x (weightCell ⟨d, a, 0, 0, q, 0, x⟩ false) s

/-- R195: WPLT. -/
def execCellWplt (d a q : BitVec 3) (i o : BitVec 1) (x : BitVec 5) (s : State) : Result :=
  cellRow 1 x (weightCell ⟨d, a, 0, 0, q, 0, x⟩ true) s

/-! ### Moves and reductions (R196, R197) -/

/-- R36, R196: PASS. A weight entry goes out in its own layout. -/
def passCell (d a q : BitVec 3) (x : BitVec 5) (n : CellIn) : CellOut :=
  let u : RowUse := ⟨d, a, 0, 0, q, if a = 6 then (n.cell.weight x).tag else 0, x⟩
  n.plain u (n.operand u a)

/-- R196: PASS. -/
def execCellPass (d a q : BitVec 3) (i o : BitVec 1) (x : BitVec 5) (s : State) : Result := cellRow 1 x (passCell d a q x) s

/-- R196: BUBL. -/
def execCellBubl (d q : BitVec 3) (i o : BitVec 1) (x : BitVec 5) (s : State) : Result :=
  cellRow 1 x (fun n => n.plain ⟨d, 0, 0, 0, q, 0, x⟩ Beat.bubble) s

/-- R196: SELR: a's elements where a's predicate bit is set, else b's; a bubble a gives b. -/
def selectBeat (a b : Beat) : Beat :=
  if a.bub then b
  else
    let b := if b.bub then Beat.bubble else b
    let m := elemMask a.tag.toNat a.pred
    { a with
      data := (a.data &&& m) ||| (b.data &&& ~~~m)
      valid := (a.valid &&& a.pred) ||| (b.valid &&& ~~~a.pred)
      pred := a.pred ||| (b.pred &&& ~~~a.pred) }

/-- R196: SELR. -/
def execCellSelr (d a b q : BitVec 3) (i o : BitVec 1) (x : BitVec 5) (s : State) : Result :=
  let u : RowUse := ⟨d, a, b, 0, q, 0, x⟩
  cellRow 1 x (fun n => n.plain u (selectBeat (n.operand u a) (n.operand u b))) s

/-- The lane operations of PSUM and the RED rows. -/
inductive Combine where
  | sum | max | min
  deriving DecidableEq, Repr

/-- R197: two INT32 lanes combined. -/
def combineInt (op : Combine) (x y : BitVec 32) : BitVec 32 :=
  match op with
  | .sum => x + y
  | .max => if x.slt y then y else x
  | .min => if y.slt x then y else x

/-- R196, R197: two decoded lanes combined, in one rounding. -/
def combineVals (fmt : Nat) (rm : Rounding) (fo : Bool) (op : Combine) (g : BitVec 32) (x y : Val) : Rounded :=
  let o : Outc :=
    match op with
    | .sum => sumVals rm [x, y]
    | .max => .val (if ltVal true x y then y else x)
    | .min => .val (if ltVal true y x then y else x)
  roundOutc fmt rm fo g [x, y] false o

/-- A lane of a source: the token and the lane number; none where the token has no valid element there. -/
def validLane (t : Token) (l : Nat) : Option (Token × Nat) := if !t.bub && t.valid.getLsbD l then some (t, l) else none

/-- R197: the sources of lane l of a combination: the lanes themselves, or for RFOLD neighbouring lanes of a, then of b. -/
def foldLanes (fold : Bool) (a b : Token) (l : Nat) : Option (Token × Nat) × Option (Token × Nat) :=
  if fold then
    (if l < 8 then (validLane a (2 * l), validLane a (2 * l + 1)) else (validLane b (2 * (l - 8)), validLane b (2 * (l - 8) + 1)))
  else (validLane a l, validLane b l)

/-- R196, R197: the lanes of two tokens combined in a format: a lane with one valid operand passes it, a lane with none is
invalid. -/
def combineToken (env : NumEnv) (rm : Rounding) (gens : Gens) (fmt : BitVec 4) (op : Combine) (fold fi fo : Bool) (a b : Token) :
    TokOut :=
  let pairs := (List.range 16).map (foldLanes fold a b)
  let pairOf (l : Nat) := pairs.getD l (none, none)
  let r := runLanes rm gens (fun l => (pairOf l).1.isSome || (pairOf l).2.isSome) fun l g =>
    match pairOf l with
    | (some (t, k), some (t', k')) =>
      if fmt = 9 then ⟨combineInt op (t.lane k) (t'.lane k'), 0, false, false⟩
      else
        let (x, f1) := decLane env fi t k
        let (y, f2) := decLane env fi t' k'
        laneOf fmt.toNat (combineVals fmt.toNat rm fo op g x y) (f1 ||| f2)
    | (some (t, k), none) => ⟨t.lane k, 0, false, false⟩
    | (none, some (t, k)) => ⟨t.lane k, 0, false, false⟩
    | (none, none) => ⟨0, 0, false, false⟩
  ⟨buildToken Token.reset false fmt 0 r.out 0xFFFF 0, r.gens, r.flags, 0⟩

/-- Running state over the token positions of a row. -/
structure BeatAcc where
  toks : List Token
  gens : Gens
  flags : Flags
  ovf : Option (Nat × BitVec 16)

/-- R191: one function for each token position in turn. -/
def overTokens (count : Nat) (gens : Gens) (f : Nat → Gens → TokOut) : BeatAcc :=
  (List.range count).foldl (fun acc q =>
    let r := f q acc.gens
    ⟨acc.toks ++ [r.tok], r.gens, acc.flags ||| r.flags, if acc.ovf.isNone && r.ovf != 0 then some (q, r.ovf) else acc.ovf⟩)
    ⟨[], gens, 0, none⟩

/-- R13: the beat that the tokens of a row make: a bubble where every token is one. -/
def BeatAcc.beat (r : BeatAcc) : Beat :=
  match r.toks with
  | [] => Beat.bubble
  | t :: rest => if t.bub && rest.all Token.bub then Beat.bubbleOf t.tag else beatOf t.tag r.toks

/-- What a row makes of its tokens. -/
def CellIn.gives (n : CellIn) (u : RowUse) (r : BeatAcc) : CellOut := ⟨n.sends u r.beat, none, r.gens, r.flags, r.ovf⟩

/-- R196, R197: a row of PSUM, RSUM, RMAX, RMIN or RFOLD. -/
def combineCell (u : RowUse) (op : Combine) (red fold fi fo : Bool) (n : CellIn) : CellOut :=
  let a := n.operand u u.a
  let b := n.operand u u.b
  let rm := if red then n.env.rm else .rne
  if red && a.bub && b.bub then n.plain u (Beat.bubbleOf u.f)
  else
    n.gives u (overTokens (tokensOf u.f.toNat) n.gens fun q g =>
      combineToken n.env rm g u.f op fold fi fo (a.tok u.f.toNat q) (b.tok u.f.toNat q))

/-- R196: PSUM. -/
def execCellPsum (d a b q : BitVec 3) (i o : BitVec 1) (x : BitVec 5) (s : State) : Result :=
  cellRow 1 x (combineCell ⟨d, a, b, 0, q, 0, x⟩ .sum false false (i == 1) (o == 1)) s

/-- R197: RSUM. -/
def execCellRsum (d a b q : BitVec 3) (i o : BitVec 1) (f : BitVec 4) (x : BitVec 5) (s : State) : Result :=
  cellRow 2 x (combineCell ⟨d, a, b, 0, q, f, x⟩ .sum true false (i == 1) (o == 1)) s

/-- R197: RMAX. -/
def execCellRmax (d a b q : BitVec 3) (i o : BitVec 1) (f : BitVec 4) (x : BitVec 5) (s : State) : Result :=
  cellRow 2 x (combineCell ⟨d, a, b, 0, q, f, x⟩ .max true false (i == 1) (o == 1)) s

/-- R197: RMIN. -/
def execCellRmin (d a b q : BitVec 3) (i o : BitVec 1) (f : BitVec 4) (x : BitVec 5) (s : State) : Result :=
  cellRow 2 x (combineCell ⟨d, a, b, 0, q, f, x⟩ .min true false (i == 1) (o == 1)) s

/-- R197: RFOLD. -/
def execCellRfold (d a b q : BitVec 3) (i o : BitVec 1) (f : BitVec 4) (x : BitVec 5) (s : State) : Result :=
  cellRow 2 x (combineCell ⟨d, a, b, 0, q, f, x⟩ .sum true true (i == 1) (o == 1)) s

/-! ### Token operations in VEC rows (R122, R191) -/

/-- The tokens of position q that a token row reads: operands a, b and c, and the token of c_d, by its own layout. -/
structure RowToks where
  old : Token
  a : Token
  b : Token
  c : Token

/-- R122, R191: the operands of a token row at position q. -/
def CellIn.toks (n : CellIn) (u : RowUse) (q : Nat) : RowToks :=
  let t (code : BitVec 3) : Token := (n.operand u code).tok u.f.toNat q
  let old : Token :=
    if u.d.toNat < 4 then
      let b := n.cell.creg (fld u.d 0 2)
      b.tok b.tag.toNat q
    else Token.bubble 0
  ⟨old, t u.a, t u.b, t u.c⟩

/-- R122, R191: a token row: the rim operation at every token position of the row's format. -/
def tokenCell (u : RowUse) (f : CellIn → Gens → RowToks → TokOut) (n : CellIn) : CellOut :=
  n.gives u (overTokens (tokensOf u.f.toNat) n.gens fun q g => f n g (n.toks u q))

/-- R122, R180: the overflow policy of the region. -/
def CellIn.ov (n : CellIn) : Overflow := Overflow.ofCode (fld n.cfg.mode 0 2)

/-- R122, R129, R191: a conversion of one token position from the arriving tag to the format field. -/
def convertPos (n : CellIn) (kind : Conv) (fi fo : Bool) (dst : BitVec 4) (a : Beat) (q : Nat) (g : Gens) : TokOut :=
  let t := a.tok a.tag.toNat q
  let from' := if a.bub then dst else a.tag
  if a.bub && kind != .vpack then ⟨Token.bubble dst, g, 0, 0⟩
  else if tokensOf from'.toNat ≤ q then ⟨Token.invalid dst, g, 0, 0⟩
  else if !convPair kind dst from' && !a.bub then ⟨Token.invalid dst, g, flagNV, 0⟩
  else
    match kind with
    | .vpack => tokPack n.env g dst from' n.env.rm n.ov Token.reset t fi fo false
    | .vunpk => (tokUnpack n.env g dst from' n.env.rm n.ov t fi fo false).1
    | k => tokConvert n.env g k dst from' n.env.rm n.ov Token.reset t fi fo false

/-- R122, R191: a conversion row. -/
def convertCell (u : RowUse) (kind : Conv) (fi fo : Bool) (n : CellIn) : CellOut :=
  let a := n.ownOperand u u.a
  n.gives u (overTokens (tokensOf u.f.toNat) n.gens (convertPos n kind fi fo u.f a))

/-- R123, R191: VADD per token position. -/
def execCellVadd (d a b c q : BitVec 3) (i o : BitVec 1) (f : BitVec 4) (x : BitVec 5) (s : State) : Result :=
  cellRow 4 x (tokenCell ⟨d, a, b, c, q, f, x⟩ fun n g t => tokArith n.env g .add t.old t.a t.b t.c 0xFFFF (i == 1) (o == 1) false) s

/-- R123, R191: VSUB per token position. -/
def execCellVsub (d a b c q : BitVec 3) (i o : BitVec 1) (f : BitVec 4) (x : BitVec 5) (s : State) : Result :=
  cellRow 4 x (tokenCell ⟨d, a, b, c, q, f, x⟩ fun n g t => tokArith n.env g .sub t.old t.a t.b t.c 0xFFFF (i == 1) (o == 1) false) s

/-- R123, R191: VMUL per token position. -/
def execCellVmul (d a b c q : BitVec 3) (i o : BitVec 1) (f : BitVec 4) (x : BitVec 5) (s : State) : Result :=
  cellRow 4 x (tokenCell ⟨d, a, b, c, q, f, x⟩ fun n g t => tokArith n.env g .mul t.old t.a t.b t.c 0xFFFF (i == 1) (o == 1) false) s

/-- R123, R191: VFMA per token position. -/
def execCellVfma (d a b c q : BitVec 3) (i o : BitVec 1) (f : BitVec 4) (x : BitVec 5) (s : State) : Result :=
  cellRow 4 x (tokenCell ⟨d, a, b, c, q, f, x⟩ fun n g t => tokArith n.env g .fma t.old t.a t.b t.c 0xFFFF (i == 1) (o == 1) false) s

/-- R123, R191: VFMS per token position. -/
def execCellVfms (d a b c q : BitVec 3) (i o : BitVec 1) (f : BitVec 4) (x : BitVec 5) (s : State) : Result :=
  cellRow 4 x (tokenCell ⟨d, a, b, c, q, f, x⟩ fun n g t => tokArith n.env g .fms t.old t.a t.b t.c 0xFFFF (i == 1) (o == 1) false) s

/-- R123, R191: VFNMA per token position. -/
def execCellVfnma (d a b c q : BitVec 3) (i o : BitVec 1) (f : BitVec 4) (x : BitVec 5) (s : State) : Result :=
  cellRow 4 x (tokenCell ⟨d, a, b, c, q, f, x⟩ fun n g t => tokArith n.env g .fnma t.old t.a t.b t.c 0xFFFF (i == 1) (o == 1) false) s

/-- R124, R191: VMAX per token position. -/
def execCellVmax (d a b c q : BitVec 3) (i o : BitVec 1) (f : BitVec 4) (x : BitVec 5) (s : State) : Result :=
  cellRow 2 x (tokenCell ⟨d, a, b, c, q, f, x⟩ fun n g t => tokMinMax n.env g true t.old t.a t.b 0xFFFF (i == 1) (o == 1) false) s

/-- R124, R191: VMIN per token position. -/
def execCellVmin (d a b c q : BitVec 3) (i o : BitVec 1) (f : BitVec 4) (x : BitVec 5) (s : State) : Result :=
  cellRow 2 x (tokenCell ⟨d, a, b, c, q, f, x⟩ fun n g t => tokMinMax n.env g false t.old t.a t.b 0xFFFF (i == 1) (o == 1) false) s

/-- R125, R191: VABS per token position. -/
def execCellVabs (d a b c q : BitVec 3) (i o : BitVec 1) (f : BitVec 4) (x : BitVec 5) (s : State) : Result :=
  cellRow 2 x (tokenCell ⟨d, a, b, c, q, f, x⟩ fun n g t => tokSign n.env g .abs t.old t.a t.a 0xFFFF (i == 1) (o == 1) false) s

/-- R125, R191: VNEG per token position. -/
def execCellVneg (d a b c q : BitVec 3) (i o : BitVec 1) (f : BitVec 4) (x : BitVec 5) (s : State) : Result :=
  cellRow 2 x (tokenCell ⟨d, a, b, c, q, f, x⟩ fun n g t => tokSign n.env g .neg t.old t.a t.a 0xFFFF (i == 1) (o == 1) false) s

/-- R125, R191: VCPS per token position. -/
def execCellVcps (d a b c q : BitVec 3) (i o : BitVec 1) (f : BitVec 4) (x : BitVec 5) (s : State) : Result :=
  cellRow 2 x (tokenCell ⟨d, a, b, c, q, f, x⟩ fun n g t => tokSign n.env g .cps t.old t.a t.b 0xFFFF (i == 1) (o == 1) false) s

/-- R122, R127: VCMP per token position, its condition in the x field. -/
def execCellVcmp (d a b c q : BitVec 3) (i o : BitVec 1) (f : BitVec 4) (n : BitVec 3) (s : State) : Result :=
  cellRow 2 0 (tokenCell ⟨d, a, b, c, q, f, 0⟩ fun m g t => tokCmp m.env g n.toNat t.old t.a t.b 0xFFFF (i == 1) false) s

/-- R128, R191: VSEL per token position. -/
def execCellVsel (d a b c q : BitVec 3) (i o : BitVec 1) (f : BitVec 4) (x : BitVec 5) (s : State) : Result :=
  cellRow 2 x (tokenCell ⟨d, a, b, c, q, f, x⟩ fun _ g t => tokSel g t.old t.a t.b t.c 0xFFFF false) s

/-- R126, R191: VCLS per token position. -/
def execCellVcls (d a b c q : BitVec 3) (i o : BitVec 1) (f : BitVec 4) (x : BitVec 5) (s : State) : Result :=
  cellRow 2 x (tokenCell ⟨d, a, b, c, q, f, x⟩ fun n g t => tokClass n.env g t.old t.a 0xFFFF (i == 1) false) s

/-- R122, R129, R191: VCVT per token position. -/
def execCellVcvt (d a b c q : BitVec 3) (i o : BitVec 1) (f : BitVec 4) (x : BitVec 5) (s : State) : Result :=
  cellRow 4 x (convertCell ⟨d, a, b, c, q, f, x⟩ .vcvt (i == 1) (o == 1)) s

/-- R122, R129, R191: VRNDI per token position. -/
def execCellVrndi (d a b c q : BitVec 3) (i o : BitVec 1) (f : BitVec 4) (x : BitVec 5) (s : State) : Result :=
  cellRow 4 x (convertCell ⟨d, a, b, c, q, f, x⟩ .vrndi (i == 1) (o == 1)) s

/-- R122, R129, R191: VFTOI per token position. -/
def execCellVftoi (d a b c q : BitVec 3) (i o : BitVec 1) (f : BitVec 4) (x : BitVec 5) (s : State) : Result :=
  cellRow 4 x (convertCell ⟨d, a, b, c, q, f, x⟩ .vftoi (i == 1) (o == 1)) s

/-- R122, R129, R191: VITOF per token position. -/
def execCellVitof (d a b c q : BitVec 3) (i o : BitVec 1) (f : BitVec 4) (x : BitVec 5) (s : State) : Result :=
  cellRow 4 x (convertCell ⟨d, a, b, c, q, f, x⟩ .vitof (i == 1) (o == 1)) s

/-- R122, R129, R191: VPACK per token position. -/
def execCellVpack (d a b c q : BitVec 3) (i o : BitVec 1) (f : BitVec 4) (x : BitVec 5) (s : State) : Result :=
  cellRow 4 x (convertCell ⟨d, a, b, c, q, f, x⟩ .vpack (i == 1) (o == 1)) s

/-- R122, R129, R191: VUNPK per token position. -/
def execCellVunpk (d a b c q : BitVec 3) (i o : BitVec 1) (f : BitVec 4) (x : BitVec 5) (s : State) : Result :=
  cellRow 4 x (convertCell ⟨d, a, b, c, q, f, x⟩ .vunpk (i == 1) (o == 1)) s

/-- R138, R191: VEXPF per token position. -/
def execCellVexpf (d a b c q : BitVec 3) (i o : BitVec 1) (f : BitVec 4) (x : BitVec 5) (s : State) : Result :=
  cellRow 8 x (tokenCell ⟨d, a, b, c, q, f, x⟩ fun n g t => tokSpecial n.env g .expf t.old t.a 0xFFFF (i == 1) (o == 1) false) s

/-- R138, R191: VLOGF per token position. -/
def execCellVlogf (d a b c q : BitVec 3) (i o : BitVec 1) (f : BitVec 4) (x : BitVec 5) (s : State) : Result :=
  cellRow 8 x (tokenCell ⟨d, a, b, c, q, f, x⟩ fun n g t => tokSpecial n.env g .logf t.old t.a 0xFFFF (i == 1) (o == 1) false) s

/-- R138, R191: VGETX per token position. -/
def execCellVgetx (d a b c q : BitVec 3) (i o : BitVec 1) (f : BitVec 4) (x : BitVec 5) (s : State) : Result :=
  cellRow 8 x (tokenCell ⟨d, a, b, c, q, f, x⟩ fun n g t => tokSpecial n.env g .getx t.old t.a 0xFFFF (i == 1) (o == 1) false) s

/-- R138, R191: VRCP per token position. -/
def execCellVrcp (d a b c q : BitVec 3) (i o : BitVec 1) (f : BitVec 4) (x : BitVec 5) (s : State) : Result :=
  cellRow 8 x (tokenCell ⟨d, a, b, c, q, f, x⟩ fun n g t => tokSpecial n.env g .rcp t.old t.a 0xFFFF (i == 1) (o == 1) false) s

/-- R138, R191: VRSQ per token position. -/
def execCellVrsq (d a b c q : BitVec 3) (i o : BitVec 1) (f : BitVec 4) (x : BitVec 5) (s : State) : Result :=
  cellRow 8 x (tokenCell ⟨d, a, b, c, q, f, x⟩ fun n g t => tokSpecial n.env g .rsq t.old t.a 0xFFFF (i == 1) (o == 1) false) s

/-- R139, R191: VSCALE per token position. -/
def execCellVscale (d a b c q : BitVec 3) (i o : BitVec 1) (f : BitVec 4) (x : BitVec 5) (s : State) : Result :=
  cellRow 4 x (tokenCell ⟨d, a, b, c, q, f, x⟩ fun n g t => tokScale n.env g t.old t.a t.b 0xFFFF (i == 1) (o == 1) false) s

/-- R140, R191: VDOT per token position. -/
def execCellVdot (d a b c q : BitVec 3) (i o : BitVec 1) (f : BitVec 4) (x : BitVec 5) (s : State) : Result :=
  cellRow 6 x (tokenCell ⟨d, a, b, c, q, f, x⟩ fun n g t => tokDot n.env g t.old t.a t.b 0xFFFF (i == 1) (o == 1) false) s

/-- R141, R191: VSUMT per token position. -/
def execCellVsumt (d a b c q : BitVec 3) (i o : BitVec 1) (f : BitVec 4) (x : BitVec 5) (s : State) : Result :=
  cellRow 6 x (tokenCell ⟨d, a, b, c, q, f, x⟩ fun n g t => tokTree n.env g true t.old t.a 0xFFFF (i == 1) (o == 1) false) s

/-- R141, R191: VMAXT per token position. -/
def execCellVmaxt (d a b c q : BitVec 3) (i o : BitVec 1) (f : BitVec 4) (x : BitVec 5) (s : State) : Result :=
  cellRow 6 x (tokenCell ⟨d, a, b, c, q, f, x⟩ fun n g t => tokTree n.env g false t.old t.a 0xFFFF (i == 1) (o == 1) false) s

/-- R141, R191: VSCAN per token position. -/
def execCellVscan (d a b c q : BitVec 3) (i o : BitVec 1) (f : BitVec 4) (x : BitVec 5) (s : State) : Result :=
  cellRow 8 x (tokenCell ⟨d, a, b, c, q, f, x⟩ fun n g t => tokScan n.env g t.old t.a 0xFFFF (i == 1) (o == 1) false) s

/-- R142, R191: VPERM per token position. -/
def execCellVperm (d a b c q : BitVec 3) (i o : BitVec 1) (f : BitVec 4) (x : BitVec 5) (s : State) : Result :=
  cellRow 2 x (tokenCell ⟨d, a, b, c, q, f, x⟩ fun _ g t => tokPerm g t.old t.a t.b 0xFFFF false) s

/-- R122, R143: VSHUF per token position, its pattern in the x field. -/
def execCellVshuf (d a c q : BitVec 3) (i o : BitVec 1) (f : BitVec 4) (x : BitVec 5) (s : State) : Result :=
  cellRow 2 0 (tokenCell ⟨d, a, 0, c, q, f, 0⟩ fun _ g t => tokShuf g x.toNat t.old t.a [t.a] 0xFFFF false) s

/-- R122, R144: VBCST per token position, its lane in the x field. -/
def execCellVbcst (d a c q : BitVec 3) (i o : BitVec 1) (f : BitVec 4) (x : BitVec 5) (s : State) : Result :=
  cellRow 2 0 (tokenCell ⟨d, a, 0, c, q, f, 0⟩ fun _ g t => tokBcst g x.toNat t.old t.a [t.a] 0xFFFF false) s

/-- Token position q of a bin register rewritten, by its own layout. -/
def putBin (b : Beat) (q : Nat) (t : Token) : Beat := if q < tokensOf b.tag.toNat then b.putTok b.tag.toNat q t else b

/-- R148: the bins c_d to c3 after a row of VHIST. -/
def histCell (u : RowUse) (n : CellIn) : CellOut :=
  let bins := n.cell.c.toList.drop u.d.toNat
  let a := n.operand u u.a
  let b := n.operand u u.b
  let after := (List.range (tokensOf u.f.toNat)).foldl (fun (bs : List Beat) q =>
    let ts := histBins (bins.map fun x => x.tok x.tag.toNat q) (a.tok u.f.toNat q) (b.tok u.f.toNat q) 0xFFFF
    bs.zipWith (fun x t => putBin x q t) ts) bins
  let k := n.allow u
  ⟨((List.range after.length).zip after).map fun x => (BitVec.ofNat 3 (u.d.toNat + x.1), x.2, k), none, n.gens, 0, none⟩

/-- R148: VHIST over c_d to c3. -/
def execCellVhist (d a b c q : BitVec 3) (i o : BitVec 1) (f : BitVec 4) (x : BitVec 5) (s : State) : Result :=
  cellRow 2 x (histCell ⟨d, a, b, c, q, f, x⟩) s

/-- R149: VHMRG over c_a to c_b. -/
def execCellVhmrg (d a b c q : BitVec 3) (i o : BitVec 1) (f : BitVec 4) (x : BitVec 5) (s : State) : Result :=
  cellRow 6 x (fun n =>
    n.gives ⟨d, a, b, c, q, f, x⟩ (overTokens (tokensOf f.toNat) n.gens fun p g =>
      tokHmrg g Token.reset (((n.cell.c.toList.take (b.toNat + 1)).drop a.toNat).map fun (y : Beat) => y.tok y.tag.toNat p) 0xFFFF false)) s

/-- R150: VBFP: operand a's token with the block's exponent. -/
def execCellVbfp (d a b c q : BitVec 3) (i o : BitVec 1) (f : BitVec 4) (x : BitVec 5) (s : State) : Result :=
  cellRow 4 x (tokenCell ⟨d, a, b, c, q, f, x⟩ fun n g t =>
    let r := blockExp n.env (i == 1) 0xFFFF [t.a, t.b, t.c]
    ⟨{ t.a with exp := r.1 }, g, r.2, 0⟩) s

/-- R191, R194: VPLD of the slice in operand a. -/
def execCellVpld (d a q : BitVec 3) (i o : BitVec 1) (f : BitVec 4) (x : BitVec 5) (s : State) : Result :=
  cellRow 8 x (tokenCell ⟨d, a, 0, 0, q, f, x⟩ fun _ g t => tokSlice g t.a) s

/-- R146, R191: VMSK per token position. -/
def execCellVmsk (d a b c q : BitVec 3) (i o : BitVec 1) (f : BitVec 4) (x : BitVec 5) (s : State) : Result :=
  cellRow 2 x (tokenCell ⟨d, a, b, c, q, f, x⟩ fun _ g t => tokMask g t.old t.a t.b 0xFFFF false) s

/-- R39, R147: VIADD per token position. -/
def execCellViadd (d a b c q : BitVec 3) (f : BitVec 4) (s : State) : Result :=
  cellRow 2 0 (tokenCell ⟨d, a, b, c, q, f, 0⟩ fun _ g t => tokInt g .add t.old t.a t.b t.c [t.a, t.b] 0xFFFF false) s

/-- R39, R147: VISUB per token position. -/
def execCellVisub (d a b c q : BitVec 3) (f : BitVec 4) (s : State) : Result :=
  cellRow 2 0 (tokenCell ⟨d, a, b, c, q, f, 0⟩ fun _ g t => tokInt g .sub t.old t.a t.b t.c [t.a, t.b] 0xFFFF false) s

/-- R39, R147: VIMUL per token position. -/
def execCellVimul (d a b c q : BitVec 3) (f : BitVec 4) (s : State) : Result :=
  cellRow 2 0 (tokenCell ⟨d, a, b, c, q, f, 0⟩ fun _ g t => tokInt g .mul t.old t.a t.b t.c [t.a, t.b] 0xFFFF false) s

/-- R39, R147: VAND per token position. -/
def execCellVand (d a b c q : BitVec 3) (f : BitVec 4) (s : State) : Result :=
  cellRow 2 0 (tokenCell ⟨d, a, b, c, q, f, 0⟩ fun _ g t => tokInt g .and t.old t.a t.b t.c [t.a, t.b] 0xFFFF false) s

/-- R39, R147: VOR per token position. -/
def execCellVor (d a b c q : BitVec 3) (f : BitVec 4) (s : State) : Result :=
  cellRow 2 0 (tokenCell ⟨d, a, b, c, q, f, 0⟩ fun _ g t => tokInt g .or t.old t.a t.b t.c [t.a, t.b] 0xFFFF false) s

/-- R39, R147: VXOR per token position. -/
def execCellVxor (d a b c q : BitVec 3) (f : BitVec 4) (s : State) : Result :=
  cellRow 2 0 (tokenCell ⟨d, a, b, c, q, f, 0⟩ fun _ g t => tokInt g .xor t.old t.a t.b t.c [t.a, t.b] 0xFFFF false) s

/-- R39, R147: VSHL per token position. -/
def execCellVshl (d a b c q : BitVec 3) (f : BitVec 4) (s : State) : Result :=
  cellRow 2 0 (tokenCell ⟨d, a, b, c, q, f, 0⟩ fun _ g t => tokInt g .shl t.old t.a t.b t.c [t.a, t.b] 0xFFFF false) s

/-- R39, R147: VSHR per token position. -/
def execCellVshr (d a b c q : BitVec 3) (f : BitVec 4) (s : State) : Result :=
  cellRow 2 0 (tokenCell ⟨d, a, b, c, q, f, 0⟩ fun _ g t => tokInt g .shr t.old t.a t.b t.c [t.a, t.b] 0xFFFF false) s

/-- R39, R147: VSAR per token position. -/
def execCellVsar (d a b c q : BitVec 3) (f : BitVec 4) (s : State) : Result :=
  cellRow 2 0 (tokenCell ⟨d, a, b, c, q, f, 0⟩ fun _ g t => tokInt g .sar t.old t.a t.b t.c [t.a, t.b] 0xFFFF false) s

/-- R39, R147: VIMIN per token position. -/
def execCellVimin (d a b c q : BitVec 3) (f : BitVec 4) (s : State) : Result :=
  cellRow 2 0 (tokenCell ⟨d, a, b, c, q, f, 0⟩ fun _ g t => tokInt g .min t.old t.a t.b t.c [t.a, t.b] 0xFFFF false) s

/-- R39, R147: VIMAX per token position. -/
def execCellVimax (d a b c q : BitVec 3) (f : BitVec 4) (s : State) : Result :=
  cellRow 2 0 (tokenCell ⟨d, a, b, c, q, f, 0⟩ fun _ g t => tokInt g .max t.old t.a t.b t.c [t.a, t.b] 0xFFFF false) s

/-- R39, R147: VCNT per token position. -/
def execCellVcnt (d a b c q : BitVec 3) (f : BitVec 4) (s : State) : Result :=
  cellRow 2 0 (tokenCell ⟨d, a, b, c, q, f, 0⟩ fun _ g t => tokInt g .cnt t.old t.a t.b t.c [t.a] 0xFFFF false) s

/-- R39, R147: VIMAC per token position. -/
def execCellVimac (d a b c q : BitVec 3) (f : BitVec 4) (s : State) : Result :=
  cellRow 2 0 (tokenCell ⟨d, a, b, c, q, f, 0⟩ fun _ g t => tokInt g .mac t.old t.a t.b t.c [t.a, t.b, t.c] 0xFFFF false) s

end Sys2Proof.Machine
end

