-- ==== Sys2Proof/Machine/Plait.lean ====
section
/-! DEFINITION. Plait segments as VPLD and the SLICE copy read them (R151, R219, R334 to R336). -/

namespace Sys2Proof.Machine

/-- A well-formed header: weight count, rate (b, g), multiplier, addend, and the offset of the exponent bytes (R334). -/
structure PlaitHeader where
  n : Nat
  b : Nat
  g : Nat
  mul : Nat
  add : Nat
  expOffset : Nat
  deriving DecidableEq, Repr

/-- R151, R334: the header, where it is well-formed. -/
def plaitHeader (h : BitVec 128) : Option PlaitHeader :=
  let n := (fld h 0 12).toNat
  match plaitRate (fld h 16 2).toNat with
  | some (b, g) =>
    if n % 48 = 0 ∧ 48 ≤ n ∧ n ≤ 3072 ∧ h.getLsbD 32 = true then
      some ⟨n, b, g, (fld h 32 32).toNat, (fld h 64 32).toNat, (fld h 96 16).toNat⟩
    else none
  | none => none

/-- R334: the stream length in bits. -/
def PlaitHeader.bits (h : PlaitHeader) : Nat := h.n * h.b / h.g

/-- R335: the position of weight i's window. -/
def PlaitHeader.pos (h : PlaitHeader) (i : Nat) : Nat := i * h.b / h.g

/-- Inserts a number into a rising list without repeats. -/
def insertRising (x : Nat) : List Nat → List Nat
  | [] => [x]
  | y :: r => if x < y then x :: y :: r else if x = y then y :: r else y :: insertRising x r

/-- R335: the bytes, by offset from the header, that hold `len` stream bits from each position on, rising. -/
def plaitBytes (h : PlaitHeader) (len : Nat) (starts : List Nat) : List Nat :=
  (starts.flatMap fun p => (List.range len).map fun j => 16 + ((p + j) % h.bits) / 8).foldl (fun r x => insertRising x r) []

/-- R151: the bytes, by offset from the header, that VPLD needs for the active lanes of the elements from `i0` on. -/
def plaitNeeded (h : PlaitHeader) (i0 : Nat) (lanes : BitVec 16) : List Nat :=
  let els := (List.range 16).filter fun l => lanes.getLsbD l && decide (i0 + l < h.n)
  let stream := plaitBytes h 16 (els.map fun l => h.pos (i0 + l))
  if i0 < h.n then insertRising (h.expOffset + i0 / 48) stream else stream

/-- R335: `len` stream bits from a position on, each position taken modulo L; `stream o` is the byte at offset o. -/
def plaitBits (h : PlaitHeader) (len p : Nat) (stream : Nat → Nat) : Nat :=
  (List.range len).foldr (fun j acc =>
    let q := (p + j) % h.bits
    ((stream (16 + q / 8)) >>> (q % 8)) % 2 + 2 * acc) 0

end Sys2Proof.Machine
end

