-- ==== Sys2Proof/Machine/MemoryInstr.lean ====
section
/-! DEFINITION. Scalar and token loads and stores, lane forms, atomics, reductions and VPLD (R98 to R106, R151, R152). -/

namespace Sys2Proof.Machine

/-! ### Scalar loads (R100) -/

/-- R100: a scalar load of `n` bytes; `ext` extends the value. -/
def scalarLoad (word : Word) (n : Nat) (ext : Nat → BitVec 64) (d a : BitVec 5) (g : BitVec 4) (off : BitVec 12) (s : State) :
    Result :=
  seqInstr 4 word (s.tile.core.guard g)
    (fun s => loadThen (loadAddr (s.tile.core.s a) off n) n (fun v s' => s'.setCore (s'.tile.core.setS d (ext v))) s) s

/-- R100: LDB. -/
def execLdb (d a : BitVec 5) (g : BitVec 4) (i : BitVec 12) (s : State) : Result :=
  scalarLoad (encode (.ldb d a g i)) 1 (fun v => sext64 (BitVec.ofNat 8 v)) d a g i s

/-- R100: LDBU. -/
def execLdbu (d a : BitVec 5) (g : BitVec 4) (i : BitVec 12) (s : State) : Result :=
  scalarLoad (encode (.ldbu d a g i)) 1 (BitVec.ofNat 64) d a g i s

/-- R100: LDH. -/
def execLdh (d a : BitVec 5) (g : BitVec 4) (i : BitVec 12) (s : State) : Result :=
  scalarLoad (encode (.ldh d a g i)) 2 (fun v => sext64 (BitVec.ofNat 16 v)) d a g i s

/-- R100: LDHU. -/
def execLdhu (d a : BitVec 5) (g : BitVec 4) (i : BitVec 12) (s : State) : Result :=
  scalarLoad (encode (.ldhu d a g i)) 2 (BitVec.ofNat 64) d a g i s

/-- R100: LDW. -/
def execLdw (d a : BitVec 5) (g : BitVec 4) (i : BitVec 12) (s : State) : Result :=
  scalarLoad (encode (.ldw d a g i)) 4 (fun v => sext64 (BitVec.ofNat 32 v)) d a g i s

/-- R100: LDWU. -/
def execLdwu (d a : BitVec 5) (g : BitVec 4) (i : BitVec 12) (s : State) : Result :=
  scalarLoad (encode (.ldwu d a g i)) 4 (BitVec.ofNat 64) d a g i s

/-- R100: LDD. -/
def execLdd (d a : BitVec 5) (g : BitVec 4) (i : BitVec 12) (s : State) : Result :=
  scalarLoad (encode (.ldd d a g i)) 8 (BitVec.ofNat 64) d a g i s

/-! ### Scalar stores (R100) -/

/-- R100: a scalar store of the low `n` bytes of sd. -/
def scalarStore (word : Word) (n : Nat) (d a : BitVec 5) (g : BitVec 4) (off : BitVec 10) (s : State) : Result :=
  seqInstr 5 word (s.tile.core.guard g)
    (fun s => storeAll n [(storeAddr (s.tile.core.s a) off n, (s.tile.core.s d).toNat)] s) s

/-- R100: STB. -/
def execStb (d a : BitVec 5) (g : BitVec 4) (i : BitVec 10) (s : State) : Result :=
  scalarStore (encode (.stb d a g i)) 1 d a g i s

/-- R100: STH. -/
def execSth (d a : BitVec 5) (g : BitVec 4) (i : BitVec 10) (s : State) : Result :=
  scalarStore (encode (.sth d a g i)) 2 d a g i s

/-- R100: STW. -/
def execStw (d a : BitVec 5) (g : BitVec 4) (i : BitVec 10) (s : State) : Result :=
  scalarStore (encode (.stw d a g i)) 4 d a g i s

/-- R100: STD. -/
def execStd (d a : BitVec 5) (g : BitVec 4) (i : BitVec 10) (s : State) : Result :=
  scalarStore (encode (.std d a g i)) 8 d a g i s

/-! ### Token loads and stores (R101) -/

/-- R101: the token that LDT makes of 64 bytes. -/
def loadedToken (data : Line) : Token := ⟨data, 0, 0, false, 0xFFFF, 0⟩

/-- R101: LDT. -/
def execLdt (d a : BitVec 5) (g : BitVec 4) (i : BitVec 12) (s : State) : Result :=
  seqInstr 4 (encode (.ldt d a g i)) (s.tile.core.guard g)
    (fun s => loadThen (loadAddr (s.tile.core.s a) i 64) 64
      (fun v s' => s'.setCore (s'.tile.core.setT d (loadedToken (BitVec.ofNat 512 v)))) s) s

/-- R101: STT writes every lane and no header. -/
def execStt (d a : BitVec 5) (g : BitVec 4) (i : BitVec 12) (s : State) : Result :=
  seqInstr 5 (encode (.stt d a g i)) (s.tile.core.guard g)
    (fun s => storeAll 64 [(loadAddr (s.tile.core.s a) i 64, (s.tile.core.t d).data.toNat)] s) s

/-! ### Lane forms (R102) -/

/-- R102: the active lanes of a mask. -/
def activeLanes (m : BitVec 16) : List Nat := (List.range 16).filter fun l => m.getLsbD l

/-- R102: the token of a lane-form load from the words of its active lanes. -/
def laneLoaded (old : Token) (k : Bool) (m : BitVec 16) (vals : List (Nat × Nat)) : Token :=
  buildToken old k 0 0
    ((List.range 16).map fun l => if m.getLsbD l then some (BitVec.ofNat 32 ((assocGet vals l).getD 0)) else none) 0xFFFF 0

/-- R102: a lane-form load; `addr` gives each lane's VA. -/
def laneLoad (word : Word) (d : BitVec 5) (m : BitVec 3) (k : BitVec 1) (addr : Core → Nat → BitVec 64) (s : State) : Result :=
  seqInstr 4 word true
    (fun s =>
      let c := s.tile.core
      let lanes := activeLanes (c.m m)
      let vas := lanes.map (addr c)
      match checkVas c.wards.toList vas 4 true false with
      | some (cause, v) => .trap cause v
      | none => rimReads 4 vas s [] fun got s' =>
          .done (s'.setCore (s'.tile.core.setT d (laneLoaded (c.t d) (k == 1) (c.m m) (lanes.zip got))))) s

/-- R102: a lane-form store, its lanes in ascending order. -/
def laneStore (word : Word) (d : BitVec 5) (m : BitVec 3) (addr : Core → Nat → BitVec 64) (s : State) : Result :=
  seqInstr 5 word true
    (fun s =>
      let c := s.tile.core
      storeAll 4 ((activeLanes (c.m m)).map fun l => (addr c l, ((c.t d).lane l).toNat)) s) s

/-- R102: strided lane addresses. -/
def strideAddr (a b : BitVec 5) (c : Core) (l : Nat) : BitVec 64 := c.s a + BitVec.ofNat 64 l * c.s b

/-- R102: gathered lane addresses. -/
def gatherAddr (a b : BitVec 5) (c : Core) (l : Nat) : BitVec 64 := c.s a + sext64 ((c.t b).lane l)

/-- R102: LDTS. -/
def execLdts (d a b : BitVec 5) (m : BitVec 3) (k : BitVec 1) (s : State) : Result :=
  laneLoad (47#6 ++ d ++ a ++ b ++ 0#5 ++ m ++ 0#2 ++ k) d m k (strideAddr a b) s

/-- R102: STTS. -/
def execStts (d a b : BitVec 5) (m : BitVec 3) (k : BitVec 1) (s : State) : Result :=
  laneStore (47#6 ++ d ++ a ++ b ++ 1#5 ++ m ++ 0#2 ++ k) d m (strideAddr a b) s

/-- R102: LDTG. -/
def execLdtg (d a b : BitVec 5) (m : BitVec 3) (k : BitVec 1) (s : State) : Result :=
  laneLoad (47#6 ++ d ++ a ++ b ++ 2#5 ++ m ++ 0#2 ++ k) d m k (gatherAddr a b) s

/-- R102: STTG. -/
def execSttg (d a b : BitVec 5) (m : BitVec 3) (k : BitVec 1) (s : State) : Result :=
  laneStore (47#6 ++ d ++ a ++ b ++ 3#5 ++ m ++ 0#2 ++ k) d m (gatherAddr a b) s

/-! ### Atomics (R103, R104) -/

/-- R103: AMO on `size` bytes. -/
def amoInstr (word : Word) (func size : Nat) (d a b : BitVec 5) (g : BitVec 4) (o : BitVec 2) (s : State) : Result :=
  seqInstr 5 word (s.tile.core.guard g)
    (fun s => atomicThen (s.tile.core.s a) size func o ((s.tile.core.s b).toNat % 2 ^ (8 * size)) 0 d s) s

/-- R29: the size of an atomic. -/
def amoSize (z : BitVec 1) : Nat := if z = 1 then 8 else 4

/-- R103: AMO.add. -/
def execAmoAdd (d a b : BitVec 5) (g : BitVec 4) (o : BitVec 2) (z : BitVec 1) (s : State) : Result :=
  amoInstr (encode (.amoAdd d a b g o z)) 0 (amoSize z) d a b g o s

/-- R103: AMO.and. -/
def execAmoAnd (d a b : BitVec 5) (g : BitVec 4) (o : BitVec 2) (z : BitVec 1) (s : State) : Result :=
  amoInstr (encode (.amoAnd d a b g o z)) 1 (amoSize z) d a b g o s

/-- R103: AMO.or. -/
def execAmoOr (d a b : BitVec 5) (g : BitVec 4) (o : BitVec 2) (z : BitVec 1) (s : State) : Result :=
  amoInstr (encode (.amoOr d a b g o z)) 2 (amoSize z) d a b g o s

/-- R103: AMO.xor. -/
def execAmoXor (d a b : BitVec 5) (g : BitVec 4) (o : BitVec 2) (z : BitVec 1) (s : State) : Result :=
  amoInstr (encode (.amoXor d a b g o z)) 3 (amoSize z) d a b g o s

/-- R103: AMO.min. -/
def execAmoMin (d a b : BitVec 5) (g : BitVec 4) (o : BitVec 2) (z : BitVec 1) (s : State) : Result :=
  amoInstr (encode (.amoMin d a b g o z)) 4 (amoSize z) d a b g o s

/-- R103: AMO.max. -/
def execAmoMax (d a b : BitVec 5) (g : BitVec 4) (o : BitVec 2) (z : BitVec 1) (s : State) : Result :=
  amoInstr (encode (.amoMax d a b g o z)) 5 (amoSize z) d a b g o s

/-- R103: AMO.minu. -/
def execAmoMinu (d a b : BitVec 5) (g : BitVec 4) (o : BitVec 2) (z : BitVec 1) (s : State) : Result :=
  amoInstr (encode (.amoMinu d a b g o z)) 6 (amoSize z) d a b g o s

/-- R103: AMO.maxu. -/
def execAmoMaxu (d a b : BitVec 5) (g : BitVec 4) (o : BitVec 2) (z : BitVec 1) (s : State) : Result :=
  amoInstr (encode (.amoMaxu d a b g o z)) 7 (amoSize z) d a b g o s

/-- R103: AMO.swp. -/
def execAmoSwp (d a b : BitVec 5) (g : BitVec 4) (o : BitVec 2) (z : BitVec 1) (s : State) : Result :=
  amoInstr (encode (.amoSwp d a b g o z)) 8 (amoSize z) d a b g o s

/-- R103: AMO.fadd. -/
def execAmoFadd (d a b : BitVec 5) (g : BitVec 4) (o : BitVec 2) (s : State) : Result :=
  amoInstr (encode (.amoFadd d a b g o)) 9 4 d a b g o s

/-- R103: AMO.bfadd. -/
def execAmoBfadd (d a b : BitVec 5) (g : BitVec 4) (o : BitVec 2) (s : State) : Result :=
  amoInstr (encode (.amoBfadd d a b g o)) 10 4 d a b g o s

/-- R104: AMOCAS compares with sd. -/
def execAmocas (d a b : BitVec 5) (g : BitVec 4) (o : BitVec 2) (z : BitVec 1) (s : State) : Result :=
  seqInstr 5 (encode (.amocas d a b g o z)) (s.tile.core.guard g)
    (fun s =>
      let c := s.tile.core
      let n := 2 ^ (8 * amoSize z)
      atomicThen (c.s a) (amoSize z) 11 o ((c.s b).toNat % n) ((c.s d).toNat % n) d s) s

/-! ### Reductions (R105) -/

/-- R105: the bytes that a token's valid lanes reach: `bytes` low bytes of each word. -/
def redMask (t : Token) (bytes : Nat) : BitVec 64 :=
  maskOf 64 fun k => !t.bub && t.valid.getLsbD (k / 4) && decide (k % 4 < bytes)

/-- R105: REDT; `op` is that of R288. -/
def redtInstr (word : Word) (op : BitVec 3) (bytes : Nat) (a b : BitVec 5) (g : BitVec 4) (o : BitVec 2) (s : State) : Result :=
  seqInstr 5 word (s.tile.core.guard g)
    (fun s =>
      let c := s.tile.core
      let va := c.s a
      match checkVas c.wards.toList [va] 64 false true with
      | some (cause, v) => .trap cause v
      | none =>
        match findWard c.wards.toList va.toNat with
        | none => .trap causeWardMiss va
        | some w =>
          let rel := o.getLsbD 1
          if !c.creelRoom 1 || c.soWaits w (w.ia va.toNat) || (rel && c.releaseOwes w.scope) then .stall .again s
          else .done (rimWrite w (w.ia va.toNat) op (redMask (c.t b) bytes) (c.t b).data rel s)) s

/-- R105: REDT.add. -/
def execRedtAdd (a b : BitVec 5) (g : BitVec 4) (o : BitVec 2) (s : State) : Result :=
  redtInstr (encode (.redtAdd a b g o)) 1 4 a b g o s

/-- R105: REDT.fadd. -/
def execRedtFadd (a b : BitVec 5) (g : BitVec 4) (o : BitVec 2) (s : State) : Result :=
  redtInstr (encode (.redtFadd a b g o)) 2 4 a b g o s

/-- R105: REDT.bfadd. -/
def execRedtBfadd (a b : BitVec 5) (g : BitVec 4) (o : BitVec 2) (s : State) : Result :=
  redtInstr (encode (.redtBfadd a b g o)) 3 2 a b g o s

/-- R105: REDT.min. -/
def execRedtMin (a b : BitVec 5) (g : BitVec 4) (o : BitVec 2) (s : State) : Result :=
  redtInstr (encode (.redtMin a b g o)) 4 4 a b g o s

/-- R105: REDT.max. -/
def execRedtMax (a b : BitVec 5) (g : BitVec 4) (o : BitVec 2) (s : State) : Result :=
  redtInstr (encode (.redtMax a b g o)) 5 4 a b g o s

/-! ### VPLD (R151, R152) -/

/-- R152: the reads of the bytes at some VAs, under the checks of R98; those of one page of another module are one request. -/
def readBytesAt (vas : List (BitVec 64)) (k : List Nat → State → Act) (s : State) : Act :=
  match checkVas s.tile.core.wards.toList vas 1 true false with
  | some (cause, v) => .trapIn s cause v
  | none =>
    match bytesAhead vas s with
    | some a => a
    | none => rimReads 1 vas s [] k

/-- R152: the sixteen bytes of a header from a VA on. -/
def readHeader (va : Nat) (k : Nat → State → Act) (s : State) : Act :=
  readBytesAt ((List.range 16).map fun j => BitVec.ofNat 64 (va + j)) (fun got s' => k (natOfBytes (got.map (BitVec.ofNat 8))) s') s

/-- R151: the token that VPLD makes. `win e` is the window of element e. -/
def plaitToken (h : PlaitHeader) (old : Token) (k : Bool) (m : BitVec 16) (i0 : Nat) (win : Nat → Nat) (exp : BitVec 8) : Token :=
  buildToken old k 14 exp
    ((List.range 16).map fun l =>
      if m.getLsbD l && decide (i0 + l < h.n) then some (BitVec.ofInt 32 (plaitValue (win (i0 + l)) h.mul h.add)) else none)
    0xFFFF 0

/-- R151, R152: VPLD. -/
def execVpld (d a b : BitVec 5) (m : BitVec 3) (k : BitVec 1) (s : State) : Result :=
  seqInstr 4 (46#6 ++ d ++ a ++ b ++ 1#5 ++ m ++ 0#2 ++ k) true
    (fun s =>
      let c := s.tile.core
      let va := c.s a
      let i0 := (c.s b).toNat / 16 * 16
      if va.toNat % 16 ≠ 0 then .trap causeAlign va
      else
        match segmentAhead va i0 (c.m m) s with
        | some a => a
        | none => readHeader va.toNat (fun hv s =>
            let c := s.tile.core
            let old := c.t d
            match plaitHeader (BitVec.ofNat 128 hv) with
            | none =>
              .done (s.setCore { c.setT d (buildToken old (k == 1) 14 0 [] 0 0) with fstat := c.fstat ||| flagNV })
            | some h =>
              let needed := plaitNeeded h i0 (c.m m)
              readBytesAt (needed.map fun o => BitVec.ofNat 64 (va.toNat + o)) (fun got s' =>
                let byte (o : Nat) : Nat := (assocGet (needed.zip got) o).getD 0
                let exp := if i0 < h.n then BitVec.ofNat 8 (byte (h.expOffset + i0 / 48)) else 0
                .done (s'.setCore (s'.tile.core.setT d
                  (plaitToken h old (k == 1) (c.m m) i0 (fun i => plaitBits h 16 (h.pos i) byte) exp)))) s) s) s

end Sys2Proof.Machine
end

