-- ==== Sys2Proof/Machine/Engine.lean ====
section
/-! DEFINITION. The tile commands PUSHT, POPT, ORL, OLD, OST and WARDW, and the issue and landing of the status commands (R177,
R178, R206 to R212, R214 to R216, R221, R230, R235, R306). -/

namespace Sys2Proof.Machine

/-! ### Tile commands (R206, R210) -/

/-- A guarded tile command. -/
def tileInstr (word : Word) (g : BitVec 4) (body : State → Act) (s : State) : Result :=
  seqInstr 6 word (s.tile.core.guard g) body s

/-- R211, R212: the region that an operand names, with the position in its edge of the edge cell at POS in this tile. -/
def edgeNamed (s : State) (edge : Edge) (v : BitVec 64) : Option (Graph × Region × Nat) :=
  match s.graphOfTile s.tileIdx with
  | none => none
  | some g =>
    match g.getRegion (fld v 16 10).toNat with
    | none => none
    | some r => (r.cfg.localPos edge s.tileIdx (fld v 0 4).toNat).map fun pos => (g, r, pos)

/-- R211: the push beat after a token is staged. -/
def stageToken (old : Beat) (q : Nat) (tb : Token) : Beat :=
  let base := if old.tag = tb.tag then old else Beat.invalid tb.tag
  base.putTok tb.tag.toNat q (if tb.bub then Token.invalid tb.tag else tb)

/-- The replies that a window latch at an edge position holds. -/
def Region.heldReplies (r : Region) (win : BitVec 5) (edge : Edge) (pos : Nat) : Nat :=
  (r.latches.filter fun l => l.win == win && l.edge == edge && l.pos == pos && l.reply.isSome).length

/-- R211: the effect of PUSHT. -/
def pushAct (sa : BitVec 64) (tb : Token) (s0 : State) : Act :=
  let s := s0.settle
  let edge : Edge := if sa.getLsbD 4 then .n else .w
  let win := fld sa 5 5
  let q := (fld sa 10 2).toNat
  match edgeNamed s edge sa with
  | none => .trap causeBadTgt sa
  | some (g, r, pos) =>
    if sa &&& 0xFFFFFFFFFC00E000 ≠ 0 ∨ r.cfg.winDef win.toNat = false ∨ tokensOf tb.tag.toNat ≤ q then .trap causeBadTgt sa
    else
      let beat := stageToken s.tile.pushBeat q tb
      if sa.getLsbD 12 = false then .done { s with tile := { s.tile with pushBeat := beat } }
      else if r.cfg.winLen win.toNat ≤ r.heldReplies win edge pos then .stall .again s0
      else
        let l : Latch := ⟨g.reqId, win, edge, pos, g.slotNo, some beat⟩
        let g' := { g.onRegion r.id fun x => { x with latches := x.latches ++ [l] } with reqId := g.reqId + 1 }
        .done ({ s with tile := { s.tile with pushBeat := Beat.invalid beat.tag } }.putGraph g')

/-- R211: PUSHT. -/
def execPusht (a b : BitVec 5) (g : BitVec 4) (s : State) : Result :=
  tileInstr (1568#11 ++ a ++ b ++ g ++ 0#7) g (fun s => pushAct (s.tile.core.s a) (s.tile.core.t b) s) s

/-- R212: the key of a capture buffer. -/
def captureKey (region : Nat) (edge : Edge) (p : Nat) : Nat := region * 32 + (if edge = .e then 16 else 0) + p

/-- R212: the effect of POPT on td. -/
def popAct (sa : BitVec 64) (d : BitVec 5) (s0 : State) : Act :=
  let s := s0.settle
  let edge : Edge := if sa.getLsbD 4 then .e else .s
  match edgeNamed s edge sa with
  | none => .trap causeBadTgt sa
  | some (_, r, _) =>
    if sa &&& 0xFFFFFFFFFC00E3E0 ≠ 0 then .trap causeBadTgt sa
    else
      let key := captureKey r.id edge (fld sa 0 4).toNat
      match sparseGet [] s.tile.capture key with
      | [] => .stall .again s0
      | b :: rest =>
        let t := s.tile
        let t := if sa.getLsbD 12 then { t with capture := sparsePut [] t.capture key rest } else t
        let tok := b.tok b.tag.toNat (fld sa 10 2).toNat
        .done { s with tile := { t with core := t.core.setT d tok } }

/-- R212: POPT. -/
def execPopt (d a : BitVec 5) (g : BitVec 4) (s : State) : Result :=
  tileInstr (49#6 ++ d ++ a ++ 0#5 ++ g ++ 1#7) g (fun s => popAct (s.tile.core.s a) d s) s

/-- The feeds that FEEDR and OUTR rows of a configuration name, with the row's op. -/
def RegionCfg.feedRows (c : RegionCfg) : List (Nat × Nat) :=
  (List.range c.rrows).filterMap fun n =>
    let w := sparseGet 0 c.words n
    let op := (fld w 26 6).toNat
    if op = 0x13 ∨ op = 0x14 then some (op, (fld w 0 5).toNat) else none

/-- R184: the edge code of a feed. -/
def edgeOfCode (n : BitVec 2) : Edge :=
  match n.toNat with
  | 0 => .n
  | 1 => .w
  | 2 => .s
  | _ => .e

/-- RFDA of a feed. -/
def RegionCfg.fda (c : RegionCfg) (f : Nat) : BitVec 32 := c.field (0x80 + 2 * f)
/-- RFDB of a feed. -/
def RegionCfg.fdb (c : RegionCfg) (f : Nat) : BitVec 32 := c.field (0x81 + 2 * f)

/-- R215: a committed region names a slot of a range, in a tile, in a feed that one of its rows uses. -/
def RegionCfg.feedsSlot (c : RegionCfg) (tile lo n : Nat) : Bool :=
  c.feedRows.any fun x =>
    let slot := (fld (c.fda x.2) 0 8).toNat
    decide (lo ≤ slot ∧ slot < lo + n) && (c.edgeTiles (edgeOfCode (fld (c.fdb x.2) 10 2))).contains tile

/-- R215: an access of a context is in flight to a slot of a range in a tile: a DRN, a copy, a FEEDR or an OUTR. -/
def slotBusy (s : State) (tile : Nat) (ctx : BitVec 16) (lo n : Nat) : Bool :=
  let within (k : Nat) : Bool := decide (lo ≤ k ∧ k < lo + n)
  let drn := (s.getTile tile).core.cmds.any fun x =>
    x.kind == .drn && x.state == .started && x.ctx == ctx && within (fld x.sb 16 8).toNat
  let cpy := s.hubs.toList.any fun h => h.engines.toList.any fun e => e.queue.any fun c =>
    c.status.isNone && c.ctx == ctx && c.tile == tile && (fld c.record 0 3).toNat != 0 &&
    within (if (fld c.record 0 3).toNat = 2 then (fld c.record 272 8).toNat else (fld c.record 656 8).toNat)
  let out := s.allGraphs.any fun g => g.ctx == ctx && (g.omWrites.any (fun w => w.tile == tile && within (w.x / 65536)) ||
    g.regions.any fun r => r.feeds.any fun f => f.tile == tile && within (f.x / 65536))
  drn || cpy || out

/-- R215: the effect of ORL. -/
def releaseAct (sa : BitVec 64) (s0 : State) : Act :=
  let s := s0.settle
  let lo := (fld sa 0 8).toNat
  let n := (fld sa 8 8).toNat + 1
  let ctx := s.tile.core.ctx
  if fld sa 16 48 ≠ 0 ∨ 256 < lo + n then .trap causeBadTgt sa
  else if s.allGraphs.any fun g => g.ctx == ctx && g.regions.any fun r =>
      r.cfg.feedsSlot s.tileIdx lo n || r.next.any fun c => c.feedsSlot s.tileIdx lo n then
    .trap causeRefused sa
  else if slotBusy s s.tileIdx ctx lo n then .stall .again s0
  else
    .done { s with tile := { s.tile with
      owners := s.tile.owners.filter fun p => !(decide (lo ≤ p.1 ∧ p.1 < lo + n) && p.2 == ctx) } }

/-- R215: ORL. -/
def execOrl (a : BitVec 5) (g : BitVec 4) (s : State) : Result :=
  tileInstr (1632#11 ++ a ++ 0#5 ++ g ++ 1#7) g (fun s => releaseAct (s.tile.core.s a) s) s

/-- R216: the checks of OLD and OST on X, in the order of its table (assumption 60). -/
def omCheck (s : State) (x : BitVec 64) : Option (BitVec 8) :=
  if fld x 0 6 ≠ 0 then some causeAlign
  else if fld x 24 40 ≠ 0 then some causeBadTgt
  else if s.tile.owns (x.toNat / 65536) s.tile.core.ctx then none
  else some causeRefused

/-- R101, R216, R276: the effect of OLD. -/
def omLoadAct (x : BitVec 64) (d : BitVec 5) (s : State) : Act :=
  match omCheck s x with
  | some cause => .trap cause x
  | none =>
    let seen := s.omSeen s.tileIdx x.toNat
    let s := s.omRead s.tileIdx x.toNat
    if seen.poison then .trapIn s causePoison x else .done (s.setCore (s.tile.core.setT d (loadedToken seen.data)))

/-- R216: OLD. -/
def execOld (d a b : BitVec 5) (g : BitVec 4) (s : State) : Result :=
  tileInstr (51#6 ++ d ++ a ++ b ++ g ++ 2#7) g (fun s => omLoadAct (s.tile.core.s a + s.tile.core.s b) d s) s

/-- R216, R421: the effect of OST. -/
def omStoreAct (x : BitVec 64) (t : Token) (s : State) : Act :=
  match omCheck s x with
  | some cause => .trap cause x
  | none => .done (s.omPort s.tileIdx x.toNat t.data t.exp)

/-- R216: OST. -/
def execOst (d a b : BitVec 5) (g : BitVec 4) (s : State) : Result :=
  tileInstr (51#6 ++ d ++ a ++ b ++ g ++ 3#7) g (fun s => omStoreAct (s.tile.core.s a + s.tile.core.s b) (s.tile.core.t d) s) s

/-- R305: the ward of four words. -/
def wardOf (w0 w1 w2 w3 : BitVec 64) : Ward :=
  ⟨w0.getLsbD 0, w0.getLsbD 1, w0.getLsbD 2, w0.getLsbD 3, fld w0 4 3, fld w0 16 32, fld w1 16 32, fld w2 16 28, fld w3 0 14,
    w3.getLsbD 14⟩

/-- R305: the reserved bits of word w. -/
def wardReserved (w : Nat) : BitVec 64 :=
  match w with
  | 0 => 0xFFFF00000000FF80
  | 1 => 0xFFFF00000000FFFF
  | 2 => 0xFFFFF0000000FFFF
  | _ => 0xFFFFFFFFFFFF8000

/-- R306: whether an install of word 0 passes. -/
def wardOk (x : Ward) : Bool :=
  (!x.v || (decide (x.vbase.toNat < x.vlimit.toNat) &&
    decide (x.iabase.toNat + (x.vlimit.toNat - x.vbase.toNat) ≤ 2 ^ 28))) &&
  decide (x.scope.toNat ≤ 5) && (!x.isRemote || x.scope == 5)

/-- R235, R306: the effect of WARDW. -/
def wardAct (sa v : BitVec 64) (s : State) : Act :=
  let c := s.tile.core
  let n := (fld sa 0 3).toNat
  let w := (fld sa 4 2).toNat
  if sa &&& 0xFFFFFFFFFFFFFFC8 ≠ 0 ∨ v &&& wardReserved w ≠ 0 then .trap causeBadTgt sa
  else
    let st := c.staged.toList.getD n ⟨0, 0, 0⟩
    match w with
    | 0 =>
      let x := wardOf v st.w1 st.w2 st.w3
      if wardOk x then .done (s.setCore { c with wards := c.wards.setIfInBounds n x }) else .trap causeBadTgt sa
    | 1 => .done (s.setCore { c with staged := c.staged.setIfInBounds n { st with w1 := v } })
    | 2 => .done (s.setCore { c with staged := c.staged.setIfInBounds n { st with w2 := v } })
    | _ => .done (s.setCore { c with staged := c.staged.setIfInBounds n { st with w3 := v } })

/-- R235: WARDW, supervisor only (R31). -/
def execWardw (a b : BitVec 5) (g : BitVec 4) (s : State) : Result :=
  privInstr (1760#11 ++ a ++ b ++ g ++ 0#7)
    (tileInstr (1760#11 ++ a ++ b ++ g ++ 0#7) g fun s => wardAct (s.tile.core.s a) (s.tile.core.s b) s) s

/-! ### Landing a status (R75, R84, R178, R207 to R209, R221) -/

/-- R208: CMD. -/
def CmdKind.code : CmdKind → Nat
  | .cfg => 0x00
  | .cfgw => 0x01
  | .drn => 0x06
  | .cpy => 0x08
  | .cpyw => 0x09
  | .ocl => 0x0C
  | .hoop => 0x10
  | .pub => 0x11
  | .ple => 0x14
  | .mig => 0x15
  | .migSp => 0x16
  | .hsplit => 0x17
  | .ptew => 0x18
  | .ptecas => 0x19
  | .pinv => 0x1A

/-- R208: a landed status word, with DONE set. -/
def landedWord (k : CmdKind) (st : Status) : BitVec 64 :=
  BitVec.ofNat 64 (st.code.toNat + 2 ^ 8 * st.reason.toNat + 2 ^ 16 * k.code + 2 ^ 31 + 2 ^ 32 * st.detail.toNat)

/-- OK with a DETAIL. -/
def Status.ok (detail : Nat) : Status := ⟨0, 0, BitVec.ofNat 32 detail⟩
/-- BADREC with its REASON. -/
def Status.badRec (reason : Nat) : Status := ⟨0x10, BitVec.ofNat 8 reason, 0⟩
/-- REFUSED with its REASON and DETAIL. -/
def Status.refused (reason : BitVec 8) (detail : Nat) : Status := ⟨0x11, reason, BitVec.ofNat 32 detail⟩
/-- POISON with IA [43:12]. -/
def Status.poison (detail : Nat) : Status := ⟨0x12, 0, BitVec.ofNat 32 detail⟩
/-- ABORTED. -/
def Status.aborted (detail : Nat) : Status := ⟨0x13, 0, BitVec.ofNat 32 detail⟩
/-- BUSY. -/
def Status.busy : Status := ⟨0x15, 0, 0⟩

/-- R178, R221: the word that CFGW or CPYW returns: of the logged statuses of commands issued before it, the first in issue order
that did not end OK, with CMD rewritten. -/
def worstOf (log : List (Nat × BitVec 64)) (n : Nat) (k : CmdKind) : BitVec 64 :=
  let bad := log.filter fun x => decide (x.1 < n) && fld x.2 0 8 != 0
  match bad with
  | [] => landedWord k (Status.ok 0)
  | x :: rest =>
    let first := rest.foldl (fun a b => if b.1 < a.1 then b else a) x
    putField first.2 16 8 k.code

/-- Whether a command of the kinds that a waiter waits for is still outstanding before it. -/
def waitsFor (k : CmdKind) (x : CmdKind) : Bool :=
  match k with
  | .cfgw => x == .cfg
  | .cpyw => x == .cpy || x == .ple
  | _ => false

/-- R178, R221: lands one CFGW or CPYW whose commands have all completed. -/
def Core.landWaiter (c : Core) (x : Cmd) : Core :=
  if (x.kind = .cfgw ∨ x.kind = .cpyw) ∧ x.state = .started ∧ (c.cmds.all fun y => !(waitsFor x.kind y.kind && decide (y.serial < x.serial))) = true then
    let log := if x.kind = .cfgw then c.cfgLog else c.cpyLog
    let w := worstOf log x.serial x.kind
    let keep := log.filter fun y => decide (x.serial < y.1)
    let c : Core := { c with cmds := c.cmds.filter fun y => y.serial != x.serial }
    let c : Core := if x.kind = .cfgw then { c with cfgLog := keep } else { c with cpyLog := keep }
    if c.run = .idle then c else c.setS x.d w
  else c

/-- R178, R221: lands every CFGW and CPYW that can land. -/
def Core.landWaiters (c : Core) : Core := c.cmds.foldl Core.landWaiter c

/-- R209: of several failures a status reports the first. -/
def firstFailure (old : Option Status) (x : Status) : Status :=
  match old with
  | some y => if y.code = 0 then x else y
  | none => x

/-- R84, R207, R294: the status of a command lands in the register file of its core, and is discarded where no context is
resident. `first`: a result on its way to the register then replaces it (R169). -/
def Core.takeStatus (c : Core) (n : Nat) (st : Status) (first : Bool) : Core :=
  match c.cmds.find? fun x => x.serial == n with
  | none => c
  | some x =>
    let w := landedWord x.kind st
    let c : Core := { c with
      cmds := c.cmds.filter fun y => y.serial != n
      cfgLog := if x.kind = .cfg then c.cfgLog ++ [(n, w)] else c.cfgLog
      cpyLog := if x.kind = .cpy ∨ x.kind = .ple then c.cpyLog ++ [(n, w)] else c.cpyLog }
    (if c.run = .idle ∨ first = true then c else c.setS x.d w).landWaiters

/-- Whether a core has a command outstanding. -/
def Core.hasCmd (c : Core) (n : Nat) : Bool := c.cmds.any fun x => x.serial == n

/-- The register that a command names for its status. -/
def Core.statusReg (c : Core) (n : Nat) : BitVec 5 := ((c.cmds.find? fun x => x.serial == n).map fun x => x.d).getD 0

/-- R207, R373: a status lands in its core, or in the save record of the pre-empted graph that the core belonged to. -/
def landStatus (s : State) (ref : CmdRef) (st : Status) : State :=
  let c := (s.getTile ref.tile).core
  if c.hasCmd ref.serial then
    let first := s.landsFirst c (c.statusReg ref.serial)
    { s.onCore ref.tile fun c => c.takeStatus ref.serial st first with free := s.free + 1 }
  else
    { s with mgmt := { s.mgmt with saved := s.mgmt.saved.map fun v =>
        { v with tiles := v.tiles.map fun x =>
            if x.1 = ref.tile then (x.1, { x.2 with core := x.2.core.takeStatus ref.serial st false }) else x } } }

/-- A change of an outstanding command. -/
def Core.onCmd (c : Core) (n : Nat) (f : Cmd → Cmd) : Core :=
  { c with cmds := c.cmds.map fun x => if x.serial = n then f x else x }

/-- R207, R373: the save record that keeps a command of a tile's core, and the tile in it. -/
def State.savedWith (s : State) (t n : Nat) : Option (Saved × Tile) :=
  s.mgmt.saved.findSome? fun v => ((assocGet v.tiles t).bind fun x => if x.core.hasCmd n then some x else none).map fun x => (v, x)

/-- R207: the core that holds a command: that of its tile, or the one that the graph's save keeps. -/
def State.cmdCore (s : State) (t n : Nat) : Core :=
  let c := (s.getTile t).core
  if c.hasCmd n then c else ((s.savedWith t n).map fun x => x.2.core).getD c

/-- R207: the graph of the core that holds a command. -/
def State.cmdGraph (s : State) (t n : Nat) : Option Graph :=
  if (s.getTile t).core.hasCmd n then s.graphOfTile t else (s.savedWith t n).map fun x => x.1.graph

/-- A change of the cores of saved graphs. -/
def State.onSavedCores (s : State) (f : Nat → Core → Core) : State :=
  { s with mgmt := { s.mgmt with saved := s.mgmt.saved.map fun v =>
      { v with tiles := v.tiles.map fun x => (x.1, { x.2 with core := f x.1 x.2.core }) } } }

/-- A change of the core that holds a command. -/
def State.onCmdCore (s : State) (t n : Nat) (f : Core → Core) : State :=
  if (s.getTile t).core.hasCmd n then s.onCore t f
  else s.onSavedCores fun k c => if k = t ∧ c.hasCmd n = true then f c else c

/-- A change of an outstanding command, wherever its core is. -/
def State.onCmd (s : State) (t n : Nat) (f : Cmd → Cmd) : State := s.onCmdCore t n fun c => c.onCmd n f

/-- A command of a tile's core moves on. -/
def markCmd (s : State) (t n : Nat) (st : CmdState) : State := s.onCmd t n fun x => { x with state := st }

/-! ### Issue of the status commands (R177, R207 steps 1 and 2) -/

/-- R109, R207 step 1: the check of a record at issue: alignment, one ward that holds all of it, and its permission r. -/
def checkRecord (c : Core) (va : BitVec 64) (align size : Nat) : Option (BitVec 8 × BitVec 64) :=
  match checkVas c.wards.toList [va] align false false with
  | some x => some x
  | none =>
    match findWard c.wards.toList va.toNat with
    | none => some (causeWardMiss, va)
    | some w => if !w.holds (va.toNat + size - 1) then some (causeWardMiss, va) else if w.pr then none else some (causeWardPerm, va)

/-- R206, R207: a status command joins the core's queue. -/
def Core.addCmd (c : Core) (k : CmdKind) (d : BitVec 5) (sa sb : BitVec 64) (w : Ward) : Core :=
  { c with
    cmds := c.cmds ++ [⟨c.cmdSerial, k, d, sa, sb, c.ctx, !c.mode, w, c.creelSeq, .queued, none, none⟩]
    cmdSerial := c.cmdSerial + 1 }

/-- R207 steps 1 and 2: the issue of a status command: its record check, and the limit of 16. -/
def issueAct (k : CmdKind) (d : BitVec 5) (sa sb : BitVec 64) (record : Option (BitVec 64 × Nat × Nat)) (s : State) : Act :=
  let c := s.tile.core
  let bad := match record with
    | some (va, align, size) => checkRecord c va align size
    | none => none
  match bad with
  | some (cause, v) => .trap cause v
  | none =>
    if 16 ≤ c.cmds.length then .stall .again s
    else
      let w := match record with
        | some (va, _, _) => (findWard c.wards.toList va.toNat).getD Ward.reset
        | none => Ward.reset
      .done (s.setCore (c.addCmd k d sa sb w))

/-- A guarded status command without further checks. -/
def statusInstr (word : Word) (k : CmdKind) (d : BitVec 5) (sa sb : Core → BitVec 64) (g : BitVec 4)
    (record : Core → Option (BitVec 64 × Nat × Nat)) (s : State) : Result :=
  seqInstr 6 word (s.tile.core.guard g)
    (fun s => issueAct k d (sa s.tile.core) (sb s.tile.core) (record s.tile.core) s) s

/-- R109, R177: the effect of CFG at issue. -/
def cfgAct (d : BitVec 5) (sa sb : BitVec 64) (s : State) : Act :=
  let c := s.tile.core
  if fld sa 0 2 ≠ 0 then .trap causeAlign sa
  else if sb = 0 ∨ 2 ^ 20 < sb.toNat then
    if 16 ≤ c.cmds.length then .stall .again s
    else
      let st : Status := ⟨0x04, 0, fld sb 0 32⟩
      .done (s.setCore ((c.addCmd .cfg d sa sb Ward.reset).takeStatus c.cmdSerial st false))
  else
    match findWard c.wards.toList sa.toNat with
    | none => .trap causeWardMiss sa
    | some w =>
      if w.vlimit.toNat * 65536 < sa.toNat + 4 * sb.toNat then
        .trap causeWardMiss (BitVec.ofNat 64 (w.vlimit.toNat * 65536))
      else if !w.pr then .trap causeWardPerm sa
      else if 16 ≤ c.cmds.length ∨ 8 ≤ (c.cmds.filter fun x => x.kind == .cfg).length then .stall .again s
      else .done (s.setCore (c.addCmd .cfg d sa sb w))

/-- R177: CFG. -/
def execCfg (d a b : BitVec 5) (g : BitVec 4) (s : State) : Result :=
  seqInstr 6 (48#6 ++ d ++ a ++ b ++ g ++ 0#7) (s.tile.core.guard g)
    (fun s => cfgAct d (s.tile.core.s a) (s.tile.core.s b) s) s

/-- R178: CFGW. -/
def execCfgw (d : BitVec 5) (g : BitVec 4) (s : State) : Result :=
  statusInstr (48#6 ++ d ++ 0#10 ++ g ++ 1#7) .cfgw d (fun _ => 0) (fun _ => 0) g (fun _ => none) s

/-- R213: DRN. -/
def execDrn (d a b : BitVec 5) (g : BitVec 4) (s : State) : Result :=
  statusInstr (49#6 ++ d ++ a ++ b ++ g ++ 2#7) .drn d (fun c => c.s a) (fun c => c.s b) g (fun _ => none) s

/-- R217, R219: a copy command; its record says whether it is a SLICE copy. -/
def cpyInstr (word : Word) (d a : BitVec 5) (g : BitVec 4) (s : State) : Result :=
  statusInstr word .cpy d (fun c => c.s a) (fun _ => 0) g (fun c => some (c.s a, 64, 128)) s

/-- R217: CPY. -/
def execCpy (d a : BitVec 5) (g : BitVec 4) (s : State) : Result :=
  cpyInstr (50#6 ++ d ++ a ++ 0#5 ++ g ++ 0#7) d a g s

/-- R219: CPY of a record of KIND 3. -/
def execCpySlice (d a : BitVec 5) (g : BitVec 4) (s : State) : Result :=
  cpyInstr (50#6 ++ d ++ a ++ 0#5 ++ g ++ 0#7) d a g s

/-- R221: CPYW. -/
def execCpyw (d : BitVec 5) (g : BitVec 4) (s : State) : Result :=
  statusInstr (50#6 ++ d ++ 0#10 ++ g ++ 1#7) .cpyw d (fun _ => 0) (fun _ => 0) g (fun _ => none) s

/-- R214: OCL. -/
def execOcl (d a : BitVec 5) (g : BitVec 4) (s : State) : Result :=
  statusInstr (51#6 ++ d ++ a ++ 0#5 ++ g ++ 0#7) .ocl d (fun c => c.s a) (fun _ => 0) g (fun _ => none) s

/-- R224: a hoop command; sa selects its operation. -/
def hoopInstr (word : Word) (d a b : BitVec 5) (g : BitVec 4) (s : State) : Result :=
  statusInstr word .hoop d (fun c => c.s a) (fun c => c.s b) g (fun _ => none) s

/-- R224: HOOP with sa naming ARRIVE. -/
def execHoopArrive (d a b : BitVec 5) (g : BitVec 4) (s : State) : Result :=
  hoopInstr (52#6 ++ d ++ a ++ b ++ g ++ 0#7) d a b g s

/-- R224: HOOP with sa naming ARM. -/
def execHoopArm (d a b : BitVec 5) (g : BitVec 4) (s : State) : Result :=
  hoopInstr (52#6 ++ d ++ a ++ b ++ g ++ 0#7) d a b g s

/-- R224: HOOP with sa naming QUERY. -/
def execHoopQuery (d a b : BitVec 5) (g : BitVec 4) (s : State) : Result :=
  hoopInstr (52#6 ++ d ++ a ++ b ++ g ++ 0#7) d a b g s

/-- R227: PUB. -/
def execPub (d a : BitVec 5) (g : BitVec 4) (s : State) : Result :=
  statusInstr (52#6 ++ d ++ a ++ 0#5 ++ g ++ 1#7) .pub d (fun c => c.s a) (fun _ => 0) g (fun _ => none) s

/-- R222: PLE. -/
def execPle (d a : BitVec 5) (g : BitVec 4) (s : State) : Result :=
  statusInstr (53#6 ++ d ++ a ++ 0#5 ++ g ++ 0#7) .ple d (fun c => c.s a) (fun _ => 0) g
    (fun c => some (c.s a, 64, 64)) s

/-- A status command that only supervisor mode may issue (R31). -/
def privStatusInstr (word : Word) (k : CmdKind) (d : BitVec 5) (sa sb : Core → BitVec 64) (g : BitVec 4)
    (record : Core → Option (BitVec 64 × Nat × Nat)) (s : State) : Result :=
  privInstr word (statusInstr word k d sa sb g record) s

/-- R232: MIG. -/
def execMig (d a : BitVec 5) (g : BitVec 4) (s : State) : Result :=
  privStatusInstr (53#6 ++ d ++ a ++ 0#5 ++ g ++ 1#7) .mig d (fun c => c.s a) (fun _ => 0) g (fun _ => none) s

/-- R233: MIG.sp. -/
def execMigSp (d a : BitVec 5) (g : BitVec 4) (s : State) : Result :=
  privStatusInstr (53#6 ++ d ++ a ++ 0#5 ++ g ++ 2#7) .migSp d (fun c => c.s a) (fun _ => 0) g (fun _ => none) s

/-- R234: HSPLIT. -/
def execHsplit (d a b : BitVec 5) (g : BitVec 4) (s : State) : Result :=
  privStatusInstr (53#6 ++ d ++ a ++ b ++ g ++ 3#7) .hsplit d (fun c => c.s a) (fun c => c.s b) g (fun _ => none) s

/-- R230: PTEW. -/
def execPtew (d a b : BitVec 5) (g : BitVec 4) (s : State) : Result :=
  privStatusInstr (54#6 ++ d ++ a ++ b ++ g ++ 0#7) .ptew d (fun c => c.s a) (fun c => c.s b) g
    (fun c => some (c.s b, 16, 16)) s

/-- R230: PTECAS. -/
def execPtecas (d a b : BitVec 5) (g : BitVec 4) (s : State) : Result :=
  privStatusInstr (54#6 ++ d ++ a ++ b ++ g ++ 1#7) .ptecas d (fun c => c.s a) (fun c => c.s b) g
    (fun c => some (c.s b, 32, 32)) s

/-- R231: PINV. -/
def execPinv (d a : BitVec 5) (g : BitVec 4) (s : State) : Result :=
  privStatusInstr (54#6 ++ d ++ a ++ 0#5 ++ g ++ 2#7) .pinv d (fun c => c.s a) (fun _ => 0) g (fun _ => none) s

end Sys2Proof.Machine
end

