-- ==== Sys2Proof/Machine/Hoops.lean ====
section
/-! DEFINITION. Hoops and keys: grants, arrivals, the opening and the abandoning of a hoop, the byte counter, and the flip of a key
(R223 to R228, R382). -/

namespace Sys2Proof.Machine

/-! ### Grants (R223, R226, R370) -/

/-- R370: HOOPS of the bind record. -/
def Graph.holdsHoop (g : Graph) (h : Nat) : Bool := g.record.getLsbD (128 + h)

/-- R370: KEYS of the bind record. -/
def Graph.holdsKey (g : Graph) (k : Nat) : Bool := g.record.getLsbD (512 + k)

/-- Whether the graph of a command holds a hoop. -/
def State.cmdHoldsHoop (s : State) (t n h : Nat) : Bool := (s.cmdGraph t n).any fun g => g.holdsHoop h

/-- Whether the graph of a command holds a key. -/
def State.cmdHoldsKey (s : State) (t n k : Nat) : Bool := (s.cmdGraph t n).any fun g => g.holdsKey k

/-! ### Hoops (R223 to R225) -/

/-- A hoop by number. -/
def State.hoop (s : State) (h : Nat) : Hoop := s.hoops.toList.getD h Hoop.reset

/-- A hoop replaced. -/
def State.putHoop (s : State) (h : Nat) (x : Hoop) : State := { s with hoops := s.hoops.setIfInBounds h x }

/-- R224: the condition in which a hoop opens. -/
def Hoop.ready (x : Hoop) : Bool := x.p != 0 && x.arrivals.length == x.p.toNat && x.bytes == 0

/-- R224: a hoop that is ready opens next. -/
def State.pokeHoop (s : State) (h : Nat) : State :=
  if (s.hoop h).ready then { s with agenda := s.agenda ++ [.hoopOpen h] } else s

/-- R224: one more arrival; beyond P it belongs to the next superstep. -/
def Hoop.arrive (x : Hoop) (a : Arrival) : Hoop :=
  if x.p.toNat ≤ x.arrivals.length then { x with early := x.early ++ [a] } else { x with arrivals := x.arrivals ++ [a] }

/-- R224: an arrival at a hoop. -/
def State.arriveHoop (s : State) (h : Nat) (a : Arrival) : State :=
  (s.putHoop h ((s.hoop h).arrive a)).pokeHoop h

/-- R225: bytes leave the counter. -/
def State.countDown (s : State) (h n : Nat) : State :=
  let x := s.hoop h
  (s.putHoop h { x with bytes := BitVec.ofNat 36 (x.bytes.toNat - n) }).pokeHoop h

/-- R224, R324: what an arrival is told as its hoop opens or is abandoned: a command its status, another module its answer. -/
def tellArrival (st : Status) (body : Nat → PacketBody) (s : State) (a : Arrival) : State :=
  match a with
  | .cmd ref => landStatus s ref st
  | .engine => s
  | .remote p => answerPacket s p (body (bodyId p.body))

/-- R224, R324: HOOP_OPEN: G rises, the superstep's statuses land, and the early arrivals are counted. -/
def execHoopOpen (h : Nat) (s : State) : Result :=
  let x := s.hoop h
  if x.ready then
    let g := x.g + 1
    let s := s.putHoop h { x with
      g := g, arrivals := x.early.take x.p.toNat, early := x.early.drop x.p.toNat }
    .next ((x.arrivals.foldl (tellArrival (Status.ok g.toNat) fun id => .ack id 0) s).pokeHoop h)
  else .next s

/-- R224: HOOP_ABANDON: every pending arrival lands ABORTED, and the hoop returns to its reset state. -/
def execHoopAbandon (h : Nat) (s : State) : Result :=
  let x := s.hoop h
  .next ((x.arrivals ++ x.early).foldl (tellArrival (Status.aborted 0) .aborted) (s.putHoop h Hoop.reset))

/-! ### Keys (R226 to R228) -/

/-- A key by number. -/
def State.key (s : State) (k : Nat) : Key := sparseGet Key.reset s.keys k

/-- A key replaced. -/
def State.putKey (s : State) (k : Nat) (x : Key) : State := { s with keys := sparsePut Key.reset s.keys k x }

/-- R227: T is set once no keyed work is waited for. -/
def Key.settle (x : Key) (time : BitVec 64) : Key :=
  if x.pending.isSome && x.waits.isEmpty && x.flip.isNone then { x with flip := some (time + 2000) } else x

/-- R227: a PUB reaches the key; `work` is the keyed work that it waits for. -/
def Key.publish (x : Key) (ref : CmdRef) (work : List CmdRef) (time : BitVec 64) : Key :=
  { x with pending := some ref, waits := work }.settle time

/-- R227: keyed work has completed. -/
def State.keyWorkDone (s : State) (k : Nat) (ref : CmdRef) : State :=
  let x := s.key k
  s.putKey k ({ x with waits := x.waits.filter fun y => y != ref }.settle s.time)

/-- R228: whether a KEYEN write waits for a pending flip. Work that the PUB itself waits for goes on. -/
def Key.holdsWrite (x : Key) (ref : CmdRef) : Bool :=
  x.pending.isSome && (x.flip.isSome || !x.waits.contains ref)

/-- R227: KEY_FLIP: at T the parity turns and the PUB's status lands. -/
def execKeyFlip (k : Nat) (s : State) : Result :=
  let x := s.key k
  match x.pending, x.flip with
  | some ref, some t =>
    if t.ule s.time then
      .next (landStatus (s.putKey k ⟨!x.parity, none, [], none⟩) ref (Status.ok (fld t 0 32).toNat))
    else .next s
  | _, _ => .next s

end Sys2Proof.Machine
end

