-- ==== Sys2Proof/Machine/Copies.lean ====
section
/-! DEFINITION. Copies: the copy record and its checks, the walk, line writes, the creel of an engine, and completion (R217 to
R221, R225, R275 to R282, R284 to R290, R322). -/

namespace Sys2Proof.Machine

/-! ### Remote reads of engines, encoders, commands and roots (R326) -/

/-- The answer of another module to a read of a line, where it has come; else the request, sent once. -/
def remoteLine (s : State) (who : Issuer) (ctx : BitVec 16) (dest : BitVec 14) (ia len : Nat) : Option RemoteAnswer × State :=
  match s.island.arrived.find? fun x => x.1 == who && x.2.1 == ia with
  | some x => (some x.2.2, s)
  | none =>
    if s.island.remotes.any fun r => r.who == who && r.ia == ia && !r.store then (none, s)
    else (none, sendRequest s who ctx dest ia false [] fun id => .read id ia len)

/-- The answers to an issuer's reads have been used. -/
def dropArrived (s : State) (who : Issuer) : State :=
  { s with island := { s.island with arrived := s.island.arrived.filter fun x => x.1 != who } }

/-! ### Reads of an engine -/

/-- What a read of an engine, an encoder, a command or a root gives: its value, its failure as a status, the page it waits for
with its IA, or another wait. -/
inductive Fetched where
  | got (v : Nat) (s : State)
  | failed (st : Status) (s : State)
  | unmapped (page ia : Nat) (s : State)
  | wait (s : State)

/-- DETAIL of an address: bits [43:12] (R209). -/
def detailOf (a : Nat) : Nat := a / 4096 % 2 ^ 32

/-- R286, R319, R320: whether a read of some lines waits for writes of its issuer. -/
def Engine.readWaits (en : Engine) (dest : Option (BitVec 14)) (lines : List Nat) (attr : BitVec 2) : Bool :=
  creelHolds en.creel dest lines (attr == 0) ||
  en.owedRemote.any fun x => (attr != 2 && x.entry.meets dest lines) || (attr == 0 && x.entry.attr == 0)

/-- R217, R309, R326: a read of `n` bytes within one line through wards, by an issuer whose creel and attribute cache are those of
`en`; the reply's attribute is handed on. -/
def engineRead (s : State) (who : Issuer) (ctx : BitVec 16) (wards : List Ward) (en : Engine) (super : Bool) (va n : Nat) :
    Fetched × Option (Nat × BitVec 2) :=
  match findWard wards va with
  | none => (.failed (.refused 1 (detailOf va)) s, none)
  | some w =>
    if !w.pr then (.failed (.refused 1 (detailOf va)) s, none)
    else
      let ia := w.ia va
      let attr := attrOf en.attrs (pageKey w.dest ia)
      if w.isRemote then
        if en.readWaits w.dest [ia / 64] attr then (.wait s, none)
        else
          match remoteLine s who ctx w.modnum ia n with
          | (some (.value v), s') => (.got v s', none)
          | (some (.failed st), s') => (.failed st s', none)
          | (none, s') => (.wait s', none)
      else if en.readWaits none (loadLines s ia) attr then (.wait s, none)
      else if s.recalls (loadLines s ia) then (.wait (recallLines s (loadLines s ia)), none)
      else
        match hubLoad s ia n (Access.loads super) with
        | .value v attr s' => (.got v s', some (ia / 65536, attr))
        | .unmapped p => (.unmapped p ia s, none)
        | .refused r => (.failed (.refused r (detailOf ia)) s, none)
        | .poisoned s' => (.failed (.poison (detailOf ia)) s', none)

/-! ### Engines -/

/-- An engine of a hub. -/
def State.engine (s : State) (hub e : Nat) : Engine := (getHub s hub).engines.toList.getD e Engine.reset

/-- An engine replaced. -/
def State.putEngine (s : State) (hub e : Nat) (x : Engine) : State :=
  let h := getHub s hub
  putHub s hub { h with engines := h.engines.setIfInBounds e x }

/-- The copy that an engine runs, replaced. -/
def Engine.putHead (x : Engine) (c : Copy) : Engine :=
  match x.queue with
  | [] => x
  | _ :: rest => { x with queue := c :: rest }

/-! ### Shapes (R277 to R279) -/

/-- A field of a copy record, by byte offset, low bit and width. -/
def rec {n : Nat} (r : BitVec n) (off lo len : Nat) : Nat := (fld r (8 * off + lo) len).toNat

/-- A tensor shape. An E2M1 shape counts pairs of elements, which are whole bytes. -/
structure Shape where
  om : Bool
  base : Nat
  elem : Nat
  size : Nat
  rm : BitVec 3
  ov : BitVec 2
  n0 : Nat
  n1 : Nat
  n2 : Nat
  s1 : Int
  s2 : Int
  l0 : Nat
  l1 : Nat
  l2 : Nat
  deriving DecidableEq, Repr

/-- R278: bytes of an element, those of E2M1 taken in pairs. -/
def elemSize (fmt : Nat) : Nat := if 10 ≤ fmt then 1 else if fmt = 5 then 1 else elemBits fmt / 8

/-- R279: a limit of 0 is the count, and one above it acts as the count. -/
def limitOf (l n : Nat) : Nat := if l = 0 then n else min l n

/-- R277: the shape at an offset of a record. -/
def shapeAt {n : Nat} (r : BitVec n) (o : Nat) (om : Bool) : Shape :=
  let fmt := rec r (o + 8) 0 4
  let half (x : Nat) : Nat := if fmt = 5 then x / 2 else x
  let n0 := half (rec r (o + 12) 0 24)
  let n1 := rec r (o + 16) 0 16
  let n2 := rec r (o + 20) 0 16
  { om, base := rec r o 0 64, elem := fmt, size := elemSize fmt, rm := BitVec.ofNat 3 (rec r (o + 8) 4 3)
    ov := BitVec.ofNat 2 (rec r (o + 8) 7 2), n0, n1, n2
    s1 := (fld r (8 * (o + 24)) 64).toInt, s2 := (fld r (8 * (o + 32)) 64).toInt
    l0 := limitOf (half (rec r (o + 40) 0 24)) n0, l1 := limitOf (rec r (o + 44) 0 16) n1
    l2 := limitOf (rec r (o + 44) 16 16) n2 }

/-- The address of BASE in its own space: the offset in its slot, or the VA. -/
def Shape.offset (x : Shape) : Nat := if x.om then x.base % 65536 else x.base

/-- The slot of an operand memory endpoint. -/
def Shape.slot (x : Shape) : Nat := x.base / 65536 % 256

/-- Bytes relative to BASE of element (i0, i1, i2). -/
def Shape.rel (x : Shape) (i0 i1 i2 : Nat) : Int := (i0 * x.size : Nat) + i1 * x.s1 + i2 * x.s2

/-- The least and the last byte that a shape's elements take. -/
def Shape.span (x : Shape) : Int × Int :=
  let lo (n : Nat) (s : Int) : Int := min 0 ((n - 1 : Nat) * s)
  let hi (n : Nat) (s : Int) : Int := max 0 ((n - 1 : Nat) * s)
  (x.offset + lo x.n1 x.s1 + lo x.n2 x.s2, x.offset + (x.n0 * x.size : Nat) - 1 + hi x.n1 x.s1 + hi x.n2 x.s2)

/-- The first offset in a list whose test says that its field fails. -/
def firstBad : List (Bool × Nat) → Option Nat
  | [] => none
  | (b, o) :: r => if b then some o else firstBad r

/-- R277, R278: the first field of the shape at an offset that fails, field by field, and last the addresses; `counts` are the N0,
N1 and N2 that it must equal (assumption 16). -/
def shapeBad {n : Nat} (r : BitVec n) (o : Nat) (om source : Bool) (counts : Option (Nat × Nat × Nat)) : Option Nat :=
  let x := shapeAt r o om
  let e2m1 := x.elem == 5
  let differs (f : Nat × Nat × Nat → Nat) (k : Nat) : Bool := counts.any fun c => f c != k
  let sp := x.span
  let top : Int := if om then 65535 else 2 ^ 48 - 1
  firstBad [
    (decide ((if om then 2 ^ 24 else 2 ^ 48) ≤ x.base) || x.offset % x.size != 0, o),
    (rec r (o + 8) 9 23 != 0 || (source && rec r (o + 8) 4 5 != 0) || decide (4 < x.rm.toNat) || x.ov == 3, o + 8),
    (rec r (o + 12) 24 8 != 0 || rec r (o + 12) 0 24 == 0 || (e2m1 && rec r (o + 12) 0 1 != 0) ||
      differs Prod.fst (rec r (o + 12) 0 24), o + 12),
    (rec r (o + 16) 16 16 != 0 || x.n1 == 0 || differs (fun c => c.2.1) x.n1, o + 16),
    (rec r (o + 20) 16 16 != 0 || x.n2 == 0 || differs (fun c => c.2.2) x.n2, o + 20),
    (x.s1 % (x.size : Int) != 0, o + 24),
    (x.s2 % (x.size : Int) != 0, o + 32),
    (rec r (o + 40) 24 8 != 0 || (e2m1 && rec r (o + 40) 0 1 != 0), o + 40),
    (decide (sp.1 < 0 ∨ top < sp.2), o)]

/-! ### The copy record (R217, R219, R278, R280, R281) -/

/-- KIND. -/
def copyKind (r : BitVec 1024) : Nat := rec r 0 0 3
/-- ENG. -/
def copyEng (r : BitVec 1024) : Nat := rec r 0 8 4
/-- MODE. -/
def copyMode (r : BitVec 1024) : Nat := rec r 0 12 2
/-- ARRIVE. -/
def copyArrive (r : BitVec 1024) : Bool := r.getLsbD 14
/-- HOOPEN. -/
def copyHoopen (r : BitVec 1024) : Bool := r.getLsbD 15
/-- HOOP. -/
def copyHoop (r : BitVec 1024) : Nat := rec r 0 16 6
/-- KEY, where KEYEN is set. -/
def copyKey (r : BitVec 1024) : Option (BitVec 8) := if r.getLsbD 40 then some (fld r 32 8) else none
/-- CMPL. -/
def copyCmpl (r : BitVec 1024) : Nat := rec r 16 0 64
/-- Whether the destination is operand memory. -/
def copyDstOm (r : BitVec 1024) : Bool := copyKind r == 1 || copyKind r == 3
/-- Whether the source is operand memory. -/
def copySrcOm (r : BitVec 1024) : Bool := copyKind r == 2
/-- The source shape. -/
def copySrc (r : BitVec 1024) : Shape := shapeAt r 32 (copySrcOm r)
/-- The destination shape. -/
def copyDst (r : BitVec 1024) : Shape := shapeAt r 80 (copyDstOm r)
/-- SEG of a SLICE copy. -/
def sliceSeg (r : BitVec 1024) : Nat := rec r 32 0 64
/-- I0 of a SLICE copy. -/
def sliceFirst (r : BitVec 1024) : Nat := rec r 40 0 32
/-- NS of a SLICE copy. -/
def sliceCount (r : BitVec 1024) : Nat := rec r 44 0 32

/-- R217: the tile of the operand memory endpoint in a bound rectangle, where the word at +8 is in order. -/
def copyTile (g : Graph) (r : BitVec 1024) : Option Nat :=
  let w := fld r 64 32
  if w &&& 0xFFFEC0C0 ≠ 0 then none
  else
    let col := (fld w 0 6).toNat + (if w.getLsbD 16 then g.tcol0 else 0)
    let row := (fld w 8 6).toNat + (if w.getLsbD 16 then g.trow0 else 0)
    if g.trow0 ≤ row ∧ row < g.trow0 + g.trows ∧ g.tcol0 ≤ col ∧ col < g.tcol0 + g.tcols then some (tileNum row col) else none

/-- R280: the formats that a copy converts between. -/
def copyFloat (fmt : Nat) : Bool := decide (fmt ≤ 4)

/-- R281: the destination format that a MODE requires. -/
def modeElem (mode : Nat) : Nat := if mode = 1 then 0 else if mode = 2 then 2 else 9

/-- R280, R281: whether the formats and the mode go together. -/
def copyFormatsOk (mode src dst : Nat) : Bool :=
  (src == dst || (copyFloat src && copyFloat dst)) && (mode == 0 || (dst == modeElem mode && (mode != 3 || src == 9)))

/-- R217, R219, R278, R280, R281: the first field of a copy record that fails, as a byte offset; `g` is the issuer's graph. -/
def copyBad (g : Graph) (r : BitVec 1024) : Option Nat :=
  let kind := copyKind r
  let src := copySrc r
  let dst := copyDst r
  let head := firstBad [
    (decide (3 < kind) || rec r 0 3 5 != 0 || rec r 0 22 10 != 0 || decide (12 ≤ copyEng r ∧ copyEng r ≤ 14) ||
      (copyMode r != 0 && copyDstOm r), 0),
    (rec r 4 9 23 != 0, 4),
    (if kind = 0 then rec r 8 0 32 != 0 else (copyTile g r).isNone, 8),
    (rec r 12 0 32 != 0, 12),
    (copyCmpl r % 8 != 0 || decide (2 ^ 48 ≤ copyCmpl r), 16),
    (rec r 24 0 64 != 0, 24)]
  match head with
  | some o => some o
  | none =>
    if kind = 3 then
      match firstBad [
        (sliceSeg r % 16 != 0 || decide (2 ^ 48 ≤ sliceSeg r), 32),
        (sliceFirst r % 16 != 0, 40),
        (decide (sliceCount r = 0 ∨ 65536 < sliceCount r), 44),
        (fld r (8 * 48) 256 != 0, 48)] with
      | some o => some o
      | none =>
        match shapeBad r 80 true false none with
        | some o => some o
        | none => if 65536 < dst.offset + 64 * sliceCount r then some 80 else none
    else
      match shapeBad r 32 (copySrcOm r) true none with
      | some o => some o
      | none =>
        match shapeBad r 80 (copyDstOm r) false (some (rec r 44 0 24, src.n1, src.n2)) with
        | some o => some o
        | none => firstBad [(!copyFormatsOk (copyMode r) src.elem dst.elem, 88)]

/-- R348: a copy whose line writes a PLAIT range accepts. -/
def copyRaw (r : BitVec 1024) : Bool := copyMode r == 0 && (copySrc r).elem == (copyDst r).elem

/-- R218, R225: the destination bytes of a copy. -/
def copyBytes (r : BitVec 1024) : Nat :=
  if copyKind r = 3 then 64 * sliceCount r
  else
    let d := copyDst r
    d.l0 * d.l1 * d.l2 * d.size

/-- The number of elements or slices that a copy walks. -/
def copyLength (r : BitVec 1024) : Nat :=
  if copyKind r = 3 then sliceCount r
  else
    let d := copyDst r
    d.n0 * d.n1 * d.n2

/-- The first VA of the VA endpoint (R217 ENG). -/
def copyFirstVa (r : BitVec 1024) : Nat :=
  match copyKind r with
  | 2 => (copyDst r).base
  | 3 => sliceSeg r
  | _ => (copySrc r).base

/-- R217: the hub of a copy, or that its first VA cannot be translated. -/
def copyHub (wards : List Ward) (r : BitVec 1024) : Option Nat :=
  if copyEng r < 12 then some (copyEng r)
  else
    match findWard wards (copyFirstVa r) with
    | none => none
    | some w => if w.grants (copyKind r != 2) (copyKind r == 2) then some (homeHub (w.ia (copyFirstVa r) / 65536)) else none

/-- R226: the keyed work in progress that names a key. -/
def State.keyedWork (s : State) (k : BitVec 8) : List CmdRef :=
  s.hubs.toList.flatMap fun h =>
    (h.engines.toList.flatMap fun e => e.queue.filterMap fun c => if copyKey c.record = some k then some c.ref else none) ++
    h.encodings.filterMap fun x => if fld x.record (8 * 28) 9 = 256 + k.setWidth 9 then some x.ref else none

/-- What the start of a copy comes to: a status at once, the wait for a place in the queue, or the engine's acceptance. -/
inductive CopyStart where
  | ends (st : Status)
  | full
  | accepted (s : State)

/-- R217, R220, R223, R225, R226: a copy of a core meets its engine. -/
def startCopy (s : State) (t n : Nat) (r : BitVec 1024) : CopyStart :=
  let c := s.cmdCore t n
  let g := (s.cmdGraph t n).getD Graph.empty
  let wards := c.wards.toList
  let slot := if copySrcOm r then (copySrc r).slot else (copyDst r).slot
  let tile := if copyKind r = 0 then 0 else (copyTile g r).getD 0
  let hoopNamed := copyHoopen r || copyArrive r
  match copyBad g r with
  | some o => .ends (.badRec o)
  | none =>
    if copyKind r ≠ 0 ∧ (s.getTile tile).owns slot c.ctx = false then .ends (.refused 6 slot)
    else if (copyKey r).any fun k => !g.holdsKey k.toNat then .ends (.refused 7 (rec r 4 0 8))
    else if hoopNamed && (!g.holdsHoop (copyHoop r) || (s.hoop (copyHoop r)).p == 0) then .ends (.refused 8 (copyHoop r))
    else
      match copyHub wards r with
      | none => .ends (.refused 1 (detailOf (copyFirstVa r)))
      | some hub =>
        let e := t % 4
        let x := s.engine hub e
        if 32 ≤ x.queue.length then .full
        else
          let h := s.hoop (copyHoop r)
          if copyHoopen r && decide (2 ^ 36 ≤ h.bytes.toNat + copyBytes r) then .ends ⟨0x18, 0, BitVec.ofNat 32 (copyHoop r)⟩
          else
            let job : Copy := ⟨⟨t, n⟩, r, wards, c.ctx, g.slot, tile, 0, 0, if copyHoopen r then copyBytes r else 0, [], none, none,
              none, false⟩
            let s := s.putEngine hub e { x with queue := x.queue ++ [job] }
            let s := if copyHoopen r then s.putHoop (copyHoop r) { h with bytes := h.bytes + BitVec.ofNat 36 (copyBytes r) } else s
            .accepted (if x.queue.isEmpty then { s with hubq := s.hubq ++ [.copyStep hub e] } else s)

/-! ### Elements (R278 to R280, R282) -/

/-- R278: the index of the k-th element of a walk. -/
def walkIndex (x : Shape) (k : Nat) : Nat × Nat × Nat := (k % x.n0, k / x.n0 % x.n1, k / x.n0 / x.n1)

/-- R279: whether an index is inside a shape. -/
def Shape.inside (x : Shape) (i : Nat × Nat × Nat) : Bool := decide (i.1 < x.l0 ∧ i.2.1 < x.l1 ∧ i.2.2 < x.l2)

/-- The byte address of an index: a VA, or X of operand memory (R216). -/
def Shape.addr (x : Shape) (i : Nat × Nat × Nat) : Nat :=
  let a := ((x.offset : Int) + x.rel i.1 i.2.1 i.2.2).toNat
  if x.om then x.slot * 65536 + a else a

/-- R282: of an element that the copy itself has already overwritten, the old value or the present one, as a free choice. -/
def overlapValue (s : State) (before : List (Nat × Byte)) (ia n v : Nat) : Nat × State :=
  if (List.range n).any fun k => (assocGet before (ia + k)).isSome then
    let s' := { s with free := s.free + 1 }
    if Config.overlapOld s.free then
      (natOfBytes ((List.range n).map fun k => (assocGet before (ia + k)).getD (BitVec.ofNat 8 (v >>> (8 * k)))), s')
    else (v, s')
  else (v, s)

/-- R280: an element converted to the destination format. -/
def convertCopied (src dst : Shape) (v : Nat) : Nat :=
  if src.elem = dst.elem then v
  else
    (convertVal dst.elem (Rounding.ofCode dst.rm.toNat) (Overflow.ofCode dst.ov) false 0 (decodeFloat src.elem v)).bits

/-- R276, R279: the source element at an index. -/
def readElement (s : State) (who : Issuer) (c : Copy) (e : Engine) (i : Nat × Nat × Nat) : Fetched × Option (Nat × BitVec 2) :=
  let x := copySrc c.record
  if !x.inside i then (.got 0 s, none)
  else if x.om then
    if s.omPoisoned c.tile (x.addr i) then (.failed (.poison 0) s, none)
    else (.got (readBytes s.mem (omLoc c.tile (x.addr i)) x.size) (s.omReadWord c.tile (x.addr i)), none)
  else
    match engineRead s who c.ctx c.wards e false (x.addr i) x.size with
    | (.got v s', a) =>
      let ia := ((findWard c.wards (x.addr i)).getD Ward.reset).ia (x.addr i)
      let (v, s') := overlapValue s' c.before ia x.size v
      (.got v s', a)
    | r => r

/-- A line write in the making: its line address in the destination's space, byte mask, data and the elements walked. -/
structure Gather where
  line : Option Nat
  mask : BitVec 64
  data : Line
  next : Nat
  attrs : List (Nat × BitVec 2)
  deriving DecidableEq, Repr

/-- R281, R282: gathers the elements of one destination line, from element `g.next` on; it stops at another line, before an element
that adds to bytes already gathered, or at an element that does not give its value. An element that stops it first is handed on. -/
def gatherLine (who : Issuer) (c : Copy) (e : Engine) (total : Nat) : Nat → Gather → State → Gather × Option Fetched × State
  | 0, g, s => (g, none, s)
  | fuel + 1, g, s =>
    if total ≤ g.next then (g, none, s)
    else
      let d := copyDst c.record
      let i := walkIndex d g.next
      if !d.inside i then gatherLine who c e total fuel { g with next := g.next + 1 } s
      else
        let a := d.addr i
        if (g.line.any fun l => l != a / 64) || (copyMode c.record != 0 && g.mask &&& byteMask a d.size != 0) then (g, none, s)
        else
          match readElement s who c { e with attrs := g.attrs } i with
          | (.got v s', at?) =>
            let v := convertCopied (copySrc c.record) d v
            let attrs := match at? with
              | some (p, x) => seeAttr g.attrs p x
              | none => g.attrs
            gatherLine who c e total fuel
              ⟨some (a / 64), g.mask ||| byteMask a d.size, (g.data &&& ~~~byteData a d.size (2 ^ (8 * d.size) - 1)) |||
                byteData a d.size v, g.next + 1, attrs⟩ s'
          | (x, _) => (g, some x, s)

/-! ### Line writes (R225, R226, R228, R282, R285) -/

/-- What a line write of an engine comes to. -/
inductive Written where
  /-- performed, sent to another module or placed in the creel, where `counts` says whether its bytes have landed -/
  | done (counts : Bool) (s : State)
  | failed (st : Status) (s : State)
  | wait (s : State)

/-- A line write of an engine or an encoder, through the engine's creel. -/
structure LineWrite where
  va : Nat
  op : BitVec 3
  rel : Bool
  mask : BitVec 64
  data : Line
  key : Option (BitVec 8)
  hoop : Option (BitVec 6)
  plait : Bool
  deriving DecidableEq, Repr

/-- The entry of a line write of a job of context `ctx` (R288). -/
def Engine.entryOf (en : Engine) (w : Ward) (ctx : BitVec 16) (ref : CmdRef) (x : LineWrite) : CreelEntry :=
  { ia := BitVec.ofNat 44 (w.ia x.va / 64 * 64)
    op := x.op
    scope := w.scope
    attr := attrOf en.attrs (pageKey w.dest (w.ia x.va))
    ord := false
    state := .pending
    mask := x.mask
    ctx := ctx
    out := 0
    seq := 0
    data := x.data
    key := x.key
    hoop := x.hoop
    ref := some ref
    dest := w.dest }

/-- R288: an entry takes its place in an engine's creel. -/
def Engine.pushEntry (en : Engine) (e : CreelEntry) : Engine :=
  { en with creel := en.creel ++ [{ e with seq := en.creelSeq }], creelSeq := en.creelSeq + 1 }

/-- R285: the entries in use and those reserved fill the 256 of an engine. -/
def Engine.full (en : Engine) : Bool := decide (256 ≤ en.creel.length + en.owedRemote.length)

/-- R319, R320: whether a write of an engine waits for its writes on their way to other modules: behind an SO write where it is
ordered as SO, behind one to its own line, and, as a release, behind all. -/
def Engine.writeWaits (en : Engine) (e : CreelEntry) (rel : Bool) : Bool :=
  en.owedRemote.any fun x => rel || (e.attr == 0 && x.entry.attr == 0) || (e.attr != 2 && x.entry.meets e.dest [e.ia.toNat / 64])

/-- R217, R228, R285, R287, R326: a line write of a job of context `ctx` on engine `e` of a hub; `who` is the engine or the encoder. -/
def engineWrite (s : State) (who : Issuer) (hub e : Nat) (ctx : BitVec 16) (wards : List Ward) (ref : CmdRef) (x : LineWrite) :
    Written :=
  match findWard wards x.va with
  | none => .failed (.refused 1 (detailOf x.va)) s
  | some w =>
    let ia := w.ia x.va
    let en := s.engine hub e
    let y := en.entryOf w ctx ref x
    let a : Access := { Access.stores with key := x.key, plait := x.plait }
    if !w.pw then .failed (.refused 1 (detailOf x.va)) s
    else if x.key.any fun k => (s.key k.toNat).holdsWrite ref then .wait s
    else if w.isRemote && x.key.isSome then .failed (.refused 7 (detailOf ia)) s
    else if en.full || en.writeWaits y x.rel then .wait s
    else if !w.isRemote && s.reducesHeld x.op (ia / 64) then .wait (recallLines s [ia / 64])
    else
      match creelGate en.creel y.pageKey (y.attr == 0) x.rel with
      | some ord => .done false (s.putEngine hub e (en.pushEntry { y with ord := ord }))
      | none =>
        if w.isRemote then
          .done false (sendRequest (s.putEngine hub e { en with owedRemote := en.owedRemote ++ [⟨s.island.pktId, y, false⟩] }) who ctx
            w.modnum y.failIa.toNat true [] fun id => .write id y.ia.toNat x.op x.mask x.data x.plait)
        else
          match performWrite s y.ia.toNat x.mask (fullLine x.op x.mask) a (combineLine x.op.toNat x.data.toNat) with
          | .done attr s' =>
            let en := s'.engine hub e
            .done true (s'.putEngine hub e { en with attrs := seeAttr en.attrs (ia / 65536) attr })
          | .unmapped p =>
            let s' := addNotice (discardStale s ia a) p who ctx 1 ia
            .done false (s'.putEngine hub e ((s'.engine hub e).pushEntry y))
          | .refused r => .failed (.refused r (detailOf ia)) (discardStale s ia a)
          | .poisoned s' => .failed (.poison (detailOf ia)) s'

/-- R281: the operation of a MODE, as a creel entry names it. -/
def modeOp (mode : Nat) : BitVec 3 := if mode = 1 then 2 else if mode = 2 then 3 else if mode = 3 then 1 else 0

/-! ### Steps of a copy -/

/-- R218: whether writes of a command have not ended: entries, or writes on their way to other modules. -/
def Engine.owes (x : Engine) (ref : CmdRef) : Bool :=
  (x.creel.any fun y => y.ref == some ref) || x.owedRemote.any fun y => y.entry.ref == some ref

/-- R218: the copy has ended with a status once its entries and its writes elsewhere have. -/
def settleCopy (s : State) (hub e : Nat) : State :=
  let x := s.engine hub e
  match x.queue with
  | c :: _ =>
    if c.status.isSome && !x.owes c.ref then
      { s with agenda := s.agenda ++ [.copyComplete hub e] }
    else s
  | [] => s

/-- The copy's outcome is decided. -/
def endCopy (s : State) (hub e : Nat) (st : Status) : State :=
  let x := s.engine hub e
  match x.queue with
  | c :: _ => settleCopy (s.putEngine hub e (x.putHead { c with status := some (c.status.getD st) })) hub e
  | [] => s

/-- R218: OK with the bytes written, saturating. -/
def copyOk (c : Copy) : Status := .ok (min c.bytes 0xFFFFFFFF)

/-- What the source VA's elements span, where the copy reads and writes IA space (R282). -/
def selfOverlap (r : BitVec 1024) (va : Nat) : Bool :=
  copyKind r == 0 && (let sp := (copySrc r).span; decide (sp.1 ≤ (va / 64 * 64 + 63 : Nat) ∧ ((va / 64 * 64 : Nat) : Int) ≤ sp.2))

/-- The bytes that a line write is about to replace (R282), those replaced before kept. -/
def rememberLine (s : State) (c : Copy) (va : Nat) (mask : BitVec 64) : List (Nat × Byte) :=
  match findWard c.wards va with
  | none => c.before
  | some w =>
    let base := w.ia va / 64 * 64
    match hubAccess s base (Access.loads false) with
    | .at loc _ _ =>
      (List.range 64).foldl (fun l k =>
        if mask.getLsbD k && (assocGet l (base + k)).isNone then l ++ [(base + k, readByte s.mem (loc + k))] else l) c.before
    | _ => c.before

/-- A copy that waits on its engine is polled again. -/
def requeueCopy (s : State) (hub e : Nat) : State :=
  if s.hubq.contains (.copyStep hub e) then s else { s with hubq := s.hubq ++ [.copyStep hub e] }

/-- A read that did not give its value, as the copy meets it (R217, R284). -/
def copyMiss (hub e : Nat) (c : Copy) (x : Fetched) : State :=
  match x with
  | .got _ s' => requeueCopy s' hub e
  | .failed st s' => endCopy s' hub e st
  | .unmapped p ia s' =>
    let s' := addNotice s' p (.eng hub e) c.ctx 2 ia
    s'.putEngine hub e ((s'.engine hub e).putHead { c with waits := some p })
  | .wait s' => requeueCopy s' hub e

/-- One line of a copy of KIND 0 to 2 (R282). -/
def copyLine (s : State) (hub e : Nat) (c : Copy) : State :=
  let x := s.engine hub e
  let total := copyLength c.record
  let (g, miss, s1) := gatherLine (.eng hub e) c x total 160 ⟨none, 0, 0, c.next, x.attrs⟩ s
  match g.line, miss with
  | none, some m => copyMiss hub e c m
  | none, none =>
    let c := { c with next := g.next }
    let s1 := s1.putEngine hub e ({ (s1.engine hub e) with attrs := g.attrs }.putHead c)
    if total ≤ g.next then endCopy s1 hub e (copyOk c) else requeueCopy s1 hub e
  | some l, _ =>
    let d := copyDst c.record
    let n := popCount g.mask
    let s1 := dropArrived (s1.putEngine hub e { (s1.engine hub e) with attrs := g.attrs }) (.eng hub e)
    if d.om then
      let c := { c with next := g.next, bytes := c.bytes + n, counted := c.counted - n }
      let s2 := (s1.omWriteMasked c.tile (64 * l) g.mask g.data).putEngine hub e ((s1.engine hub e).putHead c)
      let s2 := if copyHoopen c.record then s2.countDown (copyHoop c.record) n else s2
      if total ≤ g.next then endCopy s2 hub e (copyOk c) else requeueCopy s2 hub e
    else
      let hoop := if copyHoopen c.record then some (BitVec.ofNat 6 (copyHoop c.record)) else none
      let before := if selfOverlap c.record (64 * l) then rememberLine s1 c (64 * l) g.mask else c.before
      match engineWrite s1 (.eng hub e) hub e c.ctx c.wards c.ref
          ⟨64 * l, modeOp (copyMode c.record), false, g.mask, g.data, copyKey c.record, hoop, copyRaw c.record⟩ with
      | .wait s2 => requeueCopy s2 hub e
      | .failed st s2 => endCopy s2 hub e st
      | .done counts s2 =>
        let c := { c with
          next := g.next, bytes := c.bytes + n, counted := if counts then c.counted - n else c.counted, before := before }
        let s2 := s2.putEngine hub e ((s2.engine hub e).putHead c)
        let s2 := if counts && copyHoopen c.record then s2.countDown (copyHoop c.record) n else s2
        if total ≤ g.next then endCopy s2 hub e (copyOk c) else requeueCopy s2 hub e

/-- R219: the token of a slice from the bytes of its segment. -/
def sliceToken (h : PlaitHeader) (code : Nat) (first : Nat) (byte : Nat → Nat) : Line × BitVec 8 :=
  let bits := plaitBits h 64 (h.pos first) byte
  (BitVec.ofNat 512 (bits + h.mul * 2 ^ 64 + h.add * 2 ^ 96 + code * 2 ^ 128), BitVec.ofNat 8 (byte (h.expOffset + first / 48)))

/-- R219: reads the bytes of a segment at some offsets, one by one, as loads. -/
def readSegment (s : State) (hub e : Nat) (c : Copy) : List Nat → List (Nat × Nat) → List (Nat × Nat) × Option Fetched × State
  | [], got => (got, none, s)
  | o :: rest, got =>
    let x := s.engine hub e
    match engineRead s (.eng hub e) c.ctx c.wards x false (sliceSeg c.record + o) 1 with
    | (.got v s', a) =>
      let s' := match a with
        | some (p, t) => s'.putEngine hub e { x with attrs := seeAttr x.attrs p t }
        | none => s'
      readSegment s' hub e c rest (got ++ [(o, v)])
    | (m, _) => (got, some m, s)

/-- One slice of a SLICE copy (R219); the header is read first. -/
def copySlice (s : State) (hub e : Nat) (c : Copy) : State :=
  match c.header with
  | none =>
    let x := s.engine hub e
    match engineRead s (.eng hub e) c.ctx c.wards x false (sliceSeg c.record) 16 with
    | (.got v s', _) =>
      match plaitHeader (BitVec.ofNat 128 v) with
      | none => endCopy s' hub e (.badRec 32)
      | some h =>
        if h.n < sliceFirst c.record + 16 * sliceCount c.record then endCopy s' hub e (.badRec 44)
        else requeueCopy (s'.putEngine hub e ((s'.engine hub e).putHead { c with header := some (BitVec.ofNat 128 v) })) hub e
    | (m, _) => copyMiss hub e c m
  | some hd =>
    match plaitHeader hd with
    | none => endCopy s hub e (.badRec 32)
    | some h =>
      let first := sliceFirst c.record + 16 * c.next
      let offs := insertRising (h.expOffset + first / 48) (plaitBytes h 64 [h.pos first])
      match readSegment s hub e c offs [] with
      | (_, some m, _) => copyMiss hub e c m
      | (got, none, s') =>
        let (data, exp) := sliceToken h (fld hd 16 2).toNat first fun o => (assocGet got o).getD 0
        let d := copyDst c.record
        let c := { c with next := c.next + 1, bytes := c.bytes + 64, counted := c.counted - 64 }
        let s' := dropArrived s' (.eng hub e)
        let s' := (s'.omWrite c.tile (d.slot * 65536 + d.offset + 64 * (c.next - 1)) data exp).putEngine hub e
          ((s'.engine hub e).putHead c)
        let s' := if copyHoopen c.record then s'.countDown (copyHoop c.record) 64 else s'
        if sliceCount c.record ≤ c.next then endCopy s' hub e (copyOk c) else requeueCopy s' hub e

/-- The next step of the copy that an engine runs. -/
def copyStep (s : State) (hub e : Nat) : State :=
  match (s.engine hub e).queue with
  | [] => s
  | c :: _ =>
    let c := { c with waits := none }
    let s := s.putEngine hub e ((s.engine hub e).putHead c)
    if c.status.isSome then settleCopy s hub e
    else if copyKind c.record = 3 then copySlice s hub e c
    else copyLine s hub e c

/-! ### Completion (R218, R221, R225) -/

/-- R218 steps 2 and 3 with R225: the copy leaves its engine, arrives, and lands its status; the engine goes on. -/
def finishCopy (s : State) (hub e : Nat) (c : Copy) (st : Status) : State :=
  let x := s.engine hub e
  let s := dropArrived (s.putEngine hub e { x with queue := x.queue.drop 1 }) (.eng hub e)
  let s := if copyHoopen c.record ∧ c.counted ≠ 0 then s.countDown (copyHoop c.record) c.counted else s
  let s := if copyArrive c.record then s.arriveHoop (copyHoop c.record) .engine else s
  let s := landStatus s c.ref st
  let s := match copyKey c.record with
    | some k => s.keyWorkDone k.toNat c.ref
    | none => s
  if x.queue.length ≤ 1 then s else requeueCopy s hub e

/-- The line write of a completion word at CMPL (R218 step 1). -/
def cmplWrite (va : Nat) (k : CmdKind) (st : Status) : LineWrite :=
  ⟨va, 0, true, byteMask va 8, byteData va 8 (landedWord k st).toNat, none, none, false⟩

/-- R218: a refused CMPL is dropped, and the status reports REFUSED. -/
def cmplFailed (st : Status) : Status := if st.code = 0x12 then ⟨0x11, 1, st.detail⟩ else st

/-- R218: COPY_COMPLETE: CMPL, then the arrival and the landing. -/
def execCopyComplete (hub eng : Nat) (s : State) : Result :=
  let x := s.engine hub eng
  match x.queue with
  | [] => .next s
  | c :: _ =>
    match c.status with
    | none => .next s
    | some st =>
      if c.cmplDone || copyCmpl c.record == 0 then
        if x.owes c.ref then .next s else .next (finishCopy s hub eng c st)
      else
        match engineWrite s (.eng hub eng) hub eng c.ctx c.wards c.ref (cmplWrite (copyCmpl c.record) .cpy st) with
        | .wait s' => .next (requeueCopy s' hub eng)
        | .failed f s' => .next (finishCopy s' hub eng c (cmplFailed f))
        | .done true s' => .next (finishCopy s' hub eng c st)
        | .done false s' =>
          .next (s'.putEngine hub eng ((s'.engine hub eng).putHead { c with cmplDone := true }))

end Sys2Proof.Machine
end

