-- ==== Sys2Proof/Machine/Encoder.lean ====
section
/-! DEFINITION. The plait encoder: its record, the choice of exponents, the search over the trellis, and the writing of the segment
(R222, R334 to R341). -/

namespace Sys2Proof.Machine

/-! ### The encoder record (R222) -/

/-- SRC. -/
def pleSrc (r : BitVec 512) : Nat := rec r 0 0 64
/-- DST. -/
def pleDst (r : BitVec 512) : Nat := rec r 8 0 64
/-- N. -/
def pleCount (r : BitVec 512) : Nat := rec r 16 0 12
/-- RATE. -/
def pleRate (r : BitVec 512) : Nat := rec r 16 16 2
/-- M. -/
def pleMul (r : BitVec 512) : Nat := rec r 20 0 32
/-- A. -/
def pleAdd (r : BitVec 512) : Nat := rec r 24 0 32
/-- KEY, where KEYEN is set. -/
def pleKey (r : BitVec 512) : Option (BitVec 8) := if r.getLsbD 232 then some (fld r 224 8) else none
/-- CMPL. -/
def pleCmpl (r : BitVec 512) : Nat := rec r 32 0 64

/-- R222: the first field of an encoder record that fails, as a byte offset. -/
def pleBad (r : BitVec 512) : Option Nat :=
  firstBad [
    (pleSrc r % 64 != 0 || decide (2 ^ 48 ≤ pleSrc r), 0),
    (pleDst r % 16 != 0 || decide (2 ^ 48 ≤ pleDst r), 8),
    (decide (pleCount r % 48 ≠ 0 ∨ pleCount r < 48 ∨ 3072 < pleCount r) || rec r 16 12 4 != 0 || pleRate r == 3 ||
      rec r 16 18 14 != 0, 16),
    (pleMul r % 2 == 0, 20),
    (rec r 28 9 23 != 0, 28),
    (pleCmpl r % 8 != 0 || decide (2 ^ 48 ≤ pleCmpl r), 32),
    (fld r 320 192 != 0, 40)]

/-- The rate (b, g) of a record whose RATE is legal. -/
def pleRatio (r : BitVec 512) : Nat × Nat := (plaitRate (pleRate r)).getD (1, 1)

/-- R334: L. -/
def pleBits (r : BitVec 512) : Nat := pleCount r * (pleRatio r).1 / (pleRatio r).2

/-- R334: EOFF. -/
def pleExpOffset (r : BitVec 512) : Nat := 16 + (pleBits r + 7) / 8

/-- R334: the bytes of the segment. -/
def pleSize (r : BitVec 512) : Nat := pleExpOffset r + pleCount r / 48

/-- The first byte of each page that a range touches. -/
def pageStarts (va n : Nat) : List Nat :=
  (List.range (n / 65536 + 2)).filterMap fun k =>
    let a := if k = 0 then va else (va / 65536 + k) * 65536
    if a < va + n then some a else none

/-- R341: the first VA of a range that no ward of the issuer grants. -/
def rangeMiss (wards : List Ward) (va n : Nat) (rd wr : Bool) : Option Nat :=
  (pageStarts va n).find? fun a => !((findWard wards a).any fun w => w.grants rd wr)

/-- The PLAIT range that holds an address, as the hub of its page has it. -/
def plaitRangeAt (s : State) (ia : Nat) : Option FormatRange :=
  match rangeOf (getHub s (homeHub (ia / 65536))) ia with
  | some x => if x.kind = 9 ∧ x.inPacked ia = true then some x else none
  | none => none

/-- R341: the whole segment lies in one PLAIT range. -/
def segmentInPlait (s : State) (wards : List Ward) (va n : Nat) : Bool :=
  match findWard wards va with
  | none => false
  | some w =>
    match plaitRangeAt s (w.ia va) with
    | none => false
    | some x => (pageStarts va n ++ [va + n - 1]).all fun a =>
        (findWard wards a).any fun w' => plaitRangeAt s (w'.ia a) == some x

/-- R222, R226, R341: an encoder record meets its encoder. -/
def startEncode (s : State) (t n : Nat) (r : BitVec 512) : CopyStart :=
  let c := s.cmdCore t n
  let g := (s.cmdGraph t n).getD Graph.empty
  let wards := c.wards.toList
  match pleBad r with
  | some o => .ends (.badRec o)
  | none =>
    match rangeMiss wards (pleSrc r) (4 * pleCount r) true false with
    | some a => .ends (.refused 1 (detailOf a))
    | none =>
      match rangeMiss wards (pleDst r) (pleSize r) false true with
      | some a => .ends (.refused 1 (detailOf a))
      | none =>
        if !segmentInPlait s wards (pleDst r) (pleSize r) then .ends (.badRec 8)
        else if (pleKey r).any fun k => !g.holdsKey k.toNat then .ends (.refused 7 (rec r 28 0 8))
        else
          let ia := ((findWard wards (pleDst r)).getD Ward.reset).ia (pleDst r)
          let hub := homeHub (ia / 65536)
          let h := getHub s hub
          if 4 ≤ h.encodings.length then .full
          else
            let job : Encoding := ⟨⟨t, n⟩, r, wards, c.ctx, g.slot, [], none, 0, none, none, false⟩
            let s := putHub s hub { h with encodings := h.encodings ++ [job] }
            .accepted (if h.encodings.isEmpty then { s with hubq := s.hubq ++ [.encodeStep hub] } else s)

/-! ### Exponents (R337) -/

/-- R337: whether a target is finite. -/
def finiteTarget (x : BitVec 32) : Bool := fld x 23 8 != 0xFF

/-- Compares m × 2^e, signed, with an integer. -/
def leInt (neg : Bool) (m : Nat) (e : Int) (k : Int) : Bool :=
  let v : Int := if neg then -(m : Int) else m
  if 0 ≤ e then decide (v * 2 ^ e.toNat ≤ k) else decide (v ≤ k * 2 ^ (-e).toNat)

/-- R337: −32 ≤ x × 2^(132 − E) ≤ 31. -/
def fitsExp (x : BitVec 32) (exp : Nat) : Bool :=
  match decodeFloat 0 x.toNat with
  | .fin neg m e =>
    let e' := e + 132 - exp
    leInt neg m e' 31 && leInt (!neg) m e' 32
  | _ => false

/-- R337: the exponent of a block. -/
def blockExponent (xs : List (BitVec 32)) : Nat :=
  if xs.all fun x => (decodeFloat 0 x.toNat).isZero then 0
  else ((List.range 255).map (· + 1)).find? (fun e => xs.all fun x => fitsExp x e) |>.getD 255

/-! ### The search (R338 to R340)

Metrics and costs are FP32 codes. None is negative or a NaN, so codes compare as their values. -/

/-- R339: the cost of a value V against a target under a block exponent. -/
def encodeCost (exp : Nat) (x : BitVec 32) (v : Int) : Nat :=
  let terms := (if exp = 0 then [] else [Val.ofInt v ((exp : Int) - 132)]) ++ [(decodeFloat 0 x.toNat).negate]
  let e := roundOutc 0 .rne false 0 terms false (sumVals .rne terms)
  let y := decodeFloat 0 e.bits
  (roundOutc 0 .rne false 0 [y, y] false (mulVal y y)).bits

/-- R339: a metric and a cost added. -/
def addMetric (m c : Nat) : Nat := bankAdd 0 m c

/-- R338: k(i). -/
def newBits (bg : Nat × Nat) (i : Nat) : Nat := (i + 1) * bg.1 / bg.2 - i * bg.1 / bg.2

/-- R338: the predecessor of a state under k new bits, by the k low bits that the step shifts out. -/
def predecessor (k v r : Nat) : Nat := v % 2 ^ (15 - k) * 2 ^ k + r

/-- R338: the window of the step into a state from a predecessor. -/
def windowInto (k v u : Nat) : Nat := u + 2 ^ 15 * (v / 2 ^ (15 - k) % 2)

/-- R339: the survivor of a state: its metric and the bits shifted out; none where no predecessor is reachable. -/
def survivor (k : Nat) (m : Array (Option Nat)) (cost : Nat → Nat) (v : Nat) : Option (Nat × Nat) :=
  (List.range (2 ^ k)).foldl (fun best r =>
    let u := predecessor k v r
    match m.getD u none with
    | none => best
    | some x =>
      let y := addMetric x (cost (windowInto k v u))
      match best with
      | some (z, _) => if y < z then some (y, r) else best
      | none => some (y, r)) none

/-- R340: one pass over the targets with their block exponents: the final metrics, and the survivors of each step, last first. -/
def encodePass (bg : Nat × Nat) (value : Array Int) :
    List (Nat × BitVec 32 × Nat) → Array (Option Nat) → List (Nat × Array (Option (Nat × Nat))) →
    Array (Option Nat) × List (Nat × Array (Option (Nat × Nat)))
  | [], m, trail => (m, trail)
  | (i, x, e) :: rest, m, trail =>
    let k := newBits bg i
    let costs : Array Nat := Array.ofFn fun j : Fin 64 => encodeCost e x ((j.val : Int) - 32)
    let best : Array (Option (Nat × Nat)) :=
      Array.ofFn fun v : Fin 32768 => survivor k m (fun w => costs.getD (value.getD w 0 + 32).toNat 0) v.val
    encodePass bg value rest (best.map fun b => b.map Prod.fst) ((i, best) :: trail)

/-- R340: the state of least metric, the lower index on a tie. -/
def wrapState (m : Array (Option Nat)) : Nat :=
  ((List.range 32768).foldl (fun (best : Option (Nat × Nat)) v =>
    match m.getD v none, best with
    | some x, some (y, _) => if x < y then some (x, v) else best
    | some x, none => some (x, v)
    | none, _ => best) none).elim 0 Prod.snd

/-- R338, R340: the stream bits of the survivor path into a state, by position, from the last step back. -/
def tracePath (bg : Nat × Nat) (bits : Nat) : List (Nat × Array (Option (Nat × Nat))) → Nat → List (Nat × Bool) → List (Nat × Bool)
  | [], _, out => out
  | (i, best) :: rest, v, out =>
    let k := newBits bg i
    let p := i * bg.1 / bg.2
    let r := match best.getD v none with
      | some (_, r) => r
      | none => 0
    let fresh := (List.range k).map fun j => ((p + 15 + j) % bits, decide (v / 2 ^ (15 - k + j) % 2 = 1))
    tracePath bg bits rest (predecessor k v r) (fresh ++ out)

/-- R337 to R341: the bytes of the segment and the FP32 bits of its metric. -/
def encodeSegment (r : BitVec 512) (targets : List (BitVec 32)) : List Byte × BitVec 32 :=
  let n := pleCount r
  let bg := pleRatio r
  let bits := pleBits r
  let exps := (List.range (n / 48)).map fun q => blockExponent ((targets.drop (48 * q)).take 48)
  let value : Array Int := Array.ofFn fun w : Fin 65536 => plaitValue w.val (pleMul r) (pleAdd r)
  let steps := (List.range n).map fun i => (i, targets.getD i 0, exps.getD (i / 48) 0)
  let (m1, _) := encodePass bg value steps (Array.replicate 32768 (some 0)) []
  let wr := wrapState m1
  let (m2, trail) := encodePass bg value steps (Array.ofFn fun v : Fin 32768 => if v.val = wr then some 0 else none) []
  let path := tracePath bg bits trail wr []
  let bit (k : Nat) : Nat := if (path.any fun b => b.1 == k && b.2) then 1 else 0
  let stream := (List.range ((bits + 7) / 8)).map fun j =>
    BitVec.ofNat 8 ((List.range 8).foldr (fun b acc => (if 8 * j + b < bits then bit (8 * j + b) else 0) + 2 * acc) 0)
  let header := bytesOf 4 (n + 65536 * pleRate r) ++ bytesOf 4 (pleMul r) ++ bytesOf 4 (pleAdd r) ++ bytesOf 4 (pleExpOffset r)
  (header ++ stream ++ exps.map (BitVec.ofNat 8), BitVec.ofNat 32 ((m2.getD wr none).getD 0))

/-! ### Steps of an encoding (R217, R222, R284, R341) -/

/-- The record that an encoder runs, replaced. -/
def putEncoding (s : State) (hub : Nat) (x : Encoding) : State :=
  let h := getHub s hub
  match h.encodings with
  | [] => s
  | _ :: rest => putHub s hub { h with encodings := x :: rest }

/-- An encoder that goes on. -/
def requeueEncode (s : State) (hub : Nat) : State :=
  if s.hubq.contains (.encodeStep hub) then s else { s with hubq := s.hubq ++ [.encodeStep hub] }

/-- Whether an encoding has entries or writes elsewhere that have not ended. -/
def encodeOwes (s : State) (hub : Nat) (x : Encoding) : Bool :=
  (s.engine hub 0).owes x.ref

/-- R218, R222: an encoding whose outcome is decided ends once its writes have. -/
def settleEncode (s : State) (hub : Nat) : State :=
  match (getHub s hub).encodings with
  | x :: _ => if x.status.isSome && !encodeOwes s hub x then { s with agenda := s.agenda ++ [.encodeComplete hub] } else s
  | [] => s

/-- The outcome of an encoding is decided. -/
def endEncode (s : State) (hub : Nat) (st : Status) : State :=
  match (getHub s hub).encodings with
  | x :: _ => settleEncode (putEncoding s hub { x with status := some (x.status.getD st) }) hub
  | [] => s

/-- Reads sixteen targets. -/
def encodeRead (s : State) (hub : Nat) (x : Encoding) : State :=
  let en := s.engine hub 0
  match engineRead s (.enc hub) x.ctx x.wards en false (pleSrc x.record + 4 * x.targets.length) 64 with
  | (.got v s', a) =>
    let s' := match a with
      | some (p, t) => s'.putEngine hub 0 { en with attrs := seeAttr en.attrs p t }
      | none => s'
    let ts := x.targets ++ lanesOf (BitVec.ofNat 512 v)
    let s' := putEncoding (dropArrived s' (.enc hub)) hub { x with targets := ts }
    if pleCount x.record ≤ ts.length then
      if ts.all finiteTarget then { s' with agenda := s'.agenda ++ [.encodeComplete hub] } else endEncode s' hub (.badRec 0)
    else requeueEncode s' hub
  | (.failed st s', _) => endEncode s' hub st
  | (.unmapped p ia s', _) => putEncoding (addNotice s' p (.enc hub) x.ctx 2 ia) hub { x with waits := some p }
  | (.wait s', _) => requeueEncode s' hub

/-- Writes the next line of the segment. -/
def encodeWrite (s : State) (hub : Nat) (x : Encoding) (seg : List Byte) (metric : BitVec 32) : State :=
  let va := pleDst x.record + x.next
  let n := min (64 - va % 64) (seg.length - x.next)
  let v := natOfBytes ((seg.drop x.next).take n)
  match engineWrite s (.enc hub) hub 0 x.ctx x.wards x.ref ⟨va, 0, false, byteMask va n, byteData va n v, pleKey x.record, none, true⟩ with
  | .wait s' => requeueEncode s' hub
  | .failed st s' => endEncode s' hub st
  | .done _ s' =>
    let s' := putEncoding s' hub { x with next := x.next + n }
    if seg.length ≤ x.next + n then endEncode s' hub (.ok metric.toNat) else requeueEncode s' hub

/-- The next step of the record that an encoder runs. -/
def encodeStep (s : State) (hub : Nat) : State :=
  match (getHub s hub).encodings with
  | [] => s
  | x :: _ =>
    let x := { x with waits := none }
    let s := putEncoding s hub x
    if x.status.isSome then settleEncode s hub
    else
      match x.segment with
      | none => if pleCount x.record ≤ x.targets.length then s else encodeRead s hub x
      | some (seg, metric) => encodeWrite s hub x seg metric

/-- R218, R222: the record leaves its encoder and lands its status; the encoder goes on. -/
def finishEncode (s : State) (hub : Nat) (x : Encoding) (st : Status) : State :=
  let h := getHub s hub
  let s := landStatus (dropArrived (putHub s hub { h with encodings := h.encodings.drop 1 }) (.enc hub)) x.ref st
  let s := match pleKey x.record with
    | some k => s.keyWorkDone k.toNat x.ref
    | none => s
  if h.encodings.length ≤ 1 then s else requeueEncode s hub

/-- R341: ENCODE_COMPLETE: the two passes end and the writing begins; after the last write, CMPL is written and the status
lands. -/
def execEncodeComplete (hub : Nat) (s : State) : Result :=
  match (getHub s hub).encodings with
  | [] => .next s
  | x :: _ =>
    match x.status with
    | none =>
      if x.segment.isNone && decide (pleCount x.record ≤ x.targets.length) then
        .next (requeueEncode (putEncoding s hub { x with segment := some (encodeSegment x.record x.targets) }) hub)
      else .next s
    | some st =>
      if x.cmplDone || pleCmpl x.record == 0 then
        if encodeOwes s hub x then .next s else .next (finishEncode s hub x st)
      else
        match engineWrite s (.enc hub) hub 0 x.ctx x.wards x.ref (cmplWrite (pleCmpl x.record) .ple st) with
        | .wait s' => .next (requeueEncode s' hub)
        | .failed f s' => .next (finishEncode s' hub x (cmplFailed f))
        | .done true s' => .next (finishEncode s' hub x st)
        | .done false s' => .next (putEncoding s' hub { x with cmplDone := true })

end Sys2Proof.Machine
end

