-- ==== Sys2Proof/Machine/Commands.lean ====
section
/-! DEFINITION. The status commands from their start on: the wait for earlier accesses, the record read, and the commands of the
drain port, the slot allocator, the hoops, the keys, the page-table port, migration and the cache split (R207 to R216, R223 to
R234, R272 to R274, R349, R350). -/

namespace Sys2Proof.Machine

/-! ### Start (R207) -/

/-- R207 step 3: every access that the context issued before the command has been performed at PACKAGE. The creel stays in the tile
when a graph is saved (R373). -/
def Core.cmdPerformed (c : Core) (x : Cmd) : Bool :=
  (c.sent.all fun w => w.ctx != x.ctx) && (c.aloft.all fun e => e.ctx != x.ctx) &&
  (c.owedRemote.all fun w => w.entry.ctx != x.ctx) &&
  (c.creel.all fun e => e.ctx != x.ctx || decide (x.barrier ≤ e.seq) || !e.live)

/-- R220, R272: commands of one kind start in issue order. -/
def Core.cmdFirst (c : Core) (x : Cmd) : Bool :=
  c.cmds.all fun y => y.kind != x.kind || decide (x.serial ≤ y.serial) || y.state == .started

/-- The page that a page-table command names. -/
def Cmd.page (x : Cmd) : Nat := (fld x.sa 16 28).toNat

/-- R272: the drain port has sampled at the present boundary of a running graph. -/
def State.drainBusy (s : State) (t n : Nat) : Bool :=
  (s.getTile t).core.hasCmd n && (s.graphOfTile t).any fun g => !g.stopped && (s.getTile t).lastDrain == some g.slotNo

/-- R350: a spliced migration holds the page-table port for a page. -/
def State.spliced (s : State) (page : Nat) : Bool := s.migrations.any fun m => m.splice && m.page == page

/-- R1: the migration engine of a page's home hub is free. -/
def State.migFree (s : State) (page : Nat) : Bool := s.migrations.all fun m => homeHub m.page != homeHub page

/-- The limits of the operand of MIG and MIG.sp (R232, R233). -/
def migBad (x : Cmd) (splice : Bool) : Bool :=
  fld x.sa 0 16 != 0 || fld x.sa 56 8 != 0 || decide (11 < (fld x.sa 44 4).toNat) ||
  (if splice then fld x.sa 48 8 != 0 else fld x.sa 48 8 == 0)

/-- R1, R232, R350: whether a MIG or MIG.sp can start: it ends at once, or its engine is free. -/
def State.migReady (s : State) (x : Cmd) (splice : Bool) : Bool :=
  migBad x splice || pteMig (getPte s x.page) || s.migFree x.page

/-- R207: whether a queued command can start. -/
def State.cmdReady (s : State) (t : Nat) (x : Cmd) : Bool :=
  x.state == .queued && (s.getTile t).core.cmdPerformed x && (s.cmdCore t x.serial).cmdFirst x &&
  (match x.kind with
  | .drn => !s.drainBusy t x.serial
  | .ptew => !s.spliced x.page
  | .ptecas => !s.spliced x.page
  | .cfg => true
  | .cfgw => true
  | .cpy => true
  | .cpyw => true
  | .ocl => true
  | .hoop => true
  | .pub => true
  | .ple => true
  | .mig => s.migReady x false
  | .migSp => s.migReady x true
  | .hsplit => true
  | .pinv => true)

/-- R207 step 4: the record of a command, one line at a time through the ward of step 1. -/
def readRecord (s : State) (t : Nat) (x : Cmd) (va len : Nat) : Fetched :=
  let c := (s.getTile t).core
  let en : Engine := { Engine.reset with owedRemote := c.owedRemote, attrs := c.attrs }
  let one (s : State) (k : Nat) : Fetched := (engineRead s (.rim t) x.ctx [x.ward] en (!x.user) (va + 64 * k) (min 64 len)).1
  if len ≤ 64 then one s 0
  else
    match one s 0 with
    | .got v0 s' =>
      match one s' 1 with
      | .got v1 s'' => .got (v0 + v1 * 2 ^ 512) s''
      | r => r
    | r => r

/-- R207 step 4: acts on the record once it has been read; until then the start waits. -/
def withRecord (s : State) (t : Nat) (x : Cmd) (va len : Nat) (k : Nat → State → State) : State :=
  match readRecord s t x va len with
  | .got v s' => k v (dropArrived s' (.rim t))
  | .failed st s' => landStatus (dropArrived s' (.rim t)) ⟨t, x.serial⟩ st
  | .unmapped p ia s' => markCmd (addNotice s' p (.rim t) x.ctx 2 ia) t x.serial .recordWait
  | .wait s' => markCmd s' t x.serial .recordWait

/-- A command is at its engine. -/
def takeUp (s : State) (t : Nat) (x : Cmd) : State := markCmd s t x.serial .started

/-! ### Streams (R176, R177) -/

/-- R176: a stream joins a net; it runs at once where the net is free. -/
def submitStream (s : State) (net : Nat) (st : Stream) : State :=
  let s := s.focusNet net
  let q := s.nets.toList.getD net ⟨Stream.empty, []⟩
  if s.stream.len = 0 then { s with stream := st }
  else { s with nets := s.nets.setIfInBounds net { q with queue := q.queue ++ [st] } }

/-- R177: the start of a CFG. -/
def startCfg (s : State) (t : Nat) (x : Cmd) : State :=
  let g := (s.cmdGraph t x.serial).getD Graph.empty
  submitStream (takeUp s t x) g.net { Stream.empty with
    ref := some ⟨t, x.serial⟩, graph := g.slot, ctx := x.ctx, user := x.user, wards := [x.ward], va := x.sa.toNat, len := x.sb.toNat }

/-! ### DRN (R213) -/

/-- R213: whether the region that a DRN names meets its limits. -/
def drainRegion (s : State) (t : Nat) (x : Cmd) : Option Region :=
  match (s.cmdGraph t x.serial).bind fun g => g.getRegion (fld x.sa 0 10).toNat with
  | some r => if r.cfg.typ = 0 ∧ r.cfg.racc ≠ 0 ∧ (r.cfg.edgeTiles .s).contains t = true then some r else none
  | none => none

/-- A0 of a DRN. -/
def drainFirst (x : Cmd) : Nat := (fld x.sa 10 6).toNat
/-- N of a DRN. -/
def drainCount (x : Cmd) : Nat := (fld x.sa 16 7).toNat + 1
/-- X of the first token that a DRN writes (R216). -/
def drainBase (x : Cmd) : Nat := (fld x.sb 0 24).toNat

/-- R213: the checks of a DRN, in its order. -/
def drainBad (s : State) (t : Nat) (x : Cmd) : Option Status :=
  match drainRegion s t x with
  | none => some ⟨0x03, 0, zeroExtend 32 (fld x.sa 0 10)⟩
  | some r =>
    if fld x.sa 24 40 ≠ 0 ∨ 64 < drainCount x ∨ r.cfg.racc < drainFirst x + drainCount x then some (.badRec 0xF1)
    else if fld x.sb 24 40 ≠ 0 ∨ drainBase x % 64 ≠ 0 ∨ 65536 < drainBase x % 65536 + 64 * drainCount x then some (.badRec 0xF2)
    else if (s.getTile t).owns (drainBase x / 65536) x.ctx then none
    else some (.refused 6 (drainBase x / 65536))
where
  zeroExtend (n : Nat) {m : Nat} (v : BitVec m) : BitVec n := v.setWidth n

/-- R203: the number of an accumulator of column j. -/
def accKey (j k : Nat) : Nat := 64 * j + k

/-- R213: one drained token: the accumulators of index k under the tile's south-edge cells. -/
def drainedToken (r : Region) (t k : Nat) : Line :=
  lineOfLanes ((List.range 16).map fun l =>
    match r.cfg.localPos .s t l with
    | some j => sparseGet 0 r.acc (accKey j k)
    | none => 0)

/-- R213: the drained accumulators set to +0. -/
def clearDrained (r : Region) (t first n : Nat) : Region :=
  { r with acc := (List.range 16).foldl (fun a l =>
      match r.cfg.localPos .s t l with
      | some j => (List.range n).foldl (fun a k => sparsePut 0 a (accKey j (first + k)) 0) a
      | none => a) r.acc }

/-- R207, R373: a change of a region of a command's graph, which may have been saved. -/
def State.onCmdRegion (s : State) (t n r : Nat) (f : Region → Region) : State :=
  if (s.getTile t).core.hasCmd n then
    match s.graphOfTile t with
    | some g => s.onRegion g.slot r f
    | none => s
  else
    { s with mgmt := { s.mgmt with saved := s.mgmt.saved.map fun v =>
        if (assocGet v.tiles t).any fun x => x.core.hasCmd n then { v with graph := v.graph.onRegion r f } else v } }

/-- R272: the drain port of a command's tile has sampled at a slot boundary of its graph. -/
def State.noteDrain (s : State) (t n slot : Nat) : State :=
  let tile := s.getTile t
  if tile.core.hasCmd n then s.putTile t { tile with lastDrain := some slot } else s

/-- R213: the effect of a DRN at a slot boundary. -/
def sampleDrain (s : State) (t : Nat) (x : Cmd) (g : Graph) (r : Region) : State :=
  let n := drainCount x
  let s := (List.range n).foldl (fun s k =>
    s.omWrite t (drainBase x + 64 * k) (drainedToken r t (drainFirst x + k)) 0) s
  let s := if x.sa.getLsbD 23 then s.onCmdRegion t x.serial r.id fun r => clearDrained r t (drainFirst x) n else s
  landStatus (s.noteDrain t x.serial g.slotNo) ⟨t, x.serial⟩ (.ok n)

/-- A command of a core that has started. -/
def startedCmd (s : State) (t n : Nat) (k : CmdKind) : Option Cmd :=
  (s.cmdCore t n).cmds.find? fun x => x.serial == n && x.kind == k && x.state == .started

/-- R213: DRAIN_SAMPLE. A region that has gone meanwhile fails as at the start. -/
def execDrainSample (t n : Nat) (s : State) : Result :=
  let s := s.settle
  match startedCmd s t n .drn with
  | none => .next s
  | some x =>
    match drainRegion s t x, s.cmdGraph t n with
    | some r, some g => .next (sampleDrain s t x g r)
    | _, _ => .next (landStatus s ⟨t, n⟩ ⟨0x03, 0, (fld x.sa 0 10).setWidth 32⟩)

/-! ### OCL (R214) -/

/-- R214: F of a claim. -/
def claimFirst (x : Cmd) : Nat := (fld x.sa 0 8).toNat
/-- R214: C of a claim. -/
def claimCount (x : Cmd) : Nat := (fld x.sa 8 8).toNat + 1

/-- R214: the lowest slot of a range that another context owns. -/
def Tile.foreignSlot (t : Tile) (ctx : BitVec 16) (first n : Nat) : Option Nat :=
  ((List.range n).map (first + ·)).find? fun k => (assocGet t.owners k).any fun c => c != ctx

/-- R214: claims the slots of a range that are free, zeroed; the number claimed and the state. -/
def claimSlots (s : State) (t : Nat) (ctx : BitVec 16) (first n : Nat) : Nat × State :=
  (List.range n).foldl (fun (x : Nat × State) k =>
    let tile := x.2.getTile t
    if tile.owns (first + k) ctx then x
    else (x.1 + 1, (x.2.putTile t { tile with owners := assocPut tile.owners (first + k) ctx }).omZero t (first + k))) (0, s)

/-- R214: OCL_GRANT: the slot allocator serves a claim. -/
def execOclGrant (t n : Nat) (s : State) : Result :=
  match startedCmd s t n .ocl with
  | none => .next s
  | some x =>
    match (s.getTile t).foreignSlot x.ctx (claimFirst x) (claimCount x) with
    | some k => .next (landStatus s ⟨t, n⟩ ⟨0x14, 0, BitVec.ofNat 32 k⟩)
    | none =>
      let (fresh, s) := claimSlots s t x.ctx (claimFirst x) (claimCount x)
      .next (landStatus s ⟨t, n⟩ (.ok fresh))

/-! ### HOOP (R223, R224) -/

/-- R224: the start of a HOOP. -/
def startHoop (s : State) (t : Nat) (x : Cmd) : State :=
  let ref : CmdRef := ⟨t, x.serial⟩
  let h := (fld x.sa 0 6).toNat
  let op := (fld x.sa 8 2).toNat
  let hp := s.hoop h
  if x.sa &&& 0xFFFFFFFFFFFFFCC0 ≠ 0 ∨ op = 3 then landStatus s ref (.badRec 0xF1)
  else if !s.cmdHoldsHoop t x.serial h then landStatus s ref (.refused 8 h)
  else if op ≠ 1 ∧ x.sb ≠ 0 then landStatus s ref (.badRec 0xF2)
  else if op = 0 then
    if hp.p = 0 then landStatus s ref (.refused 8 h) else (takeUp s t x).arriveHoop h (.cmd ref)
  else if op = 1 then
    if x.sb = 0 ∨ 4096 < x.sb.toNat then landStatus s ref (.badRec 0xF2)
    else if hp.arrivals ≠ [] ∨ hp.bytes ≠ 0 then landStatus s ref .busy
    else landStatus (s.putHoop h { hp with p := fld x.sb 0 13 }) ref (.ok hp.g.toNat)
  else landStatus s ref (.ok (hp.arrivals.length + 65536 * (hp.g.toNat % 65536)))

/-! ### PUB (R226, R227) -/

/-- R227: the start of a PUB. -/
def startPub (s : State) (t : Nat) (x : Cmd) : State :=
  let ref : CmdRef := ⟨t, x.serial⟩
  let k := (fld x.sa 0 8).toNat
  if fld x.sa 8 56 ≠ 0 then landStatus s ref (.badRec 0xF1)
  else if !s.cmdHoldsKey t x.serial k then landStatus s ref (.refused 7 k)
  else if (s.key k).pending.isSome then landStatus s ref .busy
  else (takeUp s t x).putKey k ((s.key k).publish ref (s.keyedWork (fld x.sa 0 8)) s.time)

/-! ### The page-table port (R230, R231, R308, R312, R350) -/

/-- R308: the byte offset of the first field of a new entry that is refused, for an entry at an offset of its record. -/
def pteBad (e : BitVec 128) (o : Nat) : Option Nat :=
  firstBad [(pteAttr e == 3 || fld e 60 4 != 0, o), (fld e 88 24 != 0, o + 8)]

/-- R230: the start of a PTEW, with its record. -/
def doPtew (t : Nat) (x : Cmd) (v : Nat) (s : State) : State :=
  let e := BitVec.ofNat 128 v
  match pteBad e 0 with
  | some o => landStatus s ⟨t, x.serial⟩ (.badRec o)
  | none => landStatus (putPte s x.page e) ⟨t, x.serial⟩ (.ok 0)

/-- R230: the status of a PTECAS whose entry did not match. -/
def casFail : Status := ⟨0x17, 0, 0⟩

/-- R230, R326: the write-back of a PTECAS to its record, performed before the status lands. One whose page is not mapped waits for
it as a record read does (R207 step 4). -/
def writeBack (s : State) (t : Nat) (x : Cmd) (cur : BitVec 128) : State :=
  let ref : CmdRef := ⟨t, x.serial⟩
  let ia := x.ward.ia x.sb.toNat
  let s := s.onCmd t x.serial fun y => { y with back := some cur }
  if !x.ward.pw then landStatus s ref (.refused 1 (detailOf x.sb.toNat))
  else if x.ward.isRemote then
    let s := s.onCmd t x.serial fun y => { y with request := some s.island.pktId, state := .started }
    sendRequest s (.rim t) x.ctx x.ward.modnum ia true [] fun id =>
      .write id (ia / 64 * 64) 0 (byteMask ia 16) (byteData ia 16 cur.toNat) false
  else
    match performWrite s (ia / 64 * 64) (byteMask ia 16) false Access.stores
        (combineLine 0 (byteData ia 16 cur.toNat).toNat) with
    | .done _ s' => landStatus s' ref casFail
    | .unmapped p => markCmd (addNotice (discardStale s ia Access.stores) p (.rim t) x.ctx 2 ia) t x.serial .recordWait
    | .refused r => landStatus (discardStale s ia Access.stores) ref (.refused r (detailOf ia))
    | .poisoned s' => landStatus s' ref (.poison (detailOf ia))

/-- R230: the start of a PTECAS, with its record. -/
def doPtecas (t : Nat) (x : Cmd) (v : Nat) (s : State) : State :=
  let ref : CmdRef := ⟨t, x.serial⟩
  let expected := BitVec.ofNat 128 v
  let e := BitVec.ofNat 128 (v / 2 ^ 128)
  let cur := getPte s x.page
  match pteBad e 16 with
  | some o => landStatus s ref (.badRec o)
  | none => if cur = expected then landStatus (putPte s x.page e) ref (.ok 0) else writeBack s t x cur

/-- R231: the first page and the number of pages of a PINV. -/
def pinvRange (x : Cmd) : Nat × Nat := (x.page, (fld x.sa 0 16).toNat + 1)

/-- R231, R312: every hub drops the translations, and every issuer the attributes, of some pages; an issuer whose graph is saved too. -/
def invalidate (s : State) (first n : Nat) : State :=
  let s := s.settle
  let out (p : Nat) : Bool := !decide (first ≤ p ∧ p < first + n)
  let attrs (l : List (Nat × BitVec 2)) := l.filter fun x => out x.1
  let tile (x : Tile) : Tile := { x with core := { x.core with attrs := attrs x.core.attrs } }
  let graph (g : Graph) : Graph := { g with regions := g.regions.map fun r => { r with attrs := attrs r.attrs } }
  let saved (v : Saved) : Saved := { v with graph := graph v.graph, tiles := v.tiles.map fun x => (x.1, tile x.2) }
  { s with
    mgmt := { s.mgmt with saved := s.mgmt.saved.map saved }
    tile := tile s.tile
    tiles := s.tiles.map fun x => (x.1, tile x.2)
    graph := graph s.graph
    graphs := s.graphs.map graph
    hubs := s.hubs.map fun h => { h with
      tlb := h.tlb.filter fun x => out x.1
      engines := h.engines.map fun e => { e with attrs := attrs e.attrs } } }

/-- R231: PINV_DONE. -/
def execPinvDone (t n : Nat) (s : State) : Result :=
  match startedCmd s t n .pinv with
  | none => .next s
  | some x => .next (landStatus (invalidate s (pinvRange x).1 (pinvRange x).2) ⟨t, n⟩ (.ok 0))

/-! ### Migration (R232, R233, R349, R350) -/

/-- The frames that an entry names (R308): FRAME, and SHADOW where it is keyed. -/
def pteFrames (e : BitVec 128) : List Nat :=
  if pteKeyed e then [(pteFrame e).toNat, (pteShadow e).toNat] else [(pteFrame e).toNat]

/-- R349, R353: whether the bitmap of its stack has a frame free, in a LIVE set. -/
def frameFree (s : State) (f : Nat) : Bool :=
  let h := getHub s (f / 2 ^ 20)
  frameExists s (BitVec.ofNat 24 f) && fld h.setSt (2 * (f % 16)) 2 == 0 && !h.used.contains (f % 2 ^ 20)

/-- The first number from `n` on that a test accepts. -/
def firstFrom (ok : Nat → Bool) : Nat → Nat → Option Nat
  | 0, _ => none
  | fuel + 1, n => if ok n then some n else firstFrom ok fuel (n + 1)

/-- R349: the lowest-numbered free frame of a stack from frame `n` of it on. -/
def freeFrame (s : State) (stack n : Nat) : Option Nat :=
  firstFrom (fun k => frameFree s (stack * 2 ^ 20 + k)) (2 ^ 20 - n) n

/-- A frame is taken from its stack's bitmap, or returned to it (R349). -/
def useFrame (on : Bool) (s : State) (f : Nat) : State :=
  let h := getHub s (f / 2 ^ 20)
  let others := h.used.filter fun k => k != f % 2 ^ 20
  putHub s (f / 2 ^ 20) { h with used := if on then others ++ [f % 2 ^ 20] else others }

/-- Frames are taken from their stacks' bitmaps, or returned (R349). -/
def useFrames (s : State) (fs : List Nat) (on : Bool) : State := fs.foldl (useFrame on) s

/-- The lines of a frame that are poisoned. -/
def poisonedLines (s : State) (f : Nat) : List Nat :=
  (List.range 1024).filter fun l => linePoisoned s (frameLoc f (64 * l))

/-- R349: a frame's bytes and poison marks copied to another frame. -/
def copyFrame (s : State) (src dst : Nat) : State :=
  let lo := frameLoc src 0
  let to' := frameLoc dst 0
  let moved := (s.mem.filter fun c => decide (lo ≤ c.1 ∧ c.1 < lo + 65536)).map fun c => (c.1 - lo + to', c.2)
  let bad := poisonedLines s src
  let h := getHub s (dst / 2 ^ 20)
  let s := if h.restriped.contains (dst % 16) then
      putHub s (dst / 2 ^ 20) { h with cleared :=
        h.cleared ++ ((List.range 1024).map fun l => dst % 2 ^ 20 * 1024 + l).filter fun k => !h.cleared.contains k }
    else s
  { s with
    mem := (s.mem.filter fun c => decide (c.1 < to')) ++ moved ++ s.mem.filter fun c => decide (to' + 65536 ≤ c.1)
    linePoison := (s.linePoison.filter fun k => k / 1024 != dst) ++ bad.map fun l => dst * 1024 + l }

/-- The frames of a migration, old beside new. -/
def Migration.pairs (m : Migration) (e : BitVec 128) : List (Nat × Nat) :=
  ((pteFrame e).toNat, m.frame.toNat) ::
    (match m.shadow with
    | some f => [((pteShadow e).toNat, f.toNat)]
    | none => [])

/-- R232, R350: the entry with the new frames and MIG clear, and nothing else changed. -/
def Migration.switched (m : Migration) (e : BitVec 128) : BitVec 128 :=
  let e := putField (setBit e 9 false) 36 24 m.frame.toNat
  match m.shadow with
  | some f => putField e 64 24 f.toNat
  | none => e

/-- The hub's cached copy of a page is dropped. -/
def dropTlb (s : State) (p : Nat) : State :=
  let h := getHub s (homeHub p)
  putHub s (homeHub p) { h with tlb := assocDrop h.tlb p }

/-- R232, R233, R349: the switch at the port: the copy, the new entry, and the old frames returned. -/
def switchPage (s : State) (m : Migration) : State :=
  let e := getPte s m.page
  let s := (m.pairs e).foldl (fun s p => copyFrame s p.1 p.2) s
  let s := dropTlb (putPte s m.page (m.switched e)) m.page
  useFrames s ((m.pairs e).map Prod.fst) false

/-- R232, R233, R349: the start of MIG and MIG.sp. -/
def startMig (s : State) (t : Nat) (x : Cmd) (splice : Bool) : State :=
  let ref : CmdRef := ⟨t, x.serial⟩
  let e := getPte s x.page
  let stack := (fld x.sa 44 4).toNat
  if migBad x splice then landStatus s ref (.badRec 0xF1)
  else if pteMig e then landStatus s ref .busy
  else
    let first := freeFrame s stack 0
    let second := if pteKeyed e then first.bind fun f => freeFrame s stack (f + 1) else some 0
    match first, second with
    | some f, some f2 =>
      let fs := if pteKeyed e then [stack * 2 ^ 20 + f, stack * 2 ^ 20 + f2] else [stack * 2 ^ 20 + f]
      let e' := setBit e 9 true
      let m : Migration := ⟨ref, x.page, BitVec.ofNat 24 (stack * 2 ^ 20 + f),
        if pteKeyed e then some (BitVec.ofNat 24 (stack * 2 ^ 20 + f2)) else none, e', (fld x.sa 48 8).toNat, 1, false, splice⟩
      let s := useFrames (putPte (takeUp s t x) x.page e') fs true
      { s with
        migrations := s.migrations ++ [m]
        hubq := s.hubq ++ [.migrate x.page] }
    | _, _ => landStatus s ref ⟨0x16, 0, 0⟩

/-- The migration under way of a page. -/
def State.migration (s : State) (page : Nat) (splice : Bool) : Option Migration :=
  s.migrations.find? fun m => m.page == page && m.splice == splice

/-- Ends the migration of a page. -/
def endMigration (s : State) (page : Nat) : State :=
  { s with migrations := s.migrations.filter fun m => m.page != page }

/-- R232: MIG_TRY_END. The try succeeds where no write was seen, the version stands, and the entry is unchanged. -/
def execMigTryEnd (n : Nat) (s : State) : Result :=
  match s.migration n false with
  | none => .next s
  | some m =>
    let e := getPte s n
    if !m.seen && e == m.entry then
      .next (landStatus (endMigration (switchPage s m) n) m.ref (.ok m.attempt))
    else if m.attempt < m.tries then
      .next { s with
        migrations := s.migrations.map fun y =>
          if y.page = n then { y with entry := e, attempt := y.attempt + 1, seen := false } else y
        hubq := s.hubq ++ [.migrate n] }
    else
      let s := putPte (useFrames s ((m.pairs e).map Prod.snd) false) n (setBit e 9 false)
      .next (landStatus (endMigration s n) m.ref ⟨0x16, 0, BitVec.ofNat 32 m.tries⟩)

/-- R233: MIG_SP_SWITCH. -/
def execMigSpSwitch (n : Nat) (s : State) : Result :=
  match s.migration n true with
  | none => .next s
  | some m => .next (landStatus (endMigration (switchPage s m) n) m.ref (.ok 0))

/-! ### HSPLIT (R234) -/

/-- The number of an HSPLIT by its command. -/
def splitNum (ref : CmdRef) : Nat := ref.tile + 4096 * ref.serial

/-- R234: the start of an HSPLIT. -/
def startHsplit (s : State) (t : Nat) (x : Cmd) : State :=
  let ref : CmdRef := ⟨t, x.serial⟩
  let first := (fld x.sa 0 10).toNat
  let n := (fld x.sa 10 10).toNat + 1
  if fld x.sa 20 44 ≠ 0 ∨ 768 < first + n then landStatus s ref (.badRec 0xF1)
  else if 8 < x.sb.toNat then landStatus s ref (.badRec 0xF2)
  else
    let s := takeUp s t x
    { s with
      splits := s.splits ++ [⟨ref, fld x.sb 0 4, []⟩]
      hubq := s.hubq ++ (List.range n).map fun k => .split (splitNum ref) (first + k) }

/-- The bytes of IA that a copy may write, where its destination is IA space. -/
def copyTargets (c : Copy) : Option (Nat × Nat) :=
  if copyDstOm c.record then none
  else
    let sp := (copyDst c.record).span
    (findWard c.wards sp.1.toNat).map fun w => (w.ia sp.1.toNat, w.ia sp.1.toNat + (sp.2 - sp.1).toNat)

/-- R234 step 1: a copy already accepted targets scratch lines of a slice whose role changes. -/
def splitWaits (s : State) (slice size : Nat) : Bool :=
  let c := cacheMiB s slice
  let lo := 0x80000000000 + slice * 2 ^ 23
  let hi := lo + (size - c) * 2 ^ 20
  s.hubs.toList.any fun h => h.engines.toList.any fun e => e.queue.any fun x =>
    (copyTargets x).any fun r => decide (r.1 < hi ∧ lo ≤ r.2)

/-- R234 steps 1 and 2: a slice's turn: it waits for the copies, and then the change is under way. -/
def splitStep (s : State) (n slice : Nat) : State :=
  match s.splits.find? fun x => splitNum x.ref == n with
  | none => s
  | some x =>
    if splitWaits s slice x.size.toNat || (splitOf s slice).isSome then { s with hubq := s.hubq ++ [.split n slice] }
    else
      { s with
        splits := s.splits.map fun y => if splitNum y.ref = n then { y with todo := y.todo ++ [slice] } else y
        agenda := s.agenda ++ [.hsplitSliceDone n slice] }

/-- R234 step 3: whether a frame belongs to a page whose home is a slice. -/
def frameOfSlice (s : State) (slice f : Nat) : Bool := s.ptes.any fun x => homeSlice x.1 == slice && (pteFrames x.2).contains f

/-- R234 step 3: the lines that a slice stops caching are written back: all of them where it caches nothing more, else lines that the
spec does not name, a free choice. -/
def cleanSlice (s : State) (slice : Nat) (size : BitVec 4) : State :=
  if cacheMiB s slice ≤ size.toNat then s
  else
    let kept : Nat := if size = 0 then 0 else freeNat s 128
    let clean (k : Nat) (d : Sparse Nat) : Sparse Nat :=
      d.filterMap fun x =>
        if frameOfSlice s slice (k * 2 ^ 20 + x.1) then (if x.2 &&& kept = 0 then none else some (x.1, x.2 &&& kept)) else some x
    { s.useFree 128 with hubs := Vector.ofFn fun k : Fin 12 => { s.hubs.get k with dirty := clean k (s.hubs.get k).dirty } }

/-- R234 steps 3 to 5: the new split of a slice; scratch lines that become cache lose their contents. -/
def installSplit (s : State) (slice : Nat) (size : BitVec 4) : State :=
  let s := cleanSlice s slice size
  let c := cacheMiB s slice
  let lo := scratchLoc slice (c * 2 ^ 20)
  let hi := scratchLoc slice (size.toNat * 2 ^ 20)
  let h := getHub s (slice / 64)
  { putHub s (slice / 64) { h with cacheSize := sparsePut 8 h.cacheSize (slice % 64) size } with
    mem := s.mem.filter fun x => !decide (lo ≤ x.1 ∧ x.1 < hi)
    linePoison := s.linePoison.filter fun k => !decide (lo ≤ 64 * k ∧ 64 * k < hi) }

/-- R234: HSPLIT_SLICE_DONE; the status lands with the last slice. -/
def execHsplitSliceDone (n slice : Nat) (s : State) : Result :=
  match s.splits.find? fun x => splitNum x.ref == n && x.todo.contains slice with
  | none => .next s
  | some x =>
    let s := installSplit s slice x.size
    let todo := x.todo.filter fun k => k != slice
    if todo.isEmpty && !(s.hubq.any fun q => match q with | .split m _ => m == n | _ => false) then
      .next (landStatus { s with splits := s.splits.filter fun y => splitNum y.ref != n } x.ref (.ok 0))
    else
      .next { s with splits := s.splits.map fun y => if splitNum y.ref = n then { y with todo := todo } else y }

/-! ### COMMAND_START -/

/-- The start of CPY and PLE with the record read. -/
def beginCopy (t : Nat) (x : Cmd) (start : State → CopyStart) (s : State) : State :=
  match start s with
  | .ends st => landStatus s ⟨t, x.serial⟩ st
  | .full => s
  | .accepted s' => takeUp s' t x

/-- R207: the start of a command. -/
def startCmd (s : State) (t : Nat) (x : Cmd) : State :=
  let ref : CmdRef := ⟨t, x.serial⟩
  match x.kind with
  | .cfg => startCfg s t x
  | .cfgw => (takeUp s t x).onCmdCore t x.serial Core.landWaiters
  | .cpyw => (takeUp s t x).onCmdCore t x.serial Core.landWaiters
  | .drn =>
    match drainBad s t x with
    | some st => landStatus s ref st
    | none =>
      let s := takeUp s t x
      { s with agenda := s.agenda ++ [.drainSample t x.serial] }
  | .cpy => withRecord s t x x.sa.toNat 128 fun v => beginCopy t x fun s => startCopy s t x.serial (BitVec.ofNat 1024 v)
  | .ple => withRecord s t x x.sa.toNat 64 fun v => beginCopy t x fun s => startEncode s t x.serial (BitVec.ofNat 512 v)
  | .ocl =>
    if fld x.sa 16 48 ≠ 0 ∨ 256 < claimFirst x + claimCount x then landStatus s ref (.badRec 0xF1)
    else
      let s := takeUp s t x
      { s with agenda := s.agenda ++ [.oclGrant t x.serial] }
  | .hoop => startHoop s t x
  | .pub => startPub s t x
  | .mig => startMig s t x false
  | .migSp => startMig s t x true
  | .hsplit => startHsplit s t x
  | .ptew =>
    if fld x.sa 0 16 ≠ 0 ∨ fld x.sa 44 20 ≠ 0 then landStatus s ref (.badRec 0xF1)
    else withRecord s t x x.sb.toNat 16 (doPtew t x)
  | .ptecas =>
    if fld x.sa 0 16 ≠ 0 ∨ fld x.sa 44 20 ≠ 0 then landStatus s ref (.badRec 0xF1)
    else if let some cur := x.back then writeBack s t x cur
    else withRecord s t x x.sb.toNat 32 (doPtecas t x)
  | .pinv =>
    if fld x.sa 44 20 ≠ 0 ∨ 2 ^ 28 < (pinvRange x).1 + (pinvRange x).2 then landStatus s ref (.badRec 0xF1)
    else
      let s := takeUp s t x
      { s with agenda := s.agenda ++ [.pinvDone t x.serial] }

/-- R207: COMMAND_START. A command that cannot start yet stays queued. -/
def execCommandStart (t n : Nat) (s : State) : Result :=
  let s := s.settle
  match (s.cmdCore t n).cmds.find? fun x => x.serial == n with
  | none => .next s
  | some x => if s.cmdReady t x then .next (startCmd s t x) else .next s

end Sys2Proof.Machine
end

