-- ==== Sys2Proof/Machine/Streams.lean ====
section
/-! DEFINITION. Configuration streams: the twelve C-words, the checks of COMMIT, the raw words of an IMG, the reading of a stream,
and the start of the regions that a sealed stream committed (R16 to R19, R40, R161, R162, R176 to R186, R204, R205, R252, R263,
R266, R307). -/

namespace Sys2Proof.Machine

/-! ### Outcomes -/

/-- What acting on a C-word comes to: the state after it, a wait at the word, or a refusal with its code and reason (R18, R209). -/
inductive Applied where
  | ok (s : State)
  | wait
  | refuse (code reason : BitVec 8)

/-- R209: BADWORD. -/
def badWord : Applied := .refuse 1 0
/-- R209: BADORDER. -/
def badOrder : Applied := .refuse 2 0
/-- R209: BADTGT. -/
def badTgt : Applied := .refuse 3 0

/-- A change of the running stream. -/
def State.setStream (s : State) (x : Stream) : State := { s with stream := x }

/-- A word that only changes the stream. -/
def okStream (s : State) (x : Stream) : Applied := .ok (s.setStream x)

/-- The graph of the running stream. -/
def State.streamGraph (s : State) : Graph := (s.getGraph s.stream.graph).getD Graph.empty

/-! ### Refusal and undoing (R18, R266) -/

/-- R18: a region goes back to what it held before the stream. -/
def undoRegion (g : Graph) (x : Nat × Option Region) : Graph :=
  match x.2 with
  | none => { g with regions := g.regions.filter fun r => r.id != x.1 }
  | some o =>
    g.onRegion x.1 fun r =>
      if o.loop = .running ∨ o.loop = .paused then
        { r with next := none, loop := if r.loop = .paused then .running else r.loop }
      else
        { r with
          cfg := o.cfg, next := none, loop := o.loop, slots := o.slots, pass := o.pass, sv := o.sv, counters := o.counters
          cursors := o.cursors, acc := o.acc, accIdx := o.accIdx, seed := o.seed, gens := o.gens }

/-- R18: undoes every COMMIT of the stream, the last one first. -/
def undoStream (s : State) : State :=
  s.onGraph s.stream.graph fun g => s.stream.undo.reverse.foldl undoRegion g

/-- R18: the running stream is refused at a word offset; its status lands where a CFG submitted it. -/
def refuseStream (s : State) (code reason : BitVec 8) (off : Nat) : State :=
  let s := if code = 7 then undoStream s else s
  let x := s.stream
  let st : Status := ⟨code, reason, BitVec.ofNat 32 off⟩
  let s := s.setStream { x with
    result := some st, landed := x.ref.isSome, targets := [], extOpen := false, region := none, rowSel := none, high := none, raw := 0 }
  match x.ref with
  | some r => landStatus s r st
  | none => s

/-- R19: the sum of a word's halves. -/
def halves (w : Word) : BitVec 16 := fld w 0 16 + fld w 16 16

/-- The running stream has taken a word. -/
def takeWord (s : State) (w : Word) : State :=
  s.setStream { s.stream with offset := s.stream.offset + 1, sum := s.stream.sum + halves w }

/-- R17, R18: a C-word meets the stream. `free` says that it may stand between FLDH and its FLD. -/
def cword (word : Word) (free : Bool) (body : State → Applied) (s : State) : Result :=
  let s := s.settle
  let off := s.stream.offset
  if s.stream.high.isSome && !free then .next (refuseStream s 2 0 off)
  else
    match body s with
    | .ok s' => .next (takeWord s' word)
    | .wait => .next s
    | .refuse code reason => .next (refuseStream s code reason off)

/-! ### Targets (R16, R17, R179) -/

/-- R16: a rectangle lies inside the bound rectangle of a graph. -/
def Target.bound (x : Target) (g : Graph) : Bool :=
  let u := if x.tiles then 1 else 16
  decide (u * g.trow0 ≤ x.row ∧ x.row + x.rows ≤ u * (g.trow0 + g.trows) ∧
    u * g.tcol0 ≤ x.col ∧ x.col + x.cols ≤ u * (g.tcol0 + g.tcols))

/-- R16, R17: a rectangle joins the target list. -/
def addTarget (x : Target) (s : State) : Applied :=
  if 64 ≤ s.stream.targets.length || !x.bound s.streamGraph then badTgt
  else okStream s { s.stream with targets := s.stream.targets ++ [x], extOpen := true }

/-- R179: TGT. -/
def execTgt (r c : BitVec 10) (l : BitVec 1) (s : State) : Result :=
  cword (1#4 ++ r ++ c ++ 0#7 ++ l) false (fun s =>
    let g := s.streamGraph
    let row := r.toNat + (if l = 1 then 16 * g.trow0 else 0)
    let col := c.toNat + (if l = 1 then 16 * g.tcol0 else 0)
    addTarget ⟨false, row, col, 1, 1⟩ s) s

/-- R16, R17, R179: TGTR. Its own size fields give the tiles that it covers where no EXT follows (assumption 59). -/
def execTgtr (r c h w : BitVec 6) (l : BitVec 1) (s : State) : Result :=
  cword (3#4 ++ r ++ c ++ h ++ w ++ 0#3 ++ l) false (fun s =>
    let g := s.streamGraph
    let row := r.toNat + (if l = 1 then g.trow0 else 0)
    let col := c.toNat + (if l = 1 then g.tcol0 else 0)
    if s.stream.region.isSome then badOrder else addTarget ⟨true, row, col, h.toNat + 1, w.toNat + 1⟩ s) s

/-- R17: the rectangle that an EXT would complete. -/
def Stream.openTarget (x : Stream) : Option Target := if x.extOpen then x.targets.getLast? else none

/-- R16, R18: the size of an EXT takes a rectangle over the limits: the one that it completes, or one at C(0, 0). -/
def Stream.extTooBig (x : Stream) (rows cols : Nat) : Bool :=
  let t := x.openTarget.getD ⟨false, 0, 0, 1, 1⟩
  let lim := if t.tiles then (48, 44) else (768, 704)
  decide (lim.1 < t.row + rows ∨ lim.2 < t.col + cols)

/-- R16, R17: EXT sizes the last rectangle. -/
def extAct (rows cols : Nat) (s : State) : Applied :=
  let x := s.stream
  match x.openTarget with
  | none => badOrder
  | some t =>
    let t' := { t with rows := rows, cols := cols }
    if t'.bound s.streamGraph then okStream s { x with targets := x.targets.dropLast ++ [t'], extOpen := false } else badTgt

/-- R179: EXT. Its limit is checked before the order of the words (R18). -/
def execExt (r c : BitVec 10) (s : State) : Result :=
  let x := s.settle
  if x.stream.extTooBig (r.toNat + 1) (c.toNat + 1) then .next (refuseStream x 1 0 x.stream.offset)
  else cword (2#4 ++ r ++ c ++ 0#8) false (extAct (r.toNat + 1) (c.toNat + 1)) s

/-- R179: CLRT. -/
def execClrt (s : State) : Result :=
  cword 0xB0000000 false (fun s => okStream s { s.stream with targets := [], rowSel := none, extOpen := false }) s

/-- R179: NOPC. -/
def execNopc (s : State) : Result := cword 0 true (fun s => .ok s) s

/-! ### Fields (R183 to R186) -/

/-- R184 to R186: the bits that a field may hold, none for a number that names no field. -/
def fieldMask (n : Nat) : Option (BitVec 32) :=
  if n = 0 then some 0x7F
  else if n ≤ 3 then some 0xFFFFFFFF
  else if n = 4 then some 0xF
  else if n = 5 then some 0xFFFF
  else if n = 6 then some 0xFF
  else if n = 7 then some 0x7F
  else if 0x21 ≤ n ∧ n ≤ 0x3F then some 0xFFFFFFFF
  else if 0x40 ≤ n ∧ n ≤ 0x5F then some 0x303FF
  else if 0x80 ≤ n ∧ n ≤ 0xBF then some (if n % 2 = 0 then 0x7FFFFFF else 0x3FFFFF)
  else if 0x100 ≤ n ∧ n ≤ 0x1FF then
    some (if n % 8 = 1 then 0x1FFFFFFF else if n % 8 = 5 then 0x3FFFFFFF else if n % 8 = 7 then 0x7FF else 0xFFFFFFFF)
  else if n = 0x200 then some 0xFFFFFFFF
  else if n = 0x201 then some 0x3F
  else if n = 0x300 ∨ n = 0x301 then some 0x3F3F
  else none

/-- The cells of a rectangle. -/
def Target.cells (x : Target) : List (Nat × Nat) :=
  (List.range x.rows).flatMap fun r => (List.range x.cols).map fun c => (x.row + r, x.col + c)

/-- The reset value of a region field (R184). -/
def fieldReset (n : Nat) : BitVec 32 := match n with | 0 => 1 | 4 => 1 | 6 => 0x80 | _ => 0

/-- A field written, none listed at its reset value. -/
def putFieldAt (l : Sparse (BitVec 32)) (n : Nat) (v : BitVec 32) : Sparse (BitVec 32) :=
  if v = fieldReset n then assocDrop l n else assocPut l n v

/-- The number of a cell of a region, and of a row in it. -/
def cellKey (i j : Nat) : Nat := i * 1024 + j

/-- A row or cell field written to one cell of a pending copy. -/
def RegionCfg.putCellField (c : RegionCfg) (n row : Nat) (v : BitVec 32) (cell : Nat × Nat) : RegionCfg :=
  let k := cellKey (cell.1 - c.row0) (cell.2 - c.col0)
  if n = 0x201 then { c with rrte := sparsePut 0 c.rrte (row * 2 ^ 20 + k) (fld v 0 6) }
  else if n = 0x300 then { c with dlyIn := sparsePut 0 c.dlyIn k (fld v 0 14) }
  else { c with dlyOut := sparsePut 0 c.dlyOut k (fld v 0 14) }

/-- R183: the effect of FLD on the pending copy. A row or cell field whose target list is empty reaches no cell (assumption 59). -/
def fldAct (n : Nat) (low : BitVec 16) (s : State) : Applied :=
  let x := s.stream
  let v : BitVec 32 := x.high.getD 0 ++ low
  let done (id : Nat) (c : RegionCfg) : Applied := okStream s { x with region := some (id, c), high := none, extOpen := false }
  match fieldMask n with
  | none => badWord
  | some m =>
    if v &&& ~~~m ≠ 0 then badWord
    else
      match x.region with
      | none => badOrder
      | some (id, c) =>
        if n < 0x200 then done id { c with fields := putFieldAt c.fields n v }
        else if n = 0x200 then
          match x.rowSel with
          | none => badOrder
          | some r => done id { c with words := sparsePut 0 c.words r.toNat v }
        else if (n = 0x201 && x.rowSel.isNone) || x.targets.any fun t => t.tiles then badOrder
        else
          let cells := x.targets.flatMap Target.cells
          if cells.any fun p => !c.holds p.1 p.2 then badTgt
          else done id (cells.foldl (fun c p => c.putCellField n (x.rowSel.getD 0).toNat v p) c)

/-- R183: FLD. -/
def execFld (f : BitVec 12) (v : BitVec 16) (s : State) : Result := cword (4#4 ++ f ++ v) true (fldAct f.toNat v) s

/-- R17, R179: FLDH; another FLDH may not follow it. -/
def execFldh (v : BitVec 16) (s : State) : Result :=
  cword (5#4 ++ 0#12 ++ v) false (fun s => okStream s { s.stream with high := some v, extOpen := false }) s

/-- R179: ROW. -/
def execRow (n : BitVec 6) (s : State) : Result :=
  cword (6#4 ++ n ++ 0#22) false (fun s =>
    if s.stream.region.isNone then badOrder else okStream s { s.stream with rowSel := some n, extOpen := false }) s

/-! ### TYPE (R180, R266) -/

/-- Drops the cell fields of cells that a rectangle does not have. -/
def RegionCfg.trim (c : RegionCfg) : RegionCfg :=
  let inside (k : Nat) : Bool := decide (k / 1024 % 1024 < c.rows ∧ k % 1024 < c.cols)
  { c with
    rrte := c.rrte.filter fun x => inside x.1
    dlyIn := c.dlyIn.filter fun x => inside x.1
    dlyOut := c.dlyOut.filter fun x => inside x.1 }

/-- R180: the pending copy that TYPE opens. -/
def openRegion (old : Option Region) (t : Target) (typ : BitVec 2) (stage : BitVec 8) (spine : BitVec 3) (mode : BitVec 5) :
    RegionCfg :=
  let c := match old with | some r => r.cfg | none => RegionCfg.empty
  { c with typ := typ, row0 := t.row, col0 := t.col, rows := t.rows, cols := t.cols, stage := stage, spine := spine, mode := mode }.trim

/-- R180, R266: the effect of TYPE. -/
def typeAct (t : BitVec 2) (i : BitVec 10) (st : BitVec 8) (p : BitVec 3) (m : BitVec 5) (s : State) : Applied :=
  let x := s.stream
  match x.region, x.targets with
  | none, [r] =>
    if r.tiles then badOrder
    else
      let old := s.streamGraph.getRegion i.toNat
      if old.any fun y => y.next.isSome then .wait
      else okStream s { x with region := some (i.toNat, openRegion old r t st p m), rowSel := none, extOpen := false }
  | _, _ => badOrder

/-- R180: TYPE. -/
def execTypeWord (t : BitVec 2) (i : BitVec 10) (st : BitVec 8) (p : BitVec 3) (m : BitVec 5) (s : State) : Result :=
  cword (7#4 ++ t ++ i ++ st ++ p ++ m) false (typeAct t i st p m) s

/-! ### IMG (R162, R182, R307) -/

/-- The tiles of a target list. -/
def targetTiles (l : List Target) : List Nat :=
  l.flatMap fun x => x.cells.map fun p => tileNum p.1 p.2

/-- R162: a user stream would write supervisor code of a tile. -/
def State.guardsCode (s : State) (t last : Nat) : Bool :=
  let c := (s.getTile t).core
  c.tvecValid && decide (c.tvecEntry.toNat ≤ last)

/-- R182: the effect of IMG before its raw words. An empty target list is no list of TGTR rectangles (assumption 59). -/
def imgAct (n start : Nat) (s : State) : Applied :=
  let x := s.stream
  if x.targets.isEmpty || x.targets.any fun t => !t.tiles then badOrder
  else if x.user && (targetTiles x.targets).any fun t => s.guardsCode t (start + n - 1) then badTgt
  else okStream s { x with raw := n, rawAt := start, extOpen := false }

/-- R182: IMG. -/
def execImg (c : BitVec 12) (st : BitVec 10) (s : State) : Result :=
  cword (8#4 ++ c ++ 0#6 ++ st) false (imgAct c.toNat st.toNat) s

/-- R161, R182: a word written to the code store of a tile, its check bits sound. -/
def Tile.putCode (t : Tile) (a : Nat) (w : Word) : Tile :=
  { t with code := sparsePut 0 t.code a w, codeMarks := sparsePut .clean t.codeMarks a .clean }

/-- R182: a raw word of an IMG. -/
def rawWord (w : Word) (s : State) : State :=
  let x := s.stream
  let s := (targetTiles x.targets).foldl (fun s t => s.putTile t ((s.getTile t).putCode x.rawAt w)) s
  takeWord (s.setStream { x with raw := x.raw - 1, rawAt := x.rawAt + 1 }) w

/-! ### What COMMIT refuses (R40, R204, R205) -/

/-- R35, R39: a cell word taken apart. -/
def rowOfWord (w : Word) : CellRow :=
  let op := (fld w 26 6).toNat
  let int := op == 0x3E
  ⟨if int then 64 + (fld w 0 5).toNat else op, fld w 23 3, fld w 20 3, fld w 17 3, fld w 14 3, fld w 11 3, fld w 10 1, fld w 9 1,
    fld w 5 4, if int then 0 else fld w 0 5⟩

/-- Row r of a configuration with what R190 says of it, where the row is legal in the region's type. -/
def RegionCfg.legalRow (c : RegionCfg) (r : Nat) : Option (CellRow × CellOpInfo) :=
  let row := rowOfWord (sparseGet 0 c.words r)
  match cellOpInfo row.op with
  | none => none
  | some p => if cellRowLegal row && p.types.contains c.typ.toNat then some (row, p) else none

/-- R190, R204: what a row writes: 0 to 3 for c0 to c3, 4 for E, 5 for S. -/
def rowWrites (row : CellRow) : List Nat :=
  if 1 ≤ row.op ∧ row.op ≤ 3 then [4, 5]
  else if (0x0E ≤ row.op ∧ row.op ≤ 0x11) ∨ row.op = 0x13 ∨ row.op = 0x14 then []
  else if row.op = 0x37 then (List.range 4).filter fun k => decide (row.d.toNat ≤ k)
  else
    match row.d.toNat with
    | 4 => [4]
    | 5 => [5]
    | 6 => [4, 5]
    | 7 => []
    | k => [k]

/-- R140, R148, R149, R190: the c-registers that a row reads; VDOT reads its addend, VHIST its bins and VHMRG the range of its
operands. -/
def rowReads (row : CellRow) (p : CellOpInfo) : List Nat :=
  (((if p.useA then [row.a.toNat] else []) ++ (if p.useB then [row.b.toNat] else []) ++
    (if p.useC then [row.c.toNat] else [])).filter fun k => decide (k < 4)) ++
  (if row.op = 0x30 then [row.d.toNat].filter fun k => decide (k < 4) else []) ++
  (if row.op = 0x37 then (List.range 4).filter fun k => decide (row.d.toNat ≤ k) else []) ++
  (if row.op = 0x38 then (List.range 4).filter fun k => decide (row.a.toNat ≤ k ∧ k ≤ row.b.toNat) else [])

/-- EPASS and SPASS of a route. -/
def routeE (v : BitVec 6) : BitVec 3 := fld v 0 3
/-- SPASS. -/
def routeS (v : BitVec 6) : BitVec 3 := fld v 3 3

/-- The routes of a row, over the cells of the region. -/
def RegionCfg.routes (c : RegionCfg) (r : Nat) : List (BitVec 6) :=
  (c.rrte.filter fun x => x.1 / 2 ^ 20 == r).map Prod.snd

/-- R186: the outputs that a row's route passes write. -/
def RegionCfg.passes (c : RegionCfg) (r : Nat) : List Nat :=
  (if (c.routes r).any fun v => routeE v != 0 then [4] else []) ++ (if (c.routes r).any fun v => routeS v != 0 then [5] else [])

/-- R204: what lands at the end of which slot: row, target, slot modulo RROWS. -/
def RegionCfg.landings (c : RegionCfg) (n : Nat) : List (Nat × Nat × Nat) :=
  (List.range n).flatMap fun r =>
    ((match c.legalRow r with
      | some (row, p) => (rowWrites row).map fun k => (r, k, (r + p.lat - 1) % n)
      | none => []) ++
     (c.passes r).map fun k => (r, k, r))

/-- R204: row r reads a c-register while a write to it is in flight. -/
def RegionCfg.readsInFlight (c : RegionCfg) (n r : Nat) : Bool :=
  match c.legalRow r with
  | none => false
  | some (row, p) =>
    (List.range n).any fun w =>
      match c.legalRow w with
      | none => false
      | some (row', p') =>
        ((List.range (p'.lat - 1)).any fun k => (w + k + 1) % n == r) &&
        (rowWrites row').any fun k => decide (k < 4) && (rowReads row p).contains k

/-- R204: row r fails. -/
def RegionCfg.rowBad (c : RegionCfg) (n r : Nat) : Bool :=
  let all := c.landings n
  let mine := all.filter fun x => x.1 == r
  (c.legalRow r).isNone ||
  ((c.routes r).any fun v => decide (2 < (routeE v).toNat ∨ 2 < (routeS v).toNat)) ||
  (match c.legalRow r with
   | some (row, _) => (rowWrites row).any fun k => (c.passes r).contains k
   | none => false) ||
  (mine.any fun x => all.any fun y => y.1 != r && y.2 == x.2) ||
  c.readsInFlight n r

/-- R40, R204: the lowest-numbered row that fails. -/
def RegionCfg.badRow (c : RegionCfg) : Option Nat :=
  let n := min c.rrows 64
  (List.range n).find? fun r => c.rowBad n r

/-- The legal rows that run. -/
def RegionCfg.liveRows (c : RegionCfg) : List CellRow :=
  (List.range c.rrows).filterMap fun r => (c.legalRow r).map Prod.fst

/-- The tiles of a rectangle of cells. -/
def RegionCfg.tiles (c : RegionCfg) : List Nat :=
  (List.range 48).flatMap fun r => (List.range 44).filterMap fun k =>
    if c.row0 / 16 ≤ r ∧ r ≤ (c.row0 + c.rows - 1) / 16 ∧ c.col0 / 16 ≤ k ∧ k ≤ (c.col0 + c.cols - 1) / 16 then some (tileNum r k)
    else none

/-- Two rectangles share a cell. -/
def RegionCfg.meets (a b : RegionCfg) : Bool :=
  decide (a.row0 < b.row0 + b.rows ∧ b.row0 < a.row0 + a.rows ∧ a.col0 < b.col0 + b.cols ∧ b.col0 < a.col0 + a.cols)

/-- R205 reason 1. -/
def State.overlaps (s : State) (g id : Nat) (c : RegionCfg) : Bool :=
  s.allGraphs.any fun x => x.regions.any fun r =>
    !(x.slot == g && r.id == id) && (c.meets r.cfg || r.next.any c.meets)

/-- R185: a field of stream k. -/
def RegionCfg.stream (c : RegionCfg) (k o : Nat) : BitVec 32 := c.field (0x100 + 8 * k + o)

/-- R205 reason 7 for a stream. -/
def RegionCfg.streamBad (c : RegionCfg) (k : Nat) : Bool :=
  fld (c.stream k 0) 0 6 != 0 || fld (c.stream k 2) 0 6 != 0 || fld (c.stream k 3) 0 6 != 0 || fld (c.stream k 4) 0 6 != 0 ||
  decide (5 ≤ (fld (c.stream k 1) 17 3).toNat) ||
  (if (c.stream k 7).getLsbD 10 then decide (1 < c.rows) else decide (1 < c.cols))

/-- R205: the region checks in the order of its table: the reason of the first that fails. -/
def State.badRegion (s : State) (g : Graph) (id : Nat) (c : RegionCfg) : Option Nat :=
  let rows := c.liveRows
  let rsvd := (fld (c.field 4) 0 4).toNat
  firstBad [
    (s.overlaps g.slot id c, 1),
    (c.tiles.any fun t => (s.getTile t).spine.sel != c.spine, 2),
    (decide (c.rrows = 0 ∨ 64 < c.rrows ∨ rsvd = 0 ∨ 8 < rsvd ∨ 64 < c.racc ∨ (c.racc ≠ 0 ∧ c.typ ≠ 0)), 3),
    (decide (6 ≤ (fld c.mode 2 3).toNat), 4),
    (rows.any (fun r => r.op == 2 || r.op == 3) && c.rows % 3 != 0, 5),
    (c.feedRows.any fun x =>
      let edge := edgeOfCode (fld (c.fdb x.2) 10 2)
      let right := if x.1 = 0x13 then edge == .n || edge == .w else edge == .s || edge == .e
      !right || (c.edgeTiles edge).any fun t => !(s.getTile t).owns (fld (c.fda x.2) 0 8).toNat g.ctx, 6),
    (rows.any fun r => decide (0x0E ≤ r.op ∧ r.op ≤ 0x11) && c.streamBad r.x.toNat, 7),
    (rows.any fun r => r.op == 0x12 && !c.winDef r.x.toNat, 8),
    (!(s.skewOk c && s.kappaOk c), 9)]

/-! ### COMMIT (R181, R263) -/

/-- R263, R292: a gate closes: its beats are dropped, both regions record it, and the consumer's graph stops. -/
def closeGate (s : State) (x : Gate) : State :=
  let s := { s with gates := s.gates.map fun (y : Gate) => if y.num = x.num then { y with closed := true, beats := [] } else y }
  let mark (r : Region) : Region := { r with status := { r.status with gatef := true } }
  let drop (g : Graph) : Graph := (g.drop (holdGateOut x.num)).drop (holdGateIn x.num)
  let s := (s.onRegion x.fromGraph x.fromRegion mark).onRegion x.toGraph x.toRegion mark
  let s := (s.onGraph x.fromGraph drop).onGraph x.toGraph drop
  s.onGraph x.toGraph fun g =>
    match g.getRegion x.toRegion with
    | some r =>
      let g := g.stop (r.faultRec s.time graphGate (BitVec.ofNat 64 x.num) (r.cfg.edgeTile x.toEdge x.toFirst).1) 8
      { g with faulted := g.faulted ++ [r.id] }
    | none => g

/-- R263: a region takes a stage other than the one that its gates recorded. -/
def closeStaged (s : State) (g id : Nat) (stage : BitVec 8) : State :=
  (s.gates.filter fun x => !x.closed && ((x.fromGraph == g && x.fromRegion == id && x.fromStage != stage) ||
    (x.toGraph == g && x.toRegion == id && x.toStage != stage))).foldl closeGate s

/-- R181, R201: every feed cursor at its OFFSET. -/
def RegionCfg.cursors (c : RegionCfg) : Sparse (Nat × Nat) :=
  (List.range 32).map fun f => (f, ((fld (c.fda f) 8 9).toNat, 0))

/-- R181: the region after its COMMIT. -/
def commitRegion (g : Graph) (id : Nat) (c : RegionCfg) : Region :=
  match g.getRegion id with
  | none => { Region.empty with id := id, cfg := c, cursors := c.cursors, seed := fld (c.field 5) 0 16, wards := g.wards }
  | some r =>
    if r.loop = .running ∨ r.loop = .paused then { r with next := some c }
    else { r with cfg := c, counters := [], cursors := c.cursors }

/-- R18, R181, R204, R205: the effect of COMMIT. -/
def commitAct (i : BitVec 10) (s : State) : Applied :=
  let x := s.stream
  match x.region with
  | none => badOrder
  | some (id, c) =>
    if id ≠ i.toNat then badOrder
    else
      let g := s.streamGraph
      match c.badRow with
      | some r => .refuse 5 (BitVec.ofNat 8 r)
      | none =>
        match s.badRegion g id c with
        | some r => .refuse 6 (BitVec.ofNat 8 r)
        | none =>
          let r := commitRegion g id c
          let s := s.putGraph (g.putRegion r)
          let s := s.setStream { x with
            undo := x.undo ++ [(id, g.getRegion id)], targets := [], region := none, rowSel := none, extOpen := false }
          .ok (if r.next.isNone then closeStaged s g.slot id c.stage else s)

/-- R181: COMMIT. -/
def execCommit (i : BitVec 10) (s : State) : Result := cword (9#4 ++ 0#2 ++ i ++ 0#16) false (commitAct i) s

/-! ### SEAL (R17, R19, R252) -/

/-- R17, R19, R179: the effect of SEAL: the stream has ended, and its regions start. -/
def sealAct (c : BitVec 16) (s : State) : State :=
  let ran (r : Region) : Bool := r.loop == .running || r.loop == .paused
  let x := s.stream
  if x.region.isSome then refuseStream s 2 0 x.offset
  else if x.sum + c ≠ 0 then refuseStream s 7 0 x.offset
  else if x.offset + 1 ≠ x.len then refuseStream s 4 0 (x.offset + 1)
  else
    (s.setStream { x with offset := x.offset + 1, sealed := true, result := some (.ok 0), extOpen := false }).onGraph x.graph
      fun g => { g with starts := g.starts ++ [(64, (x.undo.filter fun u => !u.2.any ran).map Prod.fst)] }

/-- R19: SEAL. -/
def execSealWord (c : BitVec 16) (s : State) : Result :=
  let s := s.settle
  if s.stream.high.isSome then .next (refuseStream s 2 0 s.stream.offset) else .next (sealAct c s)

/-- R252: a region starts its loop context. -/
def Region.start (r : Region) : Region :=
  let c := r.next.getD r.cfg
  { r with cfg := c, next := none, loop := .running, slots := 0, pass := 0, sv := 0 }

/-- R252: one management cycle on the way to the start of a graph's regions. -/
def Graph.ageStarts (g : Graph) : Graph := { g with starts := g.starts.map fun x => (x.1 - 1, x.2) }

/-- R252: the regions of the oldest sealed stream that did not run at their COMMIT start, all in one slot. -/
def Graph.startNext (g : Graph) : Graph :=
  match g.starts with
  | [] => g
  | x :: rest =>
    { g with
      starts := rest
      regions := g.regions.map fun r => if x.2.contains r.id ∧ (r.loop = .idle ∨ r.loop = .runOut) then r.start else r }

/-- R252: REGION_START: every region that the sealed stream committed and that does not run starts, in one slot. -/
def execRegionStart (g : Nat) (s : State) : Result := .next (s.settle.onGraph g Graph.startNext)

/-! ### Reading a stream (R177, R284, R307) -/

/-- R177: CFG_STREAM_READ: the root begins to read the stream that runs on its net. -/
def execCfgStreamRead (net : Nat) (s : State) : Result :=
  let s := s.focusNet net
  .next (s.setStream { s.stream with started := true })

/-- What the root has to say of the next word: the word with the state, a refusal that has been made, or a wait. -/
inductive NextWord where
  | word (w : Word) (s : State)
  | other (s : State)

/-- R17, R177, R307: the next word of the stream that runs on the net in focus. -/
def nextWord (s : State) : NextWord :=
  let x := s.stream
  if x.len ≤ x.offset then .other (refuseStream s 4 0 x.len)
  else
    let va := x.va + 4 * x.offset
    if x.raw != 0 && !((findWard x.wards va).any fun w => w.px) then .other (refuseStream s 8 0 x.offset)
    else
      match (engineRead s (.root s.netIdx) x.ctx x.wards Engine.reset false va 4).1 with
      | .got v s' => .word (BitVec.ofNat 32 v) (dropArrived s' (.root s.netIdx))
      | .failed _ s' => .other (refuseStream (dropArrived s' (.root s.netIdx)) 8 0 x.offset)
      | .unmapped p ia s' => .other (addNotice (s'.setStream { x with paused := true }) p (.root s.netIdx) x.ctx 2 ia)
      | .wait s' => .other s'

/-- R266: whether a region that the stream committed has still to switch. -/
def State.streamWaits (s : State) : Bool :=
  let g := s.streamGraph
  s.stream.undo.any fun x => (g.getRegion x.1).any fun r => r.next.isSome

/-- R176: the next stream of the net in focus runs. -/
def State.nextStream (s : State) : State :=
  let q := s.nets.toList.getD s.netIdx ⟨Stream.empty, []⟩
  match q.queue with
  | [] => s.setStream Stream.empty
  | x :: rest => { s.setStream x with nets := s.nets.setIfInBounds s.netIdx { q with queue := rest } }

/-- R177, R266: a stream that has ended lands its status, once its running regions have switched, and makes room. -/
def State.endStream (s : State) : State :=
  match s.stream.result with
  | none => s
  | some st =>
    if s.streamWaits then s
    else
      match s.stream.ref with
      | some r => if s.stream.landed then s.nextStream else (landStatus s r st).nextStream
      | none => s

end Sys2Proof.Machine
end

