-- ==== Sys2Proof/Machine/Agn.lean ====
section
/-! DEFINITION. The rows that reach memory, windows and operand memory: AGEN, AREQ, ASTQ, ARED, AWIN, FEEDR and OUTR (R185, R198 to
R202, R257, R261, R262, R275, R276, R284 to R290, R320). -/

namespace Sys2Proof.Machine

/-! ### Address streams (R185, R198) -/

/-- The counters n0, n1 and n2 of a stream. -/
def Region.counts (r : Region) (k : Nat) : Nat × Nat × Nat := sparseGet (0, 0, 0) r.counters k

/-- R198: the VA of stream k at cell (i, j). -/
def Region.streamVa (r : Region) (k i j : Nat) : Nat :=
  let c := r.cfg
  let n := r.counts k
  let base : Int := ((c.stream k 0).toNat + 2 ^ 32 * (fld (c.stream k 1) 0 16).toNat : Nat)
  let off : Int := n.1 * (c.stream k 2).toInt + n.2.1 * (c.stream k 3).toInt + n.2.2 * (c.stream k 4).toInt +
    64 * (i * (fld (c.stream k 6) 0 16).toInt + j * (fld (c.stream k 6) 16 16).toInt)
  ((base + off) % 2 ^ 48).toNat

/-- R198: one step of the counters of a stream. -/
def Region.stepStream (r : Region) (k : Nat) : Region :=
  let v := r.cfg.stream k 5
  let n := r.counts k
  let next : Nat × Nat × Nat :=
    if n.1 < (fld v 0 10).toNat then (n.1 + 1, n.2.1, n.2.2)
    else if n.2.1 < (fld v 10 10).toNat then (0, n.2.1 + 1, n.2.2)
    else if n.2.2 < (fld v 20 10).toNat then (0, 0, n.2.2 + 1)
    else (0, 0, 0)
  { r with counters := sparsePut (0, 0, 0) r.counters k next }

/-- R198: AGEN. -/
def execCellAgen (q : BitVec 3) (i o : BitVec 1) (k : BitVec 5) (s : State) : Result :=
  .next { s with region := s.region.stepStream k.toNat }

/-! ### Replies (R199) -/

/-- Every valid bit of the tokens that a tag holds. -/
def fullValid (tag : BitVec 4) : BitVec 128 := BitVec.ofNat 128 (2 ^ (16 * tokensOf tag.toNat) - 1)

/-- One exponent byte at each token position of a tag. -/
def sameExps (n : Nat) (e : BitVec 8) : BitVec 64 :=
  BitVec.ofNat 64 ((List.range n).foldl (fun v q => v + e.toNat * 2 ^ (8 * q)) 0)

/-- A beat of 64 bytes with every valid bit set and one exponent (R199, R201). -/
def dataBeat (tag : BitVec 4) (data : Line) (e : BitVec 8) : Beat :=
  ⟨data, tag, sameExps (tokensOf tag.toNat) e, false, fullValid tag, 0⟩

/-- R199: the beat of a reply. -/
def replyBeat (dec : Bool) (tag : BitVec 4) (line : Line) : Beat :=
  if dec then ⟨fld line 0 384 |>.setWidth 512, tag, sameExps 3 (fld line 384 8), false, BitVec.ofNat 128 (2 ^ 48 - 1), 0⟩
  else dataBeat tag line 0

/-! ### The accesses of an AGN region, its graph in focus and no region in focus -/

/-- A region of the graph in focus. -/
def State.reg (s : State) (r : Nat) : Region := (s.graph.getRegion r).getD Region.empty

/-- A region of the graph in focus changed. -/
def State.onReg (s : State) (r : Nat) (f : Region → Region) : State := { s with graph := s.graph.onRegion r f }

/-- R254: a hold source of the graph in focus is raised. -/
def State.raise (s : State) (src : Nat) : State := { s with graph := s.graph.raise src }

/-- R254: a hold source of the graph in focus is dropped. -/
def State.lower (s : State) (src : Nat) : State := { s with graph := s.graph.drop src }

/-! ### The order of a region's accesses (R285, R286, R319, R320) -/

/-- R320: how a region orders an access of a page. -/
def Region.attrAt (r : Region) (dest : Option (BitVec 14)) (ia : Nat) : BitVec 2 := attrOf r.attrs (pageKey dest ia)

/-- R345: the lines that the read of an AREQ reads. -/
def State.reqLines (s : State) (x : AgnReq) : List Nat := if x.dest.isSome then [x.ia / 64] else loadLines s x.ia

/-- R319, R320: whether a read and another access of region r, of some lines, keep their order: one line that is not UN, or SO pages
both. -/
def State.reqOrdered (s : State) (r : Region) (x : AgnReq) (dest : Option (BitVec 14)) (lines : List Nat) (attr : BitVec 2) : Bool :=
  (x.dest == dest && attr != 2 && (s.reqLines x).any lines.contains) || (attr == 0 && r.attrAt x.dest x.ia == 0)

/-- R286, R320: why an AREQ raises the hold: an older creel entry of its line, or an older SO access for an SO read. -/
def State.reqHolds (s : State) (x : AgnReq) : Bool :=
  let r := s.reg x.agn
  let so := r.attrAt x.dest x.ia == 0
  creelHolds (r.creel.filter fun e => decide (e.seq < x.barrier)) x.dest (s.reqLines x) so ||
  (so && ((s.graph.requests.any fun y =>
      y.agn == x.agn && decide (y.id < x.id) && y.answer.isNone && r.attrAt y.dest y.ia == 0) ||
    (r.owedRemote.any fun w => w.entry.attr == 0) ||
    r.heldWrites.any fun w => decide (w.pos ≤ x.id) && w.entry.attr == 0))

/-- R319: whether an AREQ waits for an older access of its region to its line. -/
def State.reqBehind (s : State) (x : AgnReq) : Bool :=
  let r := s.reg x.agn
  let lines := s.reqLines x
  let attr := r.attrAt x.dest x.ia
  (s.graph.requests.any fun y =>
    y.agn == x.agn && decide (y.id < x.id) && y.answer.isNone && s.reqOrdered r y x.dest lines attr) ||
  (attr != 2 && ((r.owedRemote.any fun w => w.entry.meets x.dest lines) ||
    r.heldWrites.any fun w => decide (w.pos ≤ x.id) && w.entry.meets x.dest lines))

/-! ### Reads (R198, R199) -/

/-- A request of the graph in focus changed. -/
def State.onReq (s : State) (id : Nat) (f : AgnReq → AgnReq) : State :=
  { s with graph := { s.graph with requests := s.graph.requests.map fun x => if x.id = id then f x else x } }

/-- R199: a request has its answer, which is on its way to the latch. -/
def State.answerReq (s : State) (id : Nat) (b : Beat) : State :=
  { s.onReq id (fun x => { x with answer := some b, held := none, remote := none }) with
    agenda := s.agenda ++ [.windowReplyArrive (s.graph.slot + 64 * id)] }

/-- R198, R290: a request that failed: the reply is all-invalid and the region status records it. -/
def State.failReq (s : State) (x : AgnReq) (out : BitVec 6) (ia : Nat) : State :=
  (s.onReg x.agn fun r => r.addFailure out (BitVec.ofNat 44 ia)).answerReq x.id (Beat.invalid x.tag)

/-- R320: a reply's attribute enters a region's cache. -/
def Region.sawAttr (r : Region) (key : Nat) (attr : BitVec 2) : Region := { r with attrs := seeAttr r.attrs key attr }

/-- R99, R198, R284: the home hub meets the line read of an AREQ. -/
def State.readReq (s : State) (x : AgnReq) : State :=
  match hubLoad s x.ia 64 (Access.loads false) with
  | .value v attr s' =>
    (s'.onReg x.agn fun r => r.sawAttr (x.ia / 65536) attr).answerReq x.id (replyBeat x.dec x.tag (BitVec.ofNat 512 v))
  | .unmapped p =>
    ((addNotice s p (.agn s.graph.slot x.agn) s.graph.ctx 0 x.ia).onReq x.id fun y => { y with held := some p }).raise
      (holdLoadSrc x.id)
  | .refused _ => s.failReq x outRefused x.ia
  | .poisoned s' => s'.failReq x outPoison x.ia

/-- R326: the line read of an AREQ leaves for another module. -/
def State.sendReq (s : State) (x : AgnReq) (m : BitVec 14) : State :=
  let id := s.island.pktId
  (sendRequest s (.agn s.graph.slot x.agn) s.graph.ctx m x.ia false [] fun n => .read n x.ia 64).onReq x.id fun y =>
    { y with remote := some id }

/-- An AREQ that cannot be sent yet is tried again. -/
def State.delayReq (s : State) (x : AgnReq) : State := { s with hubq := s.hubq ++ [.areq s.graph.slot x.id] }

/-- R198, R286, R320, R326: an AREQ is sent, or waits: with the graph's hold raised where R286 or R320 holds it. -/
def State.tryReq (s : State) (x : AgnReq) : State :=
  if s.reqHolds x then (s.raise (holdLoadSrc x.id)).delayReq x
  else
    let s := s.lower (holdLoadSrc x.id)
    if s.reqBehind x then s.delayReq x
    else match x.dest with
      | some m => s.sendReq x m
      | none => if s.recalls (s.reqLines x) then (recallLines s (s.reqLines x)).delayReq x else s.readReq x

/-- A queued AREQ of a graph is tried. -/
def areqStep (s : State) (g id : Nat) : State :=
  let s := s.focusGraph g
  match s.graph.requests.find? fun x => x.id == id with
  | none => s
  | some x =>
    if s.graph.slot ≠ g ∨ x.answer.isSome = true ∨ x.held.isSome = true ∨ x.remote.isSome = true then s else s.tryReq x

/-- R198: the AREQ of one cell of region r. -/
def State.areqCell (s : State) (r k : Nat) (p : Nat × Nat) : State :=
  let rg := s.reg r
  let c := rg.cfg
  let hi := c.stream k 1
  let cons := c.stream k 7
  let edge : Edge := if cons.getLsbD 10 then .n else .w
  let pos := if cons.getLsbD 10 then p.2 else p.1
  let id := s.graph.reqId
  let va := rg.streamVa k p.1 p.2
  let tag := fld hi 20 4
  let latch : Latch := ⟨id, fld hi 24 5, edge, pos, s.graph.slotNo, none⟩
  let w := findWard rg.wards.toList va
  let ia := match w with | some w => w.ia va | none => va
  let x : AgnReq := ⟨id, r, (fld cons 0 10).toNat, ia, w.bind Ward.dest, hi.getLsbD 16, tag, rg.creelSeq, none, none, none⟩
  let s := s.onReg (fld cons 0 10).toNat fun y => { y with latches := y.latches ++ [latch] }
  let s := { s with graph := { s.graph with reqId := id + 1, requests := s.graph.requests ++ [x] } }
  match w with
  | none => s.failReq x outRefused va
  | some w => if !w.pr then s.failReq x outRefused va else s.tryReq x

/-- A row that acts on memory, cell by cell in the order of R198. -/
def memoryRow (f : State → Nat → Nat × Nat → State) (s : State) : State :=
  let r := s.region.id
  let cells := s.region.cfg.cells
  (cells.foldl (fun s p => f s r p) s.settle).focusRegion r

/-- R198: AREQ. -/
def execCellAreq (q : BitVec 3) (i o : BitVec 1) (k : BitVec 5) (s : State) : Result :=
  .next (memoryRow (fun s r p => s.areqCell r k.toNat p) s)

/-! ### Stores and reductions (R198, R285, R326) -/

/-- R285: a write that a region has sent, with the outcome that its acknowledgement will report. -/
def State.pushAgnSent (s : State) (r : Nat) (e : CreelEntry) (attr : BitVec 2) (out : BitVec 6) : State :=
  { s.onReg r (fun x => { x with sent := x.sent ++ [⟨e.failIa, s.graph.ctx, attr, out⟩] }) with
    agenda := s.agenda ++ [.writeAcknowledgement (.agn s.graph.slot r)] }

/-- R285: whether a region's creel and its reservations fill its 128 entries. -/
def Region.creelFull (r : Region) : Bool := decide (128 ≤ r.creel.length + r.sent.length + r.owedRemote.length)

/-- The entry of a line write of a region (R288). -/
def Region.entryOf (r : Region) (ctx : BitVec 16) (w : Ward) (ia : Nat) (op : BitVec 3) (mask : BitVec 64) (data : Line) :
    CreelEntry :=
  { ia := BitVec.ofNat 44 (ia / 64 * 64)
    op := op
    scope := w.scope
    attr := r.attrAt w.dest ia
    ord := false
    state := .pending
    mask := mask
    ctx := ctx
    out := 0
    seq := 0
    data := data
    key := none
    hoop := none
    ref := none
    dest := w.dest }

/-- R288: an entry takes its place in a region's creel. -/
def Region.pushEntry (r : Region) (e : CreelEntry) : Region :=
  { r with creel := r.creel ++ [{ e with seq := r.creelSeq }], creelSeq := r.creelSeq + 1 }

/-- R285, R286: a write becomes an entry of region r; the reads issued after it, whose numbers are `pos` and above, follow it. -/
def State.pushAgnEntry (s : State) (r pos : Nat) (e : CreelEntry) : State :=
  let seq := (s.reg r).creelSeq
  let s := s.onReg r fun x => x.pushEntry e
  { s with graph := { s.graph with requests := s.graph.requests.map fun y =>
      if y.agn = r ∧ pos ≤ y.id then { y with barrier := seq + 1 } else y } }

/-- R285, R320: a write of region r holds the graph: its creel is full, or an SO write of it to another module has not been
performed. -/
def Region.writeHolds (r : Region) (e : CreelEntry) : Bool :=
  r.creelFull || (e.attr == 0 && r.owedRemote.any fun w => w.entry.attr == 0)

/-- R319, R326: a write of region r waits for a read issued before it, for a write to its line in another module, or for a line that is
recalled. -/
def State.writeBehind (s : State) (r : Region) (pos : Nat) (e : CreelEntry) : Bool :=
  (s.graph.requests.any fun y =>
    y.agn == r.id && decide (y.id < pos) && y.answer.isNone && s.reqOrdered r y e.dest [e.ia.toNat / 64] e.attr) ||
  (e.attr != 2 && r.owedRemote.any fun w => w.entry.meets e.dest [e.ia.toNat / 64]) ||
  (e.dest.isNone && s.reducesHeld e.op (e.ia.toNat / 64))

/-- R99, R285, R287, R326: a write of region r is sent, or becomes an entry. -/
def State.sendAgnWrite (s : State) (r pos : Nat) (e : CreelEntry) : State :=
  let rg := s.reg r
  let ia := e.ia.toNat
  match creelGate rg.creel e.pageKey (e.attr == 0) false with
  | some ord => s.pushAgnEntry r pos { e with ord := ord }
  | none =>
    match e.dest with
    | some m =>
      let id := s.island.pktId
      (sendRequest s (.agn s.graph.slot r) s.graph.ctx m e.failIa.toNat true [] fun n => .write n ia e.op e.mask e.data false).onReg r
        fun x => { x with owedRemote := x.owedRemote ++ [⟨id, e, false⟩] }
    | none =>
      match performWrite s ia e.mask (fullLine e.op e.mask) Access.stores (combineLine e.op.toNat e.data.toNat) with
      | .done attr s' => (s'.onReg r fun x => x.sawAttr (ia / 65536) attr).pushAgnSent r e attr 0
      | .unmapped p =>
        (addNotice (discardStale s ia Access.stores) p (.agn s.graph.slot r) s.graph.ctx 1 e.failIa.toNat).pushAgnEntry r pos e
      | .refused _ => (discardStale s ia Access.stores).pushAgnSent r e 0 outRefused
      | .poisoned s' => s'.pushAgnSent r e 0 outPoison

/-- A region's held write is tried again. -/
def State.againWrite (s : State) (r : Nat) : State := { s with hubq := s.hubq ++ [.agnStore s.graph.slot r] }

/-- R255, R285: the oldest write that region r holds back is tried; the hold stands as long as it is refused space. -/
def State.tryWrite (s : State) (r : Nat) : State :=
  let rg := s.reg r
  match rg.heldWrites with
  | [] => s.lower (holdCreel r)
  | w :: rest =>
    let e : CreelEntry := { w.entry with attr := rg.attrAt w.entry.dest w.entry.ia.toNat }
    if rg.writeHolds e then (s.raise (holdCreel r)).againWrite r
    else if s.writeBehind rg w.pos e then
      let s := if e.dest.isNone && s.reducesHeld e.op (e.ia.toNat / 64) then recallLines s [e.ia.toNat / 64] else s
      (s.lower (holdCreel r)).againWrite r
    else
      let s := (s.onReg r fun x => { x with heldWrites := rest }).sendAgnWrite r w.pos e
      if rest.isEmpty then s.lower (holdCreel r) else s.againWrite r

/-- A queued write of a region of a graph is tried. -/
def agnStoreStep (s : State) (g r : Nat) : State :=
  let s := s.focusGraph g
  if s.graph.slot ≠ g then s else s.tryWrite r

/-- R198, R285, R290: region r issues one line write. One that may not be sent yet waits, and later ones behind it (assumption 18). -/
def State.agnWrite (s : State) (r va : Nat) (op : BitVec 3) (mask : BitVec 64) (data : Line) : State :=
  let rg := s.reg r
  match findWard rg.wards.toList va with
  | none => s.onReg r fun x => x.addFailure outRefused (BitVec.ofNat 44 va)
  | some w =>
    if !w.pw then s.onReg r fun x => x.addFailure outRefused (BitVec.ofNat 44 va)
    else
      let e := rg.entryOf s.graph.ctx w (w.ia va) op mask data
      let s := s.onReg r fun x => { x with heldWrites := x.heldWrites ++ [⟨s.graph.reqId, e⟩] }
      if rg.heldWrites.isEmpty then s.tryWrite r else s

/-- R198: the bytes of a beat whose elements are all valid; of two elements that share a byte, both must be. -/
def beatMask (b : Beat) : BitVec 64 :=
  let w := elemBits b.tag.toNat
  maskOf 64 fun k => if w = 4 then b.valid.getLsbD (2 * k) && b.valid.getLsbD (2 * k + 1) else b.valid.getLsbD (8 * k / w)

/-- The beat of operand a in a cell of a region, read with no region in focus. -/
def State.agnBeat (s : State) (r : Nat) (a : BitVec 3) (p : Nat × Nat) : Beat :=
  ({ s with region := s.reg r } : State).cellIn p |>.operand ⟨0, a, 0, 0, 0, 0, 0⟩ a

/-- R198: ASTQ; a bubble stores nothing. -/
def execCellAstq (a q : BitVec 3) (i o : BitVec 1) (k : BitVec 5) (s : State) : Result :=
  .next (memoryRow (fun s r p =>
    let b := s.agnBeat r a p
    if b.bub then s else s.agnWrite r ((s.reg r).streamVa k.toNat p.1 p.2) 0 (beatMask b) b.data) s)

/-- R105, R185: the operation of FN, as a creel entry names it, and the bytes of a lane that it changes. -/
def aredOp (fn : Nat) : BitVec 3 × Nat :=
  match fn with
  | 0 => (1, 4)
  | 1 => (2, 4)
  | 2 => (3, 2)
  | 3 => (4, 4)
  | _ => (5, 4)

/-- R198: ARED. -/
def execCellAred (a q : BitVec 3) (i o : BitVec 1) (k : BitVec 5) (s : State) : Result :=
  .next (memoryRow (fun s r p =>
    let b := s.agnBeat r a p
    let t := b.tok b.tag.toNat 0
    let fn := aredOp (fld ((s.reg r).cfg.stream k.toNat 1) 17 3).toNat
    s.agnWrite r ((s.reg r).streamVa k.toNat p.1 p.2) fn.1 (redMask t fn.2) t.data) s)

/-! ### Windows (R200, R257, R261) -/

/-- What AWIN finds at a cell: nothing due, a beat with what taking it removes, or a beat that is due and absent. -/
inductive Due where
  | nothing
  | reply (b : Beat) (id : Nat) (edge : Edge)
  | gate (b : Beat) (num pos : Nat) (edge : Edge)
  | absent (edge : Edge) (pos : Nat) (id : Option Nat)

/-- R200: the older of two requests, the W latch first. -/
def olderLatch (a b : Latch) : Bool := decide (a.issue < b.issue) || (a.issue == b.issue && a.edge == .w && b.edge == .n)

/-- The first of a list that no other precedes. -/
def oldestLatch : List Latch → Option Latch
  | [] => none
  | x :: rest => some (rest.foldl (fun a b => if olderLatch b a then b else a) x)

/-- R200, R201: the edge positions of cell (i, j) where a window may have a latch. -/
def latchPlaces (p : Nat × Nat) : List (Edge × Nat) :=
  (if p.2 = 0 then [(Edge.w, p.1)] else []) ++ (if p.1 = 0 then [(Edge.n, p.2)] else [])

/-- R261: the gate that delivers to a window of a region at a place. -/
def State.gateAt (s : State) (win : BitVec 5) (e : Edge × Nat) : Option Gate :=
  s.gates.find? fun x => !x.closed && x.toGraph == s.graph.slot && x.toRegion == s.region.id && x.win == win && x.toEdge == e.1 &&
    decide (x.toFirst ≤ e.2 ∧ e.2 < x.toFirst + x.count)

/-- R261: the oldest beat in a gate's latch at a position. -/
def Gate.latched (x : Gate) (pos : Nat) : Option Beat :=
  (x.beats.find? fun b => b.pos == pos && b.left == 0).map fun b => b.beat

/-- R200, R261: what a window holds for a cell of the region in focus. -/
def State.windowDue (s : State) (win : BitVec 5) (p : Nat × Nat) : Due :=
  let places := latchPlaces p
  match places.findSome? fun e => (s.gateAt win e).map fun x => (x, e) with
  | some (x, e) =>
    let pos := e.2 - x.toFirst
    match x.latched pos with
    | some b => .gate b x.num pos e.1
    | none => .absent e.1 e.2 none
  | none =>
    let w := s.region.cfg.winLen win.toNat
    let due := s.region.latches.filter fun l =>
      l.win == win && places.contains (l.edge, l.pos) && decide (l.issue + w ≤ s.graph.slotNo)
    match oldestLatch due with
    | none => .nothing
    | some l =>
      match l.reply with
      | some b => .reply b l.id l.edge
      | none => .absent l.edge l.pos (some l.id)

/-- Drops the first beat of a gate's latch at a position (R261). -/
def takeGateBeat (pos : Nat) : List GateBeat → List GateBeat
  | [] => []
  | b :: rest => if b.pos == pos && b.left == 0 then rest else b :: takeGateBeat pos rest

/-- R261: a gate's beats in transit come one slot nearer. -/
def Gate.step (x : Gate) : Gate := { x with beats := x.beats.map fun b => { b with left := b.left - 1 } }

/-- R261: the beats in transit to a graph come one slot nearer; in a gate where one then arrives, as GATE_BEAT_ARRIVE. -/
def State.gateTick (s : State) (g : Nat) : State :=
  let mine (x : Gate) : Bool := !x.closed && x.toGraph == g
  let due (x : Gate) : Bool := x.beats.any fun b => b.left == 1
  { s with
    gates := s.gates.map fun x => if mine x && !due x then x.step else x
    agenda := s.agenda ++ (s.gates.filter fun x => mine x && due x).map fun x => .gateBeatArrive x.num }

/-- R189: a beat is delivered to an edge input of cell (i, j) of the region in focus, in the present slot. -/
def State.deliver (s : State) (p : Nat × Nat) (edge : Edge) (b : Beat) : State :=
  let lost := !(s.inputBeat p.1 p.2 edge).bub
  let r := s.region
  let fed : FeedBeat := ⟨p.1, p.2, edge, s.graph.slotNo, 0, 2 ^ 24, b⟩
  { s with region := { r with feeds := fed :: r.feeds, status := { r.status with coll := r.status.coll || lost } } }

/-- R189, R200, R261: the beat of a cell has been taken; it is the edge input of its slot. -/
def State.takeDue (s : State) (p : Nat × Nat) (d : Due) : State :=
  match d with
  | .reply b id e =>
    ({ s with region := { s.region with latches := s.region.latches.filter fun l => l.id != id } } : State).deliver p e b
  | .gate b n pos e =>
    ({ s with gates := s.gates.map fun x => if x.num = n then { x with beats := takeGateBeat pos x.beats } else x } : State).deliver
      p e b
  | .nothing => s
  | .absent _ _ _ => s

/-- The beat that AWIN writes. -/
def Due.beat (d : Due) : Beat :=
  match d with
  | .reply b _ _ => b
  | .gate b _ _ _ => b
  | .nothing => Beat.bubble
  | .absent _ _ _ => Beat.bubble

/-- R293: DETAIL of a schedule-miss. -/
def missDetail (c : RegionCfg) (win : BitVec 5) (edge : Edge) (pos : Nat) : BitVec 64 :=
  BitVec.ofNat 64 (win.toNat + (if edge = .n then 256 else 0) + 4096 * (c.edgeTile edge pos).2)

/-- R200, R257: an AWIN row that finds a beat absent: under HOLD the row waits with the graph's slot, else it takes the fault. -/
def State.missWindow (s : State) (win : BitVec 5) (p : Nat × Nat) (edge : Edge) (pos : Nat) (id : Option Nat) : State :=
  let c := s.region.cfg
  if c.winHold win.toNat && (id.isNone || decide (8 ≤ c.winLen win.toNat)) then
    let s := match id with
      | some n => s.raise (holdWindow n)
      | none => s.gateTick s.graph.slot
    { s with graph := { s.graph with todo := s.graph.todo ++ [s.region.id] } }
  else s.stopRow graphSchedMiss (missDetail c win edge pos) p

/-- R200: AWIN. -/
def execCellAwin (d q : BitVec 3) (i o : BitVec 1) (w : BitVec 5) (s : State) : Result :=
  let dues := s.region.cfg.cells.map fun p => (p, s.windowDue w p)
  match dues.find? fun x => match x.2 with | .absent _ _ _ => true | _ => false with
  | some (p, .absent e pos id) => .next (s.missWindow w p e pos id)
  | _ =>
    let beat (n : CellIn) : Beat := ((dues.find? fun x => x.1 == (n.i, n.j)).map fun x => x.2.beat).getD Beat.bubble
    let s' := rowState 1 0 (fun n => n.plain ⟨d, 0, 0, 0, q, 0, 0⟩ (beat n)) s
    .next (dues.foldl (fun s x => s.takeDue x.1 x.2) s')

/-! ### Feeds (R201, R202, R256, R275, R276) -/

/-- The cursor and the executions of a feed. -/
def Region.cursor (r : Region) (f : Nat) : Nat × Nat := sparseGet ((fld (r.cfg.fda f) 8 9).toNat, 0) r.cursors f

/-- R201: a feed's cursor after an execution. -/
def Region.stepFeed (r : Region) (f : Nat) : Region :=
  let a := r.cfg.fda f
  let c := r.cursor f
  let next : Nat × Nat :=
    if (fld (r.cfg.fdb f) 0 10).toNat ≤ c.2 then ((fld a 8 9).toNat, 0)
    else ((((c.1 : Int) + (fld a 17 10).toInt) % 512).toNat, c.2 + 1)
  { r with cursors := assocPut r.cursors f next }

/-- R201, R202: the enabled halves of a feed: byte offset in the 128 bytes, and tile-local position. -/
def feedHalves (fdb : BitVec 32) : List (Nat × Nat) :=
  (if fdb.getLsbD 20 then [(0, (fld fdb 12 4).toNat)] else []) ++ (if fdb.getLsbD 21 then [(64, (fld fdb 16 4).toNat)] else [])

/-- R216: byte X of a feed's 128 bytes. -/
def feedX (fda : BitVec 32) (cur : Nat) : Nat := (fld fda 0 8).toNat * 65536 + 128 * (cur % 512)

/-- R201, R275, R276, R421: the beat that a token of operand memory delivers. -/
def State.feedBeat (s : State) (tile x : Nat) (tag : BitVec 4) : Beat :=
  let b := s.omSeen tile x
  if b.poison then Beat.invalid tag else dataBeat tag b.data b.exp

/-- R276, R292: a token that cannot be read stops the graph. -/
def State.omFault (s : State) (tile x : Nat) : State :=
  if (s.omSeen tile x).poison then
    let f := s.region.faultRec s.time graphOmErr (BitVec.ofNat 64 x) tile
    let g := s.graph.stop f 8
    { s with graph := { g with faulted := g.faulted ++ [s.region.id] } }
  else s

/-- R275: whether another FEEDR of the present slot has read a tile. -/
def State.fedInSlot (s : State) (tile : Nat) : Bool :=
  let here (r : Region) : Bool := r.feeds.any fun f =>
    f.due == s.graph.slotNo + 12 && tileNum ((r.cfg.row0 + f.i) / 16) ((r.cfg.col0 + f.j) / 16) == tile
  here s.region || s.graph.regions.any fun r => r.id != s.region.id && here r

/-- R201: one tile's part of a FEEDR. -/
def State.feedTile (s : State) (f : Nat) (tag : BitVec 4) (edge : Edge) (tile : Nat) : State :=
  let r := s.region
  let x0 := feedX (r.cfg.fda f) (r.cursor f).1
  let s := if s.fedInSlot tile then { s with graph := { s.graph with devs := s.graph.devs ++ [(s.graph.slotNo + 2, tile)] } } else s
  (feedHalves (r.cfg.fdb f)).foldl (fun (s : State) h =>
    match r.cfg.localPos edge tile h.2 with
    | none => s
    | some pos =>
      let (i, j) := r.cfg.edgeCell pos edge
      let fed : FeedBeat := ⟨i, j, edge, s.graph.slotNo + 12, tile, x0 + h.1, s.feedBeat tile (x0 + h.1) tag⟩
      let s : State := { s with region := { s.region with feeds := s.region.feeds ++ [fed] } }
      (s.omRead tile (x0 + h.1)).omFault tile (x0 + h.1)) s

/-- R201: FEEDR. -/
def execCellFeedr (q : BitVec 3) (i o : BitVec 1) (f : BitVec 4) (e : BitVec 5) (s : State) : Result :=
  let edge := edgeOfCode (fld (s.region.cfg.fdb e.toNat) 10 2)
  let s' := (s.region.cfg.edgeTiles edge).foldl (fun s t => s.feedTile e.toNat f edge t) s
  .next { s' with region := s'.region.stepFeed e.toNat }

/-- R202: OUTR; the beats of the slot's end are taken then. -/
def execCellOutr (q : BitVec 3) (i o : BitVec 1) (e : BitVec 5) (s : State) : Result :=
  let r := s.region
  let out : OutTake := ⟨r.cfg.fda e.toNat, r.cfg.fdb e.toNat, (r.cursor e.toNat).1⟩
  let r : Region := { r with outs := r.outs ++ [out] }
  .next { s with region := r.stepFeed e.toNat }

end Sys2Proof.Machine
end

