-- ==== Sys2Proof/Machine/Slot.lean ====
section
/-! DEFINITION. A slot of a graph: passes and stage-valid bits, the events of a slot, and the end of a slot with what leaves the
cells (R70, R187 to R189, R201 to R203, R212, R250 to R261, R266, R275, R291, R292, R380). -/

namespace Sys2Proof.Machine

/-! ### Passes (R250, R251) -/

/-- R250: N, none where the region runs until the graph ends. -/
def RegionCfg.iterations (c : RegionCfg) : Option Nat :=
  let counts := ([1, 2, 3].map fun k => (c.field k).toNat).filter fun n => n != 0
  if counts.isEmpty then none else some (counts.foldl (· * ·) 1)

/-- R250: the iteration counter of a level, from the index of the iteration that enters in the present pass; level 0 is outermost.
The counters of an unbounded region, and of a level whose RITER is 0, stay at zero. -/
def Region.iterCount (r : Region) (level : Nat) : Nat :=
  let n (k : Nat) : Nat := max 1 (r.cfg.field (k + 1)).toNat
  let inner := ((List.range 3).filter fun k => level < k).foldl (fun m k => m * n k) 1
  (r.pass - 1) / inner % n level

/-- RSVD. -/
def RegionCfg.depth (c : RegionCfg) : Nat := (fld (c.field 4) 0 4).toNat

/-- R250: SV at the start of the next pass. -/
def Region.nextSv (r : Region) : BitVec 8 :=
  let enter : Bool := match r.cfg.iterations with
    | some n => decide (r.pass < n)
    | none => true
  BitVec.ofNat 8 ((2 * r.sv.toNat + enter.toNat) % 2 ^ r.cfg.depth)

/-- Whether a region stands at the start of a pass. -/
def Region.atPass (r : Region) : Bool := r.rowNo == 0

/-- Whether a region issues a row in the slot that begins. -/
def Graph.runs (g : Graph) (r : Region) : Bool := r.loop == .running && !g.faulted.contains r.id

/-- R251: whether SV lets a row run: entry rows ask for SV[0], exit rows for SV[D - 1]. -/
def Region.gateOpen (r : Region) (op : Nat) : Bool :=
  if op = 0x0E ∨ op = 0x0F ∨ op = 0x13 then r.sv.getLsbD 0
  else if op = 0x10 ∨ op = 0x11 ∨ op = 0x14 then r.sv.getLsbD (r.cfg.depth - 1)
  else true

/-! ### Runs, pauses and switches of regions (R250, R266), no region in focus -/

/-- R250: REGION_RUN_OUT: a region whose SV empties at the start of a pass has run out. -/
def execRegionRunOut (g r : Nat) (s : State) : Result :=
  let one (x : Region) : Region :=
    if x.loop = .running ∧ x.atPass = true ∧ x.nextSv = 0 then { x with loop := .runOut, sv := 0 } else x
  .next (s.settle.onRegion g r one)

/-- Whether a flight goes to an edge input of a region. -/
def RegionCfg.atEdge (c : RegionCfg) (f : Flight) : Bool :=
  c.holds f.row f.col && (match f.edge with
    | .w => f.col == c.col0
    | .n => f.row == c.row0
    | _ => false)

/-- R266: nothing is still arriving at a region. -/
def State.drained (s : State) (g : Graph) (r : Region) : Bool :=
  (g.flights.all fun f => f.beat.bub || !r.cfg.atEdge f) && r.latches.isEmpty &&
  (s.gates.all fun x => x.closed || x.toGraph != g.slot || x.toRegion != r.id || x.beats.isEmpty)

/-- R266: REGION_DRAIN_POINT: a running region that waits to switch pauses at the start of a pass once it has drained. -/
def execRegionDrainPoint (g r : Nat) (s : State) : Result :=
  let s := s.settle
  match s.getGraph g with
  | none => .next s
  | some x =>
    let one (y : Region) : Region :=
      if y.loop = .running ∧ y.next.isSome = true ∧ y.atPass = true ∧ s.drained x y = true then { y with loop := .paused } else y
    .next (s.onRegion g r one)

/-- R266: whether the stream that committed a region has ended. -/
def State.streamEnded (s : State) (g : Graph) (r : Nat) : Bool :=
  let x := if s.netIdx = g.net then s.stream else (s.nets.toList.getD g.net ⟨Stream.empty, []⟩).running
  x.graph != g.slot || !(x.undo.any fun u => u.1 == r) || x.result.isSome

/-- R186, R258, R259: the slots that a beat spends between an output of a region's cell and the input of the neighbour. -/
def State.pathDelay (s : State) (src dst : Region) (row col : Nat) (south : Bool) : Nat :=
  let to' := if south then (row + 1, col) else (row, col + 1)
  let hop := s.hopExtra to'.1 to'.2 south
  if src.id = dst.id then hop
  else
    let out := sparseGet 0 src.cfg.dlyOut ((row - src.cfg.row0) * 1024 + (col - src.cfg.col0))
    let in' := sparseGet 0 dst.cfg.dlyIn ((to'.1 - dst.cfg.row0) * 1024 + (to'.2 - dst.cfg.col0))
    let at' := if south then 8 else 0
    hop + (fld out at' 6).toNat + (fld in' at' 6).toNat + s.kappa dst.cfg to'.1 to'.2 (if south then .n else .w)

/-- R188: the beats, bubbles included, that leave a source under shortened delays meet those still on the way. For each flight on a
path of a region that a later beat now overtakes, a bubble that left later stands beside it. -/
def State.overtake (s : State) (g : Graph) (id : Nat) : Graph :=
  { g with flights := g.flights ++ g.flights.filterMap fun f =>
      let south := f.edge == .n
      let from' := if south then (f.row - 1, f.col) else (f.row, f.col - 1)
      match g.regionAt from'.1 from'.2, g.regionAt f.row f.col with
      | some a, some b =>
        let d := s.pathDelay a b from'.1 from'.2 south
        if (a.id = id ∨ b.id = id) ∧ a.id ≠ b.id ∧ g.slotNo + 1 + d ≤ f.due ∧ f.left + 1 + d < f.due then
          some { f with left := f.due - 1 - d, beat := Beat.bubble }
        else none
      | _, _ => none }

/-- R181, R263, R266: a region takes the configuration that waits; a paused one resumes. -/
def State.switchRegion (s : State) (g r : Nat) : State :=
  match s.getRegion g r with
  | none => s
  | some x =>
    match x.next with
    | none => s
    | some c =>
      let s := s.onRegion g r fun y => { y with
        cfg := c, next := none, loop := if y.loop = .paused then .running else y.loop }
      let s := s.onGraph g fun y => s.overtake y r
      closeStaged s g r c.stage

/-- R266: REGION_SWITCH: a paused region, its operations landed and its stream ended, or one that ran out while it waited, takes
the new configuration. -/
def execRegionSwitch (g r : Nat) (s : State) : Result :=
  let s := s.settle
  match s.getGraph g, s.getRegion g r with
  | some x, some y =>
    if (y.loop = .paused ∨ y.loop = .runOut) ∧ y.landings = [] ∧ y.feeds = [] ∧ s.streamEnded x r = true then .next (s.switchRegion g r) else .next s
  | _, _ => .next s

/-! ### Holds and window events (R199, R254 to R257, R261, R275, R276) -/

/-- R254: HOLD_RAISE. -/
def execHoldRaise (g src : Nat) (s : State) : Result := .next (s.settle.onGraph g fun x => x.raise src)

/-- R254: HOLD_DROP. -/
def execHoldDrop (g src : Nat) (s : State) : Result := .next (s.settle.onGraph g fun x => x.drop src)

/-- R257: the requests of a HOLD window that are due eight slots on and have no reply. -/
def Region.lateRequests (r : Region) (w slotNo : Nat) : List Latch :=
  if r.cfg.winHold w && decide (8 ≤ r.cfg.winLen w) then
    r.latches.filter fun l => l.win.toNat == w && l.issue + r.cfg.winLen w == slotNo + 8 && l.reply.isNone
  else []

/-- R257: WINDOW_CHECK: the hold is raised for each reply that is still absent eight slots before it is due. -/
def execWindowCheck (g r w : Nat) (s : State) : Result :=
  .next (s.settle.onGraph g fun x =>
    match x.getRegion r with
    | some y => (y.lateRequests w x.slotNo).foldl (fun x l => x.raise (holdWindow l.id)) x
    | none => x)

/-- Queues the replay of a region's creel where it has entries. -/
def State.pokeCreel (s : State) (g r : Nat) : State :=
  if (s.getRegion g r).any fun x => x.creel.any CreelEntry.live then
    { s with agenda := s.agenda ++ [.creelReplay (.agn g r)] }
  else s

/-- R199, R255: the reply of request n / 64 of graph n mod 64 enters its latch, and its holds drop. -/
def deliverReply (n : Nat) (s : State) : State :=
  let s := s.settle
  let id := n / 64
  match s.getGraph (n % 64) with
  | none => s
  | some g =>
    match g.requests.find? fun x => x.id == id && x.answer.isSome with
    | none => s
    | some x =>
      let take (r : Region) : Region := { r with latches := r.latches.map fun l => if l.id = id then { l with reply := x.answer } else l }
      let g := g.onRegion x.consumer take
      let g := ({ g with requests := g.requests.filter fun y => y.id != id }.drop (holdWindow id)).drop (holdLoadSrc id)
      (s.putGraph g).pokeCreel g.slot x.agn

/-- R199: WINDOW_REPLY_ARRIVE. -/
def execWindowReplyArrive (n : Nat) (s : State) : Result := .next (deliverReply n s)

/-- Whether a non-bubble beat of a neighbour is the input of cell (i, j) of a region in a slot. -/
def Graph.neighbourBeat (g : Graph) (c : RegionCfg) (f : FeedBeat) : Bool :=
  g.flights.any fun x => x.row == c.row0 + f.i && x.col == c.col0 + f.j && x.edge == f.edge && x.due == g.slotNo && !x.beat.bub

/-- R189, R201: FEED_DELIVER: feed beats replace what the neighbours sent to their inputs. A paused region drops them. -/
def execFeedDeliver (g r : Nat) (s : State) : Result :=
  .next (s.settle.onGraph g fun x => x.onRegion r fun y =>
    let due := y.feeds.filter fun f => f.due == x.slotNo
    let lost := due.any fun f => x.neighbourBeat y.cfg f
    let paused := y.loop == .paused && !due.isEmpty
    { y with status := { y.status with coll := y.status.coll || lost || paused } })

/-- R276: a feed beat on its way from a token that cannot be read carries no valid bit. -/
def Region.spoilFeeds (r : Region) (tile x slotNo : Nat) : Region :=
  let hit (f : FeedBeat) : Bool := f.due == slotNo + 10 && f.tile == tile && f.x == x
  { r with feeds := r.feeds.map fun f => if hit f then { f with beat := Beat.invalid f.beat.tag } else f }

/-- R255, R256, R276, R292: OM_READ_DEVIATION: a FEEDR read of token `tok` of a slot takes longer, and the hold is raised. Where the
retry fails, the token is poisoned, the beats lose their valid bits and the graph stops. -/
def execOmReadDeviation (t slot tok : Nat) (fails : Bool) (s : State) : Result :=
  let s := s.settle
  match s.graphOfTile t with
  | none => .next s
  | some g =>
    let s := s.onGraph g.slot fun x => x.raise (holdOm t)
    if fails then
      let x := slot % 256 * 65536 + 64 * (tok % 1024)
      let tile := s.getTile t
      let s := s.putTile t { tile with
        omPoison := if tile.omPoison.contains (x / 64) then tile.omPoison else tile.omPoison ++ [x / 64] }
      .next (s.onGraph g.slot fun y =>
        let hit := y.regions.find? fun r => r.spoilFeeds t x y.slotNo != r
        match hit with
        | some r =>
          let y := y.stop (r.faultRec s.time graphOmErr (BitVec.ofNat 64 x) t) 8
          ({ y with faulted := y.faulted ++ [r.id] }).onRegion r.id fun r => r.spoilFeeds t x y.slotNo
        | none => y)
    else .next s

/-- R261: GATE_BEAT_ARRIVE: the beats of a gate come one slot nearer; those that end their transit are in the latch. -/
def execGateBeatArrive (n : Nat) (s : State) : Result :=
  .next { s with gates := s.gates.map fun x =>
    if x.num = n then x.step else x }

/-! ### Gate conditions (R262) -/

/-- R262: the producer of a gate is short of credit at some position. -/
def Gate.full (x : Gate) : Bool :=
  (List.range x.count).any fun p => decide (x.depth ≤ (x.beats.filter fun b => b.pos == p).length + 8)

/-- R250: the pass, counted from 1, that a slot of a region belongs to, `k` slots on from the first that has not run; `done` slots
have run. -/
def Region.passOf (r : Region) (done k : Nat) : Nat :=
  r.pass + (done + k) / r.cfg.rrows + 1 - (done + r.cfg.rrows - 1) / r.cfg.rrows

/-- R250: whether a region makes a pass. -/
def Region.passes (r : Region) (p : Nat) : Bool :=
  match r.cfg.iterations with
  | some n => decide (p < n + r.cfg.depth)
  | none => true

/-- R262: the AWIN rows on a window among the next `n` slots of a running region, of which `done` slots have run. -/
def Region.awinsAhead (r : Region) (win : BitVec 5) (done n : Nat) : Nat :=
  ((List.range n).filter fun k =>
    let w := sparseGet 0 r.cfg.words ((done + k) % r.cfg.rrows)
    fld w 26 6 == 0x12 && fld w 0 5 == win && r.passes (r.passOf done k)).length

/-- R262: the consumer of a gate is short of beats at some position, under a HOLD window; `ran`: its row of the present slot has
run. -/
def State.gateStarved (s : State) (x : Gate) (ran : Bool) : Bool :=
  match s.getRegion x.toGraph x.toRegion with
  | none => false
  | some r =>
    r.loop == .running && r.cfg.winHold x.win.toNat &&
    (List.range x.count).any fun p =>
      decide ((x.beats.filter fun b => b.pos == p && b.left == 0).length < r.awinsAhead x.win (r.slots + ran.toNat) 8)

/-- R254, R262: the events of one gate end of a graph: its source rises or drops. -/
def gateEvent (g : Graph) (src : Nat) (want : Bool) : List Instr :=
  if want && !g.holds.contains src then [.holdRaise g.slot src]
  else if !want && g.holds.contains src then [.holdDrop g.slot src]
  else []

/-- R262: the changes of the holds of a graph's gates, before a held cycle, or after the rows of a slot. -/
def State.gateEvents (s : State) (g : Graph) (slot : Bool) : List Instr :=
  s.gates.flatMap fun x =>
    if x.closed then []
    else
      (if x.fromGraph = g.slot then gateEvent g (holdGateOut x.num) x.full else []) ++
      (if x.toGraph = g.slot then gateEvent g (holdGateIn x.num) (s.gateStarved x (slot && g.ran.contains x.toRegion)) else [])

/-! ### The beginning of a slot -/

/-- R254, R292: the spine cycle that begins is a slot of the graph. -/
def Graph.isSlot (g : Graph) : Bool := !g.hist.getLsbD 7 && !(g.stopped && g.grace == 0)

/-- The events of a slot that begins: switches, drain points, feed beats, and second reads of one tile (R189, R256, R266, R275). -/
def State.slotEvents (s : State) (g : Graph) : List Instr :=
  (g.regions.flatMap fun r =>
    (if r.next.isSome && r.landings.isEmpty && r.feeds.isEmpty && (r.loop == .paused || r.loop == .runOut) && s.streamEnded g r.id then
      [Instr.regionSwitch g.slot r.id] else []) ++
    (if g.runs r && r.next.isSome && r.atPass && s.drained g r then [Instr.regionDrainPoint g.slot r.id] else []) ++
    (if r.feeds.any fun f => f.due == g.slotNo then [Instr.feedDeliver g.slot r.id] else [])) ++
  (g.devs.filter fun d => d.1 == g.slotNo).map fun d => Instr.omReadDeviation d.2 0 0 false

/-- A spine cycle of the graph in focus begins: a slot with its events, or a held cycle. -/
def State.beginCycle (s : State) : State :=
  let g := s.graph
  if g.isSlot then
    { s with
      graph := { g with phase := .opened, devs := g.devs.filter fun d => d.1 != g.slotNo }
      agenda := s.agenda ++ s.slotEvents g }
  else { s with graph := { g with phase := .closing }, agenda := s.agenda ++ s.gateEvents g false }

/-- R250: a pass of a region begins. -/
def Region.beginPass (r : Region) : Region := if r.atPass then { r with sv := r.nextSv, pass := r.pass + 1 } else r

/-- R187, R250: the regions of a slot: those whose SV empties run out, the others run their rows. -/
def State.openRows (s : State) : State :=
  let g := s.graph
  let live := g.regions.filter fun r => g.runs r
  let ends := live.filter fun r => r.atPass && r.nextSv == 0
  if ends ≠ [] then { s with agenda := s.agenda ++ ends.map fun r => .regionRunOut g.slot r.id }
  else
    let ids := live.map fun r => r.id
    { s with graph := { g with
        phase := .rows, todo := ids, ran := ids, regions := g.regions.map fun r => if g.runs r then r.beginPass else r } }

/-- R257: the windows of a region with a reply due eight slots on. -/
def Region.checks (r : Region) (g slotNo : Nat) : List Instr :=
  (List.range 32).filterMap fun w => if (r.lateRequests w slotNo).isEmpty then none else some (.windowCheck g r.id w)

/-- The rows of a slot have run: the checks of windows and gates follow (R257, R262). -/
def State.closeRows (s : State) : State :=
  let g := s.graph
  { s with
    graph := { g with phase := .closing }
    agenda := s.agenda ++ g.regions.flatMap (fun r => r.checks g.slot g.slotNo) ++ s.gateEvents g true }

/-! ### What leaves the cells at the end of a slot (R186, R188, R202, R203, R212, R261) -/

/-- A beat that leaves an output at the end of a slot: region, cell, S or E output. -/
structure Leaving where
  region : Nat
  i : Nat
  j : Nat
  south : Bool
  beat : Beat
  deriving DecidableEq, Repr

/-- R186: the beats that the routes of a region's row pass. -/
def State.passesOf (s : State) (r : Region) : List Leaving :=
  let here : State := { s with region := r }
  let input (code : BitVec 3) (i j : Nat) : Option Beat :=
    match code.toNat with
    | 1 => some (here.inputBeat i j .n)
    | 2 => some (here.inputBeat i j .w)
    | _ => none
  (r.cfg.rrte.filter fun x => x.1 / 2 ^ 20 == r.rowNo).flatMap fun x =>
    let i := x.1 / 1024 % 1024
    let j := x.1 % 1024
    if i < r.cfg.rows ∧ j < r.cfg.cols then
      ((input (routeE x.2) i j).map fun b => (⟨r.id, i, j, false, b⟩ : Leaving)).toList ++
      ((input (routeS x.2) i j).map fun b => (⟨r.id, i, j, true, b⟩ : Leaving)).toList
    else []

/-- R188: the results of a region that land on outputs at the end of a slot. -/
def Region.leaving (r : Region) (slotNo : Nat) : List Leaving :=
  r.landings.filterMap fun l =>
    if l.slot = slotNo ∧ 4 ≤ l.dest.toNat then some ⟨r.id, l.i, l.j, l.dest = 5, gateBeat l.beat l.allow⟩ else none

/-- R188: the results of a region that land on c-registers at the end of a slot. -/
def State.landCells (s : State) (r : Region) (slotNo : Nat) : State :=
  r.landings.foldl (fun s l =>
    if l.slot = slotNo ∧ l.dest.toNat < 4 then
      let row := r.cfg.row0 + l.i
      let col := r.cfg.col0 + l.j
      let cell := s.cellAt row col
      s.putCell row col { cell with c := cell.c.setIfInBounds l.dest.toNat (mergeBeat (cell.creg (fld l.dest 0 2)) l.beat l.allow) }
    else s) s

/-- The edge of a region that a beat leaves by, with its position. -/
def Leaving.edge (x : Leaving) (c : RegionCfg) : Option (Edge × Nat) :=
  if x.south then (if x.i + 1 = c.rows then some (.s, x.j) else none) else (if x.j + 1 = c.cols then some (.e, x.i) else none)

/-- R70: acc + psum. -/
def accumulate (acc v : BitVec 32) : BitVec 32 × Flags :=
  let x := decodeFloat 0 acc.toNat
  let y := decodeFloat 0 v.toNat
  let r : Rounded :=
    match firstNaN [x, y] with
    | some (.nan neg _ p) => ⟨nanBits 0 neg p, snanFlag [x, y], false⟩
    | _ =>
      match sumVals .rne [x, y] with
      | .val z => convertVal 0 .rne .sat false 0 z
      | .invalid => invalidResult 0
  (BitVec.ofNat 32 r.bits, r.flags)

/-- R203: one lane enters the accumulators of column j. -/
def Region.accLane (r : Region) (j : Nat) (v : BitVec 32) : Region :=
  let k := sparseGet 0 r.accIdx j
  let x := accumulate (sparseGet 0 r.acc (accKey j k)) v
  { r with
    acc := sparsePut 0 r.acc (accKey j k) x.1
    accIdx := sparsePut 0 r.accIdx j (if r.cfg.racc ≤ k + 1 then 0 else k + 1) }.addFlags x.2

/-- R203: a beat that leaves a south-edge cell enters the drain accumulators. -/
def Region.accBeat (r : Region) (j : Nat) (b : Beat) : Region :=
  if r.cfg.typ = 0 ∧ r.cfg.racc ≠ 0 ∧ b.bub = false then
    let t := b.tok b.tag.toNat 0
    (List.range 16).foldl (fun r l => if t.valid.getLsbD l then r.accLane j (t.lane l) else r) r
  else r

/-- R212: a beat enters a capture buffer of a tile; whether one was dropped. -/
def Tile.captureBeat (t : Tile) (key : Nat) (b : Beat) : Tile × Bool :=
  let old := sparseGet [] t.capture key
  if old.length < 8 then ({ t with capture := sparsePut [] t.capture key (old ++ [b]) }, false)
  else ({ t with capture := sparsePut [] t.capture key (old.drop 1 ++ [b]) }, true)

/-- R203, R212, R261: what a beat does as it leaves an edge of its region. -/
def State.leaveEdge (s : State) (g : Nat) (r : Region) (x : Leaving) (e : Edge × Nat) : State :=
  let s := if e.1 = .s then s.onRegion g r.id fun y => y.accBeat e.2 x.beat else s
  if x.beat.live then
    let place := r.cfg.edgeTile e.1 e.2
    let got := (s.getTile place.1).captureBeat (captureKey r.id e.1 place.2) x.beat
    let s := s.putTile place.1 got.1
    let s := if got.2 then s.onRegion g r.id fun y => { y with status := { y.status with drop := true } } else s
    { s with gates := s.gates.map fun (q : Gate) =>
        if q.closed = false ∧ q.fromGraph = g ∧ q.fromRegion = r.id ∧ q.fromEdge = e.1 ∧ q.fromFirst ≤ e.2 ∧
            e.2 < q.fromFirst + q.count then
          { q with beats := q.beats ++ [⟨e.2 - q.fromFirst, q.transit, x.beat⟩] }
        else q }
  else s

/-- R188: a beat sets out to the neighbouring cell. A cell in no region of the graph takes nothing. -/
def State.sendBeat (s : State) (g : Graph) (r : Region) (x : Leaving) : List Flight :=
  if x.beat.bub then []
  else
    let row := r.cfg.row0 + x.i
    let col := r.cfg.col0 + x.j
    let to' := if x.south then (row + 1, col) else (row, col + 1)
    match g.regionAt to'.1 to'.2 with
    | none => []
    | some d =>
      [⟨to'.1, to'.2, if x.south then .n else .w, g.slotNo + 1 + s.pathDelay r d row col x.south, g.slotNo, x.beat⟩]

/-- R202, R275: the writes that the OUTR of a slot makes in the next port slot. -/
def Region.outWrites (r : Region) (slotNo : Nat) (xs : List Leaving) : List OmWrite :=
  r.outs.flatMap fun o =>
    let edge := edgeOfCode (fld o.fdb 10 2)
    (r.cfg.edgeTiles edge).flatMap fun tile =>
      (feedHalves o.fdb).filterMap fun h =>
        match r.cfg.localPos edge tile h.2 with
        | none => none
        | some pos =>
          let c := r.cfg.edgeCell pos edge
          match xs.find? fun x => x.region == r.id && x.i == c.1 && x.j == c.2 && x.south == (edge == .s) with
          | some x => if x.beat.bub then none else some (⟨tile, feedX o.fda o.cur + h.1, slotNo + 1, x.beat⟩ : OmWrite)
          | none => none

/-- R188, R189, R266, R291: the injection collisions of a slot: a beat that another took the place of, and a beat that reaches an
input of a paused region. -/
def Graph.collides (g : Graph) (r : Region) : Bool :=
  g.flights.any fun f =>
    f.due == g.slotNo && !f.beat.bub && r.cfg.holds f.row f.col &&
    ((r.loop == .paused && r.cfg.atEdge f) ||
      g.flights.any fun h => h.row == f.row && h.col == f.col && h.edge == f.edge && h.due == f.due && decide (f.left < h.left))

/-- R380: the energy of a slot: each region that runs adds its cells times the weight of its row. -/
def State.slotEnergy (s : State) (g : Graph) : Nat :=
  let few (k : Nat) : Nat := (s.mgmt.few.toList.getD k 0).toNat
  (g.regions.filter fun r => g.ran.contains r.id).foldl (fun n r =>
    let op := (fld (sparseGet 0 r.cfg.words r.rowNo) 26 6).toNat
    let w := if 1 ≤ op ∧ op ≤ 3 then few 0 else if 0x18 ≤ op then few 1 else few 2
    n + r.cfg.rows * r.cfg.cols * w) 0

/-- R359, R380: a charge to GENERGY, saturating. -/
def Graph.addEnergy (g : Graph) (n : Nat) : Graph :=
  if 2 ^ 48 ≤ g.energy.toNat + n then { g with energy := BitVec.allOnes 48, energySat := true }
  else { g with energy := BitVec.ofNat 48 (g.energy.toNat + n) }

/-- A region after the end of a slot. -/
def Region.endSlot (r : Region) (g : Graph) : Region :=
  let ran := g.ran.contains r.id && !g.faulted.contains r.id
  { r with
    slots := if ran then r.slots + 1 else r.slots
    landings := r.landings.filter fun l => decide (g.slotNo < l.slot)
    feeds := r.feeds.filter fun f => decide (g.slotNo < f.due)
    outs := []
    status := { r.status with coll := r.status.coll || g.collides r } }

/-- R275: a port slot ends in the tiles of a graph. -/
def State.endPorts (s : State) (g : Nat) : State :=
  let mine (t : Nat) : Bool := (s.graphOfTile t).any fun x => x.slot == g
  { s with
    tile := if mine s.tileIdx then s.tile.endPort else s.tile
    tiles := s.tiles.map fun x => if x.2.omBefore ≠ [] && mine x.1 then (x.1, x.2.endPort) else x }

/-- R187 to R189, R202, R203, R212, R261, R292, R380: the end of a slot of the graph in focus, no region in focus. The writes of its
OUTR rows take the next port slot, before every other write (R275). -/
def State.endSlot (s : State) : State :=
  let g := s.graph
  let rows := g.regions.filter fun r => g.ran.contains r.id && !g.faulted.contains r.id
  let leaving := g.regions.flatMap (fun r => r.leaving g.slotNo) ++ rows.flatMap fun r => s.passesOf r
  let regionOf (x : Leaving) : Region := (g.getRegion x.region).getD Region.empty
  let flights := leaving.flatMap fun x => s.sendBeat g (regionOf x) x
  let writes := rows.flatMap fun r => r.outWrites g.slotNo leaving
  let s := g.regions.foldl (fun s r => s.landCells r g.slotNo) s
  let s := leaving.foldl (fun (s : State) (x : Leaving) =>
    match x.edge (regionOf x).cfg with
    | some e => s.leaveEdge g.slot (regionOf x) x e
    | none => s) s
  let s := writes.foldl (fun s w => s.omPort w.tile w.x w.beat.data (fld w.beat.exps 0 8)) (s.endPorts g.slot)
  let h := s.graph
  { s with graph := { h.addEnergy (s.slotEnergy h) with
      regions := h.regions.map fun r => r.endSlot h
      flights := (h.flights.filter fun f => decide (h.slotNo < f.due)) ++ flights
      omWrites := writes
      ran := []
      todo := []
      slotNo := h.slotNo + 1
      grace := if h.stopped then h.grace - 1 else h.grace } }

/-! ### The end of a spine cycle (R254, R261, R379) -/

/-- The tile of an operand memory deviation's hold source, or of a droop's. -/
def srcKind (src : Nat) : Nat := src % 16

/-- R379: in a held cycle the tiles that realign lose phase debt, and drop the hold at 0. -/
def State.realign (s : State) : State :=
  (s.graph.holds.filter fun h => srcKind h == 6).foldl (fun s h =>
    let t := h / 16
    let x := s.getTile t
    let debt := x.spine.debt - 1
    let s := s.putTile t { x with spine := { x.spine with debt := if x.spine.debt = 0 then 0 else debt } }
    if x.spine.debt.toNat ≤ 1 then { s with graph := s.graph.drop h } else s) s

/-- R254: a spine cycle of the graph in focus ends: a slot's beats move, and the hold tree takes the cycle's sources. -/
def State.endCycle (s : State) : State :=
  let slot := s.graph.isSlot
  let s := if slot then s.endSlot else { s.endPorts s.graph.slot with graph := { s.graph with omWrites := [] } }
  let raised := s.graph.holds ≠ []
  let s := { s with graph := { s.graph with
    phase := .idle
    hist := (s.graph.hist <<< 1) ||| (if raised then 1 else 0)
    holds := s.graph.holds.filter fun h => srcKind h != 0 } }
  (if slot then s else s.realign).gateTick s.graph.slot

end Sys2Proof.Machine
end

