-- ==== Sys2Proof/Machine/Clocks.lean ====
section
/-! DEFINITION. Clocks and power: the reference, the spines with their sources, droop, and the thermal emergency (R356, R358, R377
to R382, R420). -/

namespace Sys2Proof.Machine

/-! ### The reference (R358, R380, R382) -/

/-- Whether the compute clocks are gated (R381) or held (R398, R402). -/
def State.gated (s : State) : Bool := s.mgmt.thermal || s.island.st == .ireset || s.island.st == .off

/-- R358: a reference tick in a core whose context is resident in user mode. -/
def Core.tick (c : Core) : Core := if c.resident && c.run == .running then c.addEnergy c.statw.toNat else c

/-- R380: a reference tick in a bound graph. -/
def Graph.tick (g : Graph) (statg : BitVec 16) : Graph :=
  if g.slot < 64 then g.addEnergy (statg.toNat * (g.trows * g.tcols)) else g

/-- R358, R380: the charges of a reference tick. -/
def State.tickCharges (s : State) : State :=
  let tile (t : Tile) : Tile := { t with core := t.core.tick }
  { s with
    tile := tile s.tile
    tiles := s.tiles.map fun x => (x.1, tile x.2)
    graph := s.graph.tick s.mgmt.statg
    graphs := s.graphs.map fun g => g.tick s.mgmt.statg }

/-- The flips that are due (R227). -/
def State.flipsDue (s : State) : List Instr :=
  s.keys.filterMap fun k => match k.2.flip with
    | some t => if t.ule s.time then some (.keyFlip k.1) else none
    | none => none

/-- R382: REFERENCE_TICK: TIME advances by 10 ns. -/
def execReferenceTick (s : State) : Result :=
  let s := { s with time := s.time + 10 }
  let s := if s.gated then s else s.tickCharges
  .next { s with agenda := s.agenda ++ s.flipsDue }

/-! ### Spines (R377, R378) -/

/-- SPINE of a tile changed. -/
def State.onSpine (s : State) (t : Nat) (f : Spine → Spine) : State :=
  let x := s.getTile t
  s.putTile t { x with spine := f x.spine }

/-- A change of the graph that owns a tile. -/
def State.onOwner (s : State) (t : Nat) (f : Graph → Graph) : State :=
  match s.graphOfTile t with
  | some g => s.onGraph g.slot f
  | none => s

/-- R293: the fault record of SPINE_LOSS. The spec gives it no region: row, region and slot count are free values
(assumption 11). -/
def spineFault (s : State) (t : Nat) : GraphFault where
  cause := graphSpineLoss
  row := BitVec.ofNat 8 (freeNat s 1)
  region := BitVec.ofNat 10 (freeNat s 2)
  slot := BitVec.ofNat 32 (freeNat s 4)
  detail := 0
  time := s.time
  tcol := BitVec.ofNat 6 (t % 44)
  trow := BitVec.ofNat 6 (t / 44)
  more := false

/-- R292, R378: SPINE_SOURCE_LOSS: the tile holds its graph and switches to its alternate source; with both lost, now or one before
the other, the graph stops in the last slot before the loss. -/
def execSpineSourceLoss (t : Nat) (both : Bool) (s : State) : Result :=
  let s := s.settle
  if both || (s.getTile t).spine.aLost then
    let f := spineFault s t
    .next (((s.onSpine t fun x => { x with pLost := true, aLost := true }).onOwner t fun g => g.stop f 0).useFree 4)
  else
    .next ((s.onSpine t fun x => { x with pLost := true, onAlt := true }).onOwner t fun g => g.raise (holdSpine t))

/-- R377, R378: the alternate source of a tile is lost: nothing follows while its primary runs. -/
def loseAlternate (s : State) (t : Nat) : Result :=
  let s := s.settle
  if (s.getTile t).spine.pLost then execSpineSourceLoss t true s else .next (s.onSpine t fun x => { x with aLost := true })

/-- R378: SPINE_ALT_LOCKED: the hold drops. -/
def execSpineAltLocked (t : Nat) (s : State) : Result := .next (s.settle.onOwner t fun g => g.drop (holdSpine t))

/-- R378: SPINE_FREQ_CHANGE: CK0 is fixed, and FREQ runs from 0 to 44. -/
def execSpineFreqChange (k : BitVec 3) (freq : BitVec 6) (s : State) : Result :=
  if k = 0 ∨ 44 < freq.toNat then .next s
  else
    let tile (t : Tile) : Tile := if t.spine.sel = k then { t with spine := { t.spine with freq := freq } } else t
    .next { s with
      mgmt := { s.mgmt with freqs := s.mgmt.freqs.setIfInBounds k.toNat freq }
      tile := tile s.tile
      tiles := s.tiles.map fun x => (x.1, tile x.2) }

/-- R379: one stretched cycle of a tile. -/
def Spine.stretched (x : Spine) : Spine :=
  { x with
    stretch := if x.stretch = 0xFFFF then x.stretch else x.stretch + 1
    debt := if x.debt = 0xFF then x.debt else x.debt + 1 }

/-- R379: DROOP_STRETCH: a stretched cycle adds half a cycle of debt; above 2 cycles the tile raises its graph's hold. -/
def execDroopStretch (t : Nat) (s : State) : Result :=
  let s := s.settle.onSpine t Spine.stretched
  if 4 < (s.getTile t).spine.debt.toNat then .next (s.onOwner t fun g => g.raise (holdDroop t)) else .next s

/-! ### Power (R380, R381, R420) -/

/-- R381: THERMAL_EMERGENCY: spine and rim clocks are gated, all state retained. -/
def execThermalEmergency (s : State) : Result := .next { s with mgmt := { s.mgmt with thermal := true } }

/-- R381: THERMAL_CLEAR. -/
def execThermalClear (s : State) : Result := .next { s with mgmt := { s.mgmt with thermal := false } }

/-- PRIO of a bound graph (R370). -/
def Graph.prio (g : Graph) : Nat := (fld g.record 16 2).toNat

/-- R380: the graphs in the order in which the policy takes them: the lowest PRIO first. -/
def State.byPrio (s : State) : List Graph :=
  (List.range 4).flatMap fun p => s.allGraphs.filter fun g => g.prio == p && !g.drain

/-- R380: some graphs are drained for the budget's sake, and take another mapping then. -/
def State.limit (s : State) (l : List Graph) : State :=
  let s := l.foldl (fun (s : State) g => s.onGraph g.slot fun x => { x with limited := true }) s.settle
  { s with agenda := s.agenda ++ l.map fun g => .drainRequest g.slot }

/-- R380, R420: THROTTLE_BY_BUDGET: the policy drains the resident graph of lowest PRIO at its next parcel boundary. -/
def execThrottleByBudget (s : State) : Result := .next (s.limit (s.settle.byPrio.take 1))

end Sys2Proof.Machine
end

