-- ==== Sys2Proof/Machine/Hub.lean ====
section
/-! DEFINITION. What management and the supplies do to a hub: format ranges, banks that retire, a cache die that stops early, the
frame poison map, evicted slots, and the companion's acknowledgements (R273, R326, R342, R351 to R353, R412, R413). -/

namespace Sys2Proof.Machine

/-! ### Format ranges (R342, R343) -/

/-- R342: the bits of a word of a range that a write sets. -/
def rangeMask (w : BitVec 2) : BitVec 64 :=
  match w.toNat with
  | 0 => 0x00000FFFFFFFFF1F
  | 1 => 0x00000FFFFFFF0000
  | 2 => 0x00000FFFFFFF0000
  | _ => 0

/-- R342: a write of word w of a range. Words 1 and 2 wait for word 0, which installs them; a word 0 of a reserved KIND is
ignored. -/
def FormatRange.write (r : FormatRange) (w : BitVec 2) (v : BitVec 64) : FormatRange :=
  let v := v &&& rangeMask w
  match w.toNat with
  | 0 => if 10 ≤ (fld v 1 4).toNat then r else { r with w0 := v, w1 := r.s1, w2 := r.s2 }
  | 1 => { r with s1 := v }
  | 2 => { r with s2 := v }
  | _ => r

/-- R342: FR_WRITE. -/
def execFrWrite (hub : Nat) (n : BitVec 4) (w : BitVec 2) (v : BitVec 64) (s : State) : Result :=
  let h := getHub s hub
  .next (putHub s hub { h with ranges := sparsePut FormatRange.reset h.ranges n.toNat ((getRange h n.toNat).write w v) })

/-! ### Banks (R351 to R353) -/

/-- SETST of a set: 0 LIVE, 1 DRAIN, 2 RESTRIPE. -/
def Hub.setState (h : Hub) (j : Nat) : BitVec 2 := fld h.setSt (2 * j) 2

/-- A set moves to a state. -/
def Hub.withSet (h : Hub) (j : Nat) (st : Nat) : Hub := { h with setSt := putField h.setSt (2 * j) 2 st }

/-- LIVE of a set. -/
def Hub.live (h : Hub) (j : Nat) : BitVec 64 := sparseGet (BitVec.allOnes 64) h.bankMap j

/-- RETIRE of a set. -/
def Hub.retire (h : Hub) (j : Nat) : BitVec 64 := sparseGet 0 h.bankRt j

/-- R352: whether a line number of the stack lies in set j. -/
def lineInSet (j line : Nat) : Bool := line / 1024 % 16 == j

/-- R353: BANK_RETIRE_MARK: the bank's RETIRE bit is set, its set drains, and management has a notice. Which lines the bank cannot
return is a free choice. -/
def execBankRetireMark (hub ch bank : Nat) (s : State) : Result :=
  let h := getHub s hub
  let j := bank % 16
  let h : Hub := { h with
    bankRt := sparsePut 0 h.bankRt j (setBit (h.retire j) (ch % 64) true)
    retired := h.retired ++ [(j, ch % 64)]
    lost := h.lost ++ [(j, ch % 64, s.free)] }
  .next ((putHub s hub (if h.setState j = 0 then h.withSet j 1 else h)).useFree 1)

/-- R352: BANKRT_CLEAR: once RESTRIPE has begun it has no effect. -/
def execBankrtClear (hub : Nat) (n : BitVec 4) (v : BitVec 64) (s : State) : Result :=
  let h := getHub s hub
  if h.setState n.toNat = 2 then .next s
  else .next (putHub s hub { h with bankRt := sparsePut 0 h.bankRt n.toNat (h.retire n.toNat &&& ~~~v) })

/-- R352, R353: BANKCMD_GO: a draining set is striped afresh without its retiring banks, and every line of it is poisoned. -/
def execBankcmdGo (hub : Nat) (n : BitVec 4) (s : State) : Result :=
  let h := getHub s hub
  let j := n.toNat
  if h.setState j = 1 then
    .next (putHub s hub { h.withSet j 2 with
      bankMap := sparsePut (BitVec.allOnes 64) h.bankMap j (h.live j &&& ~~~(h.retire j))
      bankCmd := n.setWidth 64
      restriped := if h.restriped.contains j then h.restriped else h.restriped ++ [j]
      lost := h.lost.filter fun x => !(x.1 == j && (h.retire j).getLsbD x.2.1)
      cleared := h.cleared.filter fun l => !lineInSet j l })
  else .next s

/-- R351: the capacity of a stack in frames. -/
def Hub.capacity (h : Hub) : Nat := 1024 * ((List.range 16).map fun j => popCount (h.live j)).foldl (· + ·) 0

/-- R353: RESTRIPE_DONE: the set is LIVE again, or drains where one of its banks was marked meanwhile; FRAMES counts what exists, and
the set's frames return to the bitmap. -/
def execRestripeDone (hub n : Nat) (s : State) : Result :=
  let h := getHub s hub
  let j := n % 16
  if h.setState j = 2 then
    .next (putHub s hub { h.withSet j (if h.retire j &&& h.live j = 0 then 0 else 1) with
      frames := BitVec.ofNat 64 h.capacity
      used := h.used.filter fun f => f % 16 != j })
  else .next s

/-! ### A cache die that stops early (R412) -/

/-- R412: CACHE_DIE_EARLY_STOP: every frame with a dirty line is marked, before any line is written back; requests wait for the
end of the sequence, which comes first. -/
def execCacheDieEarlyStop (hub : Nat) (s : State) : Result :=
  let h := getHub s hub
  if h.cacheDie = 0 then
    let dirty := h.dirty.map Prod.fst
    .next { putHub s hub { h with
        cacheDie := 1
        poisonMap := h.poisonMap ++ dirty.filter fun f => !h.poisonMap.contains f } with
      agenda := .cacheDiePowerLoss hub :: s.agenda }
  else .next s

/-- The dirty lines of a frame, counted. -/
def countBits : Nat → Nat → Nat
  | 0, _ => 0
  | n + 1, v => v % 2 + countBits n (v / 2)

/-- A frame put in its place by count, then number. -/
def insertFrame (x : Nat × Nat) : List (Nat × Nat) → List (Nat × Nat)
  | [] => [x]
  | y :: r => if x.2 < y.2 ∨ (x.2 = y.2 ∧ x.1 < y.1) then x :: y :: r else y :: insertFrame x r

/-- R412: the frames that the write-back reaches whole: the fewest dirty lines first, within a number of lines. -/
def writtenBack : Nat → List (Nat × Nat) → List Nat
  | _, [] => []
  | room, (f, n) :: r => if n ≤ room then f :: writtenBack (room - n) r else []

/-- R412: lines that 200 µs write back at 2.56 TB/s. -/
def writeBackLines : Nat := 512 * 10 ^ 6 / 64

/-- R412: the frames of a hub in the order in which the write-back takes them, with their dirty lines. -/
def Hub.dirtyOrder (h : Hub) : List (Nat × Nat) :=
  (h.dirty.map fun x => (x.1, countBits 1024 x.2)).foldl (fun l x => insertFrame x l) []

/-- R412: CACHE_DIE_POWER_LOSS: the frames written back whole are cleared, those left stay poisoned, scratch is lost, and the cache
share is 0 until the die returns. -/
def execCacheDiePowerLoss (hub : Nat) (s : State) : Result :=
  let h := getHub s hub
  if h.cacheDie = 1 then
    let order := h.dirtyOrder
    let saved := writtenBack writeBackLines order
    let lo := scratchLoc (64 * hub) 0
    let hi := scratchLoc (64 * hub + 64) 0
    .next { putHub s hub { h with
        cacheDie := 2
        dirty := []
        poisonMap := h.poisonMap.filter fun f => !saved.contains f
        cleared := h.cleared.filter fun l => !(order.any fun x => x.1 == l / 1024) || saved.contains (l / 1024) } with
      mem := s.mem.filter fun c => !decide (lo ≤ c.1 ∧ c.1 < hi) }
  else .next s

/-- R412: CACHE_DIE_RETURN: the slices have their cache share again. -/
def execCacheDieReturn (hub : Nat) (s : State) : Result :=
  let h := getHub s hub
  if h.cacheDie = 2 then .next (putHub s hub { h with cacheDie := 0 }) else .next s

/-- R413: POISON_BIT_CLEAR: management clears a frame's bit once all its lines are cleared, or when no entry names the frame. -/
def execPoisonBitClear (frame : Nat) (s : State) : Result :=
  let hub := frame / 2 ^ 20
  let f := frame % 2 ^ 20
  let h := getHub s hub
  let clean := (List.range 1024).all fun l => h.cleared.contains (1024 * f + l)
  let unnamed := !(s.ptes.any fun e => (pteFrames e.2).contains frame)
  if clean || unnamed then
    .next (putHub s hub { h with
      poisonMap := h.poisonMap.filter fun x => x != f
      cleared := if h.restriped.contains (f % 16) then h.cleared else h.cleared.filter fun l => l / 1024 != f })
  else .next s

/-! ### Evicted slots (R273) -/

/-- Whether a location belongs to a slot of a tile's operand memory or to its sidebands. -/
def inSlot (t slot loc : Nat) : Bool :=
  let lo := omLoc t (slot * 65536)
  let side := sideLoc t (slot * 65536)
  decide (lo ≤ loc ∧ loc < lo + 65536) || decide (side ≤ loc ∧ loc < side + 1024)

/-- Two memories without a common address, merged by address. -/
def mergeCells (m : List Host.Cell) (l : List Host.Cell) : List Host.Cell := l.foldl (fun m c => writeByte m c.1 c.2) m

/-- R273: the contents of an evicted slot return. -/
def restoreSlot (s : State) (t slot : Nat) : State :=
  match s.mgmt.evicted.find? fun x => x.1 == t && x.2.1 == slot with
  | none => s
  | some x => { s with
      mem := mergeCells (s.mem.filter fun c => !inSlot t slot c.1) x.2.2
      mgmt := { s.mgmt with evicted := s.mgmt.evicted.filter fun y => !(y.1 == t && y.2.1 == slot) } }

/-- R273: the evicted slots of a context return before it runs. -/
def restoreSlots (s : State) (ctx : BitVec 16) : State :=
  s.mgmt.evicted.foldl (fun s x => if (s.getTile x.1).owns x.2.1 ctx then restoreSlot s x.1 x.2.1 else s) s

/-- R273: SLOT_EVICTION: a slot of a context of no bound graph is copied to hub memory, or copied back. It stays owned. -/
def execSlotEviction (t slot : Nat) (out : Bool) (s : State) : Result :=
  let s := s.settle
  let slot := slot % 256
  let resident := match assocGet (s.getTile t).owners slot with
    | some c => s.allGraphs.any fun g => g.ctx == c
    | none => true
  let gone := s.mgmt.evicted.any fun x => x.1 == t && x.2.1 == slot
  if out then
    if resident || gone then .next s
    else .next { s with
      mem := s.mem.filter fun c => !inSlot t slot c.1
      mgmt := { s.mgmt with evicted := s.mgmt.evicted ++ [(t, slot, s.mem.filter fun c => inSlot t slot c.1)] } }
  else .next (restoreSlot s t slot)

/-! ### The companion (R326) -/

/-- R287, R326: the replays that a line may have held go on. -/
def State.pokeLine (s : State) (line : Nat) : State :=
  let meets (l : List CreelEntry) : Bool := l.any fun e => e.live && e.meets none [line]
  let rims := ((s.tileIdx, s.tile) :: s.tiles).filterMap fun x => if meets x.2.core.creel then some (Issuer.rim x.1) else none
  let agns := s.allGraphs.flatMap fun g => g.regions.filterMap fun r => if meets r.creel then some (Issuer.agn g.slot r.id) else none
  let engs := (List.range 12).flatMap fun h => (List.range 4).filterMap fun e =>
    if meets (s.engine h e).creel then some (Issuer.eng h e) else none
  { s with agenda := s.agenda ++ (rims ++ agns ++ engs).map .creelReplay }

/-- R326: the companion holds a line no more. -/
def Island.dropLine (x : Island) (line : Nat) : Island :=
  { x with
    heldLines := x.heldLines.filter fun l => l != line
    dirtyLines := x.dirtyLines.filter fun l => l != line
    recalls := x.recalls.filter fun l => l != line
    overlaid := sparsePut 0 x.overlaid line 0 }

/-- R326: the companion has acknowledged the invalidation of a line: what a core owed for it is performed at SYSTEM, and a command that
waited for its recall starts again. -/
def Core.lineAcked (c : Core) (line : Nat) : Core :=
  { c with
    owedLines := c.owedLines.filter fun l => l != line
    cmds := c.cmds.map fun x => if x.state = .recordWait then { x with state := .queued } else x }

/-- R326: COMPANION_INVALIDATE_ACK: the companion no longer holds a line: writes to it are performed at SYSTEM, and reads that waited
for its recall proceed. -/
def execCompanionInvalidateAck (line : Nat) (s : State) : Result :=
  let s : State := s.settle
  let one (t : Tile) : Tile := { t with core := t.core.lineAcked line }
  let s : State := { s.onSavedCores (fun _ c => c.lineAcked line) with
    island := s.island.dropLine line
    tile := one s.tile
    tiles := s.tiles.map fun x => (x.1, one x.2) }
  .next (s.pokeLine line)

end Sys2Proof.Machine
end

