-- ==== Sys2Proof/Machine/Numbering.lean ====
section
/-! DEFINITION. How boot numbers the tiles of a field around those that are dead, and what it installs in each tile (R383 to R385,
R389, R391 to R394, R396). A physical tile has number 144 × field + 12 × row + column in its field, and field F(fr, fc) is
number 4 × fr + fc. -/

namespace Sys2Proof.Machine

/-! ### Dead tiles (R383, R389, R396) -/

/-- The number of a physical tile. -/
def physTile (field row col : Nat) : Nat := 144 * field + 12 * row + col

/-- R389, R391: the removed row and column of a tile with some fused defects. -/
def bypassOf (cdef : BitVec 22) : Nat × Nat :=
  let r0 := (fld cdef 0 5).toNat
  let c0 := (fld cdef 5 5).toNat
  let r1 := (fld cdef 11 5).toNat
  let c1 := (fld cdef 16 5).toNat
  if !cdef.getLsbD 10 then (16, 16)
  else if !cdef.getLsbD 21 then (r0, c0)
  else if r0 = r1 then (r0, min c0 c1)
  else (min r0 r1, c0)

/-- R396: the dead tiles that boot numbers around: those fused and those of the overlay. -/
def Island.dead (x : Island) : List Nat := x.deadTiles ++ x.overlay

/-- R384: the live physical columns of a row of a field, rising. -/
def liveCols (dead : List Nat) (field row : Nat) : List Nat :=
  (List.range 12).filter fun p => !dead.contains (physTile field row p)

/-- R384: n(r). -/
def deadCount (dead : List Nat) (field row : Nat) : Nat := 12 - (liveCols dead field row).length

/-- R384 step 2: whether a row can lend its spare. -/
def canLend (dead : List Nat) (field : Nat) (lent : List Nat) (row : Nat) : Bool :=
  decide (row < 12) && deadCount dead field row == 0 && !lent.contains row

/-- R384 step 2: the row that a row borrows from: north first. -/
def lenderOf (dead : List Nat) (field : Nat) (lent : List Nat) (row : Nat) : Option Nat :=
  if deadCount dead field row ≠ 2 then none
  else if row ≠ 0 ∧ canLend dead field lent (row - 1) = true then some (row - 1)
  else if canLend dead field lent (row + 1) then some (row + 1)
  else none

/-- R384: the borrows of a field as pairs of row and lender, rows taken from north to south. -/
def borrows (dead : List Nat) (field : Nat) : List (Nat × Nat) :=
  (List.range 12).foldl (fun acc r =>
    match lenderOf dead field (acc.map Prod.snd) r with
    | some x => acc ++ [(r, x)]
    | none => acc) []

/-- R384 step 3: whether a row bins the field. -/
def rowBins (dead : List Nat) (field row : Nat) : Bool :=
  let n := deadCount dead field row
  decide (3 ≤ n) || (n == 2 && (assocGet (borrows dead field) row).isNone)

/-- R384 step 3, R396: whether a field bins. -/
def fieldBins (dead : List Nat) (field : Nat) : Bool := (List.range 12).any (rowBins dead field)

/-- R384, R385: the physical row and column of a logical tile of a field, none where it has none. -/
def physOf (dead : List Nat) (field row col : Nat) : Option (Nat × Nat) :=
  match (liveCols dead field row)[col]? with
  | some p => some (row, p)
  | none => if col = 10 then (assocGet (borrows dead field) row).map fun x => (x, 11) else none

/-! ### Logical tiles -/

/-- The field of a logical tile, with its row and column in the field. -/
def fieldOf (t : Nat) : Nat × Nat × Nat :=
  let r := t / 44
  let c := t % 44
  (4 * (r / 12) + c / 11, r % 12, c % 11)

/-- R396: whether a logical tile is absent. -/
def tileAbsent (dead : List Nat) (t : Nat) : Bool :=
  let (f, r, c) := fieldOf t
  (fieldBins dead f && c == 10) || (physOf dead f r c).isNone

/-- R396, R410: a field bins. -/
def Island.bins (x : Island) : Bool := (List.range 16).any (fieldBins x.dead)

/-- The absent tiles of the module. -/
def Island.absent (x : Island) : List Nat :=
  if x.dead = [] then [] else (List.range 2112).filter (tileAbsent x.dead)

/-- R383: FDMAP j of a field. -/
def fdmapOf (dead : List Nat) (field j : Nat) : BitVec 64 :=
  BitVec.ofNat 64 (((List.range 5).map fun k =>
    let r := 5 * j + k
    if r < 12 then
      2 ^ (12 * k) * ((List.range 12).map fun p => if dead.contains (physTile field r p) then 2 ^ p else 0).sum
    else 0).sum)

/-- R393, R397: whether a management net reaches a physical tile, as boot has found. -/
def Island.reaches (x : Island) (net p : Nat) : Bool := !x.unreached.contains (p, net)

/-- R391 to R394: what boot installs in a tile: SEAMLAT, and where the tile has a place CDEF, SOFF, TXLT and FDMAP; other registers are
as at reset. -/
def bootTile (x : Island) (t : Nat) : Tile :=
  let base := { Tile.reset t with seamLat := x.seamFuse }
  let (f, r, c) := fieldOf t
  match physOf x.dead f r c with
  | none => base
  | some (pr, pc) =>
    let cdef := sparseGet 0 x.cellDefects (physTile f pr pc)
    let by' := bypassOf cdef
    let lent := pr ≠ r
    { base with
      cdef := cdef
      soff := BitVec.ofNat 15 (by'.1 + 32 * by'.2 + (if lent then 1024 * 3 + 16384 else 0))
      txlt := BitVec.ofNat 22 (pc + 16 * pr + 256 * (f % 4) + 1024 * (f / 4) + 4096 * c + 65536 * r +
        1048576 * (x.reaches 0 (physTile f pr pc)).toNat + 2097152 * (x.reaches 1 (physTile f pr pc)).toNat)
      fdmap := Vector.ofFn fun j => fdmapOf x.deadTiles f j.val }

/-- R396: the tiles that boot leaves other than at their reset state on a part without defects. -/
def bootTiles (x : Island) : List (Nat × Tile) :=
  if x.dead = [] ∧ x.cellDefects = [] ∧ x.unreached = [] ∧ x.seamFuse = 0 then []
  else (List.range 2112).filterMap fun t => let y := bootTile x t; if y = Tile.reset t then none else some (t, y)

end Sys2Proof.Machine
end

