-- ==== Sys2Proof/Machine/Special.lean ====
section
/-! DEFINITION. The special registers: access rules (R76, R77), reading and writing each register (R54 to R56, R79 to R85, R237,
R274, R305, R356, R377, R383, R391 to R395), the four access instructions (R78) and the write steps that have rows of their
own. -/

namespace Sys2Proof.Machine

/-! ### Access (R76, R77) -/

/-- The outcome of the checks of R76 and R77. -/
inductive SrCheck where
  | ok | priv | illegal
  deriving DecidableEq, Repr

/-- R54 to R56, R79 to R85, R237, R274, R305, R356, R377, R383, R391 to R395: the numbers that name a register. -/
def srNamed (n : Nat) : Bool :=
  decide (n ≤ 0x004) || n == 0x010 || n == 0x011 || decide (0x020 ≤ n ∧ n ≤ 0x037) || decide (0x040 ≤ n ∧ n ≤ 0x042) ||
  decide (0x044 ≤ n ∧ n ≤ 0x047) || decide (0x100 ≤ n ∧ n ≤ 0x104) || decide (0x108 ≤ n ∧ n ≤ 0x10B) ||
  n == 0x200 || n == 0x201 || decide (0x208 ≤ n ∧ n ≤ 0x210) || decide (0x300 ≤ n ∧ n ≤ 0x31F) ||
  decide (0x400 ≤ n ∧ n ≤ 0x405) || decide (0x410 ≤ n ∧ n ≤ 0x412) || decide (0x500 ≤ n ∧ n ≤ 0x505)

/-- R76: whether a mode may reach a number, before the register's own map; R237 for a user-mode write of NXCUR. -/
def srReach (n : Nat) (super write : Bool) : SrCheck :=
  if 0xF00 ≤ n then .priv
  else if 0x600 ≤ n then .illegal
  else if super then .ok
  else if (0x100 ≤ n ∧ n < 0x200) ∨ (0x300 ≤ n ∧ n < 0x400) then .priv
  else if write = true ∧ (n < 0x010 ∨ 0x200 ≤ n ∨ n = 0x047) then .priv
  else .ok

/-- R76, R77: the range check first, then whether the number names a register. -/
def srCheck (n : Nat) (super write : Bool) : SrCheck :=
  match srReach n super write with
  | .ok => if srNamed n then .ok else .illegal
  | r => r

/-! ### Reading -/

/-- R79: STATUS. -/
def Core.statusWord (c : Core) : BitVec 64 :=
  BitVec.ofNat 64 (c.mode.toNat + 2 * c.pmode.toNat + 4 * c.le.toNat + 8 * c.ple.toNat)

/-- R80: RIMID. -/
def Core.rimidWord (c : Core) : BitVec 64 :=
  BitVec.ofNat 64 (c.tcol.toNat + 2 ^ 8 * c.trow.toNat + 2 ^ 16 * c.ctx.toNat)

/-- R81: LCS. -/
def Core.lcsWord (c : Core) : BitVec 64 :=
  let l := fun (k : Fin 3) => (c.lcsStart.get k).toNat + 2 ^ 10 * (c.lcsEnd.get k).toNat
  BitVec.ofNat 64 (l 0 + 2 ^ 20 * l 1 + 2 ^ 40 * l 2 + 2 ^ 60 * c.lcsAct.toNat)

/-- R82: THDR of a token. -/
def Token.header (t : Token) : BitVec 64 :=
  BitVec.ofNat 64 (t.tag.toNat + 2 ^ 4 * t.exp.toNat + 2 ^ 12 * t.bub.toNat + 2 ^ 16 * t.valid.toNat + 2 ^ 32 * t.pred.toNat)

/-- R54: TCR. RESEED reads as zero. -/
def Core.tcrWord (c : Core) : BitVec 64 :=
  BitVec.ofNat 64 (c.rm.toNat + 2 ^ 8 * c.remap.toNat + 2 ^ 16 * c.seed.toNat)

/-- R83: PREDS. -/
def Core.predsWord (c : Core) : BitVec 64 := zext64 (setBit c.preds 0 true)

/-- R237: NXCUR. -/
def Core.nxcurWord (c : Core) : BitVec 64 := BitVec.ofNat 64 (c.nxcur.toNat + 2 ^ 10 * c.exh.toNat)

/-- R305: word w of a ward. -/
def Ward.word (x : Ward) (w : Nat) : BitVec 64 :=
  match w with
  | 0 => BitVec.ofNat 64 (x.v.toNat + 2 * x.pr.toNat + 4 * x.pw.toNat + 8 * x.px.toNat + 16 * x.scope.toNat +
      2 ^ 16 * x.vbase.toNat)
  | 1 => BitVec.ofNat 64 (2 ^ 16 * x.vlimit.toNat)
  | 2 => BitVec.ofNat 64 (2 ^ 16 * x.iabase.toNat)
  | _ => BitVec.ofNat 64 (x.modnum.toNat + 2 ^ 14 * x.isRemote.toNat)

/-- R377: SPINE. -/
def Spine.word (x : Spine) : BitVec 64 :=
  BitVec.ofNat 64 (x.sel.toNat + 8 * x.onAlt.toNat + 16 * x.pLost.toNat + 32 * x.aLost.toNat + 2 ^ 8 * x.freq.toNat +
    2 ^ 16 * x.stretch.toNat + 2 ^ 32 * x.debt.toNat)

/-- R274: OSOWNj of the resident context. -/
def Tile.osown (t : Tile) (j : Nat) : BitVec 64 := maskOf 64 fun k => t.owns (64 * j + k) t.core.ctx

/-- R274: OSINFO. -/
def Tile.osinfo (t : Tile) : BitVec 64 :=
  BitVec.ofNat 64 (256 - t.owners.length + 2 ^ 9 * (t.owners.filter fun p => p.2 == t.core.ctx).length)

/-- R78: ReadSR(n) for the tile in focus; the numbers of `srNamed`. -/
def State.readSR (s : State) (n : Nat) : BitVec 64 :=
  let c := s.tile.core
  match n / 16, n % 16 with
  | 0x00, 0 => c.statusWord
  | 0x00, 1 => c.rimidWord
  | 0x00, 2 => c.lcsWord
  | 0x00, 3 => zext64 c.tsel
  | 0x00, 4 => (c.t c.tsel).header
  | 0x01, 0 => c.tcrWord
  | 0x01, 1 => zext64 c.fstat
  | 0x02, l => zext64 (c.rnd.at l)
  | 0x03, k => zext64 (c.m (BitVec.ofNat 3 k))
  | 0x04, 0 => zext64 (c.lc.get 0)
  | 0x04, 1 => zext64 (c.lc.get 1)
  | 0x04, 2 => zext64 (c.lc.get 2)
  | 0x04, 4 => c.predsWord
  | 0x04, 5 => zext64 (c.mailOvr ++ c.mailFull)
  | 0x04, 6 => zext64 c.pend
  | 0x04, 7 => c.nxcurWord
  | 0x10, 0 => BitVec.ofNat 64 (c.tvecEntry.toNat + 2 ^ 63 * c.tvecValid.toNat)
  | 0x10, 1 => zext64 c.epc
  | 0x10, 2 => BitVec.ofNat 64 (c.ecause.toNat + 2 ^ 8 * c.easync.toNat)
  | 0x10, 3 => c.eaddr
  | 0x10, 4 => zext64 c.estat
  | 0x10, 8 => c.sscr.get 0
  | 0x10, 9 => c.sscr.get 1
  | 0x10, 10 => c.sscr.get 2
  | 0x10, 11 => c.sscr.get 3
  | 0x20, 0 => s.time
  | 0x20, 1 => BitVec.ofNat 64 (c.energy.toNat + 2 ^ 48 * c.energySat.toNat)
  | 0x20, k => zext64 (c.ew.toList.getD (k - 8) 0)
  | 0x21, _ => zext64 c.statw
  | 0x30, k => (c.wards.toList.getD (k / 4) Ward.reset).word (k % 4)
  | 0x31, k => (c.wards.toList.getD (4 + k / 4) Ward.reset).word (k % 4)
  | 0x40, 0 => s.tile.spine.word
  | 0x40, 1 => zext64 s.tile.seamLat
  | 0x40, 2 => zext64 s.tile.txlt
  | 0x40, 3 => zext64 s.tile.soff
  | 0x40, 4 => zext64 s.tile.cdef
  | 0x40, 5 => zext64 s.tile.softErr
  | 0x41, k => s.tile.fdmap.toList.getD k 0
  | 0x50, 4 => s.tile.osinfo
  | 0x50, 5 => zext64 s.tile.omCorr
  | 0x50, k => s.tile.osown k
  | _, _ => 0

/-! ### Writing

`v` is what each RW field takes; a W1C field clears where `v` holds 1 (R7, R78). -/

/-- R54: TCR. RM takes codes 0 to 5; RESEED reloads RND from the SEED written. -/
def Core.writeTcr (c : Core) (v : BitVec 64) : Core :=
  let c := { c with
    rm := if (fld v 0 3).toNat ≤ 5 then fld v 0 3 else c.rm
    remap := fld v 8 8
    seed := fld v 16 16 }
  if v.getLsbD 32 then { c with rnd := Gens.seeded c.seed } else c

/-- R55: FSTAT. -/
def Core.writeFstat (c : Core) (v : BitVec 64) : Core := { c with fstat := c.fstat &&& ~~~fld v 0 6 }

/-- R56: RNDl; a write of zero leaves it unchanged. -/
def Core.writeRnd (c : Core) (l : Nat) (v : BitVec 64) : Core :=
  if fld v 0 32 = 0 then c else { c with rnd := c.rnd.setIfInBounds l (fld v 0 32) }

/-- R79: STATUS. MODE is read-only. -/
def Core.writeStatus (c : Core) (v : BitVec 64) : Core :=
  { c with pmode := v.getLsbD 1, le := v.getLsbD 2, ple := v.getLsbD 3 }

/-- R81: LCS. -/
def Core.writeLcs (c : Core) (v : BitVec 64) : Core :=
  { c with
    lcsStart := Vector.ofFn fun k : Fin 3 => fld v (20 * k.val) 10
    lcsEnd := Vector.ofFn fun k : Fin 3 => fld v (20 * k.val + 10) 10
    lcsAct := fld v 60 3 }

/-- R83: LCl. -/
def Core.writeLc (c : Core) (l : Nat) (v : BitVec 64) : Core := { c with lc := c.lc.setIfInBounds l (fld v 0 32) }

/-- R82: THDR of the token that TSEL selects. -/
def Core.writeThdr (c : Core) (v : BitVec 64) : Core :=
  c.setT c.tsel { c.t c.tsel with
    tag := fld v 0 4, exp := fld v 4 8, bub := v.getLsbD 12, valid := fld v 16 16, pred := fld v 32 16 }

/-- R84: MAILST. -/
def Core.writeMailst (c : Core) (v : BitVec 64) : Core :=
  { c with mailFull := c.mailFull &&& ~~~fld v 0 4, mailOvr := c.mailOvr &&& ~~~fld v 4 4 }

/-- R237: a write of NXCUR under a table of a length. -/
def Core.writeNxcur (c : Core) (len : Nat) (v : BitVec 64) : Core :=
  { c with nxcur := BitVec.ofNat 10 (min (fld v 0 10).toNat len), exh := decide (len ≤ (fld v 0 10).toNat) }

/-- R356: ENERGY. -/
def Core.writeEnergy (c : Core) (v : BitVec 64) : Core := { c with energy := fld v 0 48, energySat := v.getLsbD 48 }

/-- R78, R83, R85, R356: the registers without a row of their own. Read-only registers ignore a write. -/
def Core.writePlain (c : Core) (n : Nat) (v : BitVec 64) : Core :=
  match n with
  | 0x003 => { c with tsel := fld v 0 5 }
  | 0x031 => c.setM 1 (fld v 0 16)
  | 0x032 => c.setM 2 (fld v 0 16)
  | 0x033 => c.setM 3 (fld v 0 16)
  | 0x034 => c.setM 4 (fld v 0 16)
  | 0x035 => c.setM 5 (fld v 0 16)
  | 0x036 => c.setM 6 (fld v 0 16)
  | 0x037 => c.setM 7 (fld v 0 16)
  | 0x044 => { c with preds := fld v 0 8 &&& 0xFE }
  | 0x100 => { c with tvecEntry := fld v 0 10, tvecValid := v.getLsbD 63 }
  | 0x101 => { c with epc := fld v 0 10 }
  | 0x102 => { c with ecause := fld v 0 8, easync := v.getLsbD 8 }
  | 0x103 => { c with eaddr := v }
  | 0x104 => { c with estat := fld v 0 32 }
  | 0x108 => { c with sscr := c.sscr.set 0 v }
  | 0x109 => { c with sscr := c.sscr.set 1 v }
  | 0x10A => { c with sscr := c.sscr.set 2 v }
  | 0x10B => { c with sscr := c.sscr.set 3 v }
  | 0x210 => { c with statw := fld v 0 16 }
  | n => if 0x208 ≤ n ∧ n ≤ 0x20F then { c with ew := c.ew.setIfInBounds (n - 0x208) (fld v 0 16) } else c

/-- R78: WriteSR(n, v) on a core whose tile has a schedule table of a length. -/
def Core.writeSR (c : Core) (len : Nat) (n : Nat) (v : BitVec 64) : Core :=
  if n = 0x000 then c.writeStatus v
  else if n = 0x002 then c.writeLcs v
  else if n = 0x004 then c.writeThdr v
  else if n = 0x010 then c.writeTcr v
  else if n = 0x011 then c.writeFstat v
  else if 0x020 ≤ n ∧ n ≤ 0x02F then c.writeRnd (n - 0x020) v
  else if 0x040 ≤ n ∧ n ≤ 0x042 then c.writeLc (n - 0x040) v
  else if n = 0x045 then c.writeMailst v
  else if n = 0x047 then c.writeNxcur len v
  else if n = 0x201 then c.writeEnergy v
  else c.writePlain n v

/-- R7: the registers whose fields are W1C. -/
def srW1c (n : Nat) : Bool := n == 0x011 || n == 0x045

/-- R54: the write-only bits, which SRS and SRC leave unchanged. -/
def srWoMask (n : Nat) : BitVec 64 := if n = 0x010 then 0x100000000 else 0

/-- R78: what SRS writes. -/
def srsValue (n : Nat) (old v : BitVec 64) : BitVec 64 := if srW1c n then v else old ||| (v &&& ~~~srWoMask n)

/-- R78: what SRC writes. -/
def srcValue (n : Nat) (old v : BitVec 64) : BitVec 64 := if srW1c n then 0 else old &&& ~~~v

/-- A write to the core in focus (R168: on top of the loop end). -/
def State.putSR (s : State) (n : Nat) (v : BitVec 64) : State :=
  s.setCore (s.tile.core.writeSR s.tile.parcels.length n v)

/-! ### The access instructions (R76 to R78, R108, R164) -/

/-- R76, R77, R108: an access to number `n` checked before anything else. -/
def srInstr (word : Word) (n : BitVec 12) (write : Bool) (run : State → Result) (s : State) : Result :=
  match srCheck n.toNat s.tile.core.mode write with
  | .illegal => .next (trapAt s causeIllegal 0 word)
  | .priv => .next (trapAt s causePriv (zext64 n) word)
  | .ok => run s

/-- R78: SRD. -/
def execSrd (d : BitVec 5) (n : BitVec 12) (s : State) : Result :=
  srInstr (encode (.srd d n)) n false
    (seqInstr 7 (encode (.srd d n)) true fun s => .done (s.setCore (s.tile.core.setS d (s.readSR n.toNat)))) s

/-- R78: SWR. -/
def execSwr (a : BitVec 5) (n : BitVec 12) (s : State) : Result :=
  let v := s.tile.core.s a
  srInstr (encode (.swr a n)) n true (seqWith 7 (encode (.swr a n)) true Act.done fun t => t.putSR n.toNat v) s

/-- R78: SRS. -/
def execSrs (d a : BitVec 5) (n : BitVec 12) (s : State) : Result :=
  let old := s.readSR n.toNat
  let v := srsValue n.toNat old (s.tile.core.s a)
  srInstr (encode (.srs d a n)) n true
    (seqWith 7 (encode (.srs d a n)) true (fun s => .done (s.setCore (s.tile.core.setS d old))) fun t => t.putSR n.toNat v) s

/-- R78: SRC. -/
def execSrc (d a : BitVec 5) (n : BitVec 12) (s : State) : Result :=
  let old := s.readSR n.toNat
  let v := srcValue n.toNat old (s.tile.core.s a)
  srInstr (encode (.src d a n)) n true
    (seqWith 7 (encode (.src d a n)) true (fun s => .done (s.setCore (s.tile.core.setS d old))) fun t => t.putSR n.toNat v) s

/-! ### The write steps with rows of their own -/

/-- R54: a write of TCR. -/
def execTcrWrite (v : BitVec 64) (s : State) : Result := .next (s.setCore (s.tile.core.writeTcr v))

/-- R56: a write of TCR whose RESEED bit is what acts: the generators reload from the SEED that the write leaves. -/
def execTcrReseed (v : BitVec 64) (s : State) : Result :=
  .next (s.setCore (s.tile.core.writeTcr (v ||| 0x100000000)))

/-- R55: a write of FSTAT. -/
def execFstatClear (v : BitVec 64) (s : State) : Result := .next (s.setCore (s.tile.core.writeFstat v))

/-- R56: a write of RNDl. -/
def execRndWrite (l : BitVec 4) (v : BitVec 64) (s : State) : Result := .next (s.setCore (s.tile.core.writeRnd l.toNat v))

/-- R79: a write of STATUS. -/
def execStatusWrite (v : BitVec 64) (s : State) : Result := .next (s.setCore (s.tile.core.writeStatus v))

/-- R81: a write of LCS. -/
def execLcsWrite (v : BitVec 64) (s : State) : Result := .next (s.setCore (s.tile.core.writeLcs v))

/-- R83, R168: a write of LC0, LC1 or LC2; there is no LC3. -/
def execLcWrite (l : BitVec 2) (v : BitVec 64) (s : State) : Result := .next (s.setCore (s.tile.core.writeLc l.toNat v))

/-- R82: a write of THDR. -/
def execThdrWrite (v : BitVec 64) (s : State) : Result := .next (s.setCore (s.tile.core.writeThdr v))

/-- R84: a write of MAILST. -/
def execMailstClear (v : BitVec 64) (s : State) : Result := .next (s.setCore (s.tile.core.writeMailst v))

/-- R237: a write of NXCUR. -/
def execNxcurWrite (v : BitVec 64) (s : State) : Result :=
  .next (s.setCore (s.tile.core.writeNxcur s.tile.parcels.length v))

/-- R356: a write of ENERGY. -/
def execEnergyWrite (v : BitVec 64) (s : State) : Result := .next (s.setCore (s.tile.core.writeEnergy v))

/-- R78: a write of any other register under its access codes. -/
def execRegisterWrite (n : BitVec 12) (v : BitVec 64) (s : State) : Result := .next (s.putSR n.toNat v)

end Sys2Proof.Machine
end

