-- ==== Sys2Proof/Machine/Control.lean ====
section
/-! DEFINITION. Transfers, hardware loops, waiting, halting, and the system group apart from the register accesses (R91 to R97,
R107 to R116). -/

namespace Sys2Proof.Machine

/-! ### Transfers (R91, R92) -/

/-- R91: BR. -/
def execBr (g : BitVec 4) (o : BitVec 22) (s : State) : Result :=
  if s.tile.core.guard g then transfer (encode (.br g o)) (targetOf s.tile.core.pc o) 0 s
  else seqInstr 1 (encode (.br g o)) false Act.done s

/-- R91: JMP. -/
def execJmp (o : BitVec 22) (s : State) : Result := transfer (encode (.jmp o)) (targetOf s.tile.core.pc o) 0 s

/-- R91: CALL links in d; d = 0 does not link. -/
def execCall (d : BitVec 5) (i : BitVec 21) (s : State) : Result :=
  transfer (encode (.call d i)) (targetOf s.tile.core.pc i) d s

/-- R91: JR reads sa before it links. The value is a word address as it stands in the register. -/
def execJr (d a : BitVec 5) (g : BitVec 4) (s : State) : Result :=
  if s.tile.core.guard g then
    let t := s.tile.core.s a
    if t.toNat ≤ 1023 then transfer (encode (.jr d a g)) (t.toNat : Int) d s
    else .next (trapAt s causeBadTgt t (encode (.jr d a g)))
  else seqInstr 1 (encode (.jr d a g)) false Act.done s

/-! ### Loops (R93, R95, R160) -/

/-- R160: the loop buffer with the words from `lo` to `hi`, as LOOP fills it. -/
def Tile.fillLoop (t : Tile) (lo hi : Nat) : Sparse (BitVec 32 × CodeMark) :=
  (List.range (hi + 1 - lo)).map fun k => (lo + k, (sparseGet 0 t.code (lo + k), sparseGet .clean t.codeMarks (lo + k)))

/-- R93: whether LOOP at level `l` meets an active loop that forbids it. -/
def Core.loopClash (c : Core) (l pc last : Nat) : Bool :=
  (List.range 3).any fun k => c.lcsAct.getLsbD k &&
    (decide (l ≤ k) || decide (pc < (c.lcsStart.toList.getD k 0).toNat) || decide ((c.lcsEnd.toList.getD k 0).toNat < last))

/-- R93, R160: LOOP starts the loop at level `l` with count `n`; the buffer is filled where no outer loop is active. -/
def startLoop (s : State) (l n last : Nat) : State :=
  let c := s.tile.core
  let c' := { c with
    lc := c.lc.setIfInBounds l (BitVec.ofNat 32 n)
    lcsStart := c.lcsStart.setIfInBounds l (c.pc + 1)
    lcsEnd := c.lcsEnd.setIfInBounds l (BitVec.ofNat 10 last)
    lcsAct := setBit c.lcsAct l true
    loopBuf := if c.lcsAct = 0 then s.tile.fillLoop (c.pc.toNat + 1) last else c.loopBuf }
  s.setCore { (c'.charge 1 c.mode) with pc := c.pc + 1, stall := .none, resident := !c.mode }

/-- R93: LOOP with its count. A body that is skipped ends at LoopEnd(last); where that leads to 1,024, the word traps BADTGT
with EADDR 1,024 (R23, assumption 15). -/
def loopInstr (word : Word) (l : BitVec 2) (n : BitVec 64) (len : BitVec 8) (s : State) : Result :=
  let c := s.tile.core
  let last := c.pc.toNat + len.toNat + 1
  if 1023 < last then .next (trapAt s causeBadTgt (BitVec.ofNat 64 last) word)
  else if 0xFFFFFFFF < n.toNat then .next (trapAt s causeLoopErr n word)
  else if c.loopClash l.toNat c.pc.toNat last then .next (trapAt s causeLoopErr (zext64 l) word)
  else if n = 0 then
    let r := c.loopEnd last
    if r.1 = 1024 then .next (trapAt s causeBadTgt 1024 word) else .next (retireTo s s 1 r)
  else .next (startLoop s l.toNat n.toNat last)

/-- R93: LOOP with an immediate count. -/
def execLoopImm (l : BitVec 2) (c : BitVec 11) (n : BitVec 8) (s : State) : Result :=
  loopInstr (encode (.loopImm l c n)) l (zext64 c) n s

/-- R93: LOOP with a count register. -/
def execLoopReg (l : BitVec 2) (r : BitVec 5) (n : BitVec 8) (s : State) : Result :=
  loopInstr (encode (.loopReg l r n)) l (s.tile.core.s r) n s

/-- R95: LBRK: the loop end is evaluated after the levels from `l` inwards have ended. -/
def execLbrk (l : BitVec 5) (g : BitVec 4) (s : State) : Result :=
  if s.tile.core.guard g then
    let c := s.tile.core.breakLoops l.toNat
    let r := c.loopEnd c.pc.toNat
    if r.1 = 1024 then .next (trapAt s causeBadTgt 1024 (encode (.lbrk l g))) else .next (retireTo s s 1 r)
  else seqInstr 1 (encode (.lbrk l g)) false Act.done s

/-! ### Waiting and halting (R96, R97) -/

/-- R96: whether WAIT on register n may retire. -/
def Core.waitReady (c : Core) (n : BitVec 5) : Bool :=
  !c.pend.getLsbD n.toNat && (decide (n.toNat < 28) || c.mailFull.getLsbD (n.toNat - 28))

/-- R96: what WAIT's retirement clears. -/
def Core.waitClear (c : Core) (n : BitVec 5) : Core :=
  if n.toNat < 28 then c else { c with mailFull := setBit c.mailFull (n.toNat - 28) false }

/-- R96: WAIT. -/
def execWait (a : BitVec 5) (g : BitVec 4) (s : State) : Result :=
  seqInstr 1 (encode (.wait a g)) (s.tile.core.guard g)
    (fun s => if s.tile.core.waitReady a then .done (s.setCore (s.tile.core.waitClear a)) else .stall (.wait a) s) s

/-- R97: whether HALT may complete: FENCE.graph in its default form, and PEND zero. -/
def Core.haltReady (c : Core) : Bool := c.fenceReady false 3 && c.pend == 0

/-- R97, R114, R358: HALT completes: the fence status becomes the completion status, and waiting messages are discarded. -/
def completeHalt (s : State) : State :=
  let c := s.tile.core
  { s with tile := { s.tile with
      core := { (c.charge 1 c.mode) with
        run := .halted, stall := .none, resident := false, doneStatus := c.fence.word false, fence := FenceAcc.reset }
      inbox := [] } }

/-- R97: HALT. It has no next address, so word 1,023 does not matter (R23). -/
def execHalt (g : BitVec 4) (s : State) : Result :=
  if s.tile.core.guard g then
    if s.tile.core.haltReady then .next (completeHalt s) else .next (stallCore .halt (encode (.halt g)) s)
  else seqInstr 1 (encode (.halt g)) false Act.done s

/-! ### Traps and return (R110) -/

/-- R110: TRAP retires, and its resume address is LoopEnd of its own. -/
def execTrap (n : BitVec 12) (s : State) : Result :=
  let c := s.tile.core
  let r := c.loopEnd c.pc.toNat
  if r.1 = 1024 then .next (trapAt s causeBadTgt 1024 (encode (.trap n)))
  else .next (enterTrap (retireTo s s 7 r) causeSwTrap (zext64 n) (BitVec.ofNat 10 r.1) false (encode (.trap n)))

/-- R110: ERET. -/
def execEret (s : State) : Result :=
  privInstr (encode .eret) (fun s => .next (s.setCore s.tile.core.returnFromTrap)) s

/-- R33: an illegal word traps ILLEGAL; ESTAT holds the word. -/
def execIllegalRimWord (w : BitVec 32) (s : State) : Result :=
  .next (enterTrap s causeIllegal 0 s.tile.core.pc false w)

/-! ### Fences (R111, R112) -/

/-- R111: FENCE's wait has ended: sd takes the status, and the accumulated state is cleared. -/
def Core.fenceTake (c : Core) (d : BitVec 5) (nw : Bool) (scope : BitVec 3) : Core :=
  { (c.setS d (c.fence.word (nw && c.creelRemains scope))) with fence := FenceAcc.reset }

/-- R111: FENCE. -/
def execFence (d : BitVec 5) (w : BitVec 1) (sc : BitVec 3) (s : State) : Result :=
  seqInstr 7 (encode (.fence d w sc)) true
    (fun s =>
      if s.tile.core.fenceReady (w == 1) sc then .done (s.setCore (s.tile.core.fenceTake d (w == 1) sc))
      else .stall (.fence d w sc) s) s

/-- R112: WSYNC. A WARDW takes effect when it installs, so WSYNC retires at once. -/
def execWsync (s : State) : Result := seqInstr 7 (encode .wsync) true Act.done s

/-! ### Messages and parcels (R113, R115, R372) -/

/-- R113: the destination tile that sd names in a bound rectangle, where the operand is in order. -/
def msgDest (g : Graph) (v : BitVec 64) : Option Nat :=
  if v &&& 0xFFFFFFFFFFFEC0C0 ≠ 0 then none
  else
    let col := (fld v 0 6).toNat + (if v.getLsbD 16 then g.tcol0 else 0)
    let row := (fld v 8 6).toNat + (if v.getLsbD 16 then g.trow0 else 0)
    if g.trow0 ≤ row ∧ row < g.trow0 + g.trows ∧ g.tcol0 ≤ col ∧ col < g.tcol0 + g.tcols then some (tileNum row col) else none

/-- R113: MSG. -/
def execMsg (d a : BitVec 5) (m : BitVec 2) (s : State) : Result :=
  seqInstr 7 (encode (.msg d a m)) true
    (fun s =>
      let c := s.tile.core
      match (s.graphOfTile s.tileIdx).bind fun g => msgDest g (c.s d) with
      | none => .trap causeBadTgt (c.s d)
      | some t =>
        if 4 ≤ c.outbox.length then .stall .again s
        else .done { s.setCore { c with outbox := c.outbox ++ [⟨s.tileIdx, t, m, c.s a⟩] } with
          agenda := s.agenda ++ [.msgArrive s.tileIdx t] }) s

/-- R115: the value that NEXTP returns, and the cursor after it. -/
def nextParcel (table : List (BitVec 64)) (cur : BitVec 10) : BitVec 64 × BitVec 10 :=
  match table[cur.toNat]? with
  | some e => (e, cur + 1)
  | none => (BitVec.allOnes 64, cur)

/-- R115, R236, R237: the effect of NEXTP with a table. -/
def Core.takeParcel (c : Core) (d : BitVec 5) (table : List (BitVec 64)) : Core :=
  let r := nextParcel table c.nxcur
  { c.setS d r.1 with
    nxcur := r.2
    exh := decide (table.length ≤ r.2.toNat)
    parcel := match table[c.nxcur.toNat]? with
      | some e => some (fld e 48 12).toNat
      | none => c.parcel }

/-- R115, R372: NEXTP; it waits while management holds a drain request on the graph. -/
def execNextp (d : BitVec 5) (s : State) : Result :=
  seqInstr 7 (encode (.nextp d)) true
    (fun s =>
      let c := s.tile.core
      if (s.graphOfTile s.tileIdx).any fun g => g.drain then .stall .nextp s
      else
        .done (s.setCore (c.takeParcel d s.tile.parcels))) s

end Sys2Proof.Machine
end

