-- ==== Sys2Proof/Machine/Scalar.lean ====
section
/-! DEFINITION. Scalar arithmetic, compares and predicates (R22, R27, R86 to R90): one meaning per instruction over shared
results. -/

namespace Sys2Proof.Machine

/-! ### Results -/

/-- R87: signed quotient. -/
def divS (a b : BitVec 64) : BitVec 64 := if b = 0 then BitVec.allOnes 64 else BitVec.ofInt 64 (a.toInt.tdiv b.toInt)
/-- R87: signed remainder. -/
def remS (a b : BitVec 64) : BitVec 64 := if b = 0 then a else BitVec.ofInt 64 (a.toInt.tmod b.toInt)
/-- R87: unsigned quotient. -/
def divU (a b : BitVec 64) : BitVec 64 := if b = 0 then BitVec.allOnes 64 else a / b
/-- R87: unsigned remainder. -/
def remU (a b : BitVec 64) : BitVec 64 := if b = 0 then a else a % b
/-- R86: high half of the signed product. -/
def mulHigh (a b : BitVec 64) : BitVec 64 := BitVec.ofInt 64 (a.toInt * b.toInt / 2 ^ 64)
/-- R86: high half of the unsigned product. -/
def mulHighU (a b : BitVec 64) : BitVec 64 := BitVec.ofNat 64 (a.toNat * b.toNat / 2 ^ 64)
/-- R86: leading zeros; 64 for 0. -/
def leadZeros (a : BitVec 64) : BitVec 64 :=
  BitVec.ofNat 64 (if a = 0 then 64 else 63 - Nat.log2 a.toNat)
/-- R86: trailing zeros; 64 for 0. -/
def trailZeros (a : BitVec 64) : BitVec 64 := BitVec.ofNat 64 (((bitsOf a).takeWhile fun b => !b).length)
/-- R86: bytes in reversed order. -/
def byteSwap (a : BitVec 64) : BitVec 64 := BitVec.ofNat 64 (natOfBytes (bytesOf 8 a.toNat).reverse)
/-- R88: lowest bit of the field that sb specifies. -/
def bfLow (b : BitVec 64) : Nat := (fld b 0 6).toNat
/-- R88: width of the field. -/
def bfWidth (b : BitVec 64) : Nat := (fld b 8 6).toNat + 1
/-- R88: BFX. -/
def bfExtract (a b : BitVec 64) : BitVec 64 := (a >>> bfLow b) &&& BitVec.ofNat 64 (2 ^ bfWidth b - 1)
/-- R88: BFI. -/
def bfInsert (d a b : BitVec 64) : BitVec 64 :=
  let mask := BitVec.ofNat 64 (2 ^ bfWidth b - 1) <<< bfLow b
  (d &&& ~~~mask) ||| ((a <<< bfLow b) &&& mask)

/-! ### Shapes -/

/-- A two-source scalar instruction: sd := f sa sb. -/
def scalar2 (word : Word) (f : BitVec 64 → BitVec 64 → BitVec 64) (d a b : BitVec 5) (g : BitVec 4) (s : State) : Result :=
  coreInstr 0 word (s.tile.core.guard g) (fun c => c.setS d (f (c.s a) (c.s b))) s

/-- A one-source scalar instruction: sd := f sa. -/
def scalar1 (word : Word) (f : BitVec 64 → BitVec 64) (d a : BitVec 5) (g : BitVec 4) (s : State) : Result :=
  coreInstr 0 word (s.tile.core.guard g) (fun c => c.setS d (f (c.s a))) s

/-- A predicate instruction: pd := f core. -/
def predInstr (word : Word) (guard : Bool) (f : Core → Bool) (d : BitVec 3) (s : State) : Result :=
  coreInstr 0 word guard (fun c => c.setP d (f c)) s

/-! ### Register forms (R86 to R88) -/

/-- R86: ADD. -/
def execAdd (d a b : BitVec 5) (g : BitVec 4) (s : State) : Result :=
  scalar2 (encode (.add d a b g)) (· + ·) d a b g s

/-- R86: SUB. -/
def execSub (d a b : BitVec 5) (g : BitVec 4) (s : State) : Result :=
  scalar2 (encode (.sub d a b g)) (· - ·) d a b g s

/-- R86: AND. -/
def execAnd (d a b : BitVec 5) (g : BitVec 4) (s : State) : Result :=
  scalar2 (encode (.and d a b g)) (· &&& ·) d a b g s

/-- R86: OR. -/
def execOr (d a b : BitVec 5) (g : BitVec 4) (s : State) : Result :=
  scalar2 (encode (.or d a b g)) (· ||| ·) d a b g s

/-- R86: XOR. -/
def execXor (d a b : BitVec 5) (g : BitVec 4) (s : State) : Result :=
  scalar2 (encode (.xor d a b g)) (· ^^^ ·) d a b g s

/-- R86: ANDN. -/
def execAndn (d a b : BitVec 5) (g : BitVec 4) (s : State) : Result :=
  scalar2 (encode (.andn d a b g)) (fun x y => x &&& ~~~y) d a b g s

/-- R86: SLL. -/
def execSll (d a b : BitVec 5) (g : BitVec 4) (s : State) : Result :=
  scalar2 (encode (.sll d a b g)) (fun x y => x <<< (fld y 0 6).toNat) d a b g s

/-- R86: SRL. -/
def execSrl (d a b : BitVec 5) (g : BitVec 4) (s : State) : Result :=
  scalar2 (encode (.srl d a b g)) (fun x y => x >>> (fld y 0 6).toNat) d a b g s

/-- R86: SRA. -/
def execSra (d a b : BitVec 5) (g : BitVec 4) (s : State) : Result :=
  scalar2 (encode (.sra d a b g)) (fun x y => x.sshiftRight (fld y 0 6).toNat) d a b g s

/-- R86: ROL. -/
def execRol (d a b : BitVec 5) (g : BitVec 4) (s : State) : Result :=
  scalar2 (encode (.rol d a b g)) (fun x y => x.rotateLeft (fld y 0 6).toNat) d a b g s

/-- R86: MUL. -/
def execMul (d a b : BitVec 5) (g : BitVec 4) (s : State) : Result :=
  scalar2 (encode (.mul d a b g)) (· * ·) d a b g s

/-- R86: MULH. -/
def execMulh (d a b : BitVec 5) (g : BitVec 4) (s : State) : Result :=
  scalar2 (encode (.mulh d a b g)) (mulHigh) d a b g s

/-- R86: MULHU. -/
def execMulhu (d a b : BitVec 5) (g : BitVec 4) (s : State) : Result :=
  scalar2 (encode (.mulhu d a b g)) (mulHighU) d a b g s

/-- R87: DIV. -/
def execDiv (d a b : BitVec 5) (g : BitVec 4) (s : State) : Result :=
  scalar2 (encode (.div d a b g)) (divS) d a b g s

/-- R87: DIVU. -/
def execDivu (d a b : BitVec 5) (g : BitVec 4) (s : State) : Result :=
  scalar2 (encode (.divu d a b g)) (divU) d a b g s

/-- R87: REM. -/
def execRem (d a b : BitVec 5) (g : BitVec 4) (s : State) : Result :=
  scalar2 (encode (.rem d a b g)) (remS) d a b g s

/-- R87: REMU. -/
def execRemu (d a b : BitVec 5) (g : BitVec 4) (s : State) : Result :=
  scalar2 (encode (.remu d a b g)) (remU) d a b g s

/-- R86: MIN. -/
def execMin (d a b : BitVec 5) (g : BitVec 4) (s : State) : Result :=
  scalar2 (encode (.min d a b g)) (fun x y => if x.slt y then x else y) d a b g s

/-- R86: MAX. -/
def execMax (d a b : BitVec 5) (g : BitVec 4) (s : State) : Result :=
  scalar2 (encode (.max d a b g)) (fun x y => if x.slt y then y else x) d a b g s

/-- R86: MINU. -/
def execMinu (d a b : BitVec 5) (g : BitVec 4) (s : State) : Result :=
  scalar2 (encode (.minu d a b g)) (fun x y => if x.ult y then x else y) d a b g s

/-- R86: MAXU. -/
def execMaxu (d a b : BitVec 5) (g : BitVec 4) (s : State) : Result :=
  scalar2 (encode (.maxu d a b g)) (fun x y => if x.ult y then y else x) d a b g s

/-- R88: BFX. -/
def execBfx (d a b : BitVec 5) (g : BitVec 4) (s : State) : Result :=
  scalar2 (encode (.bfx d a b g)) (bfExtract) d a b g s

/-- R86: LEA.1. -/
def execLea1 (d a b : BitVec 5) (g : BitVec 4) (s : State) : Result :=
  scalar2 (encode (.lea1 d a b g)) (· + ·) d a b g s

/-- R86: LEA.2. -/
def execLea2 (d a b : BitVec 5) (g : BitVec 4) (s : State) : Result :=
  scalar2 (encode (.lea2 d a b g)) (fun x y => x + y * 2) d a b g s

/-- R86: LEA.4. -/
def execLea4 (d a b : BitVec 5) (g : BitVec 4) (s : State) : Result :=
  scalar2 (encode (.lea4 d a b g)) (fun x y => x + y * 4) d a b g s

/-- R86: LEA.8. -/
def execLea8 (d a b : BitVec 5) (g : BitVec 4) (s : State) : Result :=
  scalar2 (encode (.lea8 d a b g)) (fun x y => x + y * 8) d a b g s

/-- R86: CLZ. -/
def execClz (d a : BitVec 5) (g : BitVec 4) (s : State) : Result :=
  scalar1 (encode (.clz d a g)) (leadZeros) d a g s

/-- R86: CTZ. -/
def execCtz (d a : BitVec 5) (g : BitVec 4) (s : State) : Result :=
  scalar1 (encode (.ctz d a g)) (trailZeros) d a g s

/-- R86: POPC. -/
def execPopc (d a : BitVec 5) (g : BitVec 4) (s : State) : Result :=
  scalar1 (encode (.popc d a g)) (fun x => BitVec.ofNat 64 (popCount x)) d a g s

/-- R86: BSWAP. -/
def execBswap (d a : BitVec 5) (g : BitVec 4) (s : State) : Result :=
  scalar1 (encode (.bswap d a g)) (byteSwap) d a g s

/-- R86: SEXT.b. -/
def execSextB (d a : BitVec 5) (g : BitVec 4) (s : State) : Result :=
  scalar1 (encode (.sextB d a g)) (fun x => sext64 (fld x 0 8)) d a g s

/-- R86: SEXT.h. -/
def execSextH (d a : BitVec 5) (g : BitVec 4) (s : State) : Result :=
  scalar1 (encode (.sextH d a g)) (fun x => sext64 (fld x 0 16)) d a g s

/-- R86: SEXT.w. -/
def execSextW (d a : BitVec 5) (g : BitVec 4) (s : State) : Result :=
  scalar1 (encode (.sextW d a g)) (fun x => sext64 (fld x 0 32)) d a g s

/-- R86: ZEXT.b. -/
def execZextB (d a : BitVec 5) (g : BitVec 4) (s : State) : Result :=
  scalar1 (encode (.zextB d a g)) (fun x => zext64 (fld x 0 8)) d a g s

/-- R86: ZEXT.h. -/
def execZextH (d a : BitVec 5) (g : BitVec 4) (s : State) : Result :=
  scalar1 (encode (.zextH d a g)) (fun x => zext64 (fld x 0 16)) d a g s

/-- R86: ZEXT.w. -/
def execZextW (d a : BitVec 5) (g : BitVec 4) (s : State) : Result :=
  scalar1 (encode (.zextW d a g)) (fun x => zext64 (fld x 0 32)) d a g s

/-- R88: BFI reads sd as well as writing it. -/
def execBfi (d a b : BitVec 5) (g : BitVec 4) (s : State) : Result :=
  coreInstr 0 (encode (.bfi d a b g)) (s.tile.core.guard g) (fun c => c.setS d (bfInsert (c.s d) (c.s a) (c.s b))) s

/-- R21, R86: SEL always executes; its g field is the selecting predicate, negated by g [3]. -/
def execSel (d a b : BitVec 5) (p : BitVec 4) (s : State) : Result :=
  coreInstr 0 (encode (.sel d a b p)) true (fun c => c.setS d (if c.guard p then c.s a else c.s b)) s

/-! ### Immediate forms (R22, R86) -/

/-- R22, R86: ADDI. -/
def execAddi (d a : BitVec 5) (g : BitVec 4) (i : BitVec 12) (s : State) : Result :=
  scalar1 (encode (.addi d a g i)) (fun x => x + immS i) d a g s

/-- R22, R86: ANDI. -/
def execAndi (d a : BitVec 5) (g : BitVec 4) (i : BitVec 12) (s : State) : Result :=
  scalar1 (encode (.andi d a g i)) (fun x => x &&& immZ i) d a g s

/-- R22, R86: ORI. -/
def execOri (d a : BitVec 5) (g : BitVec 4) (i : BitVec 12) (s : State) : Result :=
  scalar1 (encode (.ori d a g i)) (fun x => x ||| immZ i) d a g s

/-- R22, R86: XORI. -/
def execXori (d a : BitVec 5) (g : BitVec 4) (i : BitVec 12) (s : State) : Result :=
  scalar1 (encode (.xori d a g i)) (fun x => x ^^^ immZ i) d a g s

/-- R22, R86: MULI. -/
def execMuli (d a : BitVec 5) (g : BitVec 4) (i : BitVec 12) (s : State) : Result :=
  scalar1 (encode (.muli d a g i)) (fun x => x * immS i) d a g s

/-- R22, R86: SLLI. -/
def execSlli (d a : BitVec 5) (g : BitVec 4) (k : BitVec 6) (s : State) : Result :=
  scalar1 (encode (.slli d a g k)) (fun x => x <<< k.toNat) d a g s

/-- R22, R86: SRLI. -/
def execSrli (d a : BitVec 5) (g : BitVec 4) (k : BitVec 6) (s : State) : Result :=
  scalar1 (encode (.srli d a g k)) (fun x => x >>> k.toNat) d a g s

/-- R22, R86: SRAI. -/
def execSrai (d a : BitVec 5) (g : BitVec 4) (k : BitVec 6) (s : State) : Result :=
  scalar1 (encode (.srai d a g k)) (fun x => x.sshiftRight k.toNat) d a g s

/-- R86: ADDPC gives a word address, which may lie outside the code store. -/
def execAddpc (d : BitVec 5) (g : BitVec 4) (i : BitVec 12) (s : State) : Result :=
  coreInstr 0 (encode (.addpc d g i)) (s.tile.core.guard g) (fun c => c.setS d (zext64 c.pc + immS i)) s

/-- R22: LIL. -/
def execLil (d : BitVec 5) (i : BitVec 21) (s : State) : Result :=
  coreInstr 0 (encode (.lil d i)) true (fun c => c.setS d (sext64 i)) s

/-- R22: LIH. -/
def execLih (d : BitVec 5) (i : BitVec 21) (s : State) : Result :=
  coreInstr 0 (encode (.lih d i)) true (fun c => c.setS d ((c.s d <<< 21) ||| zext64 i)) s

/-! ### Compares and predicates (R89, R90) -/

/-- R89: CMP.cond. -/
def execCmp (d : BitVec 3) (a b : BitVec 5) (g c : BitVec 4) (s : State) : Result :=
  predInstr (encode (.cmp d a b g c)) (s.tile.core.guard g) (fun x => scalarCond c (x.s a) (x.s b)) d s

/-- R89: CMPI.cond always executes. -/
def execCmpi (d : BitVec 3) (a : BitVec 5) (c : BitVec 4) (i : BitVec 12) (s : State) : Result :=
  predInstr (encode (.cmpi d a c i)) true (fun x => scalarCond c (x.s a) (immS i)) d s

/-- R90: PLOG.and. -/
def execPlogAnd (d a b : BitVec 3) (g : BitVec 4) (s : State) : Result :=
  predInstr (encode (.plogAnd d a b g)) (s.tile.core.guard g) (fun c => c.p a && c.p b) d s

/-- R90: PLOG.or. -/
def execPlogOr (d a b : BitVec 3) (g : BitVec 4) (s : State) : Result :=
  predInstr (encode (.plogOr d a b g)) (s.tile.core.guard g) (fun c => c.p a || c.p b) d s

/-- R90: PLOG.xor. -/
def execPlogXor (d a b : BitVec 3) (g : BitVec 4) (s : State) : Result :=
  predInstr (encode (.plogXor d a b g)) (s.tile.core.guard g) (fun c => c.p a != c.p b) d s

/-- R90: PLOG.not. -/
def execPlogNot (d a : BitVec 3) (g : BitVec 4) (s : State) : Result :=
  predInstr (encode (.plogNot d a g)) (s.tile.core.guard g) (fun c => !c.p a) d s

/-- R90: S2P. -/
def execS2p (d : BitVec 3) (a : BitVec 5) (g : BitVec 4) (s : State) : Result :=
  predInstr (encode (.s2p d a g)) (s.tile.core.guard g) (fun c => (c.s a).getLsbD 0) d s

/-- R90: P2S. -/
def execP2s (d : BitVec 5) (a : BitVec 3) (g : BitVec 4) (s : State) : Result :=
  coreInstr 0 (encode (.p2s d a g)) (s.tile.core.guard g) (fun c => c.setS d (ofBool 64 (c.p a))) s

end Sys2Proof.Machine
end

