-- ==== Sys2Proof/Machine/TokenInstr.lean ====
section
/-! DEFINITION. The token instructions of the rim core (R117 to R150): one meaning per instruction over the operations of
`Machine/Tokens.lean`. -/

namespace Sys2Proof.Machine

/-- R55, R56, R119: what a token operation leaves in the core: td, generators and flags. -/
def Core.takeTok (c : Core) (d : BitVec 5) (r : TokOut) : Core :=
  { c.setT d r.tok with rnd := r.gens, fstat := c.fstat ||| r.flags }

/-- A token instruction of class `cls` (R357). -/
def tokInstr (cls : Fin 8) (word : Word) (d : BitVec 5) (op : Core → TokOut) (s : State) : Result :=
  coreInstr cls word true (fun c => c.takeTok d (op c)) s

/-- A field of one bit as a Bool. -/
def on (b : BitVec 1) : Bool := b == 1

/-- R63, R121: a conversion word: under TRAP an overflowing lane traps OVERFLOW, with the lane mask in EADDR. -/
def tcInstr (word : Word) (v : BitVec 2) (ovf : Core → BitVec 16) (f : Core → Core) (s : State) : Result :=
  seqInstr 2 word true
    (fun s =>
      let c := s.tile.core
      if v = 3 ∧ ovf c ≠ 0 then .trap causeOverflow (zext64 (ovf c)) else .done (s.setCore (f c))) s

/-- R142 to R144: the low bits of tb's lane 0, or 0 when its valid bit is clear. -/
def laneIndex (t : Token) (bits : Nat) : Nat := if t.valid.getLsbD 0 then (t.lane 0).toNat % 2 ^ bits else 0

/-! ### Arithmetic (R123 to R128) -/

/-- R123: VFMA. -/
def execVfma (d : BitVec 5) (a : BitVec 5) (b : BitVec 5) (c : BitVec 5) (m : BitVec 3) (i : BitVec 1) (o : BitVec 1) (k : BitVec 1) (s : State) : Result :=
  tokInstr 2 (encode (.vfma d a b c m i o k)) d
    (fun x => tokArith x.env x.rnd .fma (x.t d) (x.t a) (x.t b) (x.t c) (x.m m) (on i) (on o) (on k)) s

/-- R123: VFMS. -/
def execVfms (d : BitVec 5) (a : BitVec 5) (b : BitVec 5) (c : BitVec 5) (m : BitVec 3) (i : BitVec 1) (o : BitVec 1) (k : BitVec 1) (s : State) : Result :=
  tokInstr 2 (encode (.vfms d a b c m i o k)) d
    (fun x => tokArith x.env x.rnd .fms (x.t d) (x.t a) (x.t b) (x.t c) (x.m m) (on i) (on o) (on k)) s

/-- R123: VFNMA. -/
def execVfnma (d : BitVec 5) (a : BitVec 5) (b : BitVec 5) (c : BitVec 5) (m : BitVec 3) (i : BitVec 1) (o : BitVec 1) (k : BitVec 1) (s : State) : Result :=
  tokInstr 2 (encode (.vfnma d a b c m i o k)) d
    (fun x => tokArith x.env x.rnd .fnma (x.t d) (x.t a) (x.t b) (x.t c) (x.m m) (on i) (on o) (on k)) s

/-- R128: VSEL. -/
def execVsel (d : BitVec 5) (a : BitVec 5) (b : BitVec 5) (c : BitVec 5) (m : BitVec 3) (k : BitVec 1) (s : State) : Result :=
  tokInstr 2 (encode (.vsel d a b c m k)) d
    (fun x => tokSel x.rnd (x.t d) (x.t a) (x.t b) (x.t c) (x.m m) (on k)) s

/-- R123: VADD. -/
def execVadd (d : BitVec 5) (a : BitVec 5) (b : BitVec 5) (m : BitVec 3) (i : BitVec 1) (o : BitVec 1) (k : BitVec 1) (s : State) : Result :=
  tokInstr 2 (encode (.vadd d a b m i o k)) d
    (fun x => tokArith x.env x.rnd .add (x.t d) (x.t a) (x.t b) Token.reset (x.m m) (on i) (on o) (on k)) s

/-- R123: VSUB. -/
def execVsub (d : BitVec 5) (a : BitVec 5) (b : BitVec 5) (m : BitVec 3) (i : BitVec 1) (o : BitVec 1) (k : BitVec 1) (s : State) : Result :=
  tokInstr 2 (encode (.vsub d a b m i o k)) d
    (fun x => tokArith x.env x.rnd .sub (x.t d) (x.t a) (x.t b) Token.reset (x.m m) (on i) (on o) (on k)) s

/-- R123: VMUL. -/
def execVmul (d : BitVec 5) (a : BitVec 5) (b : BitVec 5) (m : BitVec 3) (i : BitVec 1) (o : BitVec 1) (k : BitVec 1) (s : State) : Result :=
  tokInstr 2 (encode (.vmul d a b m i o k)) d
    (fun x => tokArith x.env x.rnd .mul (x.t d) (x.t a) (x.t b) Token.reset (x.m m) (on i) (on o) (on k)) s

/-- R124: VMAX. -/
def execVmax (d : BitVec 5) (a : BitVec 5) (b : BitVec 5) (m : BitVec 3) (i : BitVec 1) (o : BitVec 1) (k : BitVec 1) (s : State) : Result :=
  tokInstr 2 (encode (.vmax d a b m i o k)) d
    (fun x => tokMinMax x.env x.rnd true (x.t d) (x.t a) (x.t b) (x.m m) (on i) (on o) (on k)) s

/-- R124: VMIN. -/
def execVmin (d : BitVec 5) (a : BitVec 5) (b : BitVec 5) (m : BitVec 3) (i : BitVec 1) (o : BitVec 1) (k : BitVec 1) (s : State) : Result :=
  tokInstr 2 (encode (.vmin d a b m i o k)) d
    (fun x => tokMinMax x.env x.rnd false (x.t d) (x.t a) (x.t b) (x.m m) (on i) (on o) (on k)) s

/-- R125: VABS. -/
def execVabs (d : BitVec 5) (a : BitVec 5) (m : BitVec 3) (i : BitVec 1) (o : BitVec 1) (k : BitVec 1) (s : State) : Result :=
  tokInstr 2 (encode (.vabs d a m i o k)) d
    (fun x => tokSign x.env x.rnd .abs (x.t d) (x.t a) (x.t a) (x.m m) (on i) (on o) (on k)) s

/-- R125: VNEG. -/
def execVneg (d : BitVec 5) (a : BitVec 5) (m : BitVec 3) (i : BitVec 1) (o : BitVec 1) (k : BitVec 1) (s : State) : Result :=
  tokInstr 2 (encode (.vneg d a m i o k)) d
    (fun x => tokSign x.env x.rnd .neg (x.t d) (x.t a) (x.t a) (x.m m) (on i) (on o) (on k)) s

/-- R125: VCPS. -/
def execVcps (d : BitVec 5) (a : BitVec 5) (b : BitVec 5) (m : BitVec 3) (i : BitVec 1) (o : BitVec 1) (k : BitVec 1) (s : State) : Result :=
  tokInstr 2 (encode (.vcps d a b m i o k)) d
    (fun x => tokSign x.env x.rnd .cps (x.t d) (x.t a) (x.t b) (x.m m) (on i) (on o) (on k)) s

/-- R126: VCLS. -/
def execVcls (d : BitVec 5) (a : BitVec 5) (m : BitVec 3) (i : BitVec 1) (k : BitVec 1) (s : State) : Result :=
  tokInstr 2 (encode (.vcls d a m i k)) d
    (fun x => tokClass x.env x.rnd (x.t d) (x.t a) (x.m m) (on i) (on k)) s

/-- R127: VCMP. -/
def execVcmp (d : BitVec 5) (a : BitVec 5) (b : BitVec 5) (c : BitVec 3) (m : BitVec 3) (i : BitVec 1) (k : BitVec 1) (s : State) : Result :=
  tokInstr 2 (encode (.vcmp d a b c m i k)) d
    (fun x => tokCmp x.env x.rnd c.toNat (x.t d) (x.t a) (x.t b) (x.m m) (on i) (on k)) s

/-! ### Special functions, scaling, dot products and trees (R138 to R141) -/

/-- R140: VDOT. -/
def execVdot (d : BitVec 5) (a : BitVec 5) (b : BitVec 5) (m : BitVec 3) (i : BitVec 1) (o : BitVec 1) (k : BitVec 1) (s : State) : Result :=
  tokInstr 3 (encode (.vdot d a b m i o k)) d
    (fun x => tokDot x.env x.rnd (x.t d) (x.t a) (x.t b) (x.m m) (on i) (on o) (on k)) s

/-- R138: VEXPF. -/
def execVexpf (d : BitVec 5) (a : BitVec 5) (m : BitVec 3) (i : BitVec 1) (o : BitVec 1) (k : BitVec 1) (s : State) : Result :=
  tokInstr 3 (encode (.vexpf d a m i o k)) d
    (fun x => tokSpecial x.env x.rnd .expf (x.t d) (x.t a) (x.m m) (on i) (on o) (on k)) s

/-- R138: VLOGF. -/
def execVlogf (d : BitVec 5) (a : BitVec 5) (m : BitVec 3) (i : BitVec 1) (o : BitVec 1) (k : BitVec 1) (s : State) : Result :=
  tokInstr 3 (encode (.vlogf d a m i o k)) d
    (fun x => tokSpecial x.env x.rnd .logf (x.t d) (x.t a) (x.m m) (on i) (on o) (on k)) s

/-- R138: VGETX. -/
def execVgetx (d : BitVec 5) (a : BitVec 5) (m : BitVec 3) (i : BitVec 1) (o : BitVec 1) (k : BitVec 1) (s : State) : Result :=
  tokInstr 3 (encode (.vgetx d a m i o k)) d
    (fun x => tokSpecial x.env x.rnd .getx (x.t d) (x.t a) (x.m m) (on i) (on o) (on k)) s

/-- R138: VRCP. -/
def execVrcp (d : BitVec 5) (a : BitVec 5) (m : BitVec 3) (i : BitVec 1) (o : BitVec 1) (k : BitVec 1) (s : State) : Result :=
  tokInstr 3 (encode (.vrcp d a m i o k)) d
    (fun x => tokSpecial x.env x.rnd .rcp (x.t d) (x.t a) (x.m m) (on i) (on o) (on k)) s

/-- R138: VRSQ. -/
def execVrsq (d : BitVec 5) (a : BitVec 5) (m : BitVec 3) (i : BitVec 1) (o : BitVec 1) (k : BitVec 1) (s : State) : Result :=
  tokInstr 3 (encode (.vrsq d a m i o k)) d
    (fun x => tokSpecial x.env x.rnd .rsq (x.t d) (x.t a) (x.m m) (on i) (on o) (on k)) s

/-- R139: VSCALE. -/
def execVscale (d : BitVec 5) (a : BitVec 5) (b : BitVec 5) (m : BitVec 3) (i : BitVec 1) (o : BitVec 1) (k : BitVec 1) (s : State) : Result :=
  tokInstr 3 (encode (.vscale d a b m i o k)) d
    (fun x => tokScale x.env x.rnd (x.t d) (x.t a) (x.t b) (x.m m) (on i) (on o) (on k)) s

/-- R141: VSUMT. -/
def execVsumt (d : BitVec 5) (a : BitVec 5) (m : BitVec 3) (i : BitVec 1) (o : BitVec 1) (k : BitVec 1) (s : State) : Result :=
  tokInstr 2 (39#6 ++ d ++ a ++ 0#10 ++ m ++ i ++ o ++ k) d
    (fun x => tokTree x.env x.rnd true (x.t d) (x.t a) (x.m m) (on i) (on o) (on k)) s

/-- R141: VMAXT. -/
def execVmaxt (d : BitVec 5) (a : BitVec 5) (m : BitVec 3) (i : BitVec 1) (o : BitVec 1) (k : BitVec 1) (s : State) : Result :=
  tokInstr 2 (39#6 ++ d ++ a ++ 1#10 ++ m ++ i ++ o ++ k) d
    (fun x => tokTree x.env x.rnd false (x.t d) (x.t a) (x.m m) (on i) (on o) (on k)) s

/-- R141: VSCAN. -/
def execVscan (d : BitVec 5) (a : BitVec 5) (m : BitVec 3) (i : BitVec 1) (o : BitVec 1) (k : BitVec 1) (s : State) : Result :=
  tokInstr 2 (39#6 ++ d ++ a ++ 2#10 ++ m ++ i ++ o ++ k) d
    (fun x => tokScan x.env x.rnd (x.t d) (x.t a) (x.m m) (on i) (on o) (on k)) s

/-! ### Integer operations (R147) -/

/-- R147: VIADD. -/
def execViadd (d : BitVec 5) (a : BitVec 5) (b : BitVec 5) (m : BitVec 3) (k : BitVec 1) (s : State) : Result :=
  tokInstr 2 (encode (.viadd d a b m k)) d
    (fun x => tokInt x.rnd .add (x.t d) (x.t a) (x.t b) Token.reset [x.t a, x.t b] (x.m m) (on k)) s

/-- R147: VISUB. -/
def execVisub (d : BitVec 5) (a : BitVec 5) (b : BitVec 5) (m : BitVec 3) (k : BitVec 1) (s : State) : Result :=
  tokInstr 2 (encode (.visub d a b m k)) d
    (fun x => tokInt x.rnd .sub (x.t d) (x.t a) (x.t b) Token.reset [x.t a, x.t b] (x.m m) (on k)) s

/-- R147: VIMUL. -/
def execVimul (d : BitVec 5) (a : BitVec 5) (b : BitVec 5) (m : BitVec 3) (k : BitVec 1) (s : State) : Result :=
  tokInstr 2 (38#6 ++ d ++ a ++ b ++ 2#5 ++ m ++ 0#2 ++ k) d
    (fun x => tokInt x.rnd .mul (x.t d) (x.t a) (x.t b) Token.reset [x.t a, x.t b] (x.m m) (on k)) s

/-- R147: VAND. -/
def execVand (d : BitVec 5) (a : BitVec 5) (b : BitVec 5) (m : BitVec 3) (k : BitVec 1) (s : State) : Result :=
  tokInstr 2 (38#6 ++ d ++ a ++ b ++ 3#5 ++ m ++ 0#2 ++ k) d
    (fun x => tokInt x.rnd .and (x.t d) (x.t a) (x.t b) Token.reset [x.t a, x.t b] (x.m m) (on k)) s

/-- R147: VOR. -/
def execVor (d : BitVec 5) (a : BitVec 5) (b : BitVec 5) (m : BitVec 3) (k : BitVec 1) (s : State) : Result :=
  tokInstr 2 (38#6 ++ d ++ a ++ b ++ 4#5 ++ m ++ 0#2 ++ k) d
    (fun x => tokInt x.rnd .or (x.t d) (x.t a) (x.t b) Token.reset [x.t a, x.t b] (x.m m) (on k)) s

/-- R147: VXOR. -/
def execVxor (d : BitVec 5) (a : BitVec 5) (b : BitVec 5) (m : BitVec 3) (k : BitVec 1) (s : State) : Result :=
  tokInstr 2 (38#6 ++ d ++ a ++ b ++ 5#5 ++ m ++ 0#2 ++ k) d
    (fun x => tokInt x.rnd .xor (x.t d) (x.t a) (x.t b) Token.reset [x.t a, x.t b] (x.m m) (on k)) s

/-- R147: VSHL. -/
def execVshl (d : BitVec 5) (a : BitVec 5) (b : BitVec 5) (m : BitVec 3) (k : BitVec 1) (s : State) : Result :=
  tokInstr 2 (38#6 ++ d ++ a ++ b ++ 6#5 ++ m ++ 0#2 ++ k) d
    (fun x => tokInt x.rnd .shl (x.t d) (x.t a) (x.t b) Token.reset [x.t a, x.t b] (x.m m) (on k)) s

/-- R147: VSHR. -/
def execVshr (d : BitVec 5) (a : BitVec 5) (b : BitVec 5) (m : BitVec 3) (k : BitVec 1) (s : State) : Result :=
  tokInstr 2 (38#6 ++ d ++ a ++ b ++ 7#5 ++ m ++ 0#2 ++ k) d
    (fun x => tokInt x.rnd .shr (x.t d) (x.t a) (x.t b) Token.reset [x.t a, x.t b] (x.m m) (on k)) s

/-- R147: VSAR. -/
def execVsar (d : BitVec 5) (a : BitVec 5) (b : BitVec 5) (m : BitVec 3) (k : BitVec 1) (s : State) : Result :=
  tokInstr 2 (38#6 ++ d ++ a ++ b ++ 8#5 ++ m ++ 0#2 ++ k) d
    (fun x => tokInt x.rnd .sar (x.t d) (x.t a) (x.t b) Token.reset [x.t a, x.t b] (x.m m) (on k)) s

/-- R147: VIMIN. -/
def execVimin (d : BitVec 5) (a : BitVec 5) (b : BitVec 5) (m : BitVec 3) (k : BitVec 1) (s : State) : Result :=
  tokInstr 2 (38#6 ++ d ++ a ++ b ++ 9#5 ++ m ++ 0#2 ++ k) d
    (fun x => tokInt x.rnd .min (x.t d) (x.t a) (x.t b) Token.reset [x.t a, x.t b] (x.m m) (on k)) s

/-- R147: VIMAX. -/
def execVimax (d : BitVec 5) (a : BitVec 5) (b : BitVec 5) (m : BitVec 3) (k : BitVec 1) (s : State) : Result :=
  tokInstr 2 (38#6 ++ d ++ a ++ b ++ 10#5 ++ m ++ 0#2 ++ k) d
    (fun x => tokInt x.rnd .max (x.t d) (x.t a) (x.t b) Token.reset [x.t a, x.t b] (x.m m) (on k)) s

/-- R147: VCNT. -/
def execVcnt (d : BitVec 5) (a : BitVec 5) (m : BitVec 3) (k : BitVec 1) (s : State) : Result :=
  tokInstr 2 (38#6 ++ d ++ a ++ 11#10 ++ m ++ 0#2 ++ k) d
    (fun x => tokInt x.rnd .cnt (x.t d) (x.t a) Token.reset Token.reset [x.t a] (x.m m) (on k)) s

/-- R147: VIMAC. -/
def execVimac (d : BitVec 5) (a : BitVec 5) (b : BitVec 5) (c : BitVec 5) (m : BitVec 3) (k : BitVec 1) (s : State) : Result :=
  tokInstr 2 (encode (.vimac d a b c m k)) d
    (fun x => tokInt x.rnd .mac (x.t d) (x.t a) (x.t b) (x.t c) [x.t a, x.t b, x.t c] (x.m m) (on k)) s

/-! ### Moves (R142 to R146) -/

/-- R142: VPERM. -/
def execVperm (d : BitVec 5) (a : BitVec 5) (b : BitVec 5) (m : BitVec 3) (k : BitVec 1) (s : State) : Result :=
  tokInstr 2 (39#6 ++ d ++ a ++ b ++ 3#5 ++ m ++ 0#2 ++ k) d
    (fun x => tokPerm x.rnd (x.t d) (x.t a) (x.t b) (x.m m) (on k)) s

/-- R143: VSHUF. -/
def execVshuf (d : BitVec 5) (a : BitVec 5) (b : BitVec 5) (m : BitVec 3) (k : BitVec 1) (s : State) : Result :=
  tokInstr 2 (39#6 ++ d ++ a ++ b ++ 4#5 ++ m ++ 0#2 ++ k) d
    (fun x => tokShuf x.rnd (laneIndex (x.t b) 5) (x.t d) (x.t a) [x.t a, x.t b] (x.m m) (on k)) s

/-- R144: VBCST. -/
def execVbcst (d : BitVec 5) (a : BitVec 5) (b : BitVec 5) (m : BitVec 3) (k : BitVec 1) (s : State) : Result :=
  tokInstr 2 (39#6 ++ d ++ a ++ b ++ 5#5 ++ m ++ 0#2 ++ k) d
    (fun x => tokBcst x.rnd (laneIndex (x.t b) 4) (x.t d) (x.t a) [x.t a, x.t b] (x.m m) (on k)) s

/-- R146: VMSK. -/
def execVmsk (d : BitVec 5) (a : BitVec 5) (b : BitVec 5) (m : BitVec 3) (k : BitVec 1) (s : State) : Result :=
  tokInstr 2 (39#6 ++ d ++ a ++ b ++ 10#5 ++ m ++ 0#2 ++ k) d
    (fun x => tokMask x.rnd (x.t d) (x.t a) (x.t b) (x.m m) (on k)) s

/-- R145: what VINS changes in td. -/
def insToken (t : Token) (i : Nat) (v : BitVec 64) : Token :=
  if i < 16 then
    { t with
      data := putField t.data (32 * i) 32 (fld v 0 32).toNat
      valid := setBit t.valid i true
      pred := setBit t.pred i false }
  else
    match i with
    | 16 => { t with pred := fld v 0 16 }
    | 17 => { t with valid := fld v 0 16 }
    | 18 => { t with tag := fld v 0 4, exp := fld v 4 8, bub := v.getLsbD 12 }
    | _ => t

/-- R145: what VEXT returns. -/
def extToken (t : Token) (i : Nat) : BitVec 64 :=
  if i < 16 then sext64 (t.lane i)
  else
    match i with
    | 16 => zext64 t.pred
    | 17 => zext64 t.valid
    | 18 => BitVec.ofNat 64 (t.tag.toNat + 2 ^ 4 * t.exp.toNat + 2 ^ 12 * t.bub.toNat)
    | _ => 0

/-- R145: VINS. -/
def execVins (d : BitVec 5) (a : BitVec 5) (b : BitVec 5) (s : State) : Result :=
  coreInstr 2 (39#6 ++ d ++ a ++ b ++ 384#11) true
    (fun x => x.setT d (insToken (x.t d) (fld (x.s b) 0 5).toNat (x.s a))) s

/-- R145: VEXT. -/
def execVext (d : BitVec 5) (a : BitVec 5) (b : BitVec 5) (s : State) : Result :=
  coreInstr 2 (39#6 ++ d ++ a ++ b ++ 448#11) true
    (fun x => x.setS d (extToken (x.t a) (fld (x.s b) 0 5).toNat)) s

/-! ### Histograms and block exponents (R148 to R150) -/

/-- R148: VHIST: the bins are td up to t31. -/
def execVhist (d : BitVec 5) (a : BitVec 5) (b : BitVec 5) (m : BitVec 3) (s : State) : Result :=
  coreInstr 2 (39#6 ++ d ++ a ++ b ++ 8#5 ++ m ++ 0#3) true
    (fun x =>
      let bins := histBins (x.toks.toList.drop d.toNat) (x.t a) (x.t b) (x.m m)
      { x with toks := Vector.ofFn fun r : Fin 32 =>
          if d.toNat ≤ r.val then bins.getD (r.val - d.toNat) (x.toks.get r) else x.toks.get r }) s

/-- R149: VHMRG. -/
def execVhmrg (d : BitVec 5) (a : BitVec 5) (b : BitVec 5) (m : BitVec 3) (k : BitVec 1) (s : State) : Result :=
  tokInstr 2 (39#6 ++ d ++ a ++ b ++ 9#5 ++ m ++ 0#2 ++ k) d
    (fun x => tokHmrg x.rnd (x.t d) ((x.toks.toList.drop a.toNat).take (b.toNat + 1 - a.toNat)) (x.m m) (on k)) s

/-- A token with another header exponent. -/
def Token.withExp (t : Token) (e : BitVec 8) : Token := { t with exp := e }

/-- R150: VBFP writes the shared exponent into the three headers. -/
def execVbfp (d : BitVec 5) (a : BitVec 5) (b : BitVec 5) (m : BitVec 3) (i : BitVec 1) (s : State) : Result :=
  coreInstr 2 (46#6 ++ d ++ a ++ b ++ 0#5 ++ m ++ i ++ 0#2) true
    (fun x =>
      let r := blockExp x.env (on i) (x.m m) [x.t a, x.t b, x.t d]
      { ((x.setT a ((x.t a).withExp r.1)).setT b ((x.t b).withExp r.1)).setT d ((x.t d).withExp r.1) with
        fstat := x.fstat ||| r.2 }) s

/-! ### Conversions (R129 to R137) -/

/-- R130: VCVT. -/
def execVcvt (d : BitVec 5) (a : BitVec 5) (t : BitVec 4) (f : BitVec 4) (r : BitVec 3) (v : BitVec 2) (i : BitVec 1) (o : BitVec 1) (k : BitVec 1) (s : State) : Result :=
  let op := fun (x : Core) =>
    tokConvert x.env x.rnd .vcvt t f (x.env.mode r) (Overflow.ofCode v) (x.t d) (x.t a) (on i) (on o) (on k)
  tcInstr (40#6 ++ d ++ a ++ t ++ f ++ r ++ v ++ i ++ o ++ k) v (fun x => (op x).ovf) (fun x => x.takeTok d (op x)) s

/-- R133: VRNDI. -/
def execVrndi (d : BitVec 5) (a : BitVec 5) (t : BitVec 4) (f : BitVec 4) (r : BitVec 3) (v : BitVec 2) (i : BitVec 1) (o : BitVec 1) (k : BitVec 1) (s : State) : Result :=
  let op := fun (x : Core) =>
    tokConvert x.env x.rnd .vrndi t f (x.env.mode r) (Overflow.ofCode v) (x.t d) (x.t a) (on i) (on o) (on k)
  tcInstr (41#6 ++ d ++ a ++ t ++ f ++ r ++ v ++ i ++ o ++ k) v (fun x => (op x).ovf) (fun x => x.takeTok d (op x)) s

/-- R134: VFTOI. -/
def execVftoi (d : BitVec 5) (a : BitVec 5) (t : BitVec 4) (f : BitVec 4) (r : BitVec 3) (v : BitVec 2) (i : BitVec 1) (o : BitVec 1) (k : BitVec 1) (s : State) : Result :=
  let op := fun (x : Core) =>
    tokConvert x.env x.rnd .vftoi t f (x.env.mode r) (Overflow.ofCode v) (x.t d) (x.t a) (on i) (on o) (on k)
  tcInstr (42#6 ++ d ++ a ++ t ++ f ++ r ++ v ++ i ++ o ++ k) v (fun x => (op x).ovf) (fun x => x.takeTok d (op x)) s

/-- R135: VITOF. -/
def execVitof (d : BitVec 5) (a : BitVec 5) (t : BitVec 4) (f : BitVec 4) (r : BitVec 3) (v : BitVec 2) (i : BitVec 1) (o : BitVec 1) (k : BitVec 1) (s : State) : Result :=
  let op := fun (x : Core) =>
    tokConvert x.env x.rnd .vitof t f (x.env.mode r) (Overflow.ofCode v) (x.t d) (x.t a) (on i) (on o) (on k)
  tcInstr (43#6 ++ d ++ a ++ t ++ f ++ r ++ v ++ i ++ o ++ k) v (fun x => (op x).ovf) (fun x => x.takeTok d (op x)) s

/-- R136: VPACK. -/
def execVpack (d : BitVec 5) (a : BitVec 5) (t : BitVec 4) (f : BitVec 4) (r : BitVec 3) (v : BitVec 2) (i : BitVec 1) (o : BitVec 1) (k : BitVec 1) (s : State) : Result :=
  let op := fun (x : Core) => tokPack x.env x.rnd t f (x.env.mode r) (Overflow.ofCode v) (x.t d) (x.t a) (on i) (on o) (on k)
  tcInstr (44#6 ++ d ++ a ++ t ++ f ++ r ++ v ++ i ++ o ++ k) v (fun x => (op x).ovf) (fun x => x.takeTok d (op x)) s

/-- R137: VUNPK; with k = 1 it shifts a down. -/
def execVunpk (d : BitVec 5) (a : BitVec 5) (t : BitVec 4) (f : BitVec 4) (r : BitVec 3) (v : BitVec 2) (i : BitVec 1) (o : BitVec 1) (k : BitVec 1) (s : State) : Result :=
  let op := fun (x : Core) => tokUnpack x.env x.rnd t f (x.env.mode r) (Overflow.ofCode v) (x.t a) (on i) (on o) (on k)
  tcInstr (45#6 ++ d ++ a ++ t ++ f ++ r ++ v ++ i ++ o ++ k) v (fun x => (op x).1.ovf) (fun x => (x.setT a (op x).2).takeTok d (op x).1) s

end Sys2Proof.Machine
end

