-- ==== Sys2Proof/Machine/Direct.lean ====
section
/-! DEFINITION. The meaning of a rim word, found from the word itself: the same table as `Sys2Proof/Decode.lean`, each row giving
the meaning instead of the instruction. `Machine/Fetch.lean` proves the two equal. -/

namespace Sys2Proof.Machine

/-- The rows of opcode 0x01 (R25 to R32). -/
def directOp01 (w : Word) (s : State) : Option Result :=
  match (fld w 0 7).toNat with
  | 0 => some (execAdd (fld w 21 5) (fld w 16 5) (fld w 11 5) (fld w 7 4) s)
  | 1 => some (execSub (fld w 21 5) (fld w 16 5) (fld w 11 5) (fld w 7 4) s)
  | 2 => some (execAnd (fld w 21 5) (fld w 16 5) (fld w 11 5) (fld w 7 4) s)
  | 3 => some (execOr (fld w 21 5) (fld w 16 5) (fld w 11 5) (fld w 7 4) s)
  | 4 => some (execXor (fld w 21 5) (fld w 16 5) (fld w 11 5) (fld w 7 4) s)
  | 5 => some (execAndn (fld w 21 5) (fld w 16 5) (fld w 11 5) (fld w 7 4) s)
  | 6 => some (execSll (fld w 21 5) (fld w 16 5) (fld w 11 5) (fld w 7 4) s)
  | 7 => some (execSrl (fld w 21 5) (fld w 16 5) (fld w 11 5) (fld w 7 4) s)
  | 8 => some (execSra (fld w 21 5) (fld w 16 5) (fld w 11 5) (fld w 7 4) s)
  | 9 => some (execRol (fld w 21 5) (fld w 16 5) (fld w 11 5) (fld w 7 4) s)
  | 10 => some (execMul (fld w 21 5) (fld w 16 5) (fld w 11 5) (fld w 7 4) s)
  | 11 => some (execMulh (fld w 21 5) (fld w 16 5) (fld w 11 5) (fld w 7 4) s)
  | 12 => some (execMulhu (fld w 21 5) (fld w 16 5) (fld w 11 5) (fld w 7 4) s)
  | 13 => some (execDiv (fld w 21 5) (fld w 16 5) (fld w 11 5) (fld w 7 4) s)
  | 14 => some (execDivu (fld w 21 5) (fld w 16 5) (fld w 11 5) (fld w 7 4) s)
  | 15 => some (execRem (fld w 21 5) (fld w 16 5) (fld w 11 5) (fld w 7 4) s)
  | 16 => some (execRemu (fld w 21 5) (fld w 16 5) (fld w 11 5) (fld w 7 4) s)
  | 17 => some (execMin (fld w 21 5) (fld w 16 5) (fld w 11 5) (fld w 7 4) s)
  | 18 => some (execMax (fld w 21 5) (fld w 16 5) (fld w 11 5) (fld w 7 4) s)
  | 19 => some (execMinu (fld w 21 5) (fld w 16 5) (fld w 11 5) (fld w 7 4) s)
  | 20 => some (execMaxu (fld w 21 5) (fld w 16 5) (fld w 11 5) (fld w 7 4) s)
  | 21 => if fld w 11 5 = 0 then some (execClz (fld w 21 5) (fld w 16 5) (fld w 7 4) s) else none
  | 22 => if fld w 11 5 = 0 then some (execCtz (fld w 21 5) (fld w 16 5) (fld w 7 4) s) else none
  | 23 => if fld w 11 5 = 0 then some (execPopc (fld w 21 5) (fld w 16 5) (fld w 7 4) s) else none
  | 24 => if fld w 11 5 = 0 then some (execBswap (fld w 21 5) (fld w 16 5) (fld w 7 4) s) else none
  | 25 => if fld w 11 5 = 0 then some (execSextB (fld w 21 5) (fld w 16 5) (fld w 7 4) s) else none
  | 26 => if fld w 11 5 = 0 then some (execSextH (fld w 21 5) (fld w 16 5) (fld w 7 4) s) else none
  | 27 => if fld w 11 5 = 0 then some (execSextW (fld w 21 5) (fld w 16 5) (fld w 7 4) s) else none
  | 28 => if fld w 11 5 = 0 then some (execZextB (fld w 21 5) (fld w 16 5) (fld w 7 4) s) else none
  | 29 => if fld w 11 5 = 0 then some (execZextH (fld w 21 5) (fld w 16 5) (fld w 7 4) s) else none
  | 30 => if fld w 11 5 = 0 then some (execZextW (fld w 21 5) (fld w 16 5) (fld w 7 4) s) else none
  | 31 => some (execBfx (fld w 21 5) (fld w 16 5) (fld w 11 5) (fld w 7 4) s)
  | 32 => some (execBfi (fld w 21 5) (fld w 16 5) (fld w 11 5) (fld w 7 4) s)
  | 33 => some (execLea1 (fld w 21 5) (fld w 16 5) (fld w 11 5) (fld w 7 4) s)
  | 34 => some (execLea2 (fld w 21 5) (fld w 16 5) (fld w 11 5) (fld w 7 4) s)
  | 35 => some (execLea4 (fld w 21 5) (fld w 16 5) (fld w 11 5) (fld w 7 4) s)
  | 36 => some (execLea8 (fld w 21 5) (fld w 16 5) (fld w 11 5) (fld w 7 4) s)
  | 37 => some (execSel (fld w 21 5) (fld w 16 5) (fld w 11 5) (fld w 7 4) s)
  | _ => none

/-- The rows of opcode 0x15 (R25 to R32). -/
def directOp15 (w : Word) (s : State) : Option Result :=
  match (fld w 10 2).toNat with
  | 0 => some (execStb (fld w 21 5) (fld w 16 5) (fld w 12 4) (fld w 0 10) s)
  | 1 => some (execSth (fld w 21 5) (fld w 16 5) (fld w 12 4) (fld w 0 10) s)
  | 2 => some (execStw (fld w 21 5) (fld w 16 5) (fld w 12 4) (fld w 0 10) s)
  | 3 => some (execStd (fld w 21 5) (fld w 16 5) (fld w 12 4) (fld w 0 10) s)
  | _ => none

/-- The rows of opcode 0x18 (R25 to R32). -/
def directOp18 (w : Word) (s : State) : Option Result :=
  match (fld w 0 4).toNat with
  | 0 => some (execAmoAdd (fld w 21 5) (fld w 16 5) (fld w 11 5) (fld w 7 4) (fld w 5 2) (fld w 4 1) s)
  | 1 => some (execAmoAnd (fld w 21 5) (fld w 16 5) (fld w 11 5) (fld w 7 4) (fld w 5 2) (fld w 4 1) s)
  | 2 => some (execAmoOr (fld w 21 5) (fld w 16 5) (fld w 11 5) (fld w 7 4) (fld w 5 2) (fld w 4 1) s)
  | 3 => some (execAmoXor (fld w 21 5) (fld w 16 5) (fld w 11 5) (fld w 7 4) (fld w 5 2) (fld w 4 1) s)
  | 4 => some (execAmoMin (fld w 21 5) (fld w 16 5) (fld w 11 5) (fld w 7 4) (fld w 5 2) (fld w 4 1) s)
  | 5 => some (execAmoMax (fld w 21 5) (fld w 16 5) (fld w 11 5) (fld w 7 4) (fld w 5 2) (fld w 4 1) s)
  | 6 => some (execAmoMinu (fld w 21 5) (fld w 16 5) (fld w 11 5) (fld w 7 4) (fld w 5 2) (fld w 4 1) s)
  | 7 => some (execAmoMaxu (fld w 21 5) (fld w 16 5) (fld w 11 5) (fld w 7 4) (fld w 5 2) (fld w 4 1) s)
  | 8 => some (execAmoSwp (fld w 21 5) (fld w 16 5) (fld w 11 5) (fld w 7 4) (fld w 5 2) (fld w 4 1) s)
  | 9 => if fld w 4 1 = 0 then some (execAmoFadd (fld w 21 5) (fld w 16 5) (fld w 11 5) (fld w 7 4) (fld w 5 2) s) else none
  | 10 => if fld w 4 1 = 0 then some (execAmoBfadd (fld w 21 5) (fld w 16 5) (fld w 11 5) (fld w 7 4) (fld w 5 2) s) else none
  | _ => none

/-- The rows of opcode 0x19 (R25 to R32). -/
def directOp19 (w : Word) (s : State) : Option Result :=
  match (fld w 0 4).toNat with
  | 0 => some (execAmocas (fld w 21 5) (fld w 16 5) (fld w 11 5) (fld w 7 4) (fld w 5 2) (fld w 4 1) s)
  | 8 => if fld w 21 5 = 0 ∧ fld w 4 1 = 0 then if (((fld w 5 2) == 0 || (fld w 5 2) == 2) && true) = true then some (execRedtAdd (fld w 16 5) (fld w 11 5) (fld w 7 4) (fld w 5 2) s) else none else none
  | 9 => if fld w 21 5 = 0 ∧ fld w 4 1 = 0 then if (((fld w 5 2) == 0 || (fld w 5 2) == 2) && true) = true then some (execRedtFadd (fld w 16 5) (fld w 11 5) (fld w 7 4) (fld w 5 2) s) else none else none
  | 10 => if fld w 21 5 = 0 ∧ fld w 4 1 = 0 then if (((fld w 5 2) == 0 || (fld w 5 2) == 2) && true) = true then some (execRedtBfadd (fld w 16 5) (fld w 11 5) (fld w 7 4) (fld w 5 2) s) else none else none
  | 11 => if fld w 21 5 = 0 ∧ fld w 4 1 = 0 then if (((fld w 5 2) == 0 || (fld w 5 2) == 2) && true) = true then some (execRedtMin (fld w 16 5) (fld w 11 5) (fld w 7 4) (fld w 5 2) s) else none else none
  | 12 => if fld w 21 5 = 0 ∧ fld w 4 1 = 0 then if (((fld w 5 2) == 0 || (fld w 5 2) == 2) && true) = true then some (execRedtMax (fld w 16 5) (fld w 11 5) (fld w 7 4) (fld w 5 2) s) else none else none
  | _ => none

/-- R25, R34: opcode 0x1A is BR, and JMP when its guard field is zero. -/
def directBranch (w : Word) (s : State) : Option Result :=
  if fld w 22 4 = 0 then some (execJmp (fld w 0 22) s) else if (((fld w 22 4) != 0) && true) = true then some (execBr (fld w 22 4) (fld w 0 22) s) else none

/-- The rows of opcode 0x1C (R25 to R32). -/
def directOp1C (w : Word) (s : State) : Option Result :=
  match (fld w 23 1).toNat with
  | 0 => if fld w 0 4 = 0 then if (((fld w 24 2) != 3 && (fld w 12 11) != 0) && true) = true then some (execLoopImm (fld w 24 2) (fld w 12 11) (fld w 4 8) s) else none else none
  | 1 => if fld w 17 6 = 0 ∧ fld w 0 4 = 0 then if (((fld w 24 2) != 3) && true) = true then some (execLoopReg (fld w 24 2) (fld w 12 5) (fld w 4 8) s) else none else none
  | _ => none

/-- R28: the compare, predicate and control group, opcode 0x1E. -/
def directOp1E (w : Word) (s : State) : Option Result :=
  if fld w 4 3 = 0 then
    if fld w 24 2 = 0 then if ((decide ((fld w 0 4).toNat < 12)) && true) = true then some (execCmp (fld w 21 3) (fld w 16 5) (fld w 11 5) (fld w 7 4) (fld w 0 4) s) else none else none
  else match (fld w 0 7).toNat with
  | 16 => if fld w 24 2 = 0 ∧ fld w 19 2 = 0 ∧ fld w 14 2 = 0 then some (execPlogAnd (fld w 21 3) (fld w 16 3) (fld w 11 3) (fld w 7 4) s) else none
  | 17 => if fld w 24 2 = 0 ∧ fld w 19 2 = 0 ∧ fld w 14 2 = 0 then some (execPlogOr (fld w 21 3) (fld w 16 3) (fld w 11 3) (fld w 7 4) s) else none
  | 18 => if fld w 24 2 = 0 ∧ fld w 19 2 = 0 ∧ fld w 14 2 = 0 then some (execPlogXor (fld w 21 3) (fld w 16 3) (fld w 11 3) (fld w 7 4) s) else none
  | 19 => if fld w 24 2 = 0 ∧ fld w 19 2 = 0 ∧ fld w 11 5 = 0 then some (execPlogNot (fld w 21 3) (fld w 16 3) (fld w 7 4) s) else none
  | 20 => if fld w 24 2 = 0 ∧ fld w 11 5 = 0 then some (execS2p (fld w 21 3) (fld w 16 5) (fld w 7 4) s) else none
  | 21 => if fld w 19 2 = 0 ∧ fld w 11 5 = 0 then some (execP2s (fld w 21 5) (fld w 16 3) (fld w 7 4) s) else none
  | 24 => if fld w 11 5 = 0 then some (execJr (fld w 21 5) (fld w 16 5) (fld w 7 4) s) else none
  | 25 => if fld w 16 10 = 0 then if ((decide ((fld w 11 5).toNat ≤ 2)) && true) = true then some (execLbrk (fld w 11 5) (fld w 7 4) s) else none else none
  | 26 => if fld w 21 5 = 0 ∧ fld w 11 5 = 0 then some (execWait (fld w 16 5) (fld w 7 4) s) else none
  | 27 => if fld w 11 15 = 0 then some (execHalt (fld w 7 4) s) else none
  | _ => none

/-- The rows of opcode 0x1F (R25 to R32). -/
def directOp1F (w : Word) (s : State) : Option Result :=
  match (fld w 0 4).toNat with
  | 0 => if fld w 16 5 = 0 then some (execSrd (fld w 21 5) (fld w 4 12) s) else none
  | 1 => if fld w 21 5 = 0 then some (execSwr (fld w 16 5) (fld w 4 12) s) else none
  | 2 => some (execSrs (fld w 21 5) (fld w 16 5) (fld w 4 12) s)
  | 3 => some (execSrc (fld w 21 5) (fld w 16 5) (fld w 4 12) s)
  | 4 => if fld w 16 10 = 0 then some (execTrap (fld w 4 12) s) else none
  | 5 => if fld w 4 22 = 0 then some (execEret s) else none
  | 6 => if fld w 8 13 = 0 then if ((decide ((fld w 4 3).toNat ≤ 5)) && true) = true then some (execFence (fld w 21 5) (fld w 7 1) (fld w 4 3) s) else none else none
  | 7 => if fld w 4 22 = 0 then some (execWsync s) else none
  | 8 => if fld w 6 10 = 0 then some (execMsg (fld w 21 5) (fld w 16 5) (fld w 4 2) s) else none
  | 9 => if fld w 4 17 = 0 then some (execNextp (fld w 21 5) s) else none
  | _ => none

/-- The rows of opcode 0x25 (R25 to R32). -/
def directOp25 (w : Word) (s : State) : Option Result :=
  match (fld w 6 5).toNat with
  | 0 => some (execVadd (fld w 21 5) (fld w 16 5) (fld w 11 5) (fld w 3 3) (fld w 2 1) (fld w 1 1) (fld w 0 1) s)
  | 1 => some (execVsub (fld w 21 5) (fld w 16 5) (fld w 11 5) (fld w 3 3) (fld w 2 1) (fld w 1 1) (fld w 0 1) s)
  | 2 => some (execVmul (fld w 21 5) (fld w 16 5) (fld w 11 5) (fld w 3 3) (fld w 2 1) (fld w 1 1) (fld w 0 1) s)
  | 3 => some (execVmax (fld w 21 5) (fld w 16 5) (fld w 11 5) (fld w 3 3) (fld w 2 1) (fld w 1 1) (fld w 0 1) s)
  | 4 => some (execVmin (fld w 21 5) (fld w 16 5) (fld w 11 5) (fld w 3 3) (fld w 2 1) (fld w 1 1) (fld w 0 1) s)
  | 5 => if fld w 11 5 = 0 then some (execVabs (fld w 21 5) (fld w 16 5) (fld w 3 3) (fld w 2 1) (fld w 1 1) (fld w 0 1) s) else none
  | 6 => if fld w 11 5 = 0 then some (execVneg (fld w 21 5) (fld w 16 5) (fld w 3 3) (fld w 2 1) (fld w 1 1) (fld w 0 1) s) else none
  | 7 => some (execVcps (fld w 21 5) (fld w 16 5) (fld w 11 5) (fld w 3 3) (fld w 2 1) (fld w 1 1) (fld w 0 1) s)
  | 8 => if fld w 11 5 = 0 ∧ fld w 1 1 = 0 then some (execVcls (fld w 21 5) (fld w 16 5) (fld w 3 3) (fld w 2 1) (fld w 0 1) s) else none
  | 9 => some (execVdot (fld w 21 5) (fld w 16 5) (fld w 11 5) (fld w 3 3) (fld w 2 1) (fld w 1 1) (fld w 0 1) s)
  | 10 => if fld w 11 5 = 0 then some (execVexpf (fld w 21 5) (fld w 16 5) (fld w 3 3) (fld w 2 1) (fld w 1 1) (fld w 0 1) s) else none
  | 11 => if fld w 11 5 = 0 then some (execVlogf (fld w 21 5) (fld w 16 5) (fld w 3 3) (fld w 2 1) (fld w 1 1) (fld w 0 1) s) else none
  | 12 => some (execVscale (fld w 21 5) (fld w 16 5) (fld w 11 5) (fld w 3 3) (fld w 2 1) (fld w 1 1) (fld w 0 1) s)
  | 13 => if fld w 11 5 = 0 then some (execVgetx (fld w 21 5) (fld w 16 5) (fld w 3 3) (fld w 2 1) (fld w 1 1) (fld w 0 1) s) else none
  | 14 => if fld w 11 5 = 0 then some (execVrcp (fld w 21 5) (fld w 16 5) (fld w 3 3) (fld w 2 1) (fld w 1 1) (fld w 0 1) s) else none
  | 15 => if fld w 11 5 = 0 then some (execVrsq (fld w 21 5) (fld w 16 5) (fld w 3 3) (fld w 2 1) (fld w 1 1) (fld w 0 1) s) else none
  | 16 | 17 | 18 | 19 | 20 | 21 | 22 | 23 => if fld w 1 1 = 0 then some (execVcmp (fld w 21 5) (fld w 16 5) (fld w 11 5) (fld w 6 3) (fld w 3 3) (fld w 2 1) (fld w 0 1) s) else none
  | _ => none

/-- The rows of opcode 0x26 (R25 to R32). -/
def directOp26 (w : Word) (s : State) : Option Result :=
  match (fld w 6 5).toNat with
  | 0 => if fld w 1 2 = 0 then some (execViadd (fld w 21 5) (fld w 16 5) (fld w 11 5) (fld w 3 3) (fld w 0 1) s) else none
  | 1 => if fld w 1 2 = 0 then some (execVisub (fld w 21 5) (fld w 16 5) (fld w 11 5) (fld w 3 3) (fld w 0 1) s) else none
  | 2 => if fld w 1 2 = 0 then some (execVimul (fld w 21 5) (fld w 16 5) (fld w 11 5) (fld w 3 3) (fld w 0 1) s) else none
  | 3 => if fld w 1 2 = 0 then some (execVand (fld w 21 5) (fld w 16 5) (fld w 11 5) (fld w 3 3) (fld w 0 1) s) else none
  | 4 => if fld w 1 2 = 0 then some (execVor (fld w 21 5) (fld w 16 5) (fld w 11 5) (fld w 3 3) (fld w 0 1) s) else none
  | 5 => if fld w 1 2 = 0 then some (execVxor (fld w 21 5) (fld w 16 5) (fld w 11 5) (fld w 3 3) (fld w 0 1) s) else none
  | 6 => if fld w 1 2 = 0 then some (execVshl (fld w 21 5) (fld w 16 5) (fld w 11 5) (fld w 3 3) (fld w 0 1) s) else none
  | 7 => if fld w 1 2 = 0 then some (execVshr (fld w 21 5) (fld w 16 5) (fld w 11 5) (fld w 3 3) (fld w 0 1) s) else none
  | 8 => if fld w 1 2 = 0 then some (execVsar (fld w 21 5) (fld w 16 5) (fld w 11 5) (fld w 3 3) (fld w 0 1) s) else none
  | 9 => if fld w 1 2 = 0 then some (execVimin (fld w 21 5) (fld w 16 5) (fld w 11 5) (fld w 3 3) (fld w 0 1) s) else none
  | 10 => if fld w 1 2 = 0 then some (execVimax (fld w 21 5) (fld w 16 5) (fld w 11 5) (fld w 3 3) (fld w 0 1) s) else none
  | 11 => if fld w 11 5 = 0 ∧ fld w 1 2 = 0 then some (execVcnt (fld w 21 5) (fld w 16 5) (fld w 3 3) (fld w 0 1) s) else none
  | _ => none

/-- The rows of opcode 0x27 (R25 to R32). -/
def directOp27 (w : Word) (s : State) : Option Result :=
  match (fld w 6 5).toNat with
  | 0 => if fld w 11 5 = 0 then some (execVsumt (fld w 21 5) (fld w 16 5) (fld w 3 3) (fld w 2 1) (fld w 1 1) (fld w 0 1) s) else none
  | 1 => if fld w 11 5 = 0 then some (execVmaxt (fld w 21 5) (fld w 16 5) (fld w 3 3) (fld w 2 1) (fld w 1 1) (fld w 0 1) s) else none
  | 2 => if fld w 11 5 = 0 then some (execVscan (fld w 21 5) (fld w 16 5) (fld w 3 3) (fld w 2 1) (fld w 1 1) (fld w 0 1) s) else none
  | 3 => if fld w 1 2 = 0 then some (execVperm (fld w 21 5) (fld w 16 5) (fld w 11 5) (fld w 3 3) (fld w 0 1) s) else none
  | 4 => if fld w 1 2 = 0 then some (execVshuf (fld w 21 5) (fld w 16 5) (fld w 11 5) (fld w 3 3) (fld w 0 1) s) else none
  | 5 => if fld w 1 2 = 0 then some (execVbcst (fld w 21 5) (fld w 16 5) (fld w 11 5) (fld w 3 3) (fld w 0 1) s) else none
  | 6 => if fld w 0 6 = 0 then some (execVins (fld w 21 5) (fld w 16 5) (fld w 11 5) s) else none
  | 7 => if fld w 0 6 = 0 then some (execVext (fld w 21 5) (fld w 16 5) (fld w 11 5) s) else none
  | 8 => if fld w 0 3 = 0 then some (execVhist (fld w 21 5) (fld w 16 5) (fld w 11 5) (fld w 3 3) s) else none
  | 9 => if fld w 1 2 = 0 then if ((decide ((fld w 16 5).toNat ≤ (fld w 11 5).toNat ∧ (fld w 11 5).toNat ≤ (fld w 16 5).toNat + 15)) && true) = true then some (execVhmrg (fld w 21 5) (fld w 16 5) (fld w 11 5) (fld w 3 3) (fld w 0 1) s) else none else none
  | 10 => if fld w 1 2 = 0 then some (execVmsk (fld w 21 5) (fld w 16 5) (fld w 11 5) (fld w 3 3) (fld w 0 1) s) else none
  | _ => none

/-- The rows of opcode 0x2E (R25 to R32). -/
def directOp2E (w : Word) (s : State) : Option Result :=
  match (fld w 6 5).toNat with
  | 0 => if fld w 0 2 = 0 then if (((fld w 21 5) != (fld w 16 5) && (fld w 21 5) != (fld w 11 5) && (fld w 16 5) != (fld w 11 5)) && true) = true then some (execVbfp (fld w 21 5) (fld w 16 5) (fld w 11 5) (fld w 3 3) (fld w 2 1) s) else none else none
  | 1 => if fld w 1 2 = 0 then some (execVpld (fld w 21 5) (fld w 16 5) (fld w 11 5) (fld w 3 3) (fld w 0 1) s) else none
  | _ => none

/-- The rows of opcode 0x2F (R25 to R32). -/
def directOp2F (w : Word) (s : State) : Option Result :=
  match (fld w 6 5).toNat with
  | 0 => if fld w 1 2 = 0 then some (execLdts (fld w 21 5) (fld w 16 5) (fld w 11 5) (fld w 3 3) (fld w 0 1) s) else none
  | 1 => if fld w 1 2 = 0 then some (execStts (fld w 21 5) (fld w 16 5) (fld w 11 5) (fld w 3 3) (fld w 0 1) s) else none
  | 2 => if fld w 1 2 = 0 then some (execLdtg (fld w 21 5) (fld w 16 5) (fld w 11 5) (fld w 3 3) (fld w 0 1) s) else none
  | 3 => if fld w 1 2 = 0 then some (execSttg (fld w 21 5) (fld w 16 5) (fld w 11 5) (fld w 3 3) (fld w 0 1) s) else none
  | _ => none

/-- The rows of opcode 0x30 (R25 to R32). -/
def directOp30 (w : Word) (s : State) : Option Result :=
  match (fld w 0 7).toNat with
  | 0 => some (execCfg (fld w 21 5) (fld w 16 5) (fld w 11 5) (fld w 7 4) s)
  | 1 => if fld w 11 10 = 0 then some (execCfgw (fld w 21 5) (fld w 7 4) s) else none
  | _ => none

/-- The rows of opcode 0x31 (R25 to R32). -/
def directOp31 (w : Word) (s : State) : Option Result :=
  match (fld w 0 7).toNat with
  | 0 => if fld w 21 5 = 0 then some (execPusht (fld w 16 5) (fld w 11 5) (fld w 7 4) s) else none
  | 1 => if fld w 11 5 = 0 then some (execPopt (fld w 21 5) (fld w 16 5) (fld w 7 4) s) else none
  | 2 => some (execDrn (fld w 21 5) (fld w 16 5) (fld w 11 5) (fld w 7 4) s)
  | _ => none

/-- The rows of opcode 0x32 (R25 to R32). -/
def directOp32 (w : Word) (s : State) : Option Result :=
  match (fld w 0 7).toNat with
  | 0 => if fld w 11 5 = 0 then some (execCpy (fld w 21 5) (fld w 16 5) (fld w 7 4) s) else none
  | 1 => if fld w 11 10 = 0 then some (execCpyw (fld w 21 5) (fld w 7 4) s) else none
  | _ => none

/-- The rows of opcode 0x33 (R25 to R32). -/
def directOp33 (w : Word) (s : State) : Option Result :=
  match (fld w 0 7).toNat with
  | 0 => if fld w 11 5 = 0 then some (execOcl (fld w 21 5) (fld w 16 5) (fld w 7 4) s) else none
  | 1 => if fld w 21 5 = 0 ∧ fld w 11 5 = 0 then some (execOrl (fld w 16 5) (fld w 7 4) s) else none
  | 2 => some (execOld (fld w 21 5) (fld w 16 5) (fld w 11 5) (fld w 7 4) s)
  | 3 => some (execOst (fld w 21 5) (fld w 16 5) (fld w 11 5) (fld w 7 4) s)
  | _ => none

/-- The rows of opcode 0x34 (R25 to R32). -/
def directOp34 (w : Word) (s : State) : Option Result :=
  match (fld w 0 7).toNat with
  | 0 => some (execHoopArrive (fld w 21 5) (fld w 16 5) (fld w 11 5) (fld w 7 4) s)
  | 1 => if fld w 11 5 = 0 then some (execPub (fld w 21 5) (fld w 16 5) (fld w 7 4) s) else none
  | _ => none

/-- The rows of opcode 0x35 (R25 to R32). -/
def directOp35 (w : Word) (s : State) : Option Result :=
  match (fld w 0 7).toNat with
  | 0 => if fld w 11 5 = 0 then some (execPle (fld w 21 5) (fld w 16 5) (fld w 7 4) s) else none
  | 1 => if fld w 11 5 = 0 then some (execMig (fld w 21 5) (fld w 16 5) (fld w 7 4) s) else none
  | 2 => if fld w 11 5 = 0 then some (execMigSp (fld w 21 5) (fld w 16 5) (fld w 7 4) s) else none
  | 3 => some (execHsplit (fld w 21 5) (fld w 16 5) (fld w 11 5) (fld w 7 4) s)
  | _ => none

/-- The rows of opcode 0x36 (R25 to R32). -/
def directOp36 (w : Word) (s : State) : Option Result :=
  match (fld w 0 7).toNat with
  | 0 => some (execPtew (fld w 21 5) (fld w 16 5) (fld w 11 5) (fld w 7 4) s)
  | 1 => some (execPtecas (fld w 21 5) (fld w 16 5) (fld w 11 5) (fld w 7 4) s)
  | 2 => if fld w 11 5 = 0 then some (execPinv (fld w 21 5) (fld w 16 5) (fld w 7 4) s) else none
  | _ => none

/-- The rows of opcode 0x37 (R25 to R32). -/
def directOp37 (w : Word) (s : State) : Option Result :=
  match (fld w 0 7).toNat with
  | 0 => if fld w 21 5 = 0 then some (execWardw (fld w 16 5) (fld w 11 5) (fld w 7 4) s) else none
  | _ => none

/-- The rim word as the opcode map reads it (R25), before the operand checks of `Instr.wellFormed`. -/
def directRaw (w : Word) (s : State) : Option Result :=
  match (fld w 26 6).toNat with
  | 1 => directOp01 w s
  | 2 => some (execAddi (fld w 21 5) (fld w 16 5) (fld w 12 4) (fld w 0 12) s)
  | 3 => some (execAndi (fld w 21 5) (fld w 16 5) (fld w 12 4) (fld w 0 12) s)
  | 4 => some (execOri (fld w 21 5) (fld w 16 5) (fld w 12 4) (fld w 0 12) s)
  | 5 => some (execXori (fld w 21 5) (fld w 16 5) (fld w 12 4) (fld w 0 12) s)
  | 6 => if fld w 6 6 = 0 then some (execSlli (fld w 21 5) (fld w 16 5) (fld w 12 4) (fld w 0 6) s) else none
  | 7 => if fld w 6 6 = 0 then some (execSrli (fld w 21 5) (fld w 16 5) (fld w 12 4) (fld w 0 6) s) else none
  | 8 => if fld w 6 6 = 0 then some (execSrai (fld w 21 5) (fld w 16 5) (fld w 12 4) (fld w 0 6) s) else none
  | 9 => some (execMuli (fld w 21 5) (fld w 16 5) (fld w 12 4) (fld w 0 12) s)
  | 10 => if fld w 16 5 = 0 then some (execAddpc (fld w 21 5) (fld w 12 4) (fld w 0 12) s) else none
  | 12 => some (execLil (fld w 21 5) (fld w 0 21) s)
  | 13 => some (execLih (fld w 21 5) (fld w 0 21) s)
  | 14 => some (execLdb (fld w 21 5) (fld w 16 5) (fld w 12 4) (fld w 0 12) s)
  | 15 => some (execLdbu (fld w 21 5) (fld w 16 5) (fld w 12 4) (fld w 0 12) s)
  | 16 => some (execLdh (fld w 21 5) (fld w 16 5) (fld w 12 4) (fld w 0 12) s)
  | 17 => some (execLdhu (fld w 21 5) (fld w 16 5) (fld w 12 4) (fld w 0 12) s)
  | 18 => some (execLdw (fld w 21 5) (fld w 16 5) (fld w 12 4) (fld w 0 12) s)
  | 19 => some (execLdwu (fld w 21 5) (fld w 16 5) (fld w 12 4) (fld w 0 12) s)
  | 20 => some (execLdd (fld w 21 5) (fld w 16 5) (fld w 12 4) (fld w 0 12) s)
  | 21 => directOp15 w s
  | 22 => some (execLdt (fld w 21 5) (fld w 16 5) (fld w 12 4) (fld w 0 12) s)
  | 23 => some (execStt (fld w 21 5) (fld w 16 5) (fld w 12 4) (fld w 0 12) s)
  | 24 => directOp18 w s
  | 25 => directOp19 w s
  | 26 => directBranch w s
  | 27 => some (execCall (fld w 21 5) (fld w 0 21) s)
  | 28 => directOp1C w s
  | 29 => if fld w 24 2 = 0 then if ((decide ((fld w 12 4).toNat < 12)) && true) = true then some (execCmpi (fld w 21 3) (fld w 16 5) (fld w 12 4) (fld w 0 12) s) else none else none
  | 30 => directOp1E w s
  | 31 => directOp1F w s
  | 32 => some (execVfma (fld w 21 5) (fld w 16 5) (fld w 11 5) (fld w 6 5) (fld w 3 3) (fld w 2 1) (fld w 1 1) (fld w 0 1) s)
  | 33 => some (execVfms (fld w 21 5) (fld w 16 5) (fld w 11 5) (fld w 6 5) (fld w 3 3) (fld w 2 1) (fld w 1 1) (fld w 0 1) s)
  | 34 => some (execVfnma (fld w 21 5) (fld w 16 5) (fld w 11 5) (fld w 6 5) (fld w 3 3) (fld w 2 1) (fld w 1 1) (fld w 0 1) s)
  | 35 => if fld w 1 2 = 0 then some (execVsel (fld w 21 5) (fld w 16 5) (fld w 11 5) (fld w 6 5) (fld w 3 3) (fld w 0 1) s) else none
  | 36 => if fld w 1 2 = 0 then some (execVimac (fld w 21 5) (fld w 16 5) (fld w 11 5) (fld w 6 5) (fld w 3 3) (fld w 0 1) s) else none
  | 37 => directOp25 w s
  | 38 => directOp26 w s
  | 39 => directOp27 w s
  | 40 => if ((tcLegal .vcvt (fld w 12 4) (fld w 8 4) (fld w 5 3)) && true) = true then some (execVcvt (fld w 21 5) (fld w 16 5) (fld w 12 4) (fld w 8 4) (fld w 5 3) (fld w 3 2) (fld w 2 1) (fld w 1 1) (fld w 0 1) s) else none
  | 41 => if ((tcLegal .vrndi (fld w 12 4) (fld w 8 4) (fld w 5 3)) && true) = true then some (execVrndi (fld w 21 5) (fld w 16 5) (fld w 12 4) (fld w 8 4) (fld w 5 3) (fld w 3 2) (fld w 2 1) (fld w 1 1) (fld w 0 1) s) else none
  | 42 => if ((tcLegal .vftoi (fld w 12 4) (fld w 8 4) (fld w 5 3)) && true) = true then some (execVftoi (fld w 21 5) (fld w 16 5) (fld w 12 4) (fld w 8 4) (fld w 5 3) (fld w 3 2) (fld w 2 1) (fld w 1 1) (fld w 0 1) s) else none
  | 43 => if ((tcLegal .vitof (fld w 12 4) (fld w 8 4) (fld w 5 3)) && true) = true then some (execVitof (fld w 21 5) (fld w 16 5) (fld w 12 4) (fld w 8 4) (fld w 5 3) (fld w 3 2) (fld w 2 1) (fld w 1 1) (fld w 0 1) s) else none
  | 44 => if ((tcLegal .vpack (fld w 12 4) (fld w 8 4) (fld w 5 3)) && true) = true then some (execVpack (fld w 21 5) (fld w 16 5) (fld w 12 4) (fld w 8 4) (fld w 5 3) (fld w 3 2) (fld w 2 1) (fld w 1 1) (fld w 0 1) s) else none
  | 45 => if ((tcLegal .vunpk (fld w 12 4) (fld w 8 4) (fld w 5 3) && !((fld w 21 5) == (fld w 16 5) && (fld w 0 1) == 1)) && true) = true then some (execVunpk (fld w 21 5) (fld w 16 5) (fld w 12 4) (fld w 8 4) (fld w 5 3) (fld w 3 2) (fld w 2 1) (fld w 1 1) (fld w 0 1) s) else none
  | 46 => directOp2E w s
  | 47 => directOp2F w s
  | 48 => directOp30 w s
  | 49 => directOp31 w s
  | 50 => directOp32 w s
  | 51 => directOp33 w s
  | 52 => directOp34 w s
  | 53 => directOp35 w s
  | 54 => directOp36 w s
  | 55 => directOp37 w s
  | _ => none

/-- R10, R33: the meaning of a word of a rim core's code store. -/
def directRim (w : Word) (s : State) : Result :=
  match directRaw w s with
  | some r => r
  | none => execIllegalRimWord w s

end Sys2Proof.Machine
end

