-- ==== Sys2Proof/Machine/RimEvents.lean ====
section
/-! DEFINITION. The events of a rim core: pre-emption and requests of management, messages, the end of a load, a WAIT, a FENCE or
a HALT, acknowledgements and creel outcomes (R96, R97, R99, R111, R114, R170 to R172, R285, R289, R374). -/

namespace Sys2Proof.Machine

/-! ### Asynchronous events (R107, R172, R374) -/

/-- R374: PREEMPT. Management raises it only while TVEC.VALID is set; it is taken where the core can take an event, and otherwise
stays pending; residency ends as it arrives (R358). -/
def execPreempt (t : Nat) (s : State) : Result :=
  let s := s.focusTile t
  let c := s.tile.core
  if !c.tvecValid && !c.pendPreempt then .next s
  else if s.takesEvent then
    .next (enterTrap (s.setCore { c with pendPreempt := false }) causePreempt 0 c.pc true 0)
  else .next (s.setCore { c with pendPreempt := true, resident := false })

/-- R172, R173: MGMTREQ, after a pending PREEMPT. -/
def execMgmtreq (t : Nat) (s : State) : Result :=
  let s := s.focusTile t
  let c := s.tile.core
  if s.takesEvent && !c.pendPreempt then
    .next (enterTrap (s.setCore { c with pendMgmt := false }) causeMgmtReq 0 c.pc true 0)
  else .next (s.setCore { c with pendMgmt := true, resident := false })

/-! ### Messages (R113, R114) -/

/-- R114, R169: a message lands in its mail register; `first`: a result on its way to that register then replaces it. -/
def Core.landMail (c : Core) (mail : BitVec 2) (v : BitVec 64) (first : Bool) : Core :=
  { (if first then c else c.setS (28 + mail.setWidth 5) v) with
    mailFull := setBit c.mailFull mail.toNat true
    mailOvr := if c.mailFull.getLsbD mail.toNat then setBit c.mailOvr mail.toNat true else c.mailOvr }

/-- Whether a core's context has ended. -/
def Core.ended (c : Core) : Bool := c.run == .halted || c.run == .stopped

/-- R114, R292: whether a message to a tile is discarded there. -/
def State.discards (s : State) (t : Nat) : Bool :=
  (s.getTile t).core.ended || (s.graphOfTile t).any fun g => g.stopped && g.grace == 0

/-- Splits the first message to a tile off a buffer. -/
def takeMsg (dst : Nat) : List Msg → Option (Msg × List Msg)
  | [] => none
  | m :: r => if m.dst = dst then some (m, r) else (takeMsg dst r).map fun x => (x.1, m :: x.2)

/-- R114: the oldest message of a sender to a destination arrives. Between graphs that are not bound nothing arrives. -/
def execMsgArrive (src dst : Nat) (s : State) : Result :=
  match takeMsg dst (s.getTile src).core.outbox with
  | none => .next s
  | some (m, rest) =>
    if (s.graphOfTile dst).isNone then .next s
    else
      let s := s.onCore src fun c => { c with outbox := rest }
      if s.discards dst then .next s
      else
        let first := s.landsFirst (s.getTile dst).core (28 + m.mail.setWidth 5)
        .next { s.onCore dst fun c => c.landMail m.mail m.value first with free := s.free + 1 }

/-! ### Ends of stalls (R96, R97, R99, R111) -/

/-- R96: a stalled WAIT whose conditions hold retires. -/
def execWaitRelease (t : Nat) (s : State) : Result :=
  let s := s.focusTile t
  let c := s.tile.core
  match c.stall with
  | .wait n =>
    if c.waitReady n then
      .next (retireTo s (s.setCore (c.waitClear n)) 1 (c.loopEnd c.pc.toNat))
    else .next s
  | _ => .next s

/-- R111: a stalled FENCE whose wait has ended retires with its status. -/
def execFenceComplete (t : Nat) (s : State) : Result :=
  let s := s.focusTile t
  let c := s.tile.core
  match c.stall with
  | .fence d nw scope =>
    if c.fenceReady (nw == 1) scope then
      .next (retireTo s (s.setCore (c.fenceTake d (nw == 1) scope)) 7 (c.loopEnd c.pc.toNat))
    else .next s
  | _ => .next s

/-- R97: a HALT whose waits have ended completes the context. -/
def execHaltComplete (t : Nat) (s : State) : Result :=
  let s := s.focusTile t
  if s.tile.core.stall = .halt ∧ s.tile.core.haltReady = true then .next (completeHalt s) else .next s

/-- R159 to R161: the word that a core fetches at an address: the one that the loop buffer holds, else that of the code store. -/
def Tile.fetchWord (t : Tile) (a : BitVec 10) : BitVec 32 × CodeMark :=
  match assocGet t.core.loopBuf a.toNat with
  | some x => x
  | none => (sparseGet 0 t.code a.toNat, sparseGet .clean t.codeMarks a.toNat)

/-- R157, R169: what an instruction that read its sources before leaves of a core: `c` is the core while it waited, and `x` the core
after the instruction has run with those sources. Only its own destination differs from what asynchronous writes have left. -/
def Core.afterHeld (c x : Core) (h : Held) : Core :=
  let retired : Bool := x.stall == .none && x.run == .running && x.mode == c.mode
  { x with sregs := Vector.ofFn fun n : Fin 32 =>
      if retired && slowDest h.word == some (BitVec.ofNat 5 n) then x.sregs.get n else c.sregs.get n }

/-- R99, R157, R171: a load or atomic that has issued goes on, with the word and the sources of its issue. -/
def resumeHeld (h : Held) (s : State) : Result :=
  let c := s.tile.core
  match directRim h.word (s.setCore { c with stall := .none, sregs := h.sregs }) with
  | .next t => .next (t.setCore (c.afterHeld t.tile.core h))
  | .fault e => .fault e
  | .refused e => .refused e

/-- R99: a load or atomic that waited is met again: it returns, is held again, or traps. -/
def execLoadReturn (t : Nat) (s : State) : Result :=
  let s := s.focusTile t
  let c := s.tile.core
  match c.held with
  | none => .next s
  | some h =>
    match c.stall with
    | .load _ _ => resumeHeld h s
    | .held _ => resumeHeld h s
    | .away id => if s.island.remotes.any fun r => r.id == id then .next s else resumeHeld h s
    | _ => .next s

/-! ### Outcomes of stores (R229, R285, R289) -/

/-- R289, R294: an outcome is added to the FENCE state of the resident context, or, after a fault stop, to what the completion
record will say. -/
def Core.addOutcome (c : Core) (out : BitVec 6) (ia : BitVec 44) : Core :=
  if c.run = .stopped then { c with lateOut := c.lateOut ||| out } else { c with fence := c.fence.add out ia }

/-- R289, R294: the oldest ended entry of the resident context is reported and freed. -/
def Core.reportEntry (c : Core) : Core :=
  match c.creel.find? fun e => !e.live && e.ctx == c.ctx with
  | some e =>
    let c : Core := { c with
      creel := c.creel.filter fun x => x.seq != e.seq
      lateCnt := if c.run = .stopped ∧ c.lateCnt ≠ 4095 then c.lateCnt + 1 else c.lateCnt }
    c.addOutcome e.out e.failIa
  | none => c

/-- R289: CREEL_OUTCOME_REPORT. -/
def execCreelOutcomeReport (t : Nat) (s : State) : Result := .next (s.onCore t Core.reportEntry)

/-- R289: an entry that has ended and keeps its outcome for a context that is not resident. -/
def endedEntry (ia : BitVec 44) (attr : BitVec 2) (ctx : BitVec 16) (out : BitVec 6) (seq : Nat) : CreelEntry :=
  ⟨ia, 0, 0, attr, false, .ended, 0, ctx, out, seq, 0, none, none, none, none⟩

/-- R285: the hub reports the oldest write that a core has sent; a failure of a context that is not resident is kept as an ended
entry. -/
def Core.ackWrite (c : Core) : Core :=
  match c.sent with
  | [] => c
  | x :: rest =>
    if x.out = 0 ∨ x.ctx = c.ctx then { c with sent := rest }.addOutcome x.out x.ia
    else
      { c with
        sent := rest
        creel := c.creel ++ [endedEntry x.ia x.attr x.ctx x.out c.creelSeq]
        creelSeq := c.creelSeq + 1 }

/-- R285, R291: the hub reports the oldest write that a region has sent. -/
def Region.ackWrite (r : Region) : Region :=
  match r.sent with
  | [] => r
  | x :: rest => { r with sent := rest }.addFailure x.out x.ia

/-- R285: WRITE_ACKNOWLEDGEMENT. Engines, encoders, roots and other modules learn the outcome as the line is written. -/
def execWriteAcknowledgement (who : Issuer) (s : State) : Result :=
  match who with
  | .rim t => .next (s.onCore t Core.ackWrite)
  | .agn g r => .next (s.settle.onRegion g r Region.ackWrite)
  | .eng _ _ => .next s
  | .enc _ => .next s
  | .root _ => .next s
  | .harts => .next s
  | .companion => .next s
  | .remote _ => .next s

end Sys2Proof.Machine
end

