-- ==== Sys2Proof/Machine/Remote.lean ====
section
/-! DEFINITION. Strand ports: flits, the route of a packet, requests of other modules at the hubs, and the answers to this module's
requests (R326, R403 to R408). -/

namespace Sys2Proof.Machine

/-! ### Packets (R405 to R408) -/

/-- A packet of the crossbar by its number. -/
def State.packet (s : State) (n : Nat) : Option Transit := s.island.transit.find? fun x => x.id == n

/-- A packet has left the crossbar. -/
def State.dropPacket (s : State) (n : Nat) : State :=
  { s with island := { s.island with transit := s.island.transit.filter fun x => x.id != n } }

/-- A port by number. -/
def State.port (s : State) (p : Nat) : Port := s.island.ports.toList.getD p ⟨false, 0, false, 0, [], []⟩

/-- A port replaced. -/
def State.putPort (s : State) (p : Nat) (x : Port) : State :=
  { s with island := { s.island with ports := s.island.ports.setIfInBounds p x } }

/-- Whether the island carries traffic (R398). -/
def State.carries (s : State) : Bool := s.island.st == .serve || s.island.st == .transit

/-- R404: FLIT_RECEIVE: a flit that fails its CRC is asked for again; a sound one brings its packet into the crossbar. -/
def execFlitReceive (port : Nat) (crcOk : Bool) (pkt : Packet) (s : State) : Result :=
  let p := s.port port
  if !p.up || !s.carries then .next s
  else if !crcOk then .next (s.putPort port { p with retry := true })
  else
    let id := s.island.pktId
    let s := s.putPort port { p with retry := false, nextFlit := p.nextFlit + 1 }
    .next { s with
      island := { s.island with
        pktId := id + 1
        transit := s.island.transit ++ [⟨id, pkt, some port, decide (2 ≤ pkt.vc.toNat)⟩] }
      agenda := s.agenda ++ [.packetHop id] }

/-- R407: the port that the table of a packet's generation names, where the island holds that generation and the neighbour there
does not lag. -/
def State.tablePort (s : State) (p : Packet) : Option Nat :=
  match s.island.gens.find? fun g => g.gen == p.gen with
  | none => none
  | some g =>
    let port := (g.table.getD p.dest.toNat 0).toNat
    if (s.port port).up && !s.island.lags.contains (port, p.gen) then some port else none

/-- R404: a packet leaves by a port as its next flit; the port's replay buffer keeps the last 256. -/
def State.sendOut (s : State) (port : Nat) (p : Packet) : State :=
  let x := s.port port
  let f := (x.sentFlits, p)
  s.putPort port { x with
    sentFlits := x.sentFlits + 1, replay := (x.replay ++ [f]).drop (x.replay.length - 255), line := x.line ++ [f] }

/-- R404: a port sends the flits of its replay buffer from a number on again. -/
def State.resendFrom (s : State) (port n : Nat) : State :=
  let x := s.port port
  s.putPort port { x with line := x.line ++ x.replay.filter fun f => decide (n ≤ f.1) }

/-- R406: the coordinates of module x + X(y + Yz). -/
def Island.coords (x : Island) (m : BitVec 14) : Nat × Nat × Nat :=
  (m.toNat % x.dims.1, m.toNat / x.dims.1 % x.dims.2.1, m.toNat / x.dims.1 / x.dims.2.1)

/-- R406: the port of the next hop by dimension order: along x, then y, then z. -/
def Island.escapePort (x : Island) (dest : BitVec 14) : Nat :=
  let a := x.coords x.moduleNum
  let b := x.coords dest
  let hop (d p q : Nat) : Nat := Config.ringPort x.moduleNum d (Config.ringUp d p q)
  if a.1 ≠ b.1 then hop 0 a.1 b.1 else if a.2.1 ≠ b.2.1 then hop 1 a.2.1 b.2.1 else hop 2 a.2.2 b.2.2

/-- R406, R407: a packet for another module takes its next hop; one whose escape hop is down is dropped (R408). -/
def State.forward (s : State) (x : Transit) : State :=
  let s := s.dropPacket x.id
  match (if x.escape then none else s.tablePort x.pkt) with
  | some port => s.sendOut port x.pkt
  | none =>
    let port := s.island.escapePort x.pkt.dest
    let vc : BitVec 2 := if x.pkt.vc = 3 ∨ Config.dateline s.island.moduleNum port = true then 3 else 2
    if (s.port port).up then s.sendOut port { x.pkt with vc := vc } else s

/-- Whether a packet is a request. -/
def isRequest : PacketBody → Bool
  | .read _ _ _ => true
  | .segment _ _ _ _ => true
  | .bytes _ _ => true
  | .write _ _ _ _ _ _ => true
  | .atomic _ _ _ _ _ _ => true
  | .arrive _ _ => true
  | .data _ _ _ => false
  | .got _ _ _ => false
  | .ack _ _ => false
  | .refused _ _ => false
  | .poisoned _ => false
  | .orphan _ => false
  | .unmapped _ => false
  | .aborted _ => false
  | .mapped _ => false
  | .cancelled _ => false

/-! ### The ends of writes (R218, R225, R229, R289, R291) -/

/-- R229, R289: a write of a core that was on its way to another module has ended with an outcome: it joins the FENCE state of its
context, or is kept for it. -/
def Core.writeEnded (c : Core) (e : CreelEntry) (out : BitVec 6) : Core :=
  if out = 0 then c
  else if e.ctx = c.ctx then c.addOutcome out e.failIa
  else { c with creel := c.creel ++ [endedEntry e.failIa e.attr e.ctx out c.creelSeq], creelSeq := c.creelSeq + 1 }

/-- R289: an entry of a core has ended; its outcome waits to be reported. -/
def endRimEntry (s : State) (t : Nat) (e : CreelEntry) (out : BitVec 6) : State :=
  let one (x : CreelEntry) : CreelEntry := if x.seq = e.seq then { x with state := .ended, out := out } else x
  { s.onCore t (fun c => { c with creel := c.creel.map one }) with agenda := s.agenda ++ [.creelOutcomeReport t] }

/-- R289, R291: an entry of a region has ended, its outcome recorded. -/
def endAgnEntry (s : State) (g r : Nat) (e : CreelEntry) (out : BitVec 6) : State :=
  s.onRegion g r fun x => { x with creel := x.creel.filter fun y => y.seq != e.seq }.addFailure out e.failIa

/-- R218, R225: a copy has lost a write of `n` counted bytes, performed where there is no status, else failed. -/
def Copy.wrote (c : Copy) (n : Nat) (st : Option Status) : Copy :=
  match st with
  | none => { c with counted := c.counted - n }
  | some x => { c with status := if c.cmplDone then some (cmplFailed x) else some (firstFailure c.status x) }

/-- R218: the same of an encoding. -/
def Encoding.wrote (x : Encoding) (st : Option Status) : Encoding :=
  match st with
  | none => x
  | some y => { x with status := if x.cmplDone then some (cmplFailed y) else some (firstFailure x.status y) }

/-- R218, R225, R289: a write of an engine has ended: its copy or encoding learns of it, and a performed write leaves its hoop's
counter. -/
def engineWrote (s : State) (hub k : Nat) (e : CreelEntry) (st : Option Status) : State :=
  let x := s.engine hub k
  let n := popCount e.mask
  let copy (c : Copy) : Copy := if some c.ref = e.ref then c.wrote (if e.hoop.isSome then n else 0) st else c
  let enc (y : Encoding) : Encoding := if k = 0 ∧ some y.ref = e.ref then y.wrote st else y
  let s := s.putEngine hub k { x with queue := x.queue.map copy }
  let h := getHub s hub
  let s := putHub s hub { h with encodings := h.encodings.map enc }
  let s := match e.hoop, st with
    | some hp, none => s.countDown hp.toNat n
    | _, _ => s
  settleCopy (if k = 0 then settleEncode s hub else s) hub k

/-- R289: an entry of an engine has ended. -/
def endEngineEntry (s : State) (hub k : Nat) (e : CreelEntry) (st : Option Status) : State :=
  let x := s.engine hub k
  engineWrote (s.putEngine hub k { x with creel := x.creel.filter fun y => y.seq != e.seq }) hub k e st

/-! ### Answers to this module's requests (R326, R403, R408) -/

/-- How a request to another module ended. -/
inductive RemoteEnd where
  | data (attr : BitVec 2) (line : Line)
  | got (attr : BitVec 2) (bytes : List (Nat × Byte))
  | ack (attr : BitVec 2)
  | refused (reason : BitVec 8)
  | poisoned
  | orphan
  | dead
  | unmapped
  | aborted
  deriving DecidableEq, Repr

/-- The outcome of a write, in the bit positions of R229. -/
def RemoteEnd.out : RemoteEnd → BitVec 6
  | .data _ _ => 0
  | .got _ _ => 0
  | .ack _ => 0
  | .refused _ => outRefused
  | .poisoned => outPoison
  | .orphan => outOrphan
  | .dead => outDead
  | .unmapped => 0
  | .aborted => outAborted

/-- R320: the attribute that an answer brings. -/
def RemoteEnd.attr : RemoteEnd → Option (BitVec 2)
  | .data a _ => some a
  | .got a _ => some a
  | .ack a => some a
  | .refused _ => none
  | .poisoned => none
  | .orphan => none
  | .dead => none
  | .unmapped => none
  | .aborted => none

/-- R209: the status of a command whose access ended so; none where it succeeded. -/
def RemoteEnd.status (s : State) (r : Remote) (e : RemoteEnd) : Option Status :=
  match e with
  | .data _ _ => none
  | .got _ _ => none
  | .ack _ => none
  | .refused reason => some (.refused reason (detailOf r.ia))
  | .poisoned => some (.poison (detailOf r.ia))
  | .orphan => some ⟨0x1A, 0, r.dest.setWidth 32⟩
  | .dead =>
    let p : Packet := ⟨r.dest, s.island.moduleNum, s.ownGen, 0, false, .ack 0 0⟩
    some ⟨0x19, 0, BitVec.ofNat 32 ((s.tablePort p).getD (s.island.escapePort r.dest))⟩
  | .unmapped => none
  | .aborted => some (.aborted (detailOf r.ia))

/-- The answers that a read has, by IA: a failure answers every byte that it asked for. -/
def RemoteEnd.answers (s : State) (r : Remote) (e : RemoteEnd) : List (Nat × RemoteAnswer) :=
  match e with
  | .data _ line => [(r.ia, .value line.toNat)]
  | .got _ bytes => bytes.map fun b => (b.1, .value b.2.toNat)
  | _ =>
    match e.status s r with
    | some st => (r.ia :: r.ias).map fun ia => (ia, .failed st)
    | none => []

/-- R320: a list of attributes after an answer. -/
def RemoteEnd.saw (r : Remote) (e : RemoteEnd) (attrs : List (Nat × BitVec 2)) : List (Nat × BitVec 2) :=
  match e.attr with
  | some a => seeAttr attrs (pageKey (some r.dest) r.ia) a
  | none => attrs

/-- Queues one more replay for an issuer. -/
def State.replayAgain (s : State) (who : Issuer) : State := { s with agenda := s.agenda ++ [.creelReplay who] }

/-- R283, R320: an issuer waits for a page of another module to be mapped. -/
def State.waitFar (s : State) (who : Issuer) (ctx : BitVec 16) (key : Nat) : State :=
  let x : FarPage := ⟨who, ctx, key⟩
  if s.island.farPages.contains x then s else { s with island := { s.island with farPages := s.island.farPages ++ [x] } }

/-- The write of a list that a request carries. -/
def writeOf (l : List RemoteWrite) (id : Nat) : Option RemoteWrite := l.find? fun x => x.id == id

/-- R287: an entry put back in its place among others. -/
def insertEntry (e : CreelEntry) : List CreelEntry → List CreelEntry
  | [] => [e]
  | x :: rest => if e.seq < x.seq then e :: x :: rest else x :: insertEntry e rest

/-- R285, R287: a write that has found its page in another module unmapped takes its place in a core's creel. -/
def Core.backEntry (c : Core) (y : RemoteWrite) : Core :=
  if y.again then { c with creel := insertEntry y.entry c.creel } else c.pushEntry y.entry

/-- R285, R287: the same of an engine. -/
def Engine.backEntry (x : Engine) (y : RemoteWrite) : Engine :=
  if y.again then { x with creel := insertEntry y.entry x.creel } else x.pushEntry y.entry

/-- A write of a list has been answered. -/
def dropWrite (l : List RemoteWrite) (id : Nat) : List RemoteWrite := l.filter fun x => x.id != id

/-- A read answer waits for its engine, root or command. -/
def State.arrive (s : State) (r : Remote) (e : RemoteEnd) : State :=
  { s with island := { s.island with arrived := s.island.arrived ++ (e.answers s r).map fun a => (r.who, a.1, a.2) } }

/-- R283, R373: the commands of a tile's cores that wait for a record start again. -/
def Core.retry (c : Core) : Core :=
  { c with cmds := c.cmds.map fun x => if x.state = .recordWait then { x with state := .queued } else x }

/-- R283, R373: the commands of a tile that wait for a record start again, those of a saved graph too. -/
def State.retryCmds (s : State) (t : Nat) : State :=
  (s.onCore t Core.retry).onSavedCores fun k c => if k = t then c.retry else c

/-- The command of a tile whose write-back a request carries. -/
def State.cmdOfRequest (s : State) (t id : Nat) : Option Cmd :=
  let of (c : Core) : Option Cmd := c.cmds.find? fun x => x.request == some id
  (of (s.getTile t).core).or (s.mgmt.saved.findSome? fun v => (assocGet v.tiles t).bind fun x => of x.core)

/-- R230, R326: the write-back of a PTECAS at another module has ended. -/
def answerCmd (s : State) (t : Nat) (x : Cmd) (r : Remote) (e : RemoteEnd) : State :=
  match e with
  | .unmapped =>
    (s.onCmd t x.serial fun y => { y with request := none, state := .recordWait }).waitFar (.rim t) x.ctx
      (pageKey (some r.dest) r.ia)
  | _ => landStatus s ⟨t, x.serial⟩ ((e.status s r).getD casFail)

/-- R326: the answer to a request of a rim core. -/
def answerRim (s : State) (t : Nat) (r : Remote) (e : RemoteEnd) : State :=
  if r.store then
    match writeOf (s.getTile t).core.owedRemote r.id with
    | some y =>
      let s := s.onCore t fun c => { c with owedRemote := dropWrite c.owedRemote r.id, attrs := e.saw r c.attrs }
      if e = .unmapped then (s.onCore t fun c => c.backEntry y).waitFar (.rim t) y.entry.ctx y.entry.pageKey
      else ((s.onCore t fun c => c.writeEnded y.entry e.out).retryCmds t).replayAgain (.rim t)
    | none =>
      match s.cmdOfRequest t r.id with
      | some x => answerCmd s t x r e
      | none => s
  else if (s.getTile t).core.stall = .away r.id then
    { s.onCore t (fun c => { c with
        answers := c.answers ++ (e.answers s r).map fun a => (answerKey (some r.dest) a.1, a.2)
        attrs := e.saw r c.attrs }) with agenda := s.agenda ++ [.loadReturn t] }
  else (s.arrive r e).retryCmds t

/-- R285, R287: a write of region r of the graph in focus that has found its page in another module unmapped takes its place in the
region's creel. -/
def State.backAgnEntry (s : State) (r : Nat) (y : RemoteWrite) : State :=
  if y.again then s.onReg r fun x => { x with creel := insertEntry y.entry x.creel } else s.pushAgnEntry r 0 y.entry

/-- R199, R291, R326: the answer to an access of an AGN region. -/
def answerAgn (s : State) (g reg : Nat) (r : Remote) (e : RemoteEnd) : State :=
  let s := (s.settle.onRegion g reg fun x => { x with attrs := e.saw r x.attrs }).focusGraph g
  if s.graph.slot ≠ g then s
  else if r.store then
    match writeOf (s.reg reg).owedRemote r.id with
    | none => s
    | some y =>
      let s := s.onReg reg fun x => { x with owedRemote := dropWrite x.owedRemote r.id }
      if e = .unmapped then (s.backAgnEntry reg y).waitFar (.agn g reg) y.entry.ctx y.entry.pageKey
      else (s.onReg reg fun x => x.addFailure e.out y.entry.failIa).replayAgain (.agn g reg)
  else
    match s.graph.requests.find? fun x => x.remote == some r.id with
    | none => s
    | some x =>
      match e with
      | .data _ line => s.answerReq x.id (replyBeat x.dec x.tag line)
      | _ => s.failReq x (if e.out = outPoison ∨ e.out = outAborted then e.out else outRefused) r.ia

/-- R218, R225, R326: the answer to a line write of an engine or an encoder. -/
def answerEngine (s : State) (hub k : Nat) (r : Remote) (e : RemoteEnd) : State :=
  match writeOf (s.engine hub k).owedRemote r.id with
  | none => s
  | some y =>
    let x := s.engine hub k
    let x : Engine := { x with owedRemote := dropWrite x.owedRemote r.id, attrs := e.saw r x.attrs }
    if e = .unmapped then (s.putEngine hub k (x.backEntry y)).waitFar (.eng hub k) y.entry.ctx y.entry.pageKey
    else (engineWrote (s.putEngine hub k x) hub k y.entry (e.status s r)).replayAgain (.eng hub k)

/-- R320, R326: the answer to a read of an engine. -/
def arriveEngine (s : State) (hub k : Nat) (r : Remote) (e : RemoteEnd) : State :=
  let x := s.engine hub k
  (s.putEngine hub k { x with attrs := e.saw r x.attrs }).arrive r e

/-- R326, R403, R408: a request to another module has ended. -/
def endRemote (s : State) (id : Nat) (e : RemoteEnd) : State :=
  match s.island.remotes.find? fun x => x.id == id with
  | none => s
  | some r =>
    let s := { s with island := { s.island with remotes := s.island.remotes.filter fun x => x.id != id } }
    match r.who with
    | .rim t => answerRim s t r e
    | .agn g reg => answerAgn s g reg r e
    | .eng hub k => if r.store then answerEngine s hub k r e else arriveEngine s hub k r e
    | .enc hub => if r.store then answerEngine s hub 0 r e else arriveEngine s hub 0 r e
    | .root _ => s.arrive r e
    | .harts => s
    | .companion => s
    | .remote _ => s

/-- R283, R287: a page of another module is mapped: the issuers that wait for it go on. -/
def farMapped (s : State) (key : Nat) : State :=
  let waits := s.island.farPages.filter fun x => x.key == key
  let s := { s with
    island := { s.island with farPages := s.island.farPages.filter fun x => x.key != key }
    agenda := s.agenda ++ waits.map fun x => .creelReplay x.who }
  waits.foldl (fun s x => match x.who with | .rim t => s.retryCmds t | _ => s) s

/-- R284: management of another module has aborted what an issuer wrote to a page. -/
def cancelFar (s : State) (x : FarPage) : State :=
  let mine (e : CreelEntry) : Bool := e.live && e.pageKey == x.key
  let eng (s : State) (hub k : Nat) : State :=
    ((s.engine hub k).creel.filter mine).foldl (fun s e => endEngineEntry s hub k e (some (.aborted (detailOf e.failIa.toNat)))) s
  match x.who with
  | .rim t =>
    let c := (s.getTile t).core
    let s := (c.creel.filter fun e => mine e && e.ctx == x.ctx).foldl (fun s e => endRimEntry s t e outAborted) s
    let saved := s.mgmt.saved.flatMap fun v => ((assocGet v.tiles t).map fun y => y.core.cmds).getD []
    let hit (y : Cmd) : Bool := y.state == .recordWait && y.ctx == x.ctx && y.back.isSome &&
      pageKey y.ward.dest (y.ward.ia y.sb.toNat) == x.key
    ((c.cmds ++ saved).filter hit).foldl (fun s y => landStatus s ⟨t, y.serial⟩ (.aborted (detailOf (y.ward.ia y.sb.toNat)))) s
  | .agn g r =>
    match s.settle.getRegion g r with
    | some y => (y.creel.filter mine).foldl (fun s e => endAgnEntry s g r e outAborted) s.settle
    | none => s
  | .eng hub k => eng s hub k
  | .enc hub => eng s hub 0
  | .root _ => s
  | .harts => s
  | .companion => s
  | .remote _ => s

/-- R284: a page of another module is aborted for this module: the writes that wait for it end, and those behind them go on. -/
def farCancelled (s : State) (key : Nat) : State :=
  let waits := s.island.farPages.filter fun x => x.key == key
  let s := waits.foldl cancelFar { s with island := { s.island with farPages := s.island.farPages.filter fun x => x.key != key } }
  { s with agenda := s.agenda ++ waits.map fun x => .creelReplay x.who }

/-- A packet of this module is an answer: it reaches its requester. A late one is discarded (R408). -/
def takeAnswer (s : State) (p : Packet) : State :=
  match p.body with
  | .data id attr line => endRemote s id (.data attr line)
  | .got id attr bytes => endRemote s id (.got attr bytes)
  | .ack id attr => endRemote s id (.ack attr)
  | .refused id reason => endRemote s id (.refused reason)
  | .poisoned id => endRemote s id .poisoned
  | .orphan id => endRemote s id .orphan
  | .unmapped id => endRemote s id .unmapped
  | .aborted id => endRemote s id .aborted
  | .mapped page => farMapped s (pageKey (some p.src) (page * 65536))
  | .cancelled page => farCancelled s (pageKey (some p.src) (page * 65536))
  | .read _ _ _ => s
  | .segment _ _ _ _ => s
  | .bytes _ _ => s
  | .write _ _ _ _ _ _ => s
  | .atomic _ _ _ _ _ _ => s
  | .arrive _ _ => s

/-- R398, R401, R407: PACKET_HOP: a packet of this module is delivered: an answer to its requester, a request to its hub, or in
TRANSIT an ORPHAN answer; any other packet takes its next hop. -/
def execPacketHop (n : Nat) (s : State) : Result :=
  match s.packet n with
  | none => .next s
  | some x =>
    if !s.carries then .next (s.dropPacket n)
    else if x.pkt.dest = s.island.moduleNum then
      let s := s.dropPacket n
      if isRequest x.pkt.body then
        if s.island.st = .transit then .next (answerPacket s x.pkt (.orphan (bodyId x.pkt.body)))
        else .next { s with hubq := s.hubq ++ [.remote (x.port.getD 16) x.pkt] }
      else .next (takeAnswer s x.pkt)
    else .next (s.forward x)

/-- R406: ESCAPE_TIMEOUT: a table-routed packet that has not advanced for 1 µs moves onto the escape channel. -/
def execEscapeTimeout (n : Nat) (s : State) : Result :=
  match s.packet n with
  | none => .next s
  | some x =>
    if x.escape then .next s
    else .next { s with
      island := { s.island with transit := s.island.transit.map fun y => if y.id = n then { y with escape := true } else y }
      agenda := s.agenda ++ [.packetHop n] }

/-- R408: LINK_DOWN: the port is marked down. -/
def execLinkDown (port : Nat) (s : State) : Result :=
  let s := s.putPort port { s.port port with up := false, retry := false, replay := [], line := [] }
  .next { s with island := { s.island with degraded := true } }

/-- R408: REMOTE_REQUEST_TIMEOUT: request n passes its limit and ends DEAD. -/
def execRemoteRequestTimeout (n : Nat) (s : State) : Result := .next (endRemote s n .dead)

/-- R419: a measurement register is extended with a digest. -/
def Island.extend (x : Island) (k : Nat) (digest : BitVec 384) : Island :=
  let old := x.mrs.toList.getD k 0
  { x with mrs := x.mrs.setIfInBounds k (Config.sha384 (bytesOf 48 old.toNat ++ bytesOf 48 digest.toNat)) }

/-- R407: a generation that the island may load: the first, or the one after its newest. -/
def Island.mayLoad (x : Island) (gen : BitVec 16) : Bool :=
  match x.gens with
  | [] => true
  | g :: _ => gen == g.gen + 1

/-- R407, R419: ROUTE_TABLE_LOAD: the table of the next generation takes the older slot where its CRC-32 and signatures verify, and is
advertised; otherwise the island keeps its tables and lags. -/
def execRouteTableLoad (gen : BitVec 16) (table : List (BitVec 8)) (crc : BitVec 32) (rsa slh : List (BitVec 8)) (s : State) :
    Result :=
  if s.island.mayLoad gen = false then .next s
  else if Config.crc32 table = crc ∧ Config.rsaOk table rsa = true ∧ Config.slhOk table slh = true then
    .next { s with island := { s.island.extend 1 (Config.sha384 table) with
      gens := ⟨gen, table⟩ :: s.island.gens.take 1, ownLag := false } }
  else .next { s with island := { s.island with ownLag := true } }

/-- R406, R407: every island of the system reports holding a generation, this one by its own tables. -/
def Island.allHold (x : Island) (gen : BitVec 16) : Bool :=
  (x.gens.any fun g => g.gen == gen) &&
  (List.range (x.dims.1 * x.dims.2.1 * x.dims.2.2)).all fun m =>
    m == x.moduleNum.toNat || (assocGet x.reports m).any fun g => g == gen

/-- R407: ROUTE_TABLE_RETIRE: a generation whose successor every island holds is dropped. -/
def execRouteTableRetire (gen : BitVec 16) (s : State) : Result :=
  if s.island.allHold (gen + 1) = true then
    .next { s with island := { s.island with gens := s.island.gens.take 1 ++ (s.island.gens.drop 1).filter fun g => g.gen != gen } }
  else .next s

/-! ### Requests of other modules at this module's hubs (R309, R326) -/

/-- Asks nothing more of a request that waits: it stands at the end of the hubs' queue. -/
def waitRemote (s : State) (port : Nat) (p : Packet) : State := { s with hubq := s.hubq ++ [.remote port p] }

/-- Whether a notice is open for an issuer and page. -/
def State.noticeOpen (s : State) (who : Issuer) (page : Nat) : Bool := s.notices.any fun n => n.page == page && n.who == who

/-- R283: a load that meets an unmapped page waits, with a notice. -/
def holdRemote (s : State) (port : Nat) (p : Packet) (page ia : Nat) : State :=
  waitRemote (addNotice s page (.remote p.src.toNat) 0 0 ia) port p

/-- The answer to a read or an atomic. -/
def answerLoad (s : State) (port : Nat) (p : Packet) (id ia : Nat) (r : LoadOut) : State :=
  match r with
  | .value v attr s' => answerPacket s' p (.data id attr (BitVec.ofNat 512 v))
  | .unmapped page => holdRemote s port p page ia
  | .refused reason => answerPacket s p (.refused id reason)
  | .poisoned s' => answerPacket s' p (.poisoned id)

/-- What another module asks of an access (R309). -/
def farAccess (a : Access) : Access := { a with remote := true }

/-- R152: the bytes at some IAs, in order, or the first failure with its IA. -/
def farBytes : List Nat → State → List (Nat × Byte) → BitVec 2 → (List (Nat × Byte) × BitVec 2 × State) ⊕ (Nat × LoadOut)
  | [], s, got, attr => .inl (got, attr, s)
  | ia :: rest, s, got, _ =>
    match hubLoad s ia 1 (farAccess (Access.loads false)) with
    | .value v attr s' => farBytes rest s' (got ++ [(ia, BitVec.ofNat 8 v)]) attr
    | .unmapped p => .inr (ia, .unmapped p)
    | .refused r => .inr (ia, .refused r)
    | .poisoned s' => .inr (ia, .poisoned s')

/-- R152: the answer to a request for single bytes. -/
def answerBytes (s : State) (port : Nat) (p : Packet) (id : Nat) (ias : List Nat) : State :=
  match farBytes ias s [] 0 with
  | .inl (got, attr, s') => answerPacket s' p (.got id attr got)
  | .inr (ia, r) => answerLoad s port p id ia r

/-- R152: the bytes of a plait segment that lie in the page of its header, once the header is known. -/
def segmentIas (s : State) (ia i0 : Nat) (lanes : BitVec 16) : List Nat :=
  let head := (List.range 16).map (ia + ·)
  match farBytes head s [] 0 with
  | .inr _ => head
  | .inl (got, _, _) =>
    match plaitHeader (BitVec.ofNat 128 (natOfBytes (got.map Prod.snd))) with
    | none => head
    | some h => head ++ ((plaitNeeded h i0 lanes).map (ia + ·)).filter fun x => x / 65536 == ia / 65536

/-- R326: a request of another module waits until some lines have been recalled from the companion. -/
def recallFirst (s : State) (port : Nat) (p : Packet) (lines : List Nat) (k : State → State) : State :=
  if s.recalls lines then waitRemote (recallLines s lines) port p else k s

/-- R326: a write of another module is acknowledged, at SYSTEM: once the companion holds no copy of its line. -/
def answerStore (s : State) (p : Packet) (line : Nat) (body : PacketBody) : State :=
  if s.island.heldLines.contains line then { s with hubq := s.hubq ++ [.answer line p body] } else answerPacket s p body

/-- The page that a request of another module reaches first. -/
def requestPage (s : State) : PacketBody → Option Nat
  | .read _ ia _ => some (match fillRange s ia with | some (b, _) => b / 65536 | none => ia / 65536)
  | .segment _ ia _ _ => some (ia / 65536)
  | .bytes _ ias => ias.head?.map (· / 65536)
  | .atomic _ ia _ _ _ _ => some (ia / 65536)
  | _ => none

/-- R309, R326, R348: a home hub meets a request of another module. -/
def serveRemote (s : State) (port : Nat) (p : Packet) : State :=
  if (requestPage s p.body).any fun page => s.noticeOpen (.remote p.src.toNat) page then waitRemote s port p
  else
    match p.body with
    | .read id ia len => recallFirst s port p (loadLines s ia) fun s =>
        answerLoad s port p id ia (hubLoad s ia len (farAccess (Access.loads false)))
    | .segment id ia i0 lanes =>
      let ias := segmentIas s ia i0 lanes
      recallFirst s port p (ias.map (· / 64)) fun s => answerBytes s port p id ias
    | .bytes id ias => recallFirst s port p (ias.map (· / 64)) fun s => answerBytes s port p id ias
    | .write id ia op mask data raw =>
      let base := ia / 64 * 64
      let a := { farAccess Access.stores with plait := raw }
      if s.reducesHeld op (ia / 64) then waitRemote (recallLines s [ia / 64]) port p
      else
        match performWrite s base mask (fullLine op mask) a (combineLine op.toNat data.toNat) with
        | .done attr s' => answerStore s' p (ia / 64) (.ack id attr)
        | .unmapped page =>
          answerPacket (addNotice (discardStale s base a) page (.remote p.src.toNat) 0 1 ia) p (.unmapped id)
        | .refused reason => answerPacket (discardStale s base a) p (.refused id reason)
        | .poisoned s' => answerPacket s' p (.poisoned id)
    | .atomic id ia func size v cmp => recallFirst s port p [ia / 64] fun s =>
        let a := farAccess (Access.atomic false)
        let f (old : Nat) : Option Nat := amoNew func.toNat size old v.toNat cmp.toNat
        match hubAtomic s ia size a f with
        | .value old attr s' => answerStore s' p (ia / 64) (.data id attr (BitVec.ofNat 512 old))
        | r => answerLoad (discardStale s ia a) port p id ia r
    | .arrive id h =>
      if (s.hoop h).p = 0 then answerPacket s p (.refused id 8) else s.arriveHoop h (.remote p)
    | .data _ _ _ => s
    | .got _ _ _ => s
    | .ack _ _ => s
    | .refused _ _ => s
    | .poisoned _ => s
    | .orphan _ => s
    | .unmapped _ => s
    | .aborted _ => s
    | .mapped _ => s
    | .cancelled _ => s

/-! ### Requests of the companion (R303, R322, R326, R409, R410) -/

/-- R398, R409: the companion is answered, while HingeLink is up. -/
def State.tellHinge (s : State) (id : Nat) (a : CompanionAnswer) : State :=
  if s.island.linkUp then { s with island := { s.island with hinge := s.island.hinge ++ [(id, a)] } } else s

/-- A request of the companion waits at the end of the hubs' queue. -/
def State.waitHinge (s : State) (q : CompanionReq) : State := { s with hubq := s.hubq ++ [.companion q] }

/-- R283: a request of the companion waits for a page. -/
def State.holdHinge (s : State) (q : CompanionReq) (page ia : Nat) (kind : BitVec 2) : State :=
  (addNotice s page .companion 0 kind ia).waitHinge q

/-- R322: how many of `n` bytes from an IA on lie in its page, and how many of those in its line. -/
def pagePart (ia n : Nat) : Nat := min n (65536 - ia % 65536)
/-- How many of `n` bytes from an IA on lie in its line. -/
def linePart (ia n : Nat) : Nat := min n (64 - ia % 64)

/-- R318, R322: the bytes that the companion loads of one page, line by line. `fuel` bounds the lines. -/
def hingeLoad : Nat → Nat → Nat → State → List Byte → (List Byte × State) ⊕ LoadOut
  | 0, _, _, s, got => .inl (got, s)
  | fuel + 1, ia, n, s, got =>
    if n = 0 then .inl (got, s)
    else
      let k := linePart ia n
      match hubLoad s ia k (Access.loads false) with
      | .value v _ s' => hingeLoad fuel (ia + k) (n - k) s' (got ++ bytesOf k v)
      | .unmapped p => .inr (.unmapped p)
      | .refused r => .inr (.refused r)
      | .poisoned s' => .inr (.poisoned s')

/-- R303, R318, R322: the companion loads `n` bytes, split at a page boundary. -/
def serveHingeLoad (s : State) (id ia n : Nat) (got : List Byte) : State :=
  let k := pagePart ia n
  match hingeLoad 1025 ia k s got with
  | .inl (bytes, s') =>
    if n ≤ k then s'.tellHinge id (.bytes bytes) else s'.waitHinge (.load id (ia + k) (n - k) bytes)
  | .inr (.unmapped p) => s.holdHinge (.load id ia n got) p ia 0
  | .inr (.refused r) => s.tellHinge id (.refused r)
  | .inr (.poisoned s') => s'.tellHinge id .poisoned
  | .inr (.value _ _ s') => s'

/-- R303, R322, R348: the companion stores bytes, one line at a time. -/
def serveHingeStore (s : State) (id ia : Nat) (bytes : List Byte) : State :=
  let k := linePart ia bytes.length
  let mask := byteMask ia k
  match performWrite s (ia / 64 * 64) mask (fullLine 0 mask) Access.stores
      (combineLine 0 (byteData ia k (natOfBytes (bytes.take k))).toNat) with
  | .done _ s' => if bytes.length ≤ k then s'.tellHinge id .done else s'.waitHinge (.store id (ia + k) (bytes.drop k))
  | .unmapped p => (discardStale s ia Access.stores).holdHinge (.store id ia bytes) p ia 1
  | .refused r => (discardStale s ia Access.stores).tellHinge id (.refused r)
  | .poisoned s' => s'.tellHinge id .poisoned

/-- R308, R326: the companion takes a copy of a line, of a page with HC set. -/
def serveHingeCache (s : State) (id line : Nat) (modify : Bool) : State :=
  let ia := 64 * line
  let a : Access := { Access.loads false with store := modify }
  match hubAccess s ia a with
  | .at loc _ s' =>
    if (0x80000000000 ≤ ia ∧ ia ≤ 0x8FFFFFFFFFF) ∨ pteHc (proceedPte s (ia / 65536) a) = false then s.tellHinge id (.refused 1)
    else if linePoisoned s loc then s'.tellHinge id .poisoned
    else
      let l := s'.island
      let held := if l.heldLines.contains line then l.heldLines else l.heldLines ++ [line]
      let dirty := if modify && !l.dirtyLines.contains line then l.dirtyLines ++ [line] else l.dirtyLines
      ({ s' with island := { l with heldLines := held, dirtyLines := dirty } } : State).tellHinge id
        (.bytes (bytesOf 64 (readBytes s'.mem loc 64)))
  | .value _ _ _ => s.tellHinge id (.refused 1)
  | .unmapped p => s.holdHinge (.cache id line modify) p ia 0
  | .refused r => (discardStale s ia a).tellHinge id (.refused r)
  | .poisoned => s.tellHinge id .poisoned

/-- R326: the companion returns a line that it held modified: the bytes that the device has not written since take what it returns,
and it holds the line no more. -/
def serveHingeBack (s : State) (line : Nat) (data : Line) : State :=
  if s.island.dirtyLines.contains line then
    let mask := ~~~(sparseGet 0 s.island.overlaid line)
    match performWrite s (64 * line) mask (fullLine 0 mask) Access.stores (combineLine 0 data.toNat) with
    | .done _ s' => { s' with agenda := s'.agenda ++ [.companionInvalidateAck line] }
    | .unmapped p => s.holdHinge (.writeBack line data) p (64 * line) 1
    | .refused _ => { s with agenda := s.agenda ++ [.companionInvalidateAck line] }
    | .poisoned s' => { s' with agenda := s'.agenda ++ [.companionInvalidateAck line] }
  else s

/-! ### The status block (R410) -/

/-- R410: DEGRADED: a field has binned, a stack has retired banks, or a port or a lane group is down, or boot has left a cache die off
(R414). -/
def State.degraded (s : State) : Bool :=
  s.island.degraded || s.island.bins || (s.island.ports.toList.any fun p => !p.up) ||
  s.hubs.toList.any fun h => h.bankMap.any fun x => x.2 != BitVec.allOnes 64

/-- R410: +0x00. A state that is neither SERVE nor TRANSIT cannot be read. -/
def State.status0 (s : State) : BitVec 64 :=
  let x := s.island
  BitVec.ofNat 64 ((if x.st = .serve then 0 else 1) + 4 * x.safeTalk.toNat + 8 * s.degraded.toNat + 256 * x.bstep.toNat)

/-- R410: +0x08. -/
def Island.status8 (x : Island) : BitVec 64 := BitVec.ofNat 64 (x.cresets.toNat + 65536 * x.iresets.toNat)

/-- R410, R411: a word of the status block and, at +0x180 and +0x188, of the mailbox's answer (assumption 61). -/
def State.statusWord (s : State) (off : Nat) : BitVec 64 :=
  if off = 0 then s.status0
  else if off = 8 then s.island.status8
  else if off = 16 then s.time
  else if off = 24 then BitVec.ofNat 64 s.island.jhead
  else if off = 0x180 then s.island.answer.1
  else if off = 0x188 then s.island.answer.2.setWidth 64
  else 0

/-- R303, R326, R409: the hubs meet a request of the companion; one that waits for a page is not tried before its notice is
answered. -/
def serveHinge (s : State) (q : CompanionReq) : State :=
  match q with
  | .load id ia n got =>
    if s.noticeOpen .companion (ia / 65536) then s.waitHinge q else serveHingeLoad s id ia n got
  | .store id ia bytes =>
    if s.noticeOpen .companion (ia / 65536) then s.waitHinge q else serveHingeStore s id ia bytes
  | .cache id line modify =>
    if s.noticeOpen .companion (line / 1024) then s.waitHinge q else serveHingeCache s id line modify
  | .writeBack line data =>
    if s.noticeOpen .companion (line / 1024) then s.waitHinge q else serveHingeBack s line data
  | .status id off => s.tellHinge id (.bytes (bytesOf 8 (s.statusWord off).toNat))

end Sys2Proof.Machine
end

