-- ==== Sys2Proof/Machine/Replay.lean ====
section
/-! DEFINITION. Notices and their answers, the replay of creels, and the requests that wait at the hubs (R99, R225, R283 to R289,
R309). -/

namespace Sys2Proof.Machine

/-! ### Which entry is replayed next (R287) -/

/-- R287: whether an entry can be performed: nothing holds it, no older live entry is of its page, and with ORD set none is older at
all. -/
def canReplay (held : CreelEntry → Bool) (entries : List CreelEntry) (e : CreelEntry) : Bool :=
  let older := entries.filter fun x => x.live && decide (x.seq < e.seq)
  e.live && !held e && !(older.any fun x => x.pageKey == e.pageKey) && (!e.ord || older.isEmpty)

/-- R283, R287: what holds an entry of an issuer: an open notice of its page, or for a page of another module the wait for that
module's word; and, as for an older entry, a write of its page on its way there. -/
def State.entryHeld (s : State) (who : Issuer) (owed : List RemoteWrite) (e : CreelEntry) : Bool :=
  (if e.dest.isNone then s.notices.any fun n => n.page == e.ia.toNat / 65536 && n.who == who && n.ctx == e.ctx
   else s.island.farPages.any fun x => x.key == e.pageKey && x.who == who && x.ctx == e.ctx) ||
  (owed.any fun x => x.entry.pageKey == e.pageKey) || (e.ord && owed.any fun x => x.again)

/-- R287, R326: the oldest entry of a list that can be performed; a reduction waits where its line is recalled first. -/
def State.nextReplay (s : State) (ready : List CreelEntry) : Option CreelEntry × State :=
  let recalled (e : CreelEntry) : Bool := e.dest.isNone && s.reducesHeld e.op (e.ia.toNat / 64)
  (ready.find? fun e => !recalled e, recallLines s ((ready.filter recalled).map fun e => e.ia.toNat / 64))

/-- R287, R289, R348: the write of an entry at its home. -/
def replayWrite (s : State) (e : CreelEntry) (plait : Bool) : StoreOut :=
  performWrite s e.ia.toNat e.mask (fullLine e.op e.mask) { Access.stores with key := e.key, plait := plait }
    (combineLine e.op.toNat e.data.toNat)

/-- R287, R311: the state after the hub has turned an entry away. -/
def afterRefusal (s : State) (e : CreelEntry) : State := discardStale s e.ia.toNat Access.stores

/-- R287, R326: an entry for another module sets out again; its request has the number of the packet. -/
def resendEntry (s : State) (who : Issuer) (m : BitVec 14) (e : CreelEntry) (raw : Bool) : State :=
  sendRequest s who e.ctx m e.failIa.toNat true [] fun id => .write id e.ia.toNat e.op e.mask e.data raw

/-- Entries without one. -/
def dropEntry (e : CreelEntry) (l : List CreelEntry) : List CreelEntry := l.filter fun x => x.seq != e.seq

/-! ### A rim core's creel (R289) -/

/-- R287: one step of the replay of a core's creel. -/
def replayRim (s : State) (t : Nat) : State :=
  let c := (s.getTile t).core
  match s.nextReplay (c.creel.filter (canReplay (s.entryHeld (.rim t) c.owedRemote) c.creel)) with
  | (none, s) => s
  | (some e, s) =>
    match e.dest with
    | some m =>
      let id := s.island.pktId
      ((resendEntry s (.rim t) m e false).onCore t fun c => { c with
        creel := dropEntry e c.creel, owedRemote := c.owedRemote ++ [⟨id, e, true⟩] }).replayAgain (.rim t)
    | none =>
      match replayWrite s e false with
      | .done attr s' =>
        let s' := s'.onCore t fun c => c.sawAttr e.pageKey attr
        (endRimEntry (oweLine s' t (e.ia.toNat / 64)) t e 0).replayAgain (.rim t)
      | .unmapped p => (addNotice (afterRefusal s e) p (.rim t) e.ctx 1 e.failIa.toNat).replayAgain (.rim t)
      | .refused _ => (endRimEntry (afterRefusal s e) t e outRefused).replayAgain (.rim t)
      | .poisoned s' => (endRimEntry s' t e outPoison).replayAgain (.rim t)

/-! ### An AGN region's creel (R289, R291) -/

/-- R319, R320: an entry of a region waits for an older read of the region that it must follow. -/
def State.entryWaits (s : State) (r : Region) (e : CreelEntry) : Bool :=
  s.graph.requests.any fun y => y.agn == r.id && y.answer.isNone && decide (y.barrier ≤ e.seq) &&
    s.reqOrdered r y e.dest [e.ia.toNat / 64] e.attr

/-- R287: one step of the replay of a region's creel, its graph in focus. -/
def replayReg (s : State) (g r : Nat) : State :=
  let y := s.reg r
  let held (e : CreelEntry) : Bool := s.entryHeld (.agn g r) y.owedRemote e || s.entryWaits y e
  match s.nextReplay (y.creel.filter (canReplay held y.creel)) with
  | (none, s) => s
  | (some e, s) =>
    match e.dest with
    | some m =>
      let id := s.island.pktId
      ((resendEntry s (.agn g r) m e false).onReg r fun x => { x with
        creel := dropEntry e x.creel, owedRemote := x.owedRemote ++ [⟨id, e, true⟩] }).replayAgain (.agn g r)
    | none =>
      match replayWrite s e false with
      | .done attr s' => (endAgnEntry (s'.onReg r fun x => x.sawAttr e.pageKey attr) g r e 0).replayAgain (.agn g r)
      | .unmapped p => (addNotice (afterRefusal s e) p (.agn g r) e.ctx 1 e.failIa.toNat).replayAgain (.agn g r)
      | .refused _ => (endAgnEntry (afterRefusal s e) g r e outRefused).replayAgain (.agn g r)
      | .poisoned s' => (endAgnEntry s' g r e outPoison).replayAgain (.agn g r)

/-- R287: one step of the replay of a region's creel. -/
def replayAgn (s : State) (g r : Nat) : State :=
  let s := s.focusGraph g
  if s.graph.slot ≠ g then s else replayReg s g r

/-! ### An engine's creel (R225, R289) -/

/-- R348: whether an entry is a line write that a PLAIT range accepts. -/
def entryPlait (s : State) (hub k : Nat) (e : CreelEntry) : Bool :=
  ((s.engine hub k).queue.any fun c => some c.ref == e.ref && copyRaw c.record && !c.cmplDone) ||
  ((getHub s hub).encodings.any fun x => some x.ref == e.ref && !x.cmplDone)

/-- R287: one step of the replay of an engine's creel, which the plait encoder shares at engine 0. -/
def replayEngine (s : State) (hub k : Nat) : State :=
  let who : Issuer := .eng hub k
  let x := s.engine hub k
  let held (e : CreelEntry) : Bool :=
    s.entryHeld who x.owedRemote e || (k == 0 && s.entryHeld (.enc hub) x.owedRemote e)
  match s.nextReplay (x.creel.filter (canReplay held x.creel)) with
  | (none, s) => s
  | (some e, s) =>
    match e.dest with
    | some m =>
      let id := s.island.pktId
      let s := resendEntry s who m e (entryPlait s hub k e)
      let y := s.engine hub k
      (s.putEngine hub k { y with creel := dropEntry e y.creel, owedRemote := y.owedRemote ++ [⟨id, e, true⟩] }).replayAgain who
    | none =>
      match replayWrite s e (entryPlait s hub k e) with
      | .done attr s' =>
        let y := s'.engine hub k
        let s' := s'.putEngine hub k { y with attrs := seeAttr y.attrs e.pageKey attr }
        (endEngineEntry s' hub k e none).replayAgain who
      | .unmapped p => (addNotice (afterRefusal s e) p who e.ctx 1 e.failIa.toNat).replayAgain who
      | .refused r =>
        (endEngineEntry (afterRefusal s e) hub k e (some (.refused r (detailOf e.failIa.toNat)))).replayAgain who
      | .poisoned s' => (endEngineEntry s' hub k e (some (.poison (detailOf e.failIa.toNat)))).replayAgain who

/-- R287: CREEL_REPLAY: the replay engine performs the oldest entry of an issuer that can be performed. -/
def execCreelReplay (who : Issuer) (s : State) : Result :=
  match who with
  | .rim t => .next (replayRim s t)
  | .agn g r => .next (replayAgn s g r)
  | .eng hub e => .next (replayEngine s hub e)
  | .enc hub => .next (replayEngine s hub 0)
  | .root _ => .next s
  | .harts => .next s
  | .companion => .next s
  | .remote _ => .next s

/-! ### Answers to notices (R283, R284) -/

/-- A notice has been answered. -/
def State.dropNotice (s : State) (n : Nat) : State := { s with notices := s.notices.filter fun x => x.id != n }

/-- A stream of a net changed, wherever the net stands. -/
def State.onStream (s : State) (net : Nat) (f : Stream → Stream) : State :=
  if s.netIdx = net then { s with stream := f s.stream }
  else
    let q := s.nets.toList.getD net ⟨Stream.empty, []⟩
    { s with nets := s.nets.setIfInBounds net { q with running := f q.running } }

/-- R370, R371: the bind records in force whose graph is not bound yet: their image lies on a page that is not mapped, or they wait
for what they need (R375). -/
def State.pendingBinds (s : State) : List Instr :=
  let written (k : Nat) : Bool := s.mgmt.writes.any fun w => w.note.any fun n => n.slot == some k
  (s.mgmt.slots.filter fun x => x.2.getLsbD 24 && (s.getGraph x.1).isNone && !written x.1).map fun x => .bindDispatch x.1 x.2

/-- Whether the load of a core waits for the page of a notice. -/
def Core.waitsPage (c : Core) (n : Notice) : Bool :=
  c.ctx == n.ctx && (match c.stall with
    | .load _ page => page == n.page
    | _ => false)

/-- R283: the reads of a region that a page held are met again. -/
def freeReqs (s : State) (g r page : Nat) : State :=
  let s : State := s.settle
  let mine (y : AgnReq) : Bool := y.agn == r && y.held == some page
  let ids := match s.getGraph g with
    | some x => (x.requests.filter mine).map fun (y : AgnReq) => y.id
    | none => []
  let free (y : AgnReq) : AgnReq := if mine y then { y with held := none } else y
  let s := s.onGraph g fun (x : Graph) => { x with requests := x.requests.map free }
  { s with hubq := s.hubq ++ ids.map fun id => .areq g id }

/-- R283: the accesses of an issuer that a page held retry, and its replay starts. -/
def retryHeld (s : State) (n : Notice) : State :=
  match n.who with
  | .rim t =>
    let waits := (s.getTile t).core.waitsPage n
    let s := s.retryCmds t
    { s with hubq := if waits then s.hubq ++ [.rimLoad t] else s.hubq, agenda := s.agenda ++ [.creelReplay n.who] }
  | .agn g r => (freeReqs s g r n.page).replayAgain n.who
  | .eng hub e => (requeueCopy s hub e).replayAgain n.who
  | .enc hub => (requeueEncode s hub).replayAgain (.eng hub 0)
  | .root net => s.onStream net fun x => { x with paused := false }
  | .harts =>
    let s := retryWrites s
    { s with agenda := s.agenda ++ ((s.mgmt.queues.map Prod.fst ++ s.mgmt.rejects.map Prod.fst).map .launchRecord) ++ s.pendingBinds }
  | .companion => s
  | .remote m => injectPacket s (BitVec.ofNat 14 m) true (.mapped n.page)

/-- R283: NOTICE_MAPPED. -/
def execNoticeMapped (n : Nat) (s : State) : Result :=
  match s.notices.find? fun x => x.id == n with
  | none => .next s
  | some x => .next (retryHeld (s.dropNotice n) x)

/-- The VA of a command's record. -/
def Cmd.recordVa (x : Cmd) : Nat :=
  match x.kind with
  | .ptew => x.sb.toNat
  | .ptecas => x.sb.toNat
  | _ => x.sa.toNat

/-- Whether a command waits for its record on the page of a notice. -/
def Cmd.waitsOn (x : Cmd) (n : Notice) : Bool :=
  x.state == .recordWait && x.ctx == n.ctx && x.ward.dest.isNone &&
  (x.ward.ia x.recordVa / 65536 == n.page || x.ward.ia (x.recordVa + 127) / 65536 == n.page)

/-- The live entries of a list that a notice names: those of its page and context. -/
def noticed (n : Notice) (l : List CreelEntry) : List CreelEntry :=
  l.filter fun e => e.live && e.dest.isNone && e.ia.toNat / 65536 == n.page && e.ctx == n.ctx

/-- The commands of a tile, those of saved graphs too. -/
def State.allCmds (s : State) (t : Nat) : List Cmd :=
  (s.getTile t).core.cmds ++ s.mgmt.saved.flatMap fun v => ((assocGet v.tiles t).map fun y => y.core.cmds).getD []

/-- R284: ABORT for a rim core: the load traps, the creel entries and the commands that wait for the page end. -/
def abortRim (s : State) (t : Nat) (n : Notice) : State :=
  let c := (s.getTile t).core
  let stall := match c.stall with
    | .load va _ => if c.waitsPage n then Stall.aborted va else c.stall
    | x => x
  let s := s.onCore t fun c => { c with stall := stall }
  let s := (noticed n c.creel).foldl (fun s e => endRimEntry s t e outAborted) s
  let s := ((s.allCmds t).filter fun x => x.waitsOn n).foldl (fun s x =>
    landStatus (dropArrived s (.rim t)) ⟨t, x.serial⟩ (.aborted (detailOf n.ia))) s
  s.replayAgain (.rim t)

/-- R284: ABORT for an AGN region. -/
def abortAgn (s : State) (g r : Nat) (n : Notice) : State :=
  let s := s.focusGraph g
  if s.graph.slot ≠ g then s
  else
    let reqs := s.graph.requests.filter fun y => y.agn == r && y.held == some n.page
    let s := reqs.foldl (fun s y => s.failReq y outAborted y.ia) s
    ((noticed n (s.reg r).creel).foldl (fun s e => endAgnEntry s g r e outAborted) s).replayAgain (.agn g r)

/-- R284: ABORT for an engine or an encoder: the entries of the page end, and a copy or encoding that reads the page ends
ABORTED. -/
def abortEngine (s : State) (hub k : Nat) (n : Notice) : State :=
  let aborted : Status := .aborted (detailOf n.ia)
  let s := (noticed n (s.engine hub k).creel).foldl (fun s e =>
    endEngineEntry s hub k e (some (.aborted (detailOf e.failIa.toNat)))) s
  let s := match n.who with
    | .enc _ => if (getHub s hub).encodings.head?.any fun (x : Encoding) => x.waits == some n.page then endEncode s hub aborted
        else requeueEncode s hub
    | _ => if (s.engine hub k).queue.head?.any fun (x : Copy) => x.waits == some n.page then endCopy s hub k aborted
        else requeueCopy s hub k
  s.replayAgain (.eng hub k)

/-- R17, R284: ABORT for a configuration root: the stream is refused with BADREAD. -/
def abortRoot (s : State) (net : Nat) : State :=
  let s := (s.settle.focusNet net).onStream net fun x => { x with paused := false }
  if s.stream.len = 0 ∨ s.stream.result.isSome = true then s else refuseStream s 8 0 s.stream.offset

/-- R284: ABORT for another module: its reads and atomics that wait for the page are answered, and it hears that the writes which wait
there end. -/
def abortRemote (s : State) (m : Nat) (n : Notice) : State :=
  let hit (q : HubReq) : Bool := match q with
    | .remote _ p => p.src.toNat == m && (requestPage s p.body).any fun page => page == n.page
    | _ => false
  let mine := s.hubq.filter hit
  let s := { s with hubq := s.hubq.filter fun q => !hit q }
  let s := mine.foldl (fun s q => match q with
    | .remote _ p => answerPacket s p (.aborted (bodyId p.body))
    | _ => s) s
  injectPacket s (BitVec.ofNat 14 m) true (.cancelled n.page)

/-- The page that a request of the companion reaches first. -/
def CompanionReq.page : CompanionReq → Option Nat
  | .load _ ia _ _ => some (ia / 65536)
  | .store _ ia _ => some (ia / 65536)
  | .cache _ line _ => some (line / 1024)
  | .writeBack line _ => some (line / 1024)
  | .status _ _ => none

/-- R284: a request of the companion is ended; a line that it returns is lost. -/
def endHinge (s : State) : CompanionReq → State
  | .load id _ _ _ => s.tellHinge id .aborted
  | .store id _ _ => s.tellHinge id .aborted
  | .cache id _ _ => s.tellHinge id .aborted
  | .writeBack line _ => { s with agenda := s.agenda ++ [.companionInvalidateAck line] }
  | .status id _ => s.tellHinge id .aborted

/-- R284: ABORT for the companion: its requests that wait for the page are ended. -/
def abortHinge (s : State) (n : Notice) : State :=
  let hit (q : HubReq) : Option CompanionReq := match q with
    | .companion x => if x.page = some n.page then some x else none
    | _ => none
  (s.hubq.filterMap hit).foldl endHinge { s with hubq := s.hubq.filter fun q => (hit q).isNone }

/-- R284: NOTICE_ABORT. -/
def execNoticeAbort (n : Nat) (s : State) : Result :=
  match s.notices.find? fun x => x.id == n with
  | none => .next s
  | some x =>
    let s := s.dropNotice n
    match x.who with
    | .rim t => .next (abortRim s t x)
    | .agn g r => .next (abortAgn s g r x)
    | .eng hub e => .next (abortEngine s hub e x)
    | .enc hub => .next (abortEngine s hub 0 x)
    | .root net => .next (abortRoot s net)
    | .harts => .next s
    | .companion => .next (abortHinge s x)
    | .remote m => .next (abortRemote s m x)

/-! ### Requests at the hubs (R309) -/

/-- R99, R285, R319, R326: the oldest write of a core on its way reaches its hub: it is performed, or becomes an entry behind one of
its page; a reduction waits while its line is recalled. -/
def storeStep (s : State) (t : Nat) : State :=
  let c := (s.getTile t).core
  match c.aloft with
  | [] => s
  | e :: rest =>
    let line := e.ia.toNat / 64
    if s.reducesHeld e.op line then { recallLines s [line] with hubq := s.hubq ++ [.rimStore t] }
    else
      let s := s.onCore t fun c => { c with aloft := rest }
      match creelGate c.creel e.pageKey (e.attr == 0) false with
      | some ord => s.onCore t fun c => c.pushEntry { e with ord := ord }
      | none => landWrite s t e

/-- The hubs take one waiting request. -/
def serveHub (s : State) (q : HubReq) : State :=
  match q with
  | .rimLoad t => { s with agenda := s.agenda ++ [.loadReturn t] }
  | .rimStore t => storeStep s t
  | .areq g id => areqStep s g id
  | .agnStore g r => agnStoreStep s g r
  | .copyStep hub e => copyStep s hub e
  | .encodeStep hub => encodeStep s hub
  | .split n slice => splitStep s n slice
  | .migrate page =>
    { s with agenda := s.agenda ++ [if (s.migration page true).isSome then .migSpSwitch page else .migTryEnd page] }
  | .remote port p => serveRemote s port p
  | .answer line p body => answerStore s p line body
  | .companion q => serveHinge s q

/-- R309: HUB_REQUEST: the oldest request that waits at the hubs is met. -/
def execHubRequest (s : State) : Result :=
  match s.hubq with
  | [] => .next s
  | q :: rest => .next (serveHub { s with hubq := rest } q)

end Sys2Proof.Machine
end

