-- ==== Sys2Proof/Machine/Launch.lean ====
section
/-! DEFINITION. Launch queues, launch records, graph images and completion records, and what management's policy guarantees of them
(R363 to R368, R376). -/

namespace Sys2Proof.Machine

/-! ### Bind records (R370) -/

/-- The rectangle, image and other fields of a bind record. -/
def bindCtx (r : BitVec 1024) : BitVec 16 := fld r 0 16
/-- PRIO. -/
def bindPrio (r : BitVec 1024) : Nat := (fld r 16 2).toNat
/-- MAP. -/
def bindMap (r : BitVec 1024) : Nat := (fld r 18 2).toNat
/-- SPINE. -/
def bindSpine (r : BitVec 1024) : BitVec 3 := fld r 20 3
/-- NET. -/
def bindNet (r : BitVec 1024) : Nat := (fld r 23 1).toNat
/-- VALID. -/
def bindValid (r : BitVec 1024) : Bool := r.getLsbD 24
/-- RESUME. -/
def bindResume (r : BitVec 1024) : Bool := r.getLsbD 25
/-- TCOL0. -/
def bindCol0 (r : BitVec 1024) : Nat := (fld r 32 6).toNat
/-- TROW0. -/
def bindRow0 (r : BitVec 1024) : Nat := (fld r 40 6).toNat
/-- The columns of the rectangle. -/
def bindCols (r : BitVec 1024) : Nat := (fld r 48 6).toNat + 1
/-- The rows of the rectangle. -/
def bindRows (r : BitVec 1024) : Nat := (fld r 56 6).toNat + 1
/-- IMAGE. -/
def bindImage (r : BitVec 1024) : Nat := (fld r 64 44).toNat
/-- HOOPS. -/
def bindHoops (r : BitVec 1024) : BitVec 64 := fld r 128 64
/-- SAVE. -/
def bindSave (r : BitVec 1024) : Nat := (fld r 192 44).toNat
/-- SEQ. -/
def bindSeq (r : BitVec 1024) : BitVec 32 := fld r 256 32
/-- QUEUE. -/
def bindQueue (r : BitVec 1024) : Nat := (fld r 288 4).toNat
/-- COMPL. -/
def bindCompl (r : BitVec 1024) : BitVec 44 := fld r 320 44
/-- KEYS. -/
def bindKeys (r : BitVec 1024) : BitVec 256 := fld r 512 256

/-- R370: every zero field is zero, and SAVE is aligned. -/
def bindClean (r : BitVec 1024) : Bool :=
  fld r 26 6 == 0 && fld r 38 2 == 0 && fld r 46 2 == 0 && fld r 54 2 == 0 && fld r 62 2 == 0 && fld r 108 20 == 0 &&
  fld r 192 12 == 0 && fld r 236 20 == 0 && fld r 292 28 == 0 && fld r 364 20 == 0 && fld r 384 128 == 0 && fld r 768 256 == 0

/-- The tiles of a record's rectangle. -/
def bindTiles (r : BitVec 1024) : List Nat :=
  (List.range (bindRows r)).flatMap fun i => (List.range (bindCols r)).map fun j => tileNum (bindRow0 r + i) (bindCol0 r + j)

/-- R370: the bind records in force, but for that of a slot. -/
def State.records (s : State) (slot : Nat) : List (BitVec 1024) :=
  s.mgmt.slots.filterMap fun x => if x.1 ≠ slot ∧ bindValid x.2 = true then some x.2 else none

/-- R371 step 1: a rectangle lies inside the package, on tiles that exist, clear of those of some records. -/
def rectClear (absent : List Nat) (records : List (BitVec 1024)) (row col rows cols : Nat) : Bool :=
  decide (row + rows ≤ 48 ∧ col + cols ≤ 44) &&
  ((List.range rows).all fun i => (List.range cols).all fun j => !absent.contains (tileNum (row + i) (col + j))) &&
  records.all fun r => !decide (bindRow0 r < row + rows ∧ row < bindRow0 r + bindRows r ∧
    bindCol0 r < col + cols ∧ col < bindCol0 r + bindCols r)

/-- R371 step 1: the rectangle of a record is free. -/
def State.rectFree (s : State) (absent : List Nat) (slot : Nat) (r : BitVec 1024) : Bool :=
  rectClear absent (s.records slot) (bindRow0 r) (bindCol0 r) (bindRows r) (bindCols r)

/-- R371 step 4: hoops and keys are held by none of some records. -/
def grantsClear (records : List (BitVec 1024)) (hoops : BitVec 64) (keys : BitVec 256) : Bool :=
  records.all fun r => hoops &&& bindHoops r == 0 && keys &&& bindKeys r == 0

/-- R371 step 4: the hoops and keys granted are held by no other entry. -/
def State.grantsFree (s : State) (slot : Nat) (r : BitVec 1024) : Bool :=
  grantsClear (s.records slot) (bindHoops r) (bindKeys r)

/-! ### Completion records (R376) -/

/-- R376 STATUS. -/
def launchOk : BitVec 8 := 0
/-- FAULT. -/
def launchFault : BitVec 8 := 1
/-- BADLAUNCH. -/
def launchBad : BitVec 8 := 2
/-- BINDFAIL. -/
def launchBindFail : BitVec 8 := 3
/-- DEPFAIL. -/
def launchDepFail : BitVec 8 := 4
/-- QUEUEERR. -/
def launchQueueErr : BitVec 8 := 5
/-- ABORTED by management. -/
def launchAborted : BitVec 8 := 6

/-- What a completion record says beside SEQ, QUEUE, STATUS and REASON. -/
structure Outcomes where
  fence : BitVec 64
  renergy : BitVec 49
  genergy : BitVec 49
  tstart : BitVec 64
  frec : BitVec 44
  lateOut : BitVec 6
  lateCnt : BitVec 12
  deriving DecidableEq, Repr

/-- A launch that did not run. -/
def Outcomes.none : Outcomes := ⟨0, 0, 0, 0, 0, 0, 0⟩

/-- R376: the 64 bytes of a completion record. -/
def completionLine (seq : BitVec 32) (queue : Nat) (status : BitVec 8) (reason : Nat) (o : Outcomes) (tend : BitVec 64) : Line :=
  BitVec.ofNat 512 (
    seq.toNat + 2 ^ 32 * (queue % 16) + 2 ^ 36 * status.toNat + 2 ^ 44 * reason +
    2 ^ 64 * o.fence.toNat + 2 ^ 128 * o.renergy.toNat + 2 ^ 192 * o.genergy.toNat + 2 ^ 256 * o.tstart.toNat +
    2 ^ 320 * tend.toNat + 2 ^ 384 * o.frec.toNat + 2 ^ 448 * (o.lateOut.toNat + 2 ^ 8 * o.lateCnt.toNat))

/-- R365, R376: a completion record written to a 64-byte aligned address, and what follows from it. -/
def writeRecord (s : State) (compl : BitVec 44) (n : Note) (reason : Nat) (o : Outcomes) : State :=
  if fld compl 0 6 ≠ 0 then noteEnded s (some n)
  else hartLine s compl.toNat (completionLine n.seq n.queue n.status reason o s.time) (some n)

/-- The completion record of a launch that holds no slot table entry. -/
def writeCompletion (s : State) (compl : BitVec 44) (seq : BitVec 32) (queue : Nat) (status : BitVec 8) (reason : Nat) (o : Outcomes) :
    State :=
  writeRecord s compl ⟨queue, seq, status, none⟩ reason o

/-! ### Launch records (R365) -/

/-- SEQ of a launch record. -/
def recSeq (r : BitVec 512) : BitVec 32 := fld r 0 32
/-- PRIO. -/
def recPrio (r : BitVec 512) : Nat := (fld r 32 2).toNat
/-- DEP. -/
def recDep (r : BitVec 512) : Bool := r.getLsbD 34
/-- MAP. -/
def recMap (r : BitVec 512) : Nat := (fld r 35 2).toNat
/-- FIXMAP. -/
def recFixmap (r : BitVec 512) : Bool := r.getLsbD 37
/-- PLACE. -/
def recPlace (r : BitVec 512) : Bool := r.getLsbD 38
/-- TCOL0. -/
def recCol0 (r : BitVec 512) : Nat := (fld r 256 6).toNat
/-- TROW0. -/
def recRow0 (r : BitVec 512) : Nat := (fld r 264 6).toNat
/-- IMAGE. -/
def recImage (r : BitVec 512) : BitVec 44 := fld r 64 44
/-- DEPSEQ. -/
def recDepSeq (r : BitVec 512) : BitVec 32 := fld r 128 32
/-- COMPL. -/
def recCompl (r : BitVec 512) : BitVec 44 := fld r 192 44

/-- R365: every zero field is zero, and the addresses are aligned. -/
def recordOk (r : BitVec 512) : Bool :=
  fld r 39 25 == 0 && fld r 108 20 == 0 && fld r 160 32 == 0 && fld r 236 20 == 0 && fld r 262 2 == 0 && fld r 270 50 == 0 &&
  fld r 320 192 == 0 && fld r 64 12 == 0 && fld r 192 6 == 0

/-! ### Images (R367, R368) -/

/-- A mapping directory entry. -/
structure MapEntry where
  unroll : Nat
  trows : Nat
  tcols : Nat
  power : Nat
  table : Nat
  len : Nat
  deriving DecidableEq, Repr

/-- R367: the entry of mapping m from the 16 bytes of the directory, and whether its zero field is zero. -/
def mapEntry (e : BitVec 128) : MapEntry × Bool :=
  (⟨(fld e 0 4).toNat, (fld e 4 6).toNat + 1, (fld e 10 6).toNat + 1, (fld e 16 16).toNat, (fld e 32 32).toNat, (fld e 64 32).toNat⟩, fld e 96 32 == 0)

/-- A section of a mapping: kind, tile relative to the mapping's origin, address and length in bytes. -/
structure Section where
  kind : Nat
  trow : Nat
  tcol : Nat
  ia : Nat
  len : Nat
  deriving DecidableEq, Repr

/-- R367: a section table entry of the image at an IA. OFFSET and LENGTH are its second and third words (assumption 19). -/
def sectionOf (ia : Nat) (w0 w1 w2 : Word) : Section :=
  ⟨(fld w0 0 8).toNat, (fld w0 16 6).toNat, (fld w0 24 6).toNat, ia + w1.toNat, w2.toNat⟩

/-- The sections of a table. -/
def sectionsOf (ia : Nat) : List Word → List Section
  | w0 :: w1 :: w2 :: _ :: rest => sectionOf ia w0 w1 w2 :: sectionsOf ia rest
  | _ => []

/-- R19, R368: a CFG stream ends at SEAL, and its checksum holds. -/
def streamSound (ws : List Word) : Bool :=
  match ws.getLast? with
  | none => false
  | some w => fld w 16 16 == 0xA000 && (ws.dropLast.foldl (fun (n : BitVec 16) w => n + halves w) 0) + fld w 0 16 == 0

/-- R367: the header of an image is sound; NMAP is handed on. -/
def headerMaps (h : BitVec 512) : Option Nat :=
  let n := (fld h 32 3).toNat
  if fld h 0 32 = 0x494C4F43 ∧ 1 ≤ n ∧ n ≤ 4 ∧ fld h 40 8 = 1 ∧ fld h 384 128 = 0 then some n else none

/-- HOOPS of a header. -/
def headerHoops (h : BitVec 512) : BitVec 64 := fld h 64 64
/-- KEYS of a header. -/
def headerKeys (h : BitVec 512) : BitVec 256 := fld h 128 256

/-- R369: the zero fields of a gate record: WIN belongs to a consumer, BM1 to a producer. -/
def gateClean (e : BitVec 128) : Bool :=
  fld e 50 14 == 0 && fld e 104 24 == 0 && (if e.getLsbD 44 then fld e 96 8 == 0 else fld e 45 5 == 0)

/-- The gate records of a section's words. -/
def gatesOf : List Word → List (BitVec 128)
  | a :: b :: c :: d :: rest => (d ++ c ++ b ++ a) :: gatesOf rest
  | _ => []

/-- R367: the mapping directory entry of a mapping. -/
def readMapEntry (ia m : Nat) (s : State) : HartRead (MapEntry × Bool) :=
  (hartNum (ia + 64 + 16 * m) 16 s).andThen fun v s => .ok (mapEntry (BitVec.ofNat 128 v)) s

/-- R367: the sections of a mapping. -/
def readSections (ia : Nat) (e : MapEntry) (s : State) : HartRead (List Section) :=
  (hartWords (e.len / 16 * 4) (ia + e.table) s).andThen fun ws s => .ok (sectionsOf ia ws) s

/-- R368: the CFG and GATES sections of a list are sound. -/
def checkSections : List Section → State → HartRead Bool
  | [], s => .ok true s
  | x :: rest, s =>
    if x.kind = 4 ∨ x.kind = 7 then
      (hartWords (x.len / 4) x.ia s).andThen fun ws s =>
        if (if x.kind = 4 then streamSound ws && x.len % 4 == 0 else (gatesOf ws).all gateClean) then checkSections rest s
        else .ok false s
    else checkSections rest s

/-- R368: one mapping of an image, which is sound where its footprint is given. -/
def checkMap (ia m : Nat) (s : State) : HartRead (Option (Nat × Nat)) :=
  (readMapEntry ia m s).andThen fun x s =>
    if !x.2 || decide (2 ^ 44 < ia + x.1.table + x.1.len) then .ok none s
    else
      (readSections ia x.1 s).andThen fun l s =>
        if l.any fun y => decide (2 ^ 44 < y.ia + y.len) then .ok none s
        else (checkSections l s).andThen fun ok s => .ok (if ok then some (x.1.trows, x.1.tcols) else none) s

/-- R368: the first `n` mappings of an image, from the last down, with their footprints; none where one is not sound. -/
def checkMaps (ia : Nat) : Nat → State → HartRead (Option (List (Nat × Nat)))
  | 0, s => .ok (some []) s
  | n + 1, s =>
    (checkMap ia n s).andThen fun x s =>
      match x with
      | none => .ok none s
      | some fp => (checkMaps ia n s).andThen fun l s => .ok (l.map (· ++ [fp])) s

/-- R365, R368: an image that a launch names, where it is sound and has the mapping. -/
def checkImage (ia map : Nat) (s : State) : HartRead (Option ImageInfo) :=
  (hartNum ia 64 s).andThen fun v s =>
    let h : BitVec 512 := BitVec.ofNat 512 v
    match headerMaps h with
    | none => .ok none s
    | some n =>
      if n ≤ map then .ok none s
      else (checkMaps ia n s).andThen fun l s => .ok (l.map fun maps => ⟨maps, headerHoops h, headerKeys h⟩) s

/-! ### Queues (R363, R364) -/

/-- BASE of a descriptor. -/
def Queue.base (q : Queue) : Nat := (fld q.descr 0 44).toNat
/-- Entries of the ring. -/
def Queue.size (q : Queue) : Nat := 2 ^ (fld q.descr 44 4).toNat
/-- TAILW. -/
def Queue.tailw (q : Queue) : Nat := (fld q.descr 64 44).toNat
/-- HEADW. -/
def Queue.headw (q : Queue) : Nat := (fld q.descr 128 44).toNat
/-- R363: the address of entry k. -/
def Queue.entry (q : Queue) (k : Nat) : Nat := q.base + 64 * (k % q.size)

/-- R363: a descriptor within its limits. -/
def descrOk (d : BitVec 256) : Bool :=
  fld d 0 12 == 0 && decide (4 ≤ (fld d 44 4).toNat ∧ (fld d 44 4).toNat ≤ 12) && fld d 48 16 == 0 && fld d 64 3 == 0 &&
  fld d 108 20 == 0 && fld d 128 3 == 0 && fld d 172 20 == 0 && fld d 192 64 == 0

/-- A queue by number; none while it is closed. -/
def State.queue (s : State) (q : Nat) : Option Queue := assocGet s.mgmt.queues q

/-- A queue replaced. -/
def State.putQueue (s : State) (q : Nat) (x : Queue) : State :=
  { s with mgmt := { s.mgmt with queues := assocPut s.mgmt.queues q x } }

/-- R364: a tail value in range for a head. -/
def tailOk (q : Queue) (tail : Nat) : Bool := decide (q.head.toNat ≤ tail ∧ tail ≤ q.head.toNat + q.size)

/-- R364, R401: a record of a queue, at an IA, that management ends unread completes with a status; it is kept until its page is
mapped. -/
def rejectRecord (s : State) (x : Nat × Nat × BitVec 8) : State :=
  match hartNum x.2.1 64 s with
  | .ok v s =>
    let r : BitVec 512 := BitVec.ofNat 512 v
    writeCompletion s (recCompl r) (recSeq r) x.1 x.2.2 0 Outcomes.none
  | .bad s => s
  | .hold p ia => { hartHold s p ia with mgmt := { s.mgmt with rejects := s.mgmt.rejects ++ [x] } }

/-- R283, R364: the rejected records that wait for a page are read again. -/
def retryRejects (s : State) : State :=
  s.mgmt.rejects.foldl rejectRecord { s with mgmt := { s.mgmt with rejects := [] } }

/-- R364: a queue with a bad tail closes, and the first record that management rejects completes QUEUEERR. -/
def closeQueue (s : State) (n : Nat) (q : Queue) : State :=
  rejectRecord { s with mgmt := { s.mgmt with
    queues := assocDrop s.mgmt.queues n, closed := assocPut s.mgmt.closed n q } } (n, q.entry q.head.toNat, launchQueueErr)

/-- R364, R398: QUEUE_TAIL_NOTIFY: management, where its harts run, looks at the tail, and reads the records up to it. -/
def execQueueTailNotify (n : Nat) (s : State) : Result :=
  if !s.hartsRun then .next s
  else
    match s.queue n with
    | none => .next s
    | some q =>
      match hartNum q.tailw 8 s with
      | .hold p ia => .next (hartHold s p ia)
      | .bad s => .next s
      | .ok tail s =>
        if !tailOk q tail then .next (closeQueue s n q)
        else if q.head.toNat < tail then .next { s with agenda := s.agenda ++ [.launchRecord n] }
        else .next s

/-! ### Dependence and order (R366) -/

/-- R366: whether a launch's dependence lets it start (true), makes it fail (false) or waits. -/
def Queue.dependence (q : Queue) (r : BitVec 512) : Option Bool :=
  if !recDep r then some true
  else if !(q.seen.takeWhile fun x => x != recSeq r).contains (recDepSeq r) then some false
  else (q.ended.find? fun x => x.1 == recDepSeq r).map fun x => x.2 == launchOk

/-- R366: the launches at the head of their queues: every earlier launch of the queue has started. -/
def headLaunches : List Launch → List Nat → List Launch
  | [], _ => []
  | l :: rest, seen => if seen.contains l.queue then headLaunches rest seen else l :: headLaunches rest (l.queue :: seen)

/-- The log of a queue, open or closed. -/
def State.queueLog (s : State) (n : Nat) : Option Queue := (s.queue n).or (assocGet s.mgmt.closed n)

/-- What a waiting launch's dependence says. -/
def State.dependence (s : State) (l : Launch) : Option Bool :=
  match s.queueLog l.queue with
  | some q => q.dependence l.record
  | none => some (!recDep l.record)

/-- R366: launches whose dependence fails complete DEPFAIL at their turn. -/
def failLaunches : Nat → State → State
  | 0, s => s
  | n + 1, s =>
    match (headLaunches s.mgmt.launches []).find? fun l => s.dependence l == some false with
    | none => s
    | some l =>
      let s := { s with mgmt := { s.mgmt with launches := s.mgmt.launches.filter fun x => x != l } }
      failLaunches n (writeCompletion s (recCompl l.record) (recSeq l.record) l.queue launchDepFail 0 Outcomes.none)

/-- R366: the launches that fail have been completed. -/
def State.settleLaunches (s : State) : State := failLaunches s.mgmt.launches.length s

/-! ### Reading a record (R364, R365) -/

/-- R364: the record at the head has been read. -/
def advanceHead (s : State) (n : Nat) (q : Queue) (seq : BitVec 32) : State :=
  let q' : Queue := { q with head := q.head + 1, seen := q.seen ++ [seq] }
  let s := hartDword (s.putQueue n q') q.headw q'.head.toNat
  { s with agenda := s.agenda ++ [.launchRecord n] }

/-- R365: what management does with a record that it has read and checked. -/
def takeRecord (s : State) (n : Nat) (q : Queue) (r : BitVec 512) (image : Option ImageInfo) : State :=
  let s := advanceHead s n q (recSeq r)
  match image with
  | some x => { s with mgmt := { s.mgmt with launches := s.mgmt.launches ++ [⟨n, r, s.time, recPrio r, x⟩] } }
  | none => writeCompletion s (recCompl r) (recSeq r) n launchBad 0 Outcomes.none

/-- R365: the record at the head of a queue is read and checked. -/
def readLaunch (s : State) (n : Nat) (q : Queue) : State :=
  match hartNum (q.entry q.head.toNat) 64 s with
  | .hold p ia => hartHold s p ia
  | .bad s => advanceHead s n q 0
  | .ok v s =>
    let r : BitVec 512 := BitVec.ofNat 512 v
    if !recordOk r then takeRecord s n q r none
    else
      match checkImage (recImage r).toNat (recMap r) s with
      | .hold p ia => hartHold s p ia
      | .bad s => takeRecord s n q r none
      | .ok x s => takeRecord s n q r x

/-- R364, R365, R398: LAUNCH_RECORD: management, where its harts run, reads one record of a queue up to the tail. -/
def execLaunchRecord (n : Nat) (s : State) : Result :=
  if !s.hartsRun then .next s
  else
    match s.queue n with
    | none => .next (retryRejects s).settleLaunches
    | some q =>
      match hartNum q.tailw 8 s with
      | .hold p ia => .next (hartHold s p ia)
      | .bad s => .next s.settleLaunches
      | .ok tail s =>
        if !tailOk q tail then .next (closeQueue s n q).settleLaunches
        else if q.head.toNat < tail then .next (readLaunch s n q).settleLaunches
        else .next s.settleLaunches

/-- R366: the effective priority of a launch: one more for each full 10 ms of waiting, up to 3. -/
def Launch.aged (l : Launch) (time : BitVec 64) : Launch :=
  { l with prio := min 3 (recPrio l.record + (time - l.since).toNat / 10000000) }

/-- R366: LAUNCH_PRIORITY_AGE. -/
def execLaunchPriorityAge (s : State) : Result :=
  .next { s with mgmt := { s.mgmt with launches := s.mgmt.launches.map fun l => l.aged s.time } }

end Sys2Proof.Machine
end

