-- ==== Sys2Proof/Machine/Bind.lean ====
section
/-! DEFINITION. Binding: bind records, what an image holds for its tiles, gates, the steps of dispatch with their refusals, and the
start of a graph's cores (R236, R258, R263, R264, R367 to R371, R396, R419). -/

namespace Sys2Proof.Machine

/-! ### What a mapping's sections hold (R367, assumption 19) -/

/-- The contents of a mapping's sections, tiles by number. -/
structure ImageData where
  wards : Vector Ward 8
  rims : List (Nat × List Word)
  supers : List (Nat × List Word)
  cfg : Option (Nat × List Word)
  parcels : List (Nat × List (BitVec 64))
  slots : List (Nat × Nat)
  gates : List GateEnd
  /-- every word read, in order -/
  words : List Word
  deriving DecidableEq, Repr

/-- Nothing read. -/
def ImageData.empty : ImageData := ⟨Vector.replicate 8 Ward.reset, [], [], none, [], [], [], []⟩

/-- Words in pairs. -/
def pairWords : List Word → List (BitVec 64)
  | a :: b :: rest => (b ++ a) :: pairWords rest
  | _ => []

/-- Double words in pairs. -/
def pairDwords : List (BitVec 64) → List (BitVec 128)
  | a :: b :: rest => (b ++ a) :: pairDwords rest
  | _ => []

/-- Wards from their four words each. -/
def wardsOf : List (BitVec 64) → List Ward
  | a :: b :: c :: d :: rest => wardOf a b c d :: wardsOf rest
  | _ => []

/-- The contents of one section join the others. -/
def ImageData.take (x : ImageData) (sec : Section) (tile : Nat) (ws : List Word) : ImageData :=
  let x := { x with words := x.words ++ ws }
  match sec.kind with
  | 1 => { x with wards := Vector.ofFn fun k => (wardsOf (pairWords ws)).getD k.val Ward.reset }
  | 2 => { x with rims := x.rims ++ [(tile, ws)] }
  | 3 => { x with supers := x.supers ++ [(tile, ws)] }
  | 4 => { x with cfg := some (x.cfg.getD (sec.ia, ws)) }
  | 5 => { x with parcels := x.parcels ++ [(tile, (pairWords ws).take 512)] }
  | 6 => { x with slots := x.slots ++ ws.map fun w => ((fld w 0 8).toNat, (fld w 8 8).toNat + 1) }
  | 7 => { x with gates := x.gates ++ pairDwords (pairWords ws) }
  | _ => x

/-- The contents of the sections of a mapping with its origin. -/
def readContents (row0 col0 : Nat) : List Section → ImageData → State → HartRead ImageData
  | [], x, s => .ok x s
  | sec :: rest, x, s =>
    (hartWords (sec.len / 4) sec.ia s).andThen fun ws s =>
      readContents row0 col0 rest (x.take sec (tileNum (row0 + sec.trow) (col0 + sec.tcol)) ws) s

/-- The mapping that a bind record names: its directory entry and its contents. -/
def readImage (r : BitVec 1024) (s : State) : HartRead (MapEntry × ImageData) :=
  let ia := bindImage r
  (hartWords 32 ia s).andThen fun head s =>
    (readMapEntry ia (bindMap r) s).andThen fun e s =>
      (readSections ia e.1 s).andThen fun l s =>
        (readContents (bindRow0 r) (bindCol0 r) l { ImageData.empty with words := head } s).andThen fun x s => .ok (e.1, x) s

/-! ### The regions of a CFG section (R258, R371 step 2) -/

/-- What a scan of a stream has seen: the last rectangle of cells, raw words to skip, and the regions with their stages. -/
structure Scan where
  rect : Option Target
  skip : Nat
  regions : List (Nat × RegionCfg)
  deriving DecidableEq, Repr

/-- One word of a stream: TGT, EXT, TYPE, IMG and CLRT matter. -/
def Scan.word (x : Scan) (row0 col0 : Nat) (w : Word) : Scan :=
  if x.skip ≠ 0 then { x with skip := x.skip - 1 }
  else
    match (fld w 28 4).toNat with
    | 1 =>
      let l := w.getLsbD 0
      { x with rect := some ⟨false, (fld w 18 10).toNat + (if l then 16 * row0 else 0),
          (fld w 8 10).toNat + (if l then 16 * col0 else 0), 1, 1⟩ }
    | 2 => { x with rect := x.rect.map fun t => { t with rows := (fld w 18 10).toNat + 1, cols := (fld w 8 10).toNat + 1 } }
    | 3 => { x with rect := none }
    | 7 =>
      match x.rect with
      | some t =>
        let c := { RegionCfg.empty with row0 := t.row, col0 := t.col, rows := t.rows, cols := t.cols, stage := fld w 8 8 }
        { x with regions := assocPut x.regions (fld w 16 10).toNat c, rect := none }
      | none => x
    | 8 => { x with skip := (fld w 16 12).toNat }
    | 11 => { x with rect := none }
    | _ => x

/-- R371 step 2: the regions of a CFG section at an origin. -/
def scanRegions (row0 col0 : Nat) (ws : List Word) : List (Nat × RegionCfg) :=
  (ws.foldl (fun (x : Scan) w => x.word row0 col0 w) ⟨none, 0, []⟩).regions

/-! ### Gates (R261, R263, R264, R369) -/

/-- PORT of a gate record. -/
def endPort (e : GateEnd) : BitVec 32 := fld e 0 32
/-- REGION. -/
def endRegion (e : GateEnd) : Nat := (fld e 32 10).toNat
/-- EDGE. -/
def endEdge (e : GateEnd) : Edge := edgeOfCode (fld e 42 2)
/-- DIR: consumer. -/
def endConsumes (e : GateEnd) : Bool := e.getLsbD 44
/-- WIN. -/
def endWin (e : GateEnd) : BitVec 5 := fld e 45 5
/-- FIRST. -/
def endFirst (e : GateEnd) : Nat := (fld e 64 16).toNat
/-- COUNT. -/
def endCount (e : GateEnd) : BitVec 16 := fld e 80 16
/-- B. -/
def endDepth (e : GateEnd) : Nat := (fld e 96 8).toNat + 1

/-- R261, R369: an end names an edge that its direction allows, and a producer a buffer of 16 to 256. -/
def endOk (e : GateEnd) : Bool :=
  if endConsumes e then endEdge e == .n || endEdge e == .w else (endEdge e == .s || endEdge e == .e) && decide (16 ≤ endDepth e)

/-- R369: two ends form a gate. -/
def endsJoin (a b : GateEnd) : Bool :=
  endPort a == endPort b && endConsumes a != endConsumes b && endCount a == endCount b && endOk a && endOk b

/-- One end of a gate to be: its graph, the end, and the stage of its region. -/
structure EndAt where
  graph : Nat
  gend : GateEnd
  stage : BitVec 8
  deriving DecidableEq, Repr

/-- The lowest gate number that no gate and no number of a list has. -/
def freeGate (used : List Nat) : Nat := ((List.range (used.length + 1)).find? fun n => !used.contains n).getD 0

/-- R369: the gate that two ends form. -/
def gateOf (num : Nat) (p c : EndAt) : Gate where
  num := num
  port := endPort p.gend
  count := (endCount p.gend).toNat
  fromGraph := p.graph
  fromRegion := endRegion p.gend
  fromEdge := endEdge p.gend
  fromFirst := endFirst p.gend
  fromStage := p.stage
  toGraph := c.graph
  toRegion := endRegion c.gend
  toEdge := endEdge c.gend
  toFirst := endFirst c.gend
  toStage := c.stage
  win := endWin c.gend
  depth := endDepth p.gend
  transit := 1 + Config.gateTransit num % 64
  beats := []
  closed := false

/-- Whether an end of a resident graph is already part of a gate. -/
def endUsed (gates : List Gate) (x : EndAt) : Bool :=
  gates.any fun g => g.port == endPort x.gend &&
    (if endConsumes x.gend then g.toGraph == x.graph else g.fromGraph == x.graph)

/-- R264, R369: the gates that new ends form with ends of resident graphs, or with one another. -/
def joinGates (olds : List EndAt) (news : List EndAt) (gates : List Gate) : List Gate :=
  news.foldl (fun (acc : List Gate) n =>
    if endUsed (gates ++ acc) n then acc
    else
      match (olds ++ news).find? fun o => endsJoin n.gend o.gend && !endUsed (gates ++ acc) o with
      | none => acc
      | some o =>
        let num := freeGate ((gates ++ acc).map fun g => g.num)
        acc ++ [if endConsumes n.gend then gateOf num o n else gateOf num n o]) []

/-- The label of a graph in a list of joined graphs. -/
def labelOf (l : List (Nat × Nat)) (g : Nat) : Nat := (assocGet l g).getD g

/-- R264: whether gates join graphs without a cycle, counted without regard to direction. -/
def acyclic : List (Nat × Nat) → List (Nat × Nat) → Bool
  | [], _ => true
  | (a, b) :: rest, l =>
    let x := labelOf l a
    let y := labelOf l b
    if x = y then false
    else
      let l := assocPut (assocPut l a x) b y
      acyclic rest (l.map fun p => if p.2 = y then (p.1, x) else p)

/-- The stage of a region of a resident graph. -/
def Graph.stageOf (g : Graph) (r : Nat) : BitVec 8 := ((g.getRegion r).map fun x => x.cfg.stage).getD 0

/-- The gate ends of the resident graphs. -/
def State.residentEnds (s : State) : List EndAt :=
  s.allGraphs.flatMap fun g => g.gateEnds.map fun e => ⟨g.slot, e, g.stageOf (endRegion e)⟩

/-- R371 step 2: the gates that a graph brings. -/
def State.newGates (s : State) (slot : Nat) (x : ImageData) (regions : List (Nat × RegionCfg)) : List Gate :=
  let stage (e : GateEnd) : BitVec 8 := ((assocGet regions (endRegion e)).map fun c => c.stage).getD 0
  joinGates s.residentEnds (x.gates.map fun e => ⟨slot, e, stage e⟩) s.gates

/-! ### What dispatch refuses (R371) -/

/-- R371: REASON of the first step of dispatch that refuses. -/
def bindRefusal (s : State) (absent : List Nat) (slot : Nat) (r : BitVec 1024) (x : ImageData) (regions : List (Nat × RegionCfg))
    (gates : List Gate) : Option Nat :=
  let edges := ((s.gates.filter fun g => !g.closed && g.fromGraph != 64) ++ gates).map fun g => (g.fromGraph, g.toGraph)
  firstBad [
    (!s.rectFree absent slot r, 1),
    (regions.any fun c => !(s.skewOk c.2 && s.kappaOk c.2), 2),
    (gates.any fun g => !decide (g.fromStage.toNat < g.toStage.toNat), 3),
    (!acyclic edges [], 4),
    ((bindTiles r).any fun t => x.slots.any fun k => ((s.getTile t).foreignSlot (bindCtx r) k.1 k.2).isSome, 5),
    (!s.grantsFree slot r, 6)]

/-! ### Installing a graph (R371 steps 1 to 5) -/

/-- R377: SPINE of a tile at bind. -/
def spineAt (s : State) (k : BitVec 3) : Spine := ⟨k, false, false, false, s.mgmt.freqs.toList.getD k.toNat 44, 0, 0⟩

/-- R236: the cursor of a table after a change of mapping: the first entry above the last parcel returned. -/
def cursorAfter (table : List (BitVec 64)) (last : Option Nat) : Nat :=
  match last with
  | none => 0
  | some p => (table.takeWhile fun e => decide ((fld e 48 12).toNat ≤ p)).length

/-- R354, R371: a core that dispatch sets up: its registers at reset, its context, wards, vector and cursor, and the energy weights
that the launch has supplied. Its creel and its writes on their way stay. -/
def Core.setUp (old : Core) (ctx : BitVec 16) (wards : Vector Ward 8) (super : Option Nat) (table : List (BitVec 64))
    (last : Option Nat) (weights : List (BitVec 16) × BitVec 16) : Core :=
  { Core.reset old.trow old.tcol with
    ctx := ctx
    wards := wards
    tvecEntry := BitVec.ofNat 10 (super.getD 0)
    tvecValid := super.isSome
    nxcur := BitVec.ofNat 10 (cursorAfter table last)
    exh := decide (table.length ≤ cursorAfter table last)
    parcel := last
    ew := Vector.ofFn fun k => weights.1.getD k.val 0
    statw := weights.2
    creel := old.creel
    creelSeq := old.creelSeq
    sent := old.sent
    aloft := old.aloft
    owedLines := old.owedLines
    owedRemote := old.owedRemote
    cmdSerial := old.cmdSerial }

/-- R182, R371 step 5: words written to a code store from an address on. -/
def Tile.putWords (t : Tile) : List Word → Nat → Tile
  | [], _ => t
  | w :: rest, a => if a < 1024 then (t.putCode a w).putWords rest (a + 1) else t

/-- R371 steps 1, 4 and 5: a tile of the rectangle. The supervisor section follows the tile's rim section (assumption 19). -/
def bindTile (s : State) (r : BitVec 1024) (x : ImageData) (last : Option Nat) (t : Nat) : State :=
  let old := s.getTile t
  let rim := (assocGet x.rims t).getD []
  let super := assocGet x.supers t
  let table := (assocGet x.parcels t).getD []
  let tile := (old.putWords (rim ++ super.getD []) 0)
  s.putTile t { tile with
    core := old.core.setUp (bindCtx r) x.wards (super.map fun _ => rim.length) table last
      ((assocGet s.mgmt.weights t).getD ([], 0))
    spine := spineAt s (bindSpine r)
    parcels := table
    capture := []
    pushBeat := ⟨0, 0, 0, false, 0, 0⟩
    lastDrain := none
    inbox := [] }

/-- R371 step 3: the SLOTS reservations claimed in a tile; the slots that were free. -/
def claimTile (x : ImageData) (ctx : BitVec 16) (acc : List (Nat × Nat) × State) (t : Nat) : List (Nat × Nat) × State :=
  x.slots.foldl (fun (acc : List (Nat × Nat) × State) k =>
    let tile := acc.2.getTile t
    let fresh := ((List.range k.2).map (k.1 + ·)).filter fun n => !tile.owns n ctx
    (acc.1 ++ fresh.map fun n => (t, n), (claimSlots acc.2 t ctx k.1 k.2).2)) acc

/-- Whether a cell lies in the tiles of a record's rectangle. -/
def cellInside (r : BitVec 1024) (cell : Nat) : Bool :=
  let trow := cell / 704 / 16
  let tcol := cell % 704 / 16
  decide (bindRow0 r ≤ trow ∧ trow < bindRow0 r + bindRows r ∧ bindCol0 r ≤ tcol ∧ tcol < bindCol0 r + bindCols r)

/-- The wards of dispatch itself: the whole of IA space, under its own addresses. -/
def hartWard : Ward := ⟨true, true, false, true, 0, 0, 0x10000000, 0, 0, false⟩

/-- R371 steps 1 to 5: a graph is installed, and its CFG section is submitted. -/
def installGraph (s : State) (slot : Nat) (r : BitVec 1024) (power : Nat) (x : ImageData) (gates : List Gate) : State :=
  let s := restoreSlots s (bindCtx r)
  let prior := (bindTiles r).map fun t => (t, s.getTile t)
  let was := s.mgmt.drained.find? fun d => d.ctx == bindCtx r
  let claimed := (bindTiles r).foldl (claimTile x (bindCtx r)) ([], s)
  let s := (bindTiles r).foldl (fun s t => bindTile s r x (was.bind fun d => d.parcel) t) claimed.2
  let g : Graph := { Graph.empty with
    slot := slot
    record := r
    trow0 := bindRow0 r
    tcol0 := bindCol0 r
    trows := bindRows r
    tcols := bindCols r
    ctx := bindCtx r
    spine := bindSpine r
    net := bindNet r
    wards := x.wards
    gateEnds := x.gates
    rims := (bindTiles r).filter fun t => (assocGet x.rims t).isSome
    power := power
    prior := prior
    priorCells := s.cells.filter fun c => cellInside r c.1
    claims := claimed.1
    loaded := x.rims.map fun t => (t.1, min 1024 (t.2.length + ((assocGet x.supers t.1).getD []).length))
    energy := (was.map fun d => d.energy).getD 0
    energySat := (was.map fun d => d.energySat).getD false
    tstart := (was.map fun d => d.tstart).getD 0 }
  let s := { s with
    graphs := s.graphs ++ [g]
    gates := s.gates ++ gates
    cells := s.cells.filter fun c => !cellInside r c.1
    turns := s.turns ++ [.graph slot]
    island := s.island.extend 3 (Config.sha384 (x.words.flatMap fun w => bytesOf 4 w.toNat)) }
  match x.cfg with
  | none => s
  | some c => submitStream s (bindNet r) { Stream.empty with
      graph := slot, ctx := bindCtx r, user := false, wards := [hartWard], va := c.1, len := c.2.length }

/-! ### Starting, refusing and unbinding (R371, R376) -/

/-- R371 step 6: the cores with a rim section start in user mode at word 0. -/
def startCores (s : State) (slot : Nat) : State :=
  match s.getGraph slot with
  | none => s
  | some g =>
    let s := g.rims.foldl (fun (s : State) t => s.onCore t fun c => { c with run := .running }) s
    let again := (s.mgmt.drained.any fun d => d.ctx == g.ctx)
    { s.onGraph slot (fun x => { x with tstart := if again then x.tstart else s.time, prior := [], priorCells := [] }) with
      turns := s.turns ++ g.rims.map fun t => .rim t
      mgmt := { s.mgmt with
        drained := s.mgmt.drained.filter fun d => d.ctx != g.ctx
        weights := s.mgmt.weights.filter fun w => !(bindTiles g.record).contains w.1 } }

/-- The holds that a gate raised in the graph at its other end drop. -/
def dropGateHolds (s : State) (x : Gate) (slot : Nat) : State :=
  let drop (g : Graph) : Graph := (g.drop (holdGateOut x.num)).drop (holdGateIn x.num)
  if x.fromGraph = slot then s.onGraph x.toGraph drop else s.onGraph x.fromGraph drop

/-- R261: a graph leaves its gates. One whose producer has left keeps its beats for the consumer; one whose consumer has left, or
that holds none, is gone (assumption 20). -/
def leaveGates (s : State) (slot : Nat) : State :=
  let mine := s.gates.filter fun x => x.fromGraph == slot || x.toGraph == slot
  let s := mine.foldl (fun s x => dropGateHolds s x slot) s
  let keep (x : Gate) : Bool :=
    x.toGraph != slot && (x.fromGraph != slot || !x.beats.isEmpty)
  { s with gates := (s.gates.filter keep).map fun x => if x.fromGraph = slot then { x with fromGraph := 64 } else x }

/-- A graph leaves its slot: its cores stop, and nothing of it takes a turn. -/
def removeGraph (s : State) (g : Graph) : State :=
  let mine (t : Nat) : Bool :=
    decide (g.trow0 ≤ t / 44 ∧ t / 44 < g.trow0 + g.trows ∧ g.tcol0 ≤ t % 44 ∧ t % 44 < g.tcol0 + g.tcols)
  let keep (a : Agent) : Bool := match a with
    | .graph k => k != g.slot
    | .rim t => !mine t
    | .tick => true
    | .hubs => true
    | .harts => true
    | .net _ => true
  let s := (bindTiles g.record).foldl (fun (s : State) t => s.onCore t fun c => { c with run := .idle, resident := false }) s
  let s : State := if s.graph.slot = g.slot then { s with graph := Graph.empty }
    else { s with graphs := s.graphs.filter fun x => x.slot != g.slot }
  { s with turns := s.turns.filter keep }

/-- A graph is unbound: its rectangle, grants and gates are released. -/
def unbind (s : State) (slot : Nat) : State :=
  match s.getGraph slot with
  | none => s
  | some g => removeGraph (leaveGates s.settle slot) g

/-- R371: a tile as a refusal leaves it: what dispatch set in it is as it was before. -/
def undoTile (now prior : Tile) : Tile :=
  { now with
    core := { prior.core with
      creel := now.core.creel
      creelSeq := now.core.creelSeq
      sent := now.core.sent
      aloft := now.core.aloft
      owedLines := now.core.owedLines
      owedRemote := now.core.owedRemote
      cmdSerial := now.core.cmdSerial }
    code := prior.code
    codeMarks := prior.codeMarks
    spine := prior.spine
    parcels := prior.parcels
    capture := prior.capture
    pushBeat := prior.pushBeat
    lastDrain := prior.lastDrain
    inbox := prior.inbox }

/-- R371: steps 1 to 5 of a graph's dispatch are undone. -/
def undoBind (s : State) (g : Graph) : State :=
  let s := g.claims.foldl (fun (s : State) c =>
    let t := s.getTile c.1
    s.putTile c.1 { t with owners := assocDrop t.owners c.2 }) s
  let s := unbind s g.slot
  let s := g.prior.foldl (fun (s : State) x => s.putTile x.1 (undoTile (s.getTile x.1) x.2)) s
  { s with cells := (s.cells.filter fun c => !cellInside g.record c.1) ++ g.priorCells }

/-- R371: a refused bind is undone, and its launch completes BINDFAIL. -/
def refuseBind (s : State) (slot : Nat) (r : BitVec 1024) (reason : Nat) : State :=
  let s := match s.getGraph slot with
    | some g => undoBind s g
    | none => s
  (writeCompletion (clearValid s slot) (bindCompl r) (bindSeq r) (bindQueue r) launchBindFail reason Outcomes.none).settleLaunches

/-- R371: the CFG section of a bind has ended: step 6 follows, or CFGFAIL. -/
def State.finishBind (s : State) : State :=
  match s.stream.result with
  | none => s
  | some st =>
    if s.streamWaits then s
    else
      let slot := s.stream.graph
      let r := s.streamGraph.record
      let s := s.nextStream
      if (s.getGraph slot).isNone then s
      else if st.code = 0 then startCores s slot
      else refuseBind s slot r 7

/-- R380: a mapping takes the place of one that the budget has turned away: its POWER fits beside that of the resident graphs, or it is
the same mapping on a slower spine. -/
def State.budgetAllows (s : State) (r : BitVec 1024) (power : Nat) : Bool :=
  match (s.mgmt.drained.find? fun d => d.ctx == bindCtx r).bind fun d => d.limit with
  | none => true
  | some (map, freq) =>
    decide (power + (s.allGraphs.map fun g => g.power).sum ≤ s.mgmt.budget) ||
    (bindMap r == map && (s.mgmt.freqs.toList.getD (bindSpine r).toNat 44).ult freq)

/-- R371: dispatch acts on a bind record. A record whose size is not its mapping's footprint (R370), or whose mapping the budget does
not allow (R380), is one that management does not write. -/
def bindGraph (s : State) (absent : List Nat) (slot : Nat) (r : BitVec 1024) : State :=
  match readImage r s with
  | .hold p ia => hartHold s p ia
  | .bad s => refuseBind s slot r 7
  | .ok (e, x) s =>
    if !(e.trows == bindRows r && e.tcols == bindCols r && s.budgetAllows r e.power) then clearValid s slot
    else
      let regions := match x.cfg with
        | some c => scanRegions (bindRow0 r) (bindCol0 r) c.2
        | none => []
      let gates := s.newGates slot x regions
      match bindRefusal s absent slot r x regions gates with
      | some reason => refuseBind s slot r reason
      | none =>
        let s := installGraph s slot r e.power x gates
        if x.cfg.isNone then startCores s slot else s

end Sys2Proof.Machine
end

