-- ==== Sys2Proof/Machine/Graphs.lean ====
section
/-! DEFINITION. The life of a graph: dispatch, completion, drains for a change of mapping, pre-emption through the save chain and its
return (R273, R292 to R294, R366, R370 to R376). -/

namespace Sys2Proof.Machine

/-! ### Fault records (R293, R294) -/

/-- R293: the 32 bytes of a graph fault record. -/
def graphFaultLine (f : GraphFault) : Line :=
  BitVec.ofNat 512 (f.cause.toNat + 2 ^ 8 * f.row.toNat + 2 ^ 16 * f.region.toNat + 2 ^ 32 * f.slot.toNat + 2 ^ 64 * f.detail.toNat +
    2 ^ 128 * f.time.toNat + 2 ^ 192 * (f.tcol.toNat + 2 ^ 8 * f.trow.toNat + 2 ^ 16 * f.more.toNat))

/-- R294: the 64 bytes of a rim fault record. -/
def rimFaultLine (f : RimFault) : Line :=
  BitVec.ofNat 512 (f.ctx.toNat + 2 ^ 16 * f.tcol.toNat + 2 ^ 24 * f.trow.toNat + 2 ^ 32 * f.cause.toNat + 2 ^ 40 * f.async.toNat +
    2 ^ 41 * f.super.toNat + 2 ^ 64 * f.eaddr.toNat + 2 ^ 128 * f.estat.toNat + 2 ^ 192 * f.epc.toNat + 2 ^ 256 * f.time.toNat +
    2 ^ 320 * f.fenceAcc.toNat + 2 ^ 384 * f.pend.toNat)

/-- The rim fault of the context of a list that stopped first. -/
def firstFault : List Core → Option RimFault
  | [] => none
  | c :: rest =>
    match (if c.run = .stopped then c.fault else none), firstFault rest with
    | some a, some b => if b.time.toNat < a.time.toNat then some b else some a
    | some a, none => some a
    | none, x => x

/-- R292: a graph has stopped by fault, its other regions' slots run. -/
def Graph.faultStop (g : Graph) : Bool := g.stopped && g.grace == 0

/-- The record of the fault that ended a graph: bytes and line, none without a fault. -/
def graphFault (g : Graph) (cores : List Core) : Option (BitVec 64 × Line) :=
  let mine := if g.faultStop then g.fault else none
  match mine, firstFault cores with
  | some a, some b => if b.time.toNat < a.time.toNat then some (BitVec.allOnes 64, rimFaultLine b) else some (0xFFFFFFFF, graphFaultLine a)
  | some a, none => some (0xFFFFFFFF, graphFaultLine a)
  | none, some b => some (BitVec.allOnes 64, rimFaultLine b)
  | none, none => none

/-! ### Completion (R376) -/

/-- The cores of a graph that run a rim section, by tile. -/
def State.rimCores (s : State) (g : Graph) : List Core := g.rims.map fun t => (s.getTile t).core

/-- The cores of a graph's rectangle. -/
def State.allCores (s : State) (g : Graph) : List Core := (bindTiles g.record).map fun t => (s.getTile t).core

/-- Whether a stream of dispatch itself still runs or waits for a graph (R371 step 5). -/
def State.binding (s : State) (slot : Nat) : Bool :=
  let of (x : Stream) : Bool := x.ref.isNone && x.graph == slot && x.len != 0
  of s.stream || s.nets.toList.any fun n => of n.running || n.queue.any of

/-- R376: a graph completes: its cores with a rim section have halted, or it or one of its contexts has stopped by fault. -/
def State.graphEnds (s : State) (g : Graph) : Bool :=
  let cores := s.rimCores g
  !s.binding g.slot && (g.faultStop || (cores.any fun c => c.run == .stopped) || cores.all fun c => c.run == .halted)

/-- R372, R376: every write of a region has been performed or has ended. -/
def Region.quiet (r : Region) : Bool :=
  r.sent.isEmpty && r.owedRemote.isEmpty && r.heldWrites.isEmpty && !(r.creel.any CreelEntry.live)

/-- R376 step 1: every command of the graph's cores has landed, and the creels of its AGN regions have ended. -/
def State.graphQuiet (s : State) (g : Graph) : Bool :=
  (s.allCores g).all (fun c => c.cmds.isEmpty) && g.regions.all Region.quiet

/-- R376 FENCE: the halted cores' statuses together. -/
def fenceOfCores (cores : List Core) : BitVec 64 :=
  let st := (cores.filter fun c => c.run == .halted).map fun c => c.doneStatus
  let fails := (st.map fun w => (fld w 8 12).toNat).sum
  let first := ((st.find? fun w => fld w 8 12 != 0).map fun w => (fld w 20 44).toNat).getD 0
  BitVec.ofNat 64 ((st.foldl (fun (a : BitVec 64) w => a ||| w) 0).toNat % 256 + 2 ^ 8 * min fails 4095 + 2 ^ 20 * first)

/-- R376 RENERGY: the sum of the cores' counts, saturating, with its sticky bit. -/
def energyOfCores (cores : List Core) : BitVec 49 :=
  let n := (cores.map fun c => c.energy.toNat).sum
  let over' := decide (2 ^ 48 ≤ n) || cores.any fun c => c.energySat
  BitVec.ofNat 49 (min n (2 ^ 48 - 1) + 2 ^ 48 * over'.toNat)

/-- R376: what the completion record of a graph with some cores says. -/
def outcomesOf (cores : List Core) (g : Graph) (fault : Bool) : Outcomes :=
  { fence := fenceOfCores cores
    renergy := energyOfCores cores
    genergy := BitVec.ofNat 49 (g.energy.toNat + 2 ^ 48 * g.energySat.toNat)
    tstart := g.tstart
    frec := if fault then bindCompl g.record + 64 else 0
    lateOut := cores.foldl (fun (a : BitVec 6) c => a ||| c.lateOut) 0
    lateCnt := BitVec.ofNat 12 (min 4095 (cores.map fun c => c.lateCnt.toNat).sum) }

/-- R376: what the completion record of a bound graph says. -/
def graphOutcomes (s : State) (g : Graph) (fault : Bool) : Outcomes := outcomesOf (s.rimCores g) g fault

/-- R376: what the completion record of a saved graph says. -/
def Saved.outcomes (v : Saved) : Outcomes :=
  outcomesOf ((v.tiles.filter fun x => v.graph.rims.contains x.1).map fun x => x.2.core) v.graph false

/-- R273: every slot of a context is released in every tile. -/
def releaseContext (s : State) (ctx : BitVec 16) : State :=
  { s with
    mgmt := { s.mgmt with evicted := s.mgmt.evicted.filter fun x => !(s.getTile x.1).owns x.2.1 ctx }
    tile := s.tile.release ctx
    tiles := s.tiles.map fun x => (x.1, x.2.release ctx) }

/-- R376 steps 2 to 5: a graph ends with a status; VALID is cleared once the completion record has been written. -/
def endGraph (s : State) (g : Graph) (status : BitVec 8) : State :=
  let fault := graphFault g (s.rimCores g)
  let o := graphOutcomes s g fault.isSome
  let r := g.record
  let s := releaseContext (unbind s g.slot) g.ctx
  let s := match fault with
    | some (mask, line) => hartWrite s ⟨(bindCompl r).toNat + 64, mask, line, none⟩
    | none => s
  (writeRecord s (bindCompl r) ⟨bindQueue r, bindSeq r, status, some g.slot⟩ 0 o).settleLaunches

/-- R376: GRAPH_COMPLETE. -/
def execGraphComplete (slot : Nat) (s : State) : Result :=
  let s := s.settle
  match s.getGraph slot with
  | none => .next s
  | some g =>
    if s.graphEnds g && s.graphQuiet g then
      .next (endGraph s g (if (graphFault g (s.rimCores g)).isSome then launchFault else launchOk))
    else .next s

/-! ### A change of mapping (R236, R372) -/

/-- R372: DRAIN_REQUEST. -/
def execDrainRequest (slot : Nat) (s : State) : Result := .next (s.settle.onGraph slot fun g => { g with drain := true })

/-- R372: the four conditions under which a graph is drained. -/
def State.graphDrains (s : State) (g : Graph) : Bool :=
  let cores := s.rimCores g
  g.drain && !s.binding g.slot &&
  (cores.all fun c => c.stall == .nextp || c.run == .halted) && (cores.all fun c => c.pend == 0) &&
  g.requests.isEmpty && g.regions.all Region.quiet

/-- The greatest of some numbers. -/
def greatest : List Nat → Option Nat
  | [] => none
  | x :: rest => some (max x ((greatest rest).getD x))

/-- R372: GRAPH_DRAINED: the mapping is unbound; slot ownership stays, and the cursor of the next mapping is recorded
(assumption 21). -/
def execGraphDrained (slot : Nat) (s : State) : Result :=
  let s := s.settle
  match s.getGraph slot with
  | none => .next s
  | some g =>
    if s.graphDrains g then
      let limit := if g.limited then some (bindMap g.record, s.mgmt.freqs.toList.getD g.spine.toNat 44) else none
      let d : Drained :=
        ⟨g.ctx, greatest ((s.rimCores g).filterMap fun c => c.parcel), limit, g.tstart, g.energy, g.energySat⟩
      let s := { s with mgmt := { s.mgmt with drained := (s.mgmt.drained.filter fun x => x.ctx != g.ctx) ++ [d] } }
      .next (clearValid (unbind s slot) slot)
    else .next s

/-- R372: a core whose NEXTP a drain request held retires it. -/
def retireNextp (s : State) (t : Nat) : State :=
  let s := s.focusTile t
  let c := s.tile.core
  match c.stall, c.held with
  | .nextp, some h =>
    match directRim h.word (s.setCore { c with stall := .none }) with
    | .next s' => s'
    | .fault _ => s
    | .refused _ => s
  | _, _ => s

/-- R372: DRAIN_TIMEOUT: the request is abandoned, the stalled NEXTPs retire, and pre-emption follows. -/
def execDrainTimeout (slot : Nat) (s : State) : Result :=
  let s := s.settle
  match s.getGraph slot with
  | none => .next s
  | some g =>
    if g.drain then
      let s := s.onGraph slot fun g => { g with drain := false }
      let s := g.rims.foldl retireNextp s
      .next { s with agenda := s.agenda ++ [.graphPreempt slot] }
    else .next s

/-! ### Pre-emption through the save chain (R373) -/

/-- The number that a gate gives the graph of a context that has been saved. -/
def savedGraph (ctx : BitVec 16) : Nat := 65536 + ctx.toNat

/-- R373 step 1: a core at an instruction boundary: a stalled instruction is discarded and issues again. What the companion and other
modules owe it is looked for in its tile. -/
def Core.atBoundary (c : Core) : Core :=
  { c with stall := .none, held := none, answers := [], resident := false, aloft := [], owedLines := [], owedRemote := [] }

/-- R373: what stays in a tile when the core of a saved graph leaves it: its creel, its writes on their way, and the numbering of its
commands. -/
def Core.left (c : Core) : Core :=
  { Core.reset c.trow c.tcol with
    creel := c.creel
    creelSeq := c.creelSeq
    sent := c.sent
    aloft := c.aloft
    owedLines := c.owedLines
    owedRemote := c.owedRemote
    cmdSerial := c.cmdSerial }

/-- R114: messages on their way enter the inbound buffers of 8 entries; those behind a full one stay with their sender. -/
def sinkMessages (s : State) (t : Nat) : State :=
  (s.getTile t).core.outbox.foldl (fun (s : State) m =>
    let dst := s.getTile m.dst
    if dst.inbox.length < 8 then
      let s := s.putTile m.dst { dst with inbox := dst.inbox ++ [m] }
      s.onCore t fun c => { c with outbox := match takeMsg m.dst c.outbox with | some (_, rest) => rest | none => c.outbox }
    else s) s

/-- R373 step 3: the outstanding AGN reads of a graph reply into their latches; a read that is held is recorded as unissued. -/
def settleReads (s : State) (slot : Nat) : State :=
  let ids (s : State) : List Nat := match s.getGraph slot with
    | some g => g.requests.map fun (x : AgnReq) => x.id
    | none => []
  let s := (ids s).foldl (fun s id => areqStep s slot id) s.settle
  let s := (ids s).foldl (fun s id => deliverReply (slot + 64 * id) s) s
  let fresh (x : AgnReq) : AgnReq := { x with held := none }
  s.settle.onGraph slot fun g => { g with requests := g.requests.map fresh }

/-- R373 step 5: lines of a tile's save chain of 5,242,880 bits. -/
def chainLines : Nat := 10240

/-- R373 steps 5 and 6: the save area is written. Its layout is not laid down: each line is a free value, and what a restore needs
is kept apart (assumption 22). -/
def writeSave (s : State) (ia tiles : Nat) : State :=
  (List.range (tiles * chainLines + 2)).foldl (fun (s : State) k =>
    hartLine (s.useFree 64) (ia + 64 * k) (BitVec.ofNat 512 (freeNat s 64)) none) s

/-- R373 step 1: whether a core stands at an instruction boundary, or at an instruction that can be discarded. -/
def Core.mayStop (c : Core) : Bool := c.run != .running || c.stall.open

/-- Whether a stream of a graph runs or waits on a net. -/
def State.streaming (s : State) (slot : Nat) : Bool :=
  let of (x : Stream) : Bool := x.graph == slot && x.len != 0
  of s.stream || s.nets.toList.any fun n => of n.running || n.queue.any of

/-- R373 step 3: a read of a graph is on its way: to another module, or behind a line that the companion returns. -/
def State.readAway (s : State) (g : Graph) : Bool :=
  g.requests.any fun x => x.answer.isNone && x.held.isNone && (x.remote.isSome || s.recalls (s.reqLines x))

/-- R373 steps 1 to 3: a graph that management saves has come to rest: its cores have stopped, no slot is counted, its reads have
replied, its regions' writes have reached their hubs, and no configuration stream of it runs or waits (assumption 23). -/
def State.mayBeSaved (s : State) (g : Graph) : Bool :=
  g.hist.getLsbD 7 && (s.rimCores g).all Core.mayStop && !s.readAway g && !s.streaming g.slot &&
  (g.regions.all fun r => r.sent.isEmpty && r.owedRemote.isEmpty) &&
  (s.allCores g).all fun c => c.cmds.all fun x => x.kind != .cfg || x.state == .started

/-- R373 steps 1 to 6: a graph is saved, and its rectangle released. -/
def saveGraph (s : State) (slot : Nat) : State :=
  let s := settleReads s slot
  match s.getGraph slot with
  | none => s
  | some g =>
    let tiles := bindTiles g.record
    let s := tiles.foldl sinkMessages s
    let kept : List (Nat × Tile) := tiles.map fun t =>
      let x := s.getTile t
      (t, { x with core := x.core.atBoundary })
    let g := { g with saving := false }
    let v : Saved := ⟨g.record, g, kept, s.cells.filter fun c => cellInside g.record c.1⟩
    let leave (s : State) (t : Nat) : State :=
      let x := s.getTile t
      s.putTile t { x with core := x.core.left, capture := [], parcels := [], inbox := [], pushBeat := ⟨0, 0, 0, false, 0, 0⟩ }
    let s := tiles.foldl leave s
    let key := savedGraph g.ctx
    let mark (x : Gate) : Gate := { x with
      fromGraph := if x.fromGraph = slot then key else x.fromGraph
      toGraph := if x.toGraph = slot then key else x.toGraph }
    let mine (q : HubReq) : Bool := match q with
      | .areq k _ => k == slot
      | .agnStore k _ => k == slot
      | .rimLoad _ => false
      | .rimStore _ => false
      | .copyStep _ _ => false
      | .encodeStep _ => false
      | .split _ _ => false
      | .migrate _ => false
      | .remote _ _ => false
      | .answer _ _ _ => false
      | .companion _ => false
    let s := removeGraph { s with
      cells := s.cells.filter fun c => !cellInside g.record c.1
      gates := s.gates.map mark
      hubq := s.hubq.filter fun q => !mine q
      mgmt := { s.mgmt with saved := s.mgmt.saved ++ [v] } } g
    clearValid (writeSave s (bindSave g.record) tiles.length) slot

/-- R373: GRAPH_PREEMPT: management stops the graph's cores and raises its hold, and saves the graph once it has come to rest. -/
def execGraphPreempt (slot : Nat) (s : State) : Result :=
  let s := s.settle
  match s.getGraph slot with
  | none => .next s
  | some g =>
    if !s.hartsRun then .next s
    else if g.saving && s.mayBeSaved g then .next (saveGraph s slot)
    else .next (s.onGraph slot fun g => { g.raise holdMgmt with saving := true })

/-! ### Restore (R375) -/

/-- R375: the save that a record resumes: the same context, rectangle, spine and mapping. -/
def State.savedFor (s : State) (r : BitVec 1024) : Option Saved :=
  s.mgmt.saved.find? fun v => bindCtx v.record == bindCtx r && fld v.record 32 32 == fld r 32 32 &&
    bindSpine v.record == bindSpine r && bindMap v.record == bindMap r

/-- R114, R373: a core as restored: its creel is the one that stayed in the tile, and the messages that waited land. -/
def restoreCore (v now : Tile) : Core :=
  let c : Core := { v.core with
    creel := now.core.creel
    creelSeq := now.core.creelSeq
    sent := now.core.sent
    aloft := now.core.aloft
    owedLines := now.core.owedLines
    owedRemote := now.core.owedRemote
    cmdSerial := max v.core.cmdSerial now.core.cmdSerial }
  if c.ended then c else v.inbox.foldl (fun (c : Core) m => c.landMail m.mail m.value false) c

/-- R373: the words of a graph's sections return to a code store. -/
def restoreCode (v now : Tile) : Nat → Tile
  | 0 => now
  | n + 1 =>
    let t := restoreCode v now n
    { t with
      code := sparsePut 0 t.code n (sparseGet 0 v.code n)
      codeMarks := sparsePut .clean t.codeMarks n (sparseGet .clean v.codeMarks n) }

/-- R289: the outcomes that have waited for a core's context are reported. -/
def Core.reports (c : Core) (t : Nat) : List Instr :=
  (c.creel.filter fun e => !e.live && e.ctx == c.ctx).map fun _ => .creelOutcomeReport t

/-- R375, R377: a tile of a restored graph; its spine runs at its present frequency. -/
def restoreTile (s : State) (g : Graph) (x : Nat × Tile) : State :=
  let now := s.getTile x.1
  let t := restoreCode x.2 now ((assocGet g.loaded x.1).getD 0)
  let s := s.putTile x.1 { t with
    core := restoreCore x.2 now
    spine := { x.2.spine with freq := (spineAt s x.2.spine.sel).freq }
    parcels := x.2.parcels
    capture := x.2.capture
    pushBeat := x.2.pushBeat
    lastDrain := x.2.lastDrain
    inbox := [] }
  { s with agenda := s.agenda ++ (x.2.core.outbox.map fun m => .msgArrive x.1 m.dst) ++ (s.getTile x.1).core.reports x.1 }

/-- R375: the graph of a save returns to a slot; its unissued reads are issued again and its creels replay. -/
def resumeGraph (s : State) (slot : Nat) (r : BitVec 1024) (v : Saved) : State :=
  let s := restoreSlots s (bindCtx r)
  let g : Graph := { v.graph.drop holdMgmt with slot := slot, record := r }
  let key := savedGraph g.ctx
  let mark (x : Gate) : Gate := { x with
    fromGraph := if x.fromGraph = key then slot else x.fromGraph
    toGraph := if x.toGraph = key then slot else x.toGraph }
  let s := v.tiles.foldl (fun s x => restoreTile s g x) s
  { s with
    graphs := s.graphs ++ [g]
    gates := s.gates.map mark
    cells := (s.cells.filter fun c => !cellInside r c.1) ++ v.cells
    mgmt := { s.mgmt with saved := s.mgmt.saved.filter fun x => x != v }
    turns := s.turns ++ .graph slot :: g.rims.map fun t => .rim t
    hubq := s.hubq ++ ((g.requests.filter fun x => x.answer.isNone).map fun (x : AgnReq) => .areq slot x.id) ++
      (g.regions.filter fun r => !r.heldWrites.isEmpty).map fun r => .agnStore slot r.id
    agenda := s.agenda ++ (g.regions.filter fun r => r.creel.any CreelEntry.live).map fun r => .creelReplay (.agn slot r.id) }

/-- R375: whether a bind with RESUME has what it needs. -/
def State.mayResume (s : State) (slot : Nat) (r : BitVec 1024) : Bool :=
  (s.savedFor r).isSome && s.rectFree s.island.absent slot r && s.grantsFree slot r

/-- R375: a bind with RESUME is in force; dispatch waits until what it needs is free. -/
def restoreGraph (s : State) (slot : Nat) (r : BitVec 1024) : State :=
  match s.savedFor r with
  | none => s
  | some v =>
    let s := { s with mgmt := { s.mgmt with slots := sparsePut 0 s.mgmt.slots slot r } }
    if s.mayResume slot r then resumeGraph s slot r v else s

/-! ### The policy (R365, R366) -/

/-- R366: whether a launch comes to its turn: those before it in its queue have started, its dependence holds, and no pre-empted graph of
its PRIO or a higher one waits to be restored. -/
def State.atTurn (s : State) (l : Launch) : Bool :=
  (headLaunches s.mgmt.launches []).contains l && s.dependence l == some true &&
  s.mgmt.saved.all fun v => decide (bindPrio v.record < recPrio l.record)

/-- R365: the mappings that a launch may use: its preferred one alone under FIXMAP. -/
def Launch.maps (l : Launch) : List Nat :=
  if recFixmap l.record then [recMap l.record] else List.range l.image.maps.length

/-- R365: PLACE fixes the origin. -/
def Launch.origins (l : Launch) : List (Nat × Nat) :=
  if recPlace l.record then [(recRow0 l.record, recCol0 l.record)]
  else (List.range 48).flatMap fun i => (List.range 44).map fun j => (i, j)

/-- R365, R366: a launch can be bound beside some records: a mapping that it may use fits at an origin, and its hoops and keys are
free. -/
def State.roomFor (s : State) (records : List (BitVec 1024)) (l : Launch) : Bool :=
  grantsClear records l.image.hoops l.image.keys &&
  l.maps.any fun m => l.image.maps[m]?.any fun fp => l.origins.any fun o =>
    rectClear s.island.absent records o.1 o.2 fp.1 fp.2

/-- R366: whether a launch can start now. -/
def State.canStart (s : State) (l : Launch) : Bool := s.atTurn l && s.roomFor (s.records 64) l

/-- R366: a launch may start: it is at its turn, and of those that can start none has a higher effective priority, and none of an equal
one has arrived earlier. -/
def State.mayStart (s : State) (l : Launch) : Bool :=
  let prio (x : Launch) : Nat := (x.aged s.time).prio
  let earlier := s.mgmt.launches.takeWhile fun x => x != l
  s.atTurn l && (s.mgmt.launches.all fun x => decide (prio x ≤ prio l) || !s.canStart x) &&
  earlier.all fun x => decide (prio x < prio l) || !s.canStart x

/-- R366: the graphs that a launch may pre-empt, those of a lower PRIO, in the order in which the policy takes them: the lowest PRIO
first, then the most recently started. -/
def State.victims (s : State) (l : Launch) : List Graph :=
  let later (a b : Graph) : Bool := decide (a.prio < b.prio) || (a.prio == b.prio && decide (b.tstart.toNat ≤ a.tstart.toNat))
  let insert (l : List Graph) (g : Graph) : List Graph :=
    (l.takeWhile fun x => later x g) ++ g :: l.dropWhile fun x => later x g
  (s.allGraphs.filter fun g => decide (g.prio < recPrio l.record)).foldl insert []

/-- The parts of a list with some number of members, those of its first members first. -/
def choices {α : Type} : Nat → List α → List (List α)
  | 0, _ => [[]]
  | _ + 1, [] => []
  | k + 1, x :: rest => (choices k rest).map (x :: ·) ++ choices (k + 1) rest

/-- R366: the fewest graphs whose pre-emption frees what a launch needs, as the policy chooses them. -/
def State.toPreempt (s : State) (l : Launch) : List Graph :=
  let pool := s.victims l
  let frees (gs : List Graph) : Bool :=
    s.roomFor (s.mgmt.slots.filterMap fun x =>
      if bindValid x.2 = true ∧ (gs.any fun g => g.slot == x.1) = false then some x.2 else none) l
  ((List.range (pool.length + 1)).findSome? fun k => (choices k pool).find? frees).getD []

/-- R366: the launches at their turn that cannot be bound, the highest effective priority first, and what they pre-empt. -/
def State.preemptions (s : State) : List Instr :=
  let waits := s.mgmt.launches.filter fun l => s.atTurn l && !s.roomFor (s.records 64) l
  let first := (List.range 4).reverse.findSome? fun p => waits.find? fun l => (l.aged s.time).prio == p
  match first with
  | none => []
  | some l => ((s.toPreempt l).filter fun g => !g.saving).map fun g => .graphPreempt g.slot

/-! ### Dispatch (R366, R370, R371, R375) -/

/-- R370: whether a bind record may be written: management runs, the record is in order, and the entry is free. -/
def State.slotOpen (s : State) (slot : Nat) (r : BitVec 1024) : Bool :=
  let now := sparseGet 0 s.mgmt.slots slot
  s.island.st == .serve && decide (slot < 64) && bindValid r && bindClean r && (s.getGraph slot).isNone &&
  (!bindValid now || now == r) && s.mgmt.writes.all fun w => w.note.all fun n => n.slot != some slot

/-- R365, R370: a bind record carries what its launch lays down. -/
def Launch.allows (l : Launch) (r : BitVec 1024) : Bool :=
  bindPrio r == recPrio l.record && bindImage r == (recImage l.record).toNat && bindCompl r == recCompl l.record &&
  (!recFixmap l.record || bindMap r == recMap l.record) &&
  (!recPlace l.record || (bindRow0 r == recRow0 l.record && bindCol0 r == recCol0 l.record))

/-- R371: a bind record is in force, and dispatch acts on it. -/
def dispatchBind (s : State) (slot : Nat) (r : BitVec 1024) : State :=
  let s := { s with mgmt := { s.mgmt with slots := sparsePut 0 s.mgmt.slots slot r } }
  (bindGraph s s.island.absent slot r).settleLaunches

/-- R366, R371: BIND_DISPATCH: the record of a waiting launch is written only once the launch may start. -/
def execBindDispatch (slot : Nat) (r : BitVec 1024) (s : State) : Result :=
  let s := s.settle
  if !s.slotOpen slot r then .next s
  else if bindResume r then .next (restoreGraph s slot r)
  else
    match s.mgmt.launches.find? fun l => l.queue == bindQueue r && recSeq l.record == bindSeq r with
    | none => .next (dispatchBind s slot r)
    | some l =>
      if s.mayStart l && l.allows r then
        .next (dispatchBind { s with mgmt := { s.mgmt with launches := s.mgmt.launches.filter fun x => x != l } } slot r)
      else .next s

/-- R375: GRAPH_RESTORE. -/
def execGraphRestore (slot : Nat) (r : BitVec 1024) (s : State) : Result :=
  let s := s.settle
  if s.slotOpen slot r then .next (restoreGraph s slot r) else .next s

end Sys2Proof.Machine
end

