-- ==== Sys2Proof/Machine/Island.lean ====
section
/-! DEFINITION. The pintle island: its states and resets, the watchdogs and supplies, boot with its journal, firmware and the mailbox
(R380, R398 to R403, R408 to R419). -/

namespace Sys2Proof.Machine

/-! ### The boot journal (R414, R415) -/

/-- R415: bytes 0 to 27 of an entry. -/
def journalHead (step unit attempt method outcome : Nat) (boot : BitVec 32) (time : BitVec 64) (detail : Nat) : Nat :=
  step + 2 ^ 8 * unit + 2 ^ 16 * attempt + 2 ^ 24 * method + 2 ^ 26 * outcome + 2 ^ 32 * boot.toNat + 2 ^ 64 * time.toNat +
  2 ^ 128 * detail

/-- R415: an entry with its CRC. -/
def journalEntry (head : Nat) : JournalEntry :=
  BitVec.ofNat 256 (head + 2 ^ 224 * (Config.crc32 (bytesOf 28 head)).toNat)

/-- R415: an entry joins the ring of 4,096. -/
def Island.log (x : Island) (e : JournalEntry) : Island :=
  { x with
    journal := if x.jhead < x.journal.length then x.journal.set x.jhead e else x.journal ++ [e]
    jhead := (x.jhead + 1) % 4096 }

/-- A saturating count of resets (R410). -/
def satInc (n : BitVec 16) : BitVec 16 := if n = 0xFFFF then n else n + 1

/-- R415: what an attempt of the present boot leaves in the journal. -/
def Island.note (x : Island) (step unit attempt method outcome : Nat) (time : BitVec 64) (detail : Nat) : Island :=
  x.log (journalEntry (journalHead step unit attempt method outcome x.bootCount time detail))

/-- R415: whether an entry's CRC holds. -/
def entrySound (e : JournalEntry) : Bool := fld e 224 32 == Config.crc32 (bytesOf 28 e.toNat)

/-- R415, R416: the entries of the previous boot that say that a unit of a step failed. -/
def Island.failures (x : Island) (step unit : Nat) : List JournalEntry :=
  x.journal.filter fun e => entrySound e && fld e 32 32 + 1 == x.bootCount && fld e 0 8 == BitVec.ofNat 8 step &&
    fld e 8 8 == BitVec.ofNat 8 unit && fld e 26 2 == 1

/-! ### Boot (R414, R416, assumption 24) -/

/-- How a boot ends that does not raise SERVE (R414, R417). -/
inductive BootEnd where
  /-- the module stays unresponsive -/
  | dead
  /-- the ROM's safe-talk state -/
  | romTalk
  /-- the island serves transit only -/
  | transitOnly
  | safeTalk
  deriving DecidableEq, Repr

/-- A boot under way: the island, the flash slot that it takes, the hubs whose cache die it leaves off, and, once a step that is not
optional has failed by every method, the outcome that R414 lists for it and whether it failed so in the previous boot too. -/
structure Boot where
  isl : Island
  slot : Bool
  dies : List Nat
  bad : Option BootEnd
  twice : Bool
  deriving DecidableEq, Repr

/-- The attempts at a unit of a step: the island with their journal, the fault of the last (none: it passed), and its number and
method. -/
structure Attempts where
  isl : Island
  fault : Option PartFault
  attempt : Nat
  method : Nat
  deriving DecidableEq, Repr

/-- R415 DETAIL of a failure: bit 63 tells a hub's own fault from its cache die's (assumption 24). -/
def PartFault.word (f : PartFault) : Nat := f.detail % 2 ^ 63 + 2 ^ 63 * f.whole.toNat

/-- R414: what fails a unit of a step by a method. -/
def Island.fails (x : Island) (step unit method : Nat) : Option PartFault :=
  x.wear.find? fun f => f.step == step && f.unit == unit && f.method == method

/-- R414: a unit is tried by some methods in turn, from an attempt on, until it passes. -/
def Island.tryUnit (x : Island) (step unit : Nat) (hits : Nat → Option PartFault) (time : BitVec 64) :
    List Nat → Nat → Option PartFault → Attempts
  | [], n, last => ⟨x, last, n - 1, 0⟩
  | m :: rest, n, _ =>
    match hits m with
    | none => ⟨x, none, n, m⟩
    | some f => (x.note step unit n m 1 time f.word).tryUnit step unit hits time rest (n + 1) (some f)

/-- R416: the order of the methods: the alternate first where the unit failed in the previous boot. -/
def Island.order (x : Island) (step unit : Nat) (methods : List Nat) : List Nat :=
  if (x.failures step unit).isEmpty then methods else methods.reverse

/-- R416: a unit that is not optional has failed by every method. -/
def Boot.fail (b : Boot) (step unit : Nat) (methods : List Nat) (e : BootEnd) : Boot :=
  { b with bad := some e, twice := methods.all fun m => (b.isl.failures step unit).any fun x => (fld x 24 2).toNat == m }

/-- One part of a boot after another, unless it has failed. -/
def Boot.go (b : Boot) (f : Boot → Boot) : Boot := if b.bad.isSome then b else f b

/-- R414: a step begins. -/
def Boot.begin (b : Boot) (step : Nat) : Boot := b.go fun b => { b with isl := { b.isl with bstep := BitVec.ofNat 8 step } }

/-- R414: a unit that is not optional; `good` is what its passing brings. -/
def Boot.unit (b : Boot) (step unit : Nat) (methods : List Nat) (hits : Nat → Option PartFault) (time : BitVec 64) (e : BootEnd)
    (good : Nat → Boot → Boot) : Boot :=
  b.go fun b =>
    let t := b.isl.tryUnit step unit hits time (b.isl.order step unit methods) 1 none
    match t.fault with
    | some _ => ({ b with isl := t.isl } : Boot).fail step unit methods e
    | none => good t.method { b with isl := t.isl.note step unit t.attempt t.method 0 time 0 }

/-- R414: a unit that is not optional and brings nothing further. -/
def Boot.plain (b : Boot) (time : BitVec 64) (step : Nat) (methods : List Nat) (e : BootEnd) (unit : Nat) : Boot :=
  b.unit step unit methods (b.isl.fails step unit) time e fun _ b => b

/-! #### Firmware (R414 step 2, R418, R419) -/

/-- R418: the ROM accepts an image: both signatures verify over its digest, and its version is not below the rollback counter. The
image that left test, which a slot holds until command 5 writes it, is accepted (assumption 25). -/
def firmwareOk (x : Island) (image : List Byte) : Bool :=
  image.isEmpty ||
  (let digest := bytesOf 48 (Config.sha384 image).toNat
   let sigs := Config.firmwareSigs image
   Config.rsaOk digest sigs.1 && Config.slhOk digest sigs.2 && x.rollback.ule (Config.firmwareVersion image))

/-- The image of a flash slot. -/
def Island.image (x : Island) (slot : Bool) : List Byte := x.fwSlots.toList.getD slot.toNat []

/-- R414 step 2, R418: the slot of a method: an image newly written to the inactive slot is the primary, then the active slot. -/
def Island.slotBy (x : Island) (method : Nat) : Bool := if (method == 0) == x.fwFresh then !x.fwActive else x.fwActive

/-- R414 step 2, R418: the slot whose image the ROM accepts; none where neither is. -/
def bootSlot (x : Island) : Option Bool := ([0, 1].map x.slotBy).find? fun k => firmwareOk x (x.image k)

/-- R419: the bytes of a fuse map, overlay and SEAMLAT. -/
def fuseBytes (x : Island) : List Byte :=
  (x.deadTiles ++ x.overlay).flatMap (bytesOf 2) ++ (x.cellDefects.flatMap fun c => bytesOf 2 c.1 ++ bytesOf 3 c.2.toNat) ++
  bytesOf 6 x.seamFuse.toNat

/-- R419: the firmware that starts is measured: its image, its configuration with the routing table in force, and the fuses. -/
def Island.measure (x : Island) (slot : Bool) : Island :=
  let table := match x.gens with | g :: _ => g.table | [] => []
  ((x.extend 0 (Config.sha384 (x.image slot))).extend 1 (Config.sha384 table)).extend 2 (Config.sha384 (fuseBytes x))

/-- R414 step 2: what turns a method away: a fault, or an image that the ROM does not accept. -/
def Island.slotFails (x : Island) (method : Nat) : Option PartFault :=
  match x.fails 2 0xFF method with
  | some f => some f
  | none => if firmwareOk x (x.image (x.slotBy method)) then none else some ⟨2, 0xFF, method, false, 0⟩

/-! #### The steps -/

/-- R414 step 3: a strand port, skipped where it failed in the previous boot, and left down where it fails (R416). -/
def Boot.port (b : Boot) (time : BitVec 64) (p : Nat) : Boot :=
  b.go fun b =>
    let down (x : Island) : Island := { x with ports := x.ports.setIfInBounds p ⟨false, 0, false, 0, [], []⟩ }
    if (b.isl.failures 3 p).isEmpty then
      let t := b.isl.tryUnit 3 p (b.isl.fails 3 p) time [0, 1] 1 none
      { b with isl := if t.fault.isSome then down t.isl else t.isl.note 3 p t.attempt t.method 0 time 0 }
    else { b with isl := down (b.isl.note 3 p 1 2 2 time 0) }

/-- R396, R397: the tiles of a field that its self-test finds dead: those that are, and those that neither net reaches. -/
def Island.newDead (x : Island) (field : Nat) : List Nat :=
  (List.range' (144 * field) 144).filter fun p =>
    !x.dead.contains p && (x.found.contains p || (x.cuts.contains (p, 0) && x.cuts.contains (p, 1)))

/-- R414 step 5: a field. New dead tiles join the overlay, and degrade the attempt that finds them; a fault of the field's regulator or
spine is final. -/
def Boot.field (b : Boot) (time : BitVec 64) (u : Nat) : Boot :=
  b.go fun b =>
    let t := b.isl.tryUnit 5 u (b.isl.fails 5 u) time (b.isl.order 5 u [0, 1]) 1 none
    let tiles := b.isl.newDead u
    match t.fault, tiles with
    | some f, _ =>
      let x : Island := { t.isl with overlay := t.isl.overlay ++ tiles }
      if f.whole then ({ b with isl := x } : Boot).fail 5 u [0, 1] .safeTalk else { b with isl := x }
    | none, [] => { b with isl := t.isl.note 5 u t.attempt t.method 0 time 0 }
    | none, _ :: _ =>
      let x := tiles.foldl (fun (x : Island) p => x.note 5 u t.attempt t.method 3 time (p % 144)) t.isl
      { b with isl := { x with overlay := x.overlay ++ tiles } }

/-- R414 step 6: a hub with its cache die. A die that failed in the previous boot is skipped, and one that fails is left off; a fault of
the hub itself is final (R416). -/
def Boot.hub (b : Boot) (time : BitVec 64) (u : Nat) : Boot :=
  b.go fun b =>
    let skip := (b.isl.failures 6 u).any fun e => !e.getLsbD 191
    let hits (m : Nat) : Option PartFault := (b.isl.fails 6 u m).filter fun f => f.whole || !skip
    let off (b : Boot) : Boot := { b with isl := { b.isl with degraded := true }, dies := b.dies ++ [u] }
    let b := if skip then off { b with isl := b.isl.note 6 u 1 2 2 time 0 } else b
    let order := if skip then [0, 1] else b.isl.order 6 u [0, 1]
    let t := b.isl.tryUnit 6 u hits time order (if skip then 2 else 1) none
    match t.fault with
    | some f =>
      let b : Boot := { b with isl := t.isl }
      if f.whole then b.fail 6 u [0, 1] .safeTalk else off b
    | none => { b with isl := t.isl.note 6 u t.attempt t.method 0 time 0 }

/-- R414: steps 1 to 4: ROM and fuses, firmware, the island with its ports, HingeLink. -/
def Boot.islandSteps (b : Boot) (time : BitVec 64) : Boot :=
  let b := (b.begin 1).plain time 1 [0] .dead 0xFF
  let b := (b.begin 2).unit 2 0xFF [0, 1] b.isl.slotFails time .romTalk fun m b =>
    { b with slot := b.isl.slotBy m, isl := b.isl.measure (b.isl.slotBy m) }
  let b := (List.range 16).foldl (fun b p => Boot.port b time p) (b.begin 3)
  (b.begin 4).unit 4 0xFF [0, 1] (b.isl.fails 4 0xFF) time .transitOnly fun m b =>
    { b with isl := { b.isl with linkUp := true, degraded := m == 1, fwActive := b.slot, fwFresh := false } }

/-- R414, R415: steps 5 to 9, the compute steps: fields, hubs, stacks, the translation tables, SERVE. -/
def Boot.computeSteps (b : Boot) (time : BitVec 64) : Boot :=
  let b := (List.range 16).foldl (fun b u => Boot.field b time u) (b.begin 5)
  let b := b.go fun b => { b with isl := { b.isl with found := [], unreached := b.isl.cuts } }
  let b := (List.range 12).foldl (fun b u => Boot.hub b time u) (b.begin 6)
  let b := (List.range 12).foldl (fun b u => Boot.plain b time 7 [0, 1] .safeTalk u) (b.begin 7)
  let b := (b.begin 8).plain time 8 [0] .safeTalk 0xFF
  (b.begin 9).go fun b => { b with isl := b.isl.note 9 0xFF 1 0 0 time 0 }

/-- R399, R414, R419: the island as a boot from step 1 finds it. -/
def Island.starts (x : Island) : Island :=
  { x with
    mrs := Vector.replicate 8 0
    ports := Vector.replicate 16 ⟨true, 0, false, 0, [], []⟩
    ownLag := false
    lags := []
    cold := false
    degraded := false
    safeTalk := false
    linkUp := false
    answer := (0, 0) }

/-- R414: one boot, from step 1 where it is full, else the compute steps. -/
def bootOnce (full : Bool) (x : Island) (time : BitVec 64) : Boot :=
  let b : Boot := ⟨if full then x.starts else x, x.fwActive, [], none, false⟩
  (if full then b.islandSteps time else b).computeSteps time

/-- R416: boot is run again, once, where a step that is not optional has failed for the first time. -/
def bootTwice (full : Bool) (x : Island) (time : BitVec 64) : Boot :=
  let b := bootOnce full x time
  if b.bad.isSome && !b.twice then bootOnce full { b.isl with bootCount := b.isl.bootCount + 1 } time else b

/-! ### Compute reset (R400, R401) -/

/-- R401 step 2: a launch that management ends completes ABORTED. -/
def abortLaunch (s : State) (l : Launch) : State :=
  writeCompletion s (recCompl l.record) (recSeq l.record) l.queue launchAborted 0 Outcomes.none

/-- R401 step 2: the graph of a bind record ends ABORTED; the record may stand in a slot. -/
def abortBound (s : State) (r : BitVec 1024) (slot : Option Nat) (o : Outcomes) : State :=
  writeRecord s (bindCompl r) ⟨bindQueue r, bindSeq r, launchAborted, slot⟩ 0 o

/-- R401 step 2: the records of a queue that management has not read complete ABORTED. -/
def abortUnread (s : State) (x : Nat × Queue) : State :=
  match hartNum x.2.tailw 8 s with
  | .ok tail s =>
    if tailOk x.2 tail then
      (List.range (tail - x.2.head.toNat)).foldl (fun s k => rejectRecord s (x.1, x.2.entry (x.2.head.toNat + k), launchAborted)) s
    else s
  | .bad s => s
  | .hold _ _ => s

/-- The bind records in force without a graph and without a save: dispatch has not come to them yet. -/
def State.unbound (s : State) : List (Nat × BitVec 1024) :=
  s.mgmt.slots.filter fun x => bindValid x.2 && !bindResume x.2 && (s.getGraph x.1).isNone &&
    s.mgmt.writes.all fun w => w.note.all fun n => n.slot != some x.1

/-- R401 step 2: every launch that is bound, saved or queued completes ABORTED. -/
def abortAll (s : State) : State :=
  let bound := s.allGraphs.map fun g => (g, graphOutcomes s g false)
  let waits := s.unbound
  let s := bound.foldl (fun (s : State) x => removeGraph s x.1) s
  let s := bound.foldl (fun (s : State) x => abortBound s x.1.record (some x.1.slot) x.2) s
  let s := waits.foldl (fun (s : State) x => abortBound s x.2 (some x.1) Outcomes.none) s
  let s := s.mgmt.saved.foldl (fun (s : State) v => abortBound s v.record none v.outcomes) s
  let s := s.mgmt.launches.foldl abortLaunch s
  s.mgmt.queues.foldl abortUnread s

/-- R401 steps 1 and 2: every bound graph stops, every launch completes ABORTED, and every queue closes; the hubs have until
ORPHAN_TIMEOUT to answer what they have. -/
def computeReset (s : State) : State :=
  if s.island.st ≠ .serve then s
  else
    let s := s.settle
    let s := abortAll { s with island := { s.island with st := .transit } }
    { s with
      mgmt := { s.mgmt with
        queues := [], closed := s.mgmt.queues.foldl (fun l x => assocPut l x.1 x.2) s.mgmt.closed
        launches := [], saved := [], drained := [] }
      agenda := s.agenda ++ [.orphanTimeout] }

/-- R401 step 3, R403: a request that a hub has not answered is answered ORPHAN, whether it has been performed or not. -/
def orphanRequest (s : State) (q : HubReq) : State :=
  match q with
  | .remote _ p => answerPacket s p (.orphan (bodyId p.body))
  | .answer _ p _ => answerPacket s p (.orphan (bodyId p.body))
  | .companion (.load id _ _ _) => s.tellHinge id .orphan
  | .companion (.store id _ _) => s.tellHinge id .orphan
  | .companion (.cache id _ _) => s.tellHinge id .orphan
  | .companion (.writeBack _ _) => s
  | .companion (.status id off) => s.tellHinge id (.bytes (bytesOf 8 (s.statusWord off).toNat))
  | .rimLoad _ => s
  | .rimStore _ => s
  | .areq _ _ => s
  | .agnStore _ _ => s
  | .copyStep _ _ => s
  | .encodeStep _ => s
  | .split _ _ => s
  | .migrate _ => s

/-- R401 step 3: all of them, and the arrivals of other modules at hoops that have not opened. -/
def orphanRequests (s : State) : State :=
  let held := s.hoops.toList.flatMap fun h => (h.arrivals ++ h.early).filterMap fun a => match a with
    | .remote p => some p
    | .cmd _ => none
    | .engine => none
  let s := s.hubq.foldl orphanRequest { s with hubq := [] }
  held.foldl (fun s p => answerPacket s p (.orphan (bodyId p.body))) s

/-- R351, R352, R399, R401 step 4, R412: what a hub keeps through a compute reset: its banks and frames, the frame poison map, and the
state of its cache die. Dirty lines have been written back; where that takes longer than the grace period the die stops early, and the
frames left are poisoned. -/
def Hub.keep (h : Hub) : Hub :=
  let saved := writtenBack writeBackLines h.dirtyOrder
  let left := (h.dirty.map Prod.fst).filter fun f => !saved.contains f
  { Hub.reset with
    bankMap := h.bankMap
    frames := BitVec.ofNat 64 h.capacity
    poisonMap := h.poisonMap ++ left.filter fun f => !h.poisonMap.contains f
    cleared := h.cleared.filter fun l => !left.contains (l / 1024)
    restriped := h.restriped
    retired := h.retired
    cacheDie := if left = [] then h.cacheDie else 2 }

/-- R401 step 5: what the module holds after the reset of its compute dies: HBM, companion memory, the island and management's
settings, with the completion records that wait for their pages; all else is as at reset. -/
def resetCompute (s : State) : State :=
  let kept (c : Host.Cell) : Bool := decide (c.1 < spaceSize ∨ 4 * spaceSize ≤ c.1)
  { State.reset with
    mem := s.mem.filter kept
    linePoison := s.linePoison.filter fun l => decide (64 * l < spaceSize)
    tile := bootTile s.island 0
    tiles := (bootTiles s.island).filter fun x => x.1 != 0
    hubs := s.hubs.map Hub.keep
    time := s.time
    cycle := s.cycle
    free := s.free
    noticeId := s.noticeId
    agenda := s.agenda
    island := { s.island with
      remotes := [], arrived := [], heldLines := [], dirtyLines := [], overlaid := [], farPages := [], recalls := [] }
    mgmt := { Mgmt.reset with
      few := s.mgmt.few, statg := s.mgmt.statg, budget := s.mgmt.budget, freqs := s.mgmt.freqs, thermal := s.mgmt.thermal
      closed := s.mgmt.closed, rejects := s.mgmt.rejects, writes := s.mgmt.writes, acts := s.mgmt.acts, reads := s.mgmt.reads } }

/-- What is left of a module whose compute dies and HBM are unpowered: the island's registers, companion memory, and the always-on
domain (R399, R417). -/
def unpower (s : State) : State :=
  { resetCompute { s with mem := s.mem.filter fun c => decide (4 * spaceSize ≤ c.1) } with linePoison := [] }

/-- R414, R417: a boot that has ended: SERVE is raised, or the outcome that R414 lists for the step that failed. -/
def bootEnds (s : State) (b : Boot) : State :=
  let die (h : Nat) (x : Hub) : Hub := if b.dies.contains h then { x with cacheDie := 2 } else x
  let up (st : IslandState) : State := { s with island := { b.isl with st := st } }
  match b.bad with
  | none =>
    let s := resetCompute (up .serve)
    { s with hubs := Vector.ofFn fun k => die k.val (getHub s k.val) }
  | some .dead => unpower (up .off)
  | some .romTalk => unpower { s with island := { b.isl with st := .transit, safeTalk := true, linkUp := true } }
  | some .transitOnly => unpower { s with island := { b.isl with st := .transit, linkUp := false } }
  | some .safeTalk => unpower { s with island := { b.isl with st := .transit, safeTalk := true } }

/-- R401 steps 4 to 6: the compute dies reset, the compute steps of boot run, and the island serves; the completion records that wait
are met again. -/
def bootCompute (s : State) : State :=
  let s := bootEnds s (bootTwice false { s.island with cresets := satInc s.island.cresets } s.time)
  retryRejects (retryWrites s)

/-- R401: ORPHAN_TIMEOUT: after 100 µs the requests left are answered ORPHAN, and the reset runs its course. -/
def execOrphanTimeout (s : State) : Result :=
  if s.island.st = .transit ∧ s.island.safeTalk = false then .next (bootCompute (orphanRequests s)) else .next s

/-- R400: COMPUTE_WATCHDOG: 100 ms without a heartbeat from every hub. -/
def execComputeWatchdog (s : State) : Result := .next (computeReset s)

/-! ### Island reset (R400, R402) -/

/-- R400, R402, R408: an island reset: every graph is held, packets in the island are dropped, HingeLink is down. -/
def islandReset (s : State) : State :=
  if s.island.st = .serve ∨ s.island.st = .transit then
    let hold (g : Graph) : Graph := if g.slot < 64 then g.raise holdMgmt else g
    { s with
      graph := hold s.graph
      graphs := s.graphs.map hold
      island := { s.island with
        st := .ireset
        held := s.island.st
        transit := []
        linkUp := false
        iresets := satInc s.island.iresets } }
  else s

/-- R400: ISLAND_WATCHDOG: the island watchdog expires after 1 s. -/
def execIslandWatchdog (s : State) : Result := .next (islandReset s)

/-- R409: HINGELINK_HOT_RESET is an island reset. -/
def execHingelinkHotReset (s : State) : Result := .next (islandReset s)

/-- R409: HINGELINK_LINK_DOWN resets nothing. -/
def execHingelinkLinkDown (s : State) : Result := .next { s with island := { s.island with linkUp := false } }

/-! ### Firmware restarts (R400, R402, R414 step 2, R418) -/

/-- R400, R402: the island's firmware has started: the state held returns, the graphs' hold drops but in those that management saves,
management looks at its queues, and compute dies that were on their way up start. A module in safe-talk stays there (R417). -/
def startFirmware (s : State) (slot : Bool) : State :=
  let free (g : Graph) : Graph := if g.saving then g else g.drop holdMgmt
  let late := s.island.held == .transit && !s.island.safeTalk
  { s with
    graph := free s.graph
    graphs := s.graphs.map free
    island := { s.island.measure slot with st := s.island.held, fwActive := slot, fwFresh := false, linkUp := true }
    agenda := s.agenda ++ (s.mgmt.queues.map fun q => .launchRecord q.1) ++ if late then [.orphanTimeout] else [] }

/-- R414 step 2, R417: no image is accepted: the ROM's safe-talk state, whose compute dies are unpowered. -/
def romSafeTalk (s : State) : State :=
  unpower { s with island := { s.island with st := .transit, safeTalk := true, bstep := 2, linkUp := true } }

/-- R400: ISLAND_FIRMWARE_START. -/
def execIslandFirmwareStart (s : State) : Result :=
  if s.island.st = .ireset then
    match bootSlot s.island with
    | some slot => .next (startFirmware s slot)
    | none => .next (romSafeTalk s)
  else .next s

/-! ### Supplies (R399, R400, R412, R420) -/

/-- R400: the module without its main supply. Management's harts have lost theirs too; what they will do is not of the module. -/
def powerOff (s : State) : State :=
  let s' := unpower s
  { s' with
    mgmt := { Mgmt.reset with acts := s.mgmt.acts, reads := s.mgmt.reads }
    island := { s'.island with st := .off, held := .serve, transit := [], linkUp := false, safeTalk := false } }

/-- R412: a hub's cache die stops early and loses power. -/
def stopCacheDie (s : State) (hub : Nat) : State :=
  match execCacheDieEarlyStop hub s with
  | .next s1 =>
    match execCacheDiePowerLoss hub { s1 with agenda := s.agenda } with
    | .next s2 => s2
    | .fault _ => s1
    | .refused _ => s1
  | .fault _ => s
  | .refused _ => s

/-- R400, R412: MAIN_SUPPLY_LOSS: the cache dies stop early on the hold-up, and the island goes OFF. -/
def execMainSupplyLoss (s : State) : Result :=
  if s.island.st = .off then .next s else .next (powerOff ((List.range 12).foldl stopCacheDie s))

/-- R399: STANDBY_SUPPLY_LOSS: the island loses its supply too, and the always-on domain resets: TIME, the poison maps and the
reset counters. Fuses and flash keep what they hold. -/
def execStandbySupplyLoss (s : State) : Result :=
  let s := powerOff s
  .next { s with
    time := 0
    hubs := s.hubs.map fun h => { h with poisonMap := [], cleared := [], restriped := [] }
    island := { s.island with cresets := 0, iresets := 0, cold := true } }

/-- R399, R400, R414: POWER_UP: a full reset boots the module from step 1. It is an island reset and a compute reset together;
a module whose standby supply was removed starts its counters from zero. The cache dies return. -/
def execPowerUp (s : State) : Result :=
  if s.island.st = .off then
    let x := s.island
    let b := bootTwice true { x with
      bootCount := x.bootCount + 1
      held := .transit
      cresets := if x.cold then 0 else satInc x.cresets
      iresets := if x.cold then 0 else satInc x.iresets } s.time
    .next (bootEnds { s with hubs := s.hubs.map fun h => { h with cacheDie := 0 } } b)
  else .next s

/-! ### The mailbox (R411, R417) -/

/-- R411: management answers a command. -/
def State.answer (s : State) (seq : BitVec 64) (code : BitVec 32) : State :=
  { s with island := { s.island with answer := (seq, code) } }

/-- R398, R411, R417: a command reaches management while HingeLink is up; in safe-talk only the commands marked S are accepted. -/
def mailbox (seq : BitVec 64) (accepted : Bool) (run : State → State) (s : State) : Result :=
  if !s.carries || !s.island.linkUp then .next s
  else if s.island.safeTalk && !accepted then .next (s.answer seq 1)
  else .next (run s)

/-- R411: MBX_COMPUTE_RESET: done from SERVE; there is nothing to reset otherwise. -/
def execMbxComputeReset (seq : BitVec 64) (s : State) : Result :=
  mailbox seq false (fun s => if s.island.st = .serve then (computeReset s).answer seq 0 else s.answer seq 1) s

/-- R411, R417: MBX_ISLAND_RESET, which leaves safe-talk. -/
def execMbxIslandReset (seq : BitVec 64) (s : State) : Result :=
  mailbox seq true (fun s => (islandReset { s with island := { s.island with safeTalk := false } }).answer seq 0) s

/-- Bytes written to companion memory. -/
def writeCompanion (s : State) (ia n v : Nat) : State := { s with mem := writeBytes s.mem (companionLoc ia) n v }

/-- R411: the entries of a range of indices copied out, an index at which no entry has been written skipped. -/
def copyJournal (s : State) (first count ia : Nat) : State :=
  (List.range (min count 4096)).foldl (fun (s : State) k =>
    match s.island.journal[(first + k) % 4096]? with
    | some e => writeCompanion s (ia + 32 * k) 32 e.toNat
    | none => s) s

/-- R411: MBX_READ_JOURNAL. -/
def execMbxReadJournal (seq : BitVec 64) (first count ia : Nat) (s : State) : Result :=
  mailbox seq true (fun s => (copyJournal s first count ia).answer seq 0) s

/-- R419: the body of an attestation report: nonce, MR0 to MR7, BOOT and the status words. -/
def reportBody (s : State) (nonce : BitVec 256) : List Byte :=
  let x := s.island
  bytesOf 32 nonce.toNat ++ (x.mrs.toList.flatMap fun m => bytesOf 48 m.toNat) ++ bytesOf 4 x.bootCount.toNat ++
  bytesOf 8 s.status0.toNat ++ bytesOf 8 x.status8.toNat

/-- A list of bytes written to companion memory. -/
def writeReport (s : State) : List Byte → Nat → State
  | [], _ => s
  | b :: rest, ia => writeReport { s with mem := writeByte s.mem (companionLoc ia) b } rest (ia + 1)

/-- R419: MBX_ATTESTATION: the report with its signatures. The ROM's own safe-talk does not accept it (R414 step 2). -/
def execMbxAttestation (seq : BitVec 64) (nonce : BitVec 256) (ia : Nat) (s : State) : Result :=
  mailbox seq (s.island.bstep != 2) (fun s =>
    let body := reportBody s nonce
    (writeReport s (body ++ Config.attest body) ia).answer seq 0) s

/-- R411, R418: an image is written to the inactive slot; one that verifies and carries the flag raises the rollback counter. -/
def loadFirmware (x : Island) (image : List Byte) : Island :=
  let x := { x with fwSlots := x.fwSlots.setIfInBounds (!x.fwActive).toNat image, fwFresh := true }
  if Config.firmwareRaises image && firmwareOk x image then { x with rollback := Config.firmwareVersion image } else x

/-- R418: MBX_LOAD_FIRMWARE. -/
def execMbxLoadFirmware (seq : BitVec 64) (ia len : Nat) (s : State) : Result :=
  mailbox seq true (fun s =>
    let image := (List.range len).map fun k => readByte s.mem (companionLoc (ia + k))
    ({ s with island := loadFirmware s.island image }).answer seq 0) s

/-- R363: TAILW lies on a page with HC = 1. -/
def State.tailCached (s : State) (d : BitVec 256) : Bool :=
  let e := getPte s ((fld d 64 44).toNat / 65536)
  pteV e && pteHc e

/-- R363, R411: MBX_INSTALL_QUEUE: a descriptor within its limits opens a queue; its head starts at 0. What a launch may depend on
stays (R366). -/
def execMbxInstallQueue (seq : BitVec 64) (q : Nat) (descr : BitVec 256) (s : State) : Result :=
  mailbox seq false (fun s =>
    if q < 16 ∧ descrOk descr = true ∧ s.tailCached descr = true then
      let log := s.queueLog q
      let s := { s with mgmt := { s.mgmt with closed := assocDrop s.mgmt.closed q } }
      (s.putQueue q ⟨descr, 0, (log.map fun x => x.seen).getD [], (log.map fun x => x.ended).getD []⟩).answer seq 0
    else s.answer seq 1) s

/-- R380: the graphs that a budget does not allow, the lowest PRIO first. -/
def overBudget (budget : Nat) : List Graph → Nat → List Graph
  | [], _ => []
  | g :: rest, total => if total ≤ budget then [] else g :: overBudget budget rest (total - g.power)

/-- R380, R411: MBX_SET_POWER_BUDGET: from 2,000 W to 7,000 W; a lower budget drains graphs. -/
def execMbxSetPowerBudget (seq : BitVec 64) (watts : Nat) (s : State) : Result :=
  mailbox seq false (fun s0 =>
    let s := s0.settle
    if 2000 ≤ watts ∧ watts ≤ 7000 then
      let total := (s.allGraphs.map fun g => g.power).sum
      let over' := if watts < s.mgmt.budget then overBudget watts s.byPrio total else []
      (({ s with mgmt := { s.mgmt with budget := watts } } : State).limit over').answer seq 0
    else s0.answer seq 1) s

end Sys2Proof.Machine
end

