-- ==== Sys2Proof/Machine/Acts.lean ====
section
/-! DEFINITION. The turn of the management harts: what management, the companion, the neighbours and the parts bring about beside the
events of the opcode table, and what the harts read (R1, R234, R288, R291, R349, R353, R354, R365, R366, R375, R377, R380, R397, R400,
R404, R406, R407, R409; assumption 61). -/

namespace Sys2Proof.Machine

/-! ### What the harts read -/

/-- R288: the 96 bytes of a creel entry. -/
def creelBytes (e : CreelEntry) : List Byte :=
  let state : Nat := match e.state with
    | .pending => 1
    | .ended => 2
  bytesOf 96 (e.ia.toNat / 64 * 64 + 2 ^ 48 * e.op.toNat + 2 ^ 51 * e.scope.toNat + 2 ^ 54 * e.attr.toNat + 2 ^ 56 * e.ord.toNat +
    2 ^ 57 * state + 2 ^ 64 * e.mask.toNat + 2 ^ 128 * (e.ctx.toNat + 2 ^ 16 * e.out.toNat) + 2 ^ 192 * e.seq + 2 ^ 256 * e.data.toNat)

/-- The creel of an issuer. An encoder's is that of engine 0 of its hub. -/
def State.creelOf (s : State) (who : Issuer) : List CreelEntry :=
  match who with
  | .rim t => (s.getTile t).core.creel
  | .agn g r => ((s.settle.getRegion g r).map fun x => x.creel).getD []
  | .eng hub e => (s.engine hub e).creel
  | .enc hub => (s.engine hub 0).creel
  | .root _ => []
  | .harts => []
  | .companion => []
  | .remote _ => []

/-- STATE of a region's loop context (R291). -/
def LoopState.code : LoopState → Nat
  | .idle => 0
  | .running => 1
  | .paused => 2
  | .runOut => 3

/-- R291: the word at +8 of a region status, without CREEL. -/
def RegionStatus.flagsWord (x : RegionStatus) : Nat :=
  x.flags.toNat + 2 ^ 6 * x.coll.toNat + 2 ^ 7 * x.drop.toNat + 2 ^ 8 * x.refused.toNat + 2 ^ 9 * x.poison.toNat +
  2 ^ 10 * x.aborted.toNat + 2 ^ 11 * x.gatef.toNat

/-- R291: the 32 bytes of a region's status. -/
def regionBytes (g : Graph) (r : Region) : List Byte :=
  let x := r.status
  bytesOf 32 (r.slots % 2 ^ 32 + 2 ^ 32 * r.sv.toNat + 2 ^ 40 * r.loop.code + 2 ^ 42 * (sparseGet 0 r.accIdx 0 % 64) +
    2 ^ 48 * g.stopped.toNat + 2 ^ 64 * (x.flagsWord + 2 ^ 16 * (r.creel.length % 256)) +
    2 ^ 128 * (x.fails.toNat + 2 ^ 20 * x.firstIa.toNat))

/-- R291: ones written to the word at +8 clear its bits; a one written to FAILS clears the count. -/
def RegionStatus.clear (x : RegionStatus) (fails : Bool) (v : BitVec 64) : RegionStatus :=
  if fails then (if fld v 0 12 = 0 then x else { x with fails := 0 })
  else
    { x with
      flags := x.flags &&& ~~~(fld v 0 6)
      coll := x.coll && !v.getLsbD 6
      drop := x.drop && !v.getLsbD 7
      refused := x.refused && !v.getLsbD 8
      poison := x.poison && !v.getLsbD 9
      aborted := x.aborted && !v.getLsbD 10
      gatef := x.gatef && !v.getLsbD 11 }

/-- The harts have read some bytes. -/
def State.hasRead (s : State) (l : List Byte) : State := { s with mgmt := { s.mgmt with reads := s.mgmt.reads ++ [l] } }

/-! ### What is done -/

/-- R234: management changes the split of a slice by the steps of HSPLIT; no command waits for it. -/
def splitByHarts (s : State) (slice : Nat) (size : BitVec 4) : State :=
  if 768 ≤ slice ∨ 8 < size.toNat then s
  else
    let ref : CmdRef := ⟨4095, s.noticeId⟩
    { s with
      noticeId := s.noticeId + 1
      splits := s.splits ++ [⟨ref, size, []⟩]
      hubq := s.hubq ++ [.split (splitNum ref) slice] }

/-- R417: HingeLink in its status-only mode refuses every access of IA space; the rule gives no reason (assumption 61). -/
def refusedByHinge (s : State) (q : CompanionReq) : State :=
  match q with
  | .load id _ _ _ => s.tellHinge id (.refused 0)
  | .store id _ _ => s.tellHinge id (.refused 0)
  | .cache id _ _ => s.tellHinge id (.refused 0)
  | .writeBack _ _ => s
  | .status _ _ => serveHinge s q

/-- R398, R409, R417: the companion asks something. While the island is in TRANSIT its requests for IA space are answered ORPHAN, in
safe-talk they are refused. -/
def askedByHinge (s : State) (q : CompanionReq) : State :=
  if !s.island.linkUp then s
  else if s.island.st = .transit then
    if s.island.safeTalk then refusedByHinge s q else orphanRequest s (.companion q)
  else match q with
    | .status _ _ => serveHinge s q
    | _ => s.waitHinge q

/-- R353: the oldest notice of a bank that retires: its set and pseudo-channel. -/
def takeRetired (s : State) (hub : Nat) : State :=
  let h := getHub s hub
  match h.retired with
  | [] => s.hasRead []
  | x :: rest => (putHub s hub { h with retired := rest }).hasRead [BitVec.ofNat 8 x.1, BitVec.ofNat 8 x.2]

/-- R407: a neighbour's lag at a port. -/
def Island.heardLag (x : Island) (port : Nat) (gen : BitVec 16) (on : Bool) : Island :=
  let others := x.lags.filter fun l => l != (port, gen)
  { x with lags := if on then others ++ [(port, gen)] else others }

/-- The state that a result leaves. -/
def stateOr (s : State) (r : Result) : State :=
  match r with
  | .next t => t
  | .fault _ => s
  | .refused _ => s

/-- One act. -/
def runAct (s : State) (a : HartAct) : State :=
  match a with
  | .powerOff => stateOr s (execMainSupplyLoss s)
  | .computeReset => computeReset s
  | .setFrames hub used => putHub s hub { getHub s hub with used := used.filter fun f => decide (f < 2 ^ 20) }
  | .allocFrame frame use => useFrames s [frame] use
  | .split slice size => splitByHarts s slice size
  | .clearStatus g r fails v => s.settle.onRegion g r fun x => { x with status := x.status.clear fails v }
  | .readStatus g r =>
    let u := s.settle
    match u.getGraph g, u.getRegion g r with
    | some x, some y => u.hasRead (regionBytes x y)
    | _, _ => u.hasRead []
  | .readCreel who n => s.hasRead (((s.creelOf who)[n]?.map creelBytes).getD (bytesOf 96 0))
  | .supply t ew statw =>
    { s with mgmt := { s.mgmt with weights := (s.mgmt.weights.filter fun w => w.1 != t) ++ [(t, ew, statw)] } }
  | .setFew k v => { s with mgmt := { s.mgmt with few := s.mgmt.few.setIfInBounds k v } }
  | .setStatg v => { s with mgmt := { s.mgmt with statg := v } }
  | .takeRetired hub => takeRetired s hub
  | .setDims x y z => { s with island := { s.island with dims := (max 1 x, max 1 y, max 1 z) } }
  | .resend port n => s.resendFrom port n
  | .lag port gen on => { s with island := s.island.heardLag port gen on }
  | .wear units tiles cuts => { s with island := { s.island with wear := units, found := tiles, cuts := cuts } }
  | .report m gen => { s with island := { s.island with reports := assocPut s.island.reports m.toNat gen } }
  | .alternateLoss t => stateOr s (loseAlternate s t)
  | .hinge q => askedByHinge s q

/-! ### The turn of the harts -/

/-- R375: the binds with RESUME in force whose rectangle and grants are free. -/
def State.resumes (s : State) : List Instr :=
  if s.island.st = .serve then
    (s.mgmt.slots.filter fun x => bindValid x.2 && bindResume x.2 && (s.getGraph x.1).isNone && s.mayResume x.1 x.2).map fun x =>
      .bindDispatch x.1 x.2
  else []

/-- R1, R398: the turn of the harts: each takes one act; with none left they follow the policy. In IRESET and OFF they rest, but a
module loses its power in any state. -/
def hartsTurn (s : State) : Result :=
  match s.mgmt.acts with
  | .powerOff :: rest => .next (runAct { s with mgmt := { s.mgmt with acts := rest } } .powerOff)
  | acts =>
    if !s.hartsRun then .next s
    else if acts.isEmpty then
      let u := s.settle
      .next { s with agenda := s.agenda ++ u.preemptions ++ u.resumes }
    else .next ((acts.take mgmtHarts).foldl runAct { s with mgmt := { s.mgmt with acts := acts.drop mgmtHarts } })

end Sys2Proof.Machine
end

