-- ==== Sys2Proof/Machine/DirectCells.lean ====
section
/-! DEFINITION. The meaning of a cell word, found from the word itself: the same table as `Sys2Proof/Decode.lean`, each row giving
the meaning instead of the instruction. `Machine/Fetch.lean` proves the two equal. -/

namespace Sys2Proof.Machine

/-- R39: the integer group, whose function is x [4:0]. -/
def directCell3E (w : Word) (s : State) : Option Result :=
  match (fld w 0 5).toNat with
  | 0 => if fld w 9 2 = 0 then if cellRowLegal ⟨64, (fld w 23 3), (fld w 20 3), (fld w 17 3), (fld w 14 3), (fld w 11 3), 0, 0, (fld w 5 4), 0⟩ = true then some (execCellViadd (fld w 23 3) (fld w 20 3) (fld w 17 3) (fld w 14 3) (fld w 11 3) (fld w 5 4) s) else none else none
  | 1 => if fld w 9 2 = 0 then if cellRowLegal ⟨65, (fld w 23 3), (fld w 20 3), (fld w 17 3), (fld w 14 3), (fld w 11 3), 0, 0, (fld w 5 4), 0⟩ = true then some (execCellVisub (fld w 23 3) (fld w 20 3) (fld w 17 3) (fld w 14 3) (fld w 11 3) (fld w 5 4) s) else none else none
  | 2 => if fld w 9 2 = 0 then if cellRowLegal ⟨66, (fld w 23 3), (fld w 20 3), (fld w 17 3), (fld w 14 3), (fld w 11 3), 0, 0, (fld w 5 4), 0⟩ = true then some (execCellVimul (fld w 23 3) (fld w 20 3) (fld w 17 3) (fld w 14 3) (fld w 11 3) (fld w 5 4) s) else none else none
  | 3 => if fld w 9 2 = 0 then if cellRowLegal ⟨67, (fld w 23 3), (fld w 20 3), (fld w 17 3), (fld w 14 3), (fld w 11 3), 0, 0, (fld w 5 4), 0⟩ = true then some (execCellVand (fld w 23 3) (fld w 20 3) (fld w 17 3) (fld w 14 3) (fld w 11 3) (fld w 5 4) s) else none else none
  | 4 => if fld w 9 2 = 0 then if cellRowLegal ⟨68, (fld w 23 3), (fld w 20 3), (fld w 17 3), (fld w 14 3), (fld w 11 3), 0, 0, (fld w 5 4), 0⟩ = true then some (execCellVor (fld w 23 3) (fld w 20 3) (fld w 17 3) (fld w 14 3) (fld w 11 3) (fld w 5 4) s) else none else none
  | 5 => if fld w 9 2 = 0 then if cellRowLegal ⟨69, (fld w 23 3), (fld w 20 3), (fld w 17 3), (fld w 14 3), (fld w 11 3), 0, 0, (fld w 5 4), 0⟩ = true then some (execCellVxor (fld w 23 3) (fld w 20 3) (fld w 17 3) (fld w 14 3) (fld w 11 3) (fld w 5 4) s) else none else none
  | 6 => if fld w 9 2 = 0 then if cellRowLegal ⟨70, (fld w 23 3), (fld w 20 3), (fld w 17 3), (fld w 14 3), (fld w 11 3), 0, 0, (fld w 5 4), 0⟩ = true then some (execCellVshl (fld w 23 3) (fld w 20 3) (fld w 17 3) (fld w 14 3) (fld w 11 3) (fld w 5 4) s) else none else none
  | 7 => if fld w 9 2 = 0 then if cellRowLegal ⟨71, (fld w 23 3), (fld w 20 3), (fld w 17 3), (fld w 14 3), (fld w 11 3), 0, 0, (fld w 5 4), 0⟩ = true then some (execCellVshr (fld w 23 3) (fld w 20 3) (fld w 17 3) (fld w 14 3) (fld w 11 3) (fld w 5 4) s) else none else none
  | 8 => if fld w 9 2 = 0 then if cellRowLegal ⟨72, (fld w 23 3), (fld w 20 3), (fld w 17 3), (fld w 14 3), (fld w 11 3), 0, 0, (fld w 5 4), 0⟩ = true then some (execCellVsar (fld w 23 3) (fld w 20 3) (fld w 17 3) (fld w 14 3) (fld w 11 3) (fld w 5 4) s) else none else none
  | 9 => if fld w 9 2 = 0 then if cellRowLegal ⟨73, (fld w 23 3), (fld w 20 3), (fld w 17 3), (fld w 14 3), (fld w 11 3), 0, 0, (fld w 5 4), 0⟩ = true then some (execCellVimin (fld w 23 3) (fld w 20 3) (fld w 17 3) (fld w 14 3) (fld w 11 3) (fld w 5 4) s) else none else none
  | 10 => if fld w 9 2 = 0 then if cellRowLegal ⟨74, (fld w 23 3), (fld w 20 3), (fld w 17 3), (fld w 14 3), (fld w 11 3), 0, 0, (fld w 5 4), 0⟩ = true then some (execCellVimax (fld w 23 3) (fld w 20 3) (fld w 17 3) (fld w 14 3) (fld w 11 3) (fld w 5 4) s) else none else none
  | 11 => if fld w 9 2 = 0 then if cellRowLegal ⟨75, (fld w 23 3), (fld w 20 3), (fld w 17 3), (fld w 14 3), (fld w 11 3), 0, 0, (fld w 5 4), 0⟩ = true then some (execCellVcnt (fld w 23 3) (fld w 20 3) (fld w 17 3) (fld w 14 3) (fld w 11 3) (fld w 5 4) s) else none else none
  | 12 => if fld w 9 2 = 0 then if cellRowLegal ⟨76, (fld w 23 3), (fld w 20 3), (fld w 17 3), (fld w 14 3), (fld w 11 3), 0, 0, (fld w 5 4), 0⟩ = true then some (execCellVimac (fld w 23 3) (fld w 20 3) (fld w 17 3) (fld w 14 3) (fld w 11 3) (fld w 5 4) s) else none else none
  | _ => none

/-- The cell word of op [31:26] (R38), before the checks of `Instr.wellFormed`. -/
def directRawCell (w : Word) (s : State) : Option Result :=
  match (fld w 26 6).toNat with
  | 1 => if fld w 14 12 = 2932 then if cellRowLegal ⟨1, 5, 5, 6, 4, (fld w 11 3), (fld w 10 1), (fld w 9 1), (fld w 5 4), (fld w 0 5)⟩ = true then some (execCellMacf (fld w 11 3) (fld w 10 1) (fld w 9 1) (fld w 5 4) (fld w 0 5) s) else none else none
  | 2 => if fld w 14 12 = 2932 then if cellRowLegal ⟨2, 5, 5, 6, 4, (fld w 11 3), (fld w 10 1), (fld w 9 1), (fld w 5 4), (fld w 0 5)⟩ = true then some (execCellMacb (fld w 11 3) (fld w 10 1) (fld w 9 1) (fld w 5 4) (fld w 0 5) s) else none else none
  | 3 => if fld w 14 12 = 2932 then if cellRowLegal ⟨3, 5, 5, 6, 4, (fld w 11 3), (fld w 10 1), (fld w 9 1), (fld w 5 4), (fld w 0 5)⟩ = true then some (execCellMacp (fld w 11 3) (fld w 10 1) (fld w 9 1) (fld w 5 4) (fld w 0 5) s) else none else none
  | 4 => if fld w 14 6 = 0 ∧ fld w 5 4 = 0 then if cellRowLegal ⟨4, (fld w 23 3), (fld w 20 3), 0, 0, (fld w 11 3), (fld w 10 1), (fld w 9 1), 0, (fld w 0 5)⟩ = true then some (execCellWload (fld w 23 3) (fld w 20 3) (fld w 11 3) (fld w 10 1) (fld w 9 1) (fld w 0 5) s) else none else none
  | 5 => if fld w 14 6 = 0 ∧ fld w 5 4 = 0 then if cellRowLegal ⟨5, (fld w 23 3), (fld w 20 3), 0, 0, (fld w 11 3), (fld w 10 1), (fld w 9 1), 0, (fld w 0 5)⟩ = true then some (execCellWplt (fld w 23 3) (fld w 20 3) (fld w 11 3) (fld w 10 1) (fld w 9 1) (fld w 0 5) s) else none else none
  | 6 => if fld w 14 3 = 0 ∧ fld w 5 4 = 0 then if cellRowLegal ⟨6, (fld w 23 3), (fld w 20 3), (fld w 17 3), 0, (fld w 11 3), (fld w 10 1), (fld w 9 1), 0, (fld w 0 5)⟩ = true then some (execCellPsum (fld w 23 3) (fld w 20 3) (fld w 17 3) (fld w 11 3) (fld w 10 1) (fld w 9 1) (fld w 0 5) s) else none else none
  | 7 => if fld w 14 6 = 0 ∧ fld w 5 4 = 0 then if cellRowLegal ⟨7, (fld w 23 3), (fld w 20 3), 0, 0, (fld w 11 3), (fld w 10 1), (fld w 9 1), 0, (fld w 0 5)⟩ = true then some (execCellPass (fld w 23 3) (fld w 20 3) (fld w 11 3) (fld w 10 1) (fld w 9 1) (fld w 0 5) s) else none else none
  | 8 => if fld w 14 9 = 0 ∧ fld w 5 4 = 0 then if cellRowLegal ⟨8, (fld w 23 3), 0, 0, 0, (fld w 11 3), (fld w 10 1), (fld w 9 1), 0, (fld w 0 5)⟩ = true then some (execCellBubl (fld w 23 3) (fld w 11 3) (fld w 10 1) (fld w 9 1) (fld w 0 5) s) else none else none
  | 9 => if fld w 14 3 = 0 ∧ fld w 5 4 = 0 then if cellRowLegal ⟨9, (fld w 23 3), (fld w 20 3), (fld w 17 3), 0, (fld w 11 3), (fld w 10 1), (fld w 9 1), 0, (fld w 0 5)⟩ = true then some (execCellSelr (fld w 23 3) (fld w 20 3) (fld w 17 3) (fld w 11 3) (fld w 10 1) (fld w 9 1) (fld w 0 5) s) else none else none
  | 10 => if fld w 14 3 = 0 then if cellRowLegal ⟨10, (fld w 23 3), (fld w 20 3), (fld w 17 3), 0, (fld w 11 3), (fld w 10 1), (fld w 9 1), (fld w 5 4), (fld w 0 5)⟩ = true then some (execCellRsum (fld w 23 3) (fld w 20 3) (fld w 17 3) (fld w 11 3) (fld w 10 1) (fld w 9 1) (fld w 5 4) (fld w 0 5) s) else none else none
  | 11 => if fld w 14 3 = 0 then if cellRowLegal ⟨11, (fld w 23 3), (fld w 20 3), (fld w 17 3), 0, (fld w 11 3), (fld w 10 1), (fld w 9 1), (fld w 5 4), (fld w 0 5)⟩ = true then some (execCellRmax (fld w 23 3) (fld w 20 3) (fld w 17 3) (fld w 11 3) (fld w 10 1) (fld w 9 1) (fld w 5 4) (fld w 0 5) s) else none else none
  | 12 => if fld w 14 3 = 0 then if cellRowLegal ⟨12, (fld w 23 3), (fld w 20 3), (fld w 17 3), 0, (fld w 11 3), (fld w 10 1), (fld w 9 1), (fld w 5 4), (fld w 0 5)⟩ = true then some (execCellRmin (fld w 23 3) (fld w 20 3) (fld w 17 3) (fld w 11 3) (fld w 10 1) (fld w 9 1) (fld w 5 4) (fld w 0 5) s) else none else none
  | 13 => if fld w 14 3 = 0 then if cellRowLegal ⟨13, (fld w 23 3), (fld w 20 3), (fld w 17 3), 0, (fld w 11 3), (fld w 10 1), (fld w 9 1), (fld w 5 4), (fld w 0 5)⟩ = true then some (execCellRfold (fld w 23 3) (fld w 20 3) (fld w 17 3) (fld w 11 3) (fld w 10 1) (fld w 9 1) (fld w 5 4) (fld w 0 5) s) else none else none
  | 14 => if fld w 14 12 = 0 ∧ fld w 5 4 = 0 then if cellRowLegal ⟨14, 0, 0, 0, 0, (fld w 11 3), (fld w 10 1), (fld w 9 1), 0, (fld w 0 5)⟩ = true then some (execCellAgen (fld w 11 3) (fld w 10 1) (fld w 9 1) (fld w 0 5) s) else none else none
  | 15 => if fld w 14 12 = 0 ∧ fld w 5 4 = 0 then if cellRowLegal ⟨15, 0, 0, 0, 0, (fld w 11 3), (fld w 10 1), (fld w 9 1), 0, (fld w 0 5)⟩ = true then some (execCellAreq (fld w 11 3) (fld w 10 1) (fld w 9 1) (fld w 0 5) s) else none else none
  | 16 => if fld w 23 3 = 0 ∧ fld w 14 6 = 0 ∧ fld w 5 4 = 0 then if cellRowLegal ⟨16, 0, (fld w 20 3), 0, 0, (fld w 11 3), (fld w 10 1), (fld w 9 1), 0, (fld w 0 5)⟩ = true then some (execCellAstq (fld w 20 3) (fld w 11 3) (fld w 10 1) (fld w 9 1) (fld w 0 5) s) else none else none
  | 17 => if fld w 23 3 = 0 ∧ fld w 14 6 = 0 ∧ fld w 5 4 = 0 then if cellRowLegal ⟨17, 0, (fld w 20 3), 0, 0, (fld w 11 3), (fld w 10 1), (fld w 9 1), 0, (fld w 0 5)⟩ = true then some (execCellAred (fld w 20 3) (fld w 11 3) (fld w 10 1) (fld w 9 1) (fld w 0 5) s) else none else none
  | 18 => if fld w 14 9 = 0 ∧ fld w 5 4 = 0 then if cellRowLegal ⟨18, (fld w 23 3), 0, 0, 0, (fld w 11 3), (fld w 10 1), (fld w 9 1), 0, (fld w 0 5)⟩ = true then some (execCellAwin (fld w 23 3) (fld w 11 3) (fld w 10 1) (fld w 9 1) (fld w 0 5) s) else none else none
  | 19 => if fld w 14 12 = 0 then if cellRowLegal ⟨19, 0, 0, 0, 0, (fld w 11 3), (fld w 10 1), (fld w 9 1), (fld w 5 4), (fld w 0 5)⟩ = true then some (execCellFeedr (fld w 11 3) (fld w 10 1) (fld w 9 1) (fld w 5 4) (fld w 0 5) s) else none else none
  | 20 => if fld w 14 12 = 0 ∧ fld w 5 4 = 0 then if cellRowLegal ⟨20, 0, 0, 0, 0, (fld w 11 3), (fld w 10 1), (fld w 9 1), 0, (fld w 0 5)⟩ = true then some (execCellOutr (fld w 11 3) (fld w 10 1) (fld w 9 1) (fld w 0 5) s) else none else none
  | 24 => if cellRowLegal ⟨24, (fld w 23 3), (fld w 20 3), (fld w 17 3), (fld w 14 3), (fld w 11 3), (fld w 10 1), (fld w 9 1), (fld w 5 4), (fld w 0 5)⟩ = true then some (execCellVadd (fld w 23 3) (fld w 20 3) (fld w 17 3) (fld w 14 3) (fld w 11 3) (fld w 10 1) (fld w 9 1) (fld w 5 4) (fld w 0 5) s) else none
  | 25 => if cellRowLegal ⟨25, (fld w 23 3), (fld w 20 3), (fld w 17 3), (fld w 14 3), (fld w 11 3), (fld w 10 1), (fld w 9 1), (fld w 5 4), (fld w 0 5)⟩ = true then some (execCellVsub (fld w 23 3) (fld w 20 3) (fld w 17 3) (fld w 14 3) (fld w 11 3) (fld w 10 1) (fld w 9 1) (fld w 5 4) (fld w 0 5) s) else none
  | 26 => if cellRowLegal ⟨26, (fld w 23 3), (fld w 20 3), (fld w 17 3), (fld w 14 3), (fld w 11 3), (fld w 10 1), (fld w 9 1), (fld w 5 4), (fld w 0 5)⟩ = true then some (execCellVmul (fld w 23 3) (fld w 20 3) (fld w 17 3) (fld w 14 3) (fld w 11 3) (fld w 10 1) (fld w 9 1) (fld w 5 4) (fld w 0 5) s) else none
  | 27 => if cellRowLegal ⟨27, (fld w 23 3), (fld w 20 3), (fld w 17 3), (fld w 14 3), (fld w 11 3), (fld w 10 1), (fld w 9 1), (fld w 5 4), (fld w 0 5)⟩ = true then some (execCellVfma (fld w 23 3) (fld w 20 3) (fld w 17 3) (fld w 14 3) (fld w 11 3) (fld w 10 1) (fld w 9 1) (fld w 5 4) (fld w 0 5) s) else none
  | 28 => if cellRowLegal ⟨28, (fld w 23 3), (fld w 20 3), (fld w 17 3), (fld w 14 3), (fld w 11 3), (fld w 10 1), (fld w 9 1), (fld w 5 4), (fld w 0 5)⟩ = true then some (execCellVfms (fld w 23 3) (fld w 20 3) (fld w 17 3) (fld w 14 3) (fld w 11 3) (fld w 10 1) (fld w 9 1) (fld w 5 4) (fld w 0 5) s) else none
  | 29 => if cellRowLegal ⟨29, (fld w 23 3), (fld w 20 3), (fld w 17 3), (fld w 14 3), (fld w 11 3), (fld w 10 1), (fld w 9 1), (fld w 5 4), (fld w 0 5)⟩ = true then some (execCellVfnma (fld w 23 3) (fld w 20 3) (fld w 17 3) (fld w 14 3) (fld w 11 3) (fld w 10 1) (fld w 9 1) (fld w 5 4) (fld w 0 5) s) else none
  | 30 => if cellRowLegal ⟨30, (fld w 23 3), (fld w 20 3), (fld w 17 3), (fld w 14 3), (fld w 11 3), (fld w 10 1), (fld w 9 1), (fld w 5 4), (fld w 0 5)⟩ = true then some (execCellVmax (fld w 23 3) (fld w 20 3) (fld w 17 3) (fld w 14 3) (fld w 11 3) (fld w 10 1) (fld w 9 1) (fld w 5 4) (fld w 0 5) s) else none
  | 31 => if cellRowLegal ⟨31, (fld w 23 3), (fld w 20 3), (fld w 17 3), (fld w 14 3), (fld w 11 3), (fld w 10 1), (fld w 9 1), (fld w 5 4), (fld w 0 5)⟩ = true then some (execCellVmin (fld w 23 3) (fld w 20 3) (fld w 17 3) (fld w 14 3) (fld w 11 3) (fld w 10 1) (fld w 9 1) (fld w 5 4) (fld w 0 5) s) else none
  | 32 => if cellRowLegal ⟨32, (fld w 23 3), (fld w 20 3), (fld w 17 3), (fld w 14 3), (fld w 11 3), (fld w 10 1), (fld w 9 1), (fld w 5 4), (fld w 0 5)⟩ = true then some (execCellVabs (fld w 23 3) (fld w 20 3) (fld w 17 3) (fld w 14 3) (fld w 11 3) (fld w 10 1) (fld w 9 1) (fld w 5 4) (fld w 0 5) s) else none
  | 33 => if cellRowLegal ⟨33, (fld w 23 3), (fld w 20 3), (fld w 17 3), (fld w 14 3), (fld w 11 3), (fld w 10 1), (fld w 9 1), (fld w 5 4), (fld w 0 5)⟩ = true then some (execCellVneg (fld w 23 3) (fld w 20 3) (fld w 17 3) (fld w 14 3) (fld w 11 3) (fld w 10 1) (fld w 9 1) (fld w 5 4) (fld w 0 5) s) else none
  | 34 => if cellRowLegal ⟨34, (fld w 23 3), (fld w 20 3), (fld w 17 3), (fld w 14 3), (fld w 11 3), (fld w 10 1), (fld w 9 1), (fld w 5 4), (fld w 0 5)⟩ = true then some (execCellVcps (fld w 23 3) (fld w 20 3) (fld w 17 3) (fld w 14 3) (fld w 11 3) (fld w 10 1) (fld w 9 1) (fld w 5 4) (fld w 0 5) s) else none
  | 35 => if fld w 3 2 = 0 then if cellRowLegal ⟨35, (fld w 23 3), (fld w 20 3), (fld w 17 3), (fld w 14 3), (fld w 11 3), (fld w 10 1), (fld w 9 1), (fld w 5 4), (fld w 0 3).setWidth 5⟩ = true then some (execCellVcmp (fld w 23 3) (fld w 20 3) (fld w 17 3) (fld w 14 3) (fld w 11 3) (fld w 10 1) (fld w 9 1) (fld w 5 4) (fld w 0 3) s) else none else none
  | 36 => if cellRowLegal ⟨36, (fld w 23 3), (fld w 20 3), (fld w 17 3), (fld w 14 3), (fld w 11 3), (fld w 10 1), (fld w 9 1), (fld w 5 4), (fld w 0 5)⟩ = true then some (execCellVsel (fld w 23 3) (fld w 20 3) (fld w 17 3) (fld w 14 3) (fld w 11 3) (fld w 10 1) (fld w 9 1) (fld w 5 4) (fld w 0 5) s) else none
  | 37 => if cellRowLegal ⟨37, (fld w 23 3), (fld w 20 3), (fld w 17 3), (fld w 14 3), (fld w 11 3), (fld w 10 1), (fld w 9 1), (fld w 5 4), (fld w 0 5)⟩ = true then some (execCellVcls (fld w 23 3) (fld w 20 3) (fld w 17 3) (fld w 14 3) (fld w 11 3) (fld w 10 1) (fld w 9 1) (fld w 5 4) (fld w 0 5) s) else none
  | 38 => if cellRowLegal ⟨38, (fld w 23 3), (fld w 20 3), (fld w 17 3), (fld w 14 3), (fld w 11 3), (fld w 10 1), (fld w 9 1), (fld w 5 4), (fld w 0 5)⟩ = true then some (execCellVcvt (fld w 23 3) (fld w 20 3) (fld w 17 3) (fld w 14 3) (fld w 11 3) (fld w 10 1) (fld w 9 1) (fld w 5 4) (fld w 0 5) s) else none
  | 39 => if cellRowLegal ⟨39, (fld w 23 3), (fld w 20 3), (fld w 17 3), (fld w 14 3), (fld w 11 3), (fld w 10 1), (fld w 9 1), (fld w 5 4), (fld w 0 5)⟩ = true then some (execCellVrndi (fld w 23 3) (fld w 20 3) (fld w 17 3) (fld w 14 3) (fld w 11 3) (fld w 10 1) (fld w 9 1) (fld w 5 4) (fld w 0 5) s) else none
  | 40 => if cellRowLegal ⟨40, (fld w 23 3), (fld w 20 3), (fld w 17 3), (fld w 14 3), (fld w 11 3), (fld w 10 1), (fld w 9 1), (fld w 5 4), (fld w 0 5)⟩ = true then some (execCellVftoi (fld w 23 3) (fld w 20 3) (fld w 17 3) (fld w 14 3) (fld w 11 3) (fld w 10 1) (fld w 9 1) (fld w 5 4) (fld w 0 5) s) else none
  | 41 => if cellRowLegal ⟨41, (fld w 23 3), (fld w 20 3), (fld w 17 3), (fld w 14 3), (fld w 11 3), (fld w 10 1), (fld w 9 1), (fld w 5 4), (fld w 0 5)⟩ = true then some (execCellVitof (fld w 23 3) (fld w 20 3) (fld w 17 3) (fld w 14 3) (fld w 11 3) (fld w 10 1) (fld w 9 1) (fld w 5 4) (fld w 0 5) s) else none
  | 42 => if cellRowLegal ⟨42, (fld w 23 3), (fld w 20 3), (fld w 17 3), (fld w 14 3), (fld w 11 3), (fld w 10 1), (fld w 9 1), (fld w 5 4), (fld w 0 5)⟩ = true then some (execCellVexpf (fld w 23 3) (fld w 20 3) (fld w 17 3) (fld w 14 3) (fld w 11 3) (fld w 10 1) (fld w 9 1) (fld w 5 4) (fld w 0 5) s) else none
  | 43 => if cellRowLegal ⟨43, (fld w 23 3), (fld w 20 3), (fld w 17 3), (fld w 14 3), (fld w 11 3), (fld w 10 1), (fld w 9 1), (fld w 5 4), (fld w 0 5)⟩ = true then some (execCellVlogf (fld w 23 3) (fld w 20 3) (fld w 17 3) (fld w 14 3) (fld w 11 3) (fld w 10 1) (fld w 9 1) (fld w 5 4) (fld w 0 5) s) else none
  | 44 => if cellRowLegal ⟨44, (fld w 23 3), (fld w 20 3), (fld w 17 3), (fld w 14 3), (fld w 11 3), (fld w 10 1), (fld w 9 1), (fld w 5 4), (fld w 0 5)⟩ = true then some (execCellVscale (fld w 23 3) (fld w 20 3) (fld w 17 3) (fld w 14 3) (fld w 11 3) (fld w 10 1) (fld w 9 1) (fld w 5 4) (fld w 0 5) s) else none
  | 45 => if cellRowLegal ⟨45, (fld w 23 3), (fld w 20 3), (fld w 17 3), (fld w 14 3), (fld w 11 3), (fld w 10 1), (fld w 9 1), (fld w 5 4), (fld w 0 5)⟩ = true then some (execCellVgetx (fld w 23 3) (fld w 20 3) (fld w 17 3) (fld w 14 3) (fld w 11 3) (fld w 10 1) (fld w 9 1) (fld w 5 4) (fld w 0 5) s) else none
  | 46 => if cellRowLegal ⟨46, (fld w 23 3), (fld w 20 3), (fld w 17 3), (fld w 14 3), (fld w 11 3), (fld w 10 1), (fld w 9 1), (fld w 5 4), (fld w 0 5)⟩ = true then some (execCellVrcp (fld w 23 3) (fld w 20 3) (fld w 17 3) (fld w 14 3) (fld w 11 3) (fld w 10 1) (fld w 9 1) (fld w 5 4) (fld w 0 5) s) else none
  | 47 => if cellRowLegal ⟨47, (fld w 23 3), (fld w 20 3), (fld w 17 3), (fld w 14 3), (fld w 11 3), (fld w 10 1), (fld w 9 1), (fld w 5 4), (fld w 0 5)⟩ = true then some (execCellVrsq (fld w 23 3) (fld w 20 3) (fld w 17 3) (fld w 14 3) (fld w 11 3) (fld w 10 1) (fld w 9 1) (fld w 5 4) (fld w 0 5) s) else none
  | 48 => if cellRowLegal ⟨48, (fld w 23 3), (fld w 20 3), (fld w 17 3), (fld w 14 3), (fld w 11 3), (fld w 10 1), (fld w 9 1), (fld w 5 4), (fld w 0 5)⟩ = true then some (execCellVdot (fld w 23 3) (fld w 20 3) (fld w 17 3) (fld w 14 3) (fld w 11 3) (fld w 10 1) (fld w 9 1) (fld w 5 4) (fld w 0 5) s) else none
  | 49 => if cellRowLegal ⟨49, (fld w 23 3), (fld w 20 3), (fld w 17 3), (fld w 14 3), (fld w 11 3), (fld w 10 1), (fld w 9 1), (fld w 5 4), (fld w 0 5)⟩ = true then some (execCellVsumt (fld w 23 3) (fld w 20 3) (fld w 17 3) (fld w 14 3) (fld w 11 3) (fld w 10 1) (fld w 9 1) (fld w 5 4) (fld w 0 5) s) else none
  | 50 => if cellRowLegal ⟨50, (fld w 23 3), (fld w 20 3), (fld w 17 3), (fld w 14 3), (fld w 11 3), (fld w 10 1), (fld w 9 1), (fld w 5 4), (fld w 0 5)⟩ = true then some (execCellVmaxt (fld w 23 3) (fld w 20 3) (fld w 17 3) (fld w 14 3) (fld w 11 3) (fld w 10 1) (fld w 9 1) (fld w 5 4) (fld w 0 5) s) else none
  | 51 => if cellRowLegal ⟨51, (fld w 23 3), (fld w 20 3), (fld w 17 3), (fld w 14 3), (fld w 11 3), (fld w 10 1), (fld w 9 1), (fld w 5 4), (fld w 0 5)⟩ = true then some (execCellVscan (fld w 23 3) (fld w 20 3) (fld w 17 3) (fld w 14 3) (fld w 11 3) (fld w 10 1) (fld w 9 1) (fld w 5 4) (fld w 0 5) s) else none
  | 52 => if cellRowLegal ⟨52, (fld w 23 3), (fld w 20 3), (fld w 17 3), (fld w 14 3), (fld w 11 3), (fld w 10 1), (fld w 9 1), (fld w 5 4), (fld w 0 5)⟩ = true then some (execCellVperm (fld w 23 3) (fld w 20 3) (fld w 17 3) (fld w 14 3) (fld w 11 3) (fld w 10 1) (fld w 9 1) (fld w 5 4) (fld w 0 5) s) else none
  | 53 => if fld w 17 3 = 0 then if cellRowLegal ⟨53, (fld w 23 3), (fld w 20 3), 0, (fld w 14 3), (fld w 11 3), (fld w 10 1), (fld w 9 1), (fld w 5 4), (fld w 0 5)⟩ = true then some (execCellVshuf (fld w 23 3) (fld w 20 3) (fld w 14 3) (fld w 11 3) (fld w 10 1) (fld w 9 1) (fld w 5 4) (fld w 0 5) s) else none else none
  | 54 => if fld w 17 3 = 0 then if cellRowLegal ⟨54, (fld w 23 3), (fld w 20 3), 0, (fld w 14 3), (fld w 11 3), (fld w 10 1), (fld w 9 1), (fld w 5 4), (fld w 0 5)⟩ = true then some (execCellVbcst (fld w 23 3) (fld w 20 3) (fld w 14 3) (fld w 11 3) (fld w 10 1) (fld w 9 1) (fld w 5 4) (fld w 0 5) s) else none else none
  | 55 => if cellRowLegal ⟨55, (fld w 23 3), (fld w 20 3), (fld w 17 3), (fld w 14 3), (fld w 11 3), (fld w 10 1), (fld w 9 1), (fld w 5 4), (fld w 0 5)⟩ = true then some (execCellVhist (fld w 23 3) (fld w 20 3) (fld w 17 3) (fld w 14 3) (fld w 11 3) (fld w 10 1) (fld w 9 1) (fld w 5 4) (fld w 0 5) s) else none
  | 56 => if cellRowLegal ⟨56, (fld w 23 3), (fld w 20 3), (fld w 17 3), (fld w 14 3), (fld w 11 3), (fld w 10 1), (fld w 9 1), (fld w 5 4), (fld w 0 5)⟩ = true then some (execCellVhmrg (fld w 23 3) (fld w 20 3) (fld w 17 3) (fld w 14 3) (fld w 11 3) (fld w 10 1) (fld w 9 1) (fld w 5 4) (fld w 0 5) s) else none
  | 57 => if cellRowLegal ⟨57, (fld w 23 3), (fld w 20 3), (fld w 17 3), (fld w 14 3), (fld w 11 3), (fld w 10 1), (fld w 9 1), (fld w 5 4), (fld w 0 5)⟩ = true then some (execCellVpack (fld w 23 3) (fld w 20 3) (fld w 17 3) (fld w 14 3) (fld w 11 3) (fld w 10 1) (fld w 9 1) (fld w 5 4) (fld w 0 5) s) else none
  | 58 => if cellRowLegal ⟨58, (fld w 23 3), (fld w 20 3), (fld w 17 3), (fld w 14 3), (fld w 11 3), (fld w 10 1), (fld w 9 1), (fld w 5 4), (fld w 0 5)⟩ = true then some (execCellVunpk (fld w 23 3) (fld w 20 3) (fld w 17 3) (fld w 14 3) (fld w 11 3) (fld w 10 1) (fld w 9 1) (fld w 5 4) (fld w 0 5) s) else none
  | 59 => if cellRowLegal ⟨59, (fld w 23 3), (fld w 20 3), (fld w 17 3), (fld w 14 3), (fld w 11 3), (fld w 10 1), (fld w 9 1), (fld w 5 4), (fld w 0 5)⟩ = true then some (execCellVbfp (fld w 23 3) (fld w 20 3) (fld w 17 3) (fld w 14 3) (fld w 11 3) (fld w 10 1) (fld w 9 1) (fld w 5 4) (fld w 0 5) s) else none
  | 60 => if fld w 14 6 = 0 then if cellRowLegal ⟨60, (fld w 23 3), (fld w 20 3), 0, 0, (fld w 11 3), (fld w 10 1), (fld w 9 1), (fld w 5 4), (fld w 0 5)⟩ = true then some (execCellVpld (fld w 23 3) (fld w 20 3) (fld w 11 3) (fld w 10 1) (fld w 9 1) (fld w 5 4) (fld w 0 5) s) else none else none
  | 61 => if cellRowLegal ⟨61, (fld w 23 3), (fld w 20 3), (fld w 17 3), (fld w 14 3), (fld w 11 3), (fld w 10 1), (fld w 9 1), (fld w 5 4), (fld w 0 5)⟩ = true then some (execCellVmsk (fld w 23 3) (fld w 20 3) (fld w 17 3) (fld w 14 3) (fld w 11 3) (fld w 10 1) (fld w 9 1) (fld w 5 4) (fld w 0 5) s) else none
  | 62 => directCell3E w s
  | _ => none

/-- R10, R187: the meaning of a row word. COMMIT accepts no word that is none. -/
def directCell (w : Word) (s : State) : Result :=
  match directRawCell w s with
  | some r => r
  | none => .next s

end Sys2Proof.Machine
end

