-- ==== Sys2Proof/Machine/Dispatch.lean ====
section
/-! DEFINITION. The meaning of each instruction and event: one arm per constructor, one call per arm. -/

namespace Sys2Proof.Machine

/-- The meaning of an instruction or event in a state. -/
def exec (i : Instr) (s : State) : Host.Outcome State Fault Refusal :=
  match i with
  | .tcrWrite v => Sys2Proof.Machine.execTcrWrite v s
  | .tcrReseed v => Sys2Proof.Machine.execTcrReseed v s
  | .fstatClear v => Sys2Proof.Machine.execFstatClear v s
  | .rndWrite l v => Sys2Proof.Machine.execRndWrite l v s
  | .statusWrite v => Sys2Proof.Machine.execStatusWrite v s
  | .lcsWrite v => Sys2Proof.Machine.execLcsWrite v s
  | .lcWrite l v => Sys2Proof.Machine.execLcWrite l v s
  | .thdrWrite v => Sys2Proof.Machine.execThdrWrite v s
  | .mailstClear v => Sys2Proof.Machine.execMailstClear v s
  | .nxcurWrite v => Sys2Proof.Machine.execNxcurWrite v s
  | .energyWrite v => Sys2Proof.Machine.execEnergyWrite v s
  | .registerWrite n v => Sys2Proof.Machine.execRegisterWrite n v s
  | .frWrite hub n w v => Sys2Proof.Machine.execFrWrite hub n w v s
  | .bankcmdGo hub n => Sys2Proof.Machine.execBankcmdGo hub n s
  | .bankrtClear hub n v => Sys2Proof.Machine.execBankrtClear hub n v s
  | .preempt t => Sys2Proof.Machine.execPreempt t s
  | .mgmtreq t => Sys2Proof.Machine.execMgmtreq t s
  | .msgArrive src dst => Sys2Proof.Machine.execMsgArrive src dst s
  | .loadReturn t => Sys2Proof.Machine.execLoadReturn t s
  | .waitRelease t => Sys2Proof.Machine.execWaitRelease t s
  | .fenceComplete t => Sys2Proof.Machine.execFenceComplete t s
  | .haltComplete t => Sys2Proof.Machine.execHaltComplete t s
  | .commandStart t n => Sys2Proof.Machine.execCommandStart t n s
  | .cfgStreamRead net => Sys2Proof.Machine.execCfgStreamRead net s
  | .regionStart g => Sys2Proof.Machine.execRegionStart g s
  | .regionRunOut g r => Sys2Proof.Machine.execRegionRunOut g r s
  | .regionDrainPoint g r => Sys2Proof.Machine.execRegionDrainPoint g r s
  | .regionSwitch g r => Sys2Proof.Machine.execRegionSwitch g r s
  | .holdRaise g src => Sys2Proof.Machine.execHoldRaise g src s
  | .holdDrop g src => Sys2Proof.Machine.execHoldDrop g src s
  | .windowCheck g r w => Sys2Proof.Machine.execWindowCheck g r w s
  | .windowReplyArrive n => Sys2Proof.Machine.execWindowReplyArrive n s
  | .feedDeliver g r => Sys2Proof.Machine.execFeedDeliver g r s
  | .omReadDeviation t slot tok fails => Sys2Proof.Machine.execOmReadDeviation t slot tok fails s
  | .drainSample t n => Sys2Proof.Machine.execDrainSample t n s
  | .gateBeatArrive n => Sys2Proof.Machine.execGateBeatArrive n s
  | .droopStretch t => Sys2Proof.Machine.execDroopStretch t s
  | .spineSourceLoss t both => Sys2Proof.Machine.execSpineSourceLoss t both s
  | .spineAltLocked t => Sys2Proof.Machine.execSpineAltLocked t s
  | .spineFreqChange k freq => Sys2Proof.Machine.execSpineFreqChange k freq s
  | .referenceTick => Sys2Proof.Machine.execReferenceTick s
  | .hubRequest => Sys2Proof.Machine.execHubRequest s
  | .noticeMapped n => Sys2Proof.Machine.execNoticeMapped n s
  | .noticeAbort n => Sys2Proof.Machine.execNoticeAbort n s
  | .creelReplay who => Sys2Proof.Machine.execCreelReplay who s
  | .creelOutcomeReport t => Sys2Proof.Machine.execCreelOutcomeReport t s
  | .keyFlip k => Sys2Proof.Machine.execKeyFlip k s
  | .hoopOpen h => Sys2Proof.Machine.execHoopOpen h s
  | .hoopAbandon h => Sys2Proof.Machine.execHoopAbandon h s
  | .oclGrant t n => Sys2Proof.Machine.execOclGrant t n s
  | .copyComplete hub eng => Sys2Proof.Machine.execCopyComplete hub eng s
  | .encodeComplete hub => Sys2Proof.Machine.execEncodeComplete hub s
  | .migTryEnd n => Sys2Proof.Machine.execMigTryEnd n s
  | .migSpSwitch n => Sys2Proof.Machine.execMigSpSwitch n s
  | .hsplitSliceDone n slice => Sys2Proof.Machine.execHsplitSliceDone n slice s
  | .pinvDone t n => Sys2Proof.Machine.execPinvDone t n s
  | .bankRetireMark hub ch bank => Sys2Proof.Machine.execBankRetireMark hub ch bank s
  | .restripeDone hub n => Sys2Proof.Machine.execRestripeDone hub n s
  | .cacheDieEarlyStop hub => Sys2Proof.Machine.execCacheDieEarlyStop hub s
  | .cacheDiePowerLoss hub => Sys2Proof.Machine.execCacheDiePowerLoss hub s
  | .queueTailNotify q => Sys2Proof.Machine.execQueueTailNotify q s
  | .launchRecord q => Sys2Proof.Machine.execLaunchRecord q s
  | .launchPriorityAge => Sys2Proof.Machine.execLaunchPriorityAge s
  | .bindDispatch slot record => Sys2Proof.Machine.execBindDispatch slot record s
  | .graphPreempt g => Sys2Proof.Machine.execGraphPreempt g s
  | .graphRestore slot record => Sys2Proof.Machine.execGraphRestore slot record s
  | .drainRequest g => Sys2Proof.Machine.execDrainRequest g s
  | .graphDrained g => Sys2Proof.Machine.execGraphDrained g s
  | .drainTimeout g => Sys2Proof.Machine.execDrainTimeout g s
  | .graphComplete g => Sys2Proof.Machine.execGraphComplete g s
  | .thermalEmergency => Sys2Proof.Machine.execThermalEmergency s
  | .thermalClear => Sys2Proof.Machine.execThermalClear s
  | .mbxComputeReset seq => Sys2Proof.Machine.execMbxComputeReset seq s
  | .mbxIslandReset seq => Sys2Proof.Machine.execMbxIslandReset seq s
  | .mbxReadJournal seq first count ia => Sys2Proof.Machine.execMbxReadJournal seq first count ia s
  | .mbxAttestation seq nonce ia => Sys2Proof.Machine.execMbxAttestation seq nonce ia s
  | .mbxLoadFirmware seq ia len => Sys2Proof.Machine.execMbxLoadFirmware seq ia len s
  | .mbxInstallQueue seq q descr => Sys2Proof.Machine.execMbxInstallQueue seq q descr s
  | .mbxSetPowerBudget seq watts => Sys2Proof.Machine.execMbxSetPowerBudget seq watts s
  | .computeWatchdog => Sys2Proof.Machine.execComputeWatchdog s
  | .orphanTimeout => Sys2Proof.Machine.execOrphanTimeout s
  | .islandWatchdog => Sys2Proof.Machine.execIslandWatchdog s
  | .hingelinkHotReset => Sys2Proof.Machine.execHingelinkHotReset s
  | .islandFirmwareStart => Sys2Proof.Machine.execIslandFirmwareStart s
  | .mainSupplyLoss => Sys2Proof.Machine.execMainSupplyLoss s
  | .powerUp => Sys2Proof.Machine.execPowerUp s
  | .hingelinkLinkDown => Sys2Proof.Machine.execHingelinkLinkDown s
  | .flitReceive port crcOk pkt => Sys2Proof.Machine.execFlitReceive port crcOk pkt s
  | .packetHop n => Sys2Proof.Machine.execPacketHop n s
  | .escapeTimeout n => Sys2Proof.Machine.execEscapeTimeout n s
  | .linkDown port => Sys2Proof.Machine.execLinkDown port s
  | .remoteRequestTimeout n => Sys2Proof.Machine.execRemoteRequestTimeout n s
  | .routeTableLoad gen table crc rsa slh => Sys2Proof.Machine.execRouteTableLoad gen table crc rsa slh s
  | .routeTableRetire gen => Sys2Proof.Machine.execRouteTableRetire gen s
  | .illegalRimWord word => Sys2Proof.Machine.execIllegalRimWord word s
  | .writeAcknowledgement who => Sys2Proof.Machine.execWriteAcknowledgement who s
  | .companionInvalidateAck line => Sys2Proof.Machine.execCompanionInvalidateAck line s
  | .throttleByBudget => Sys2Proof.Machine.execThrottleByBudget s
  | .cacheDieReturn hub => Sys2Proof.Machine.execCacheDieReturn hub s
  | .standbySupplyLoss => Sys2Proof.Machine.execStandbySupplyLoss s
  | .slotEviction t slot out => Sys2Proof.Machine.execSlotEviction t slot out s
  | .poisonBitClear frame => Sys2Proof.Machine.execPoisonBitClear frame s
  | .nopc => Sys2Proof.Machine.execNopc s
  | .tgt r c l => Sys2Proof.Machine.execTgt r c l s
  | .ext r c => Sys2Proof.Machine.execExt r c s
  | .tgtr r c h w l => Sys2Proof.Machine.execTgtr r c h w l s
  | .fld f v => Sys2Proof.Machine.execFld f v s
  | .fldh v => Sys2Proof.Machine.execFldh v s
  | .row n => Sys2Proof.Machine.execRow n s
  | .typeWord t im sv p m => Sys2Proof.Machine.execTypeWord t im sv p m s
  | .img c sv => Sys2Proof.Machine.execImg c sv s
  | .commit im => Sys2Proof.Machine.execCommit im s
  | .sealWord c => Sys2Proof.Machine.execSealWord c s
  | .clrt => Sys2Proof.Machine.execClrt s
  | .add d a b g => Sys2Proof.Machine.execAdd d a b g s
  | .sub d a b g => Sys2Proof.Machine.execSub d a b g s
  | .and d a b g => Sys2Proof.Machine.execAnd d a b g s
  | .or d a b g => Sys2Proof.Machine.execOr d a b g s
  | .xor d a b g => Sys2Proof.Machine.execXor d a b g s
  | .andn d a b g => Sys2Proof.Machine.execAndn d a b g s
  | .sll d a b g => Sys2Proof.Machine.execSll d a b g s
  | .srl d a b g => Sys2Proof.Machine.execSrl d a b g s
  | .sra d a b g => Sys2Proof.Machine.execSra d a b g s
  | .rol d a b g => Sys2Proof.Machine.execRol d a b g s
  | .mul d a b g => Sys2Proof.Machine.execMul d a b g s
  | .mulh d a b g => Sys2Proof.Machine.execMulh d a b g s
  | .mulhu d a b g => Sys2Proof.Machine.execMulhu d a b g s
  | .div d a b g => Sys2Proof.Machine.execDiv d a b g s
  | .divu d a b g => Sys2Proof.Machine.execDivu d a b g s
  | .rem d a b g => Sys2Proof.Machine.execRem d a b g s
  | .remu d a b g => Sys2Proof.Machine.execRemu d a b g s
  | .min d a b g => Sys2Proof.Machine.execMin d a b g s
  | .max d a b g => Sys2Proof.Machine.execMax d a b g s
  | .minu d a b g => Sys2Proof.Machine.execMinu d a b g s
  | .maxu d a b g => Sys2Proof.Machine.execMaxu d a b g s
  | .clz d a g => Sys2Proof.Machine.execClz d a g s
  | .ctz d a g => Sys2Proof.Machine.execCtz d a g s
  | .popc d a g => Sys2Proof.Machine.execPopc d a g s
  | .bswap d a g => Sys2Proof.Machine.execBswap d a g s
  | .sextB d a g => Sys2Proof.Machine.execSextB d a g s
  | .sextH d a g => Sys2Proof.Machine.execSextH d a g s
  | .sextW d a g => Sys2Proof.Machine.execSextW d a g s
  | .zextB d a g => Sys2Proof.Machine.execZextB d a g s
  | .zextH d a g => Sys2Proof.Machine.execZextH d a g s
  | .zextW d a g => Sys2Proof.Machine.execZextW d a g s
  | .bfx d a b g => Sys2Proof.Machine.execBfx d a b g s
  | .bfi d a b g => Sys2Proof.Machine.execBfi d a b g s
  | .lea1 d a b g => Sys2Proof.Machine.execLea1 d a b g s
  | .lea2 d a b g => Sys2Proof.Machine.execLea2 d a b g s
  | .lea4 d a b g => Sys2Proof.Machine.execLea4 d a b g s
  | .lea8 d a b g => Sys2Proof.Machine.execLea8 d a b g s
  | .sel d a b p => Sys2Proof.Machine.execSel d a b p s
  | .addi d a g im => Sys2Proof.Machine.execAddi d a g im s
  | .andi d a g im => Sys2Proof.Machine.execAndi d a g im s
  | .ori d a g im => Sys2Proof.Machine.execOri d a g im s
  | .xori d a g im => Sys2Proof.Machine.execXori d a g im s
  | .slli d a g sv => Sys2Proof.Machine.execSlli d a g sv s
  | .srli d a g sv => Sys2Proof.Machine.execSrli d a g sv s
  | .srai d a g sv => Sys2Proof.Machine.execSrai d a g sv s
  | .muli d a g im => Sys2Proof.Machine.execMuli d a g im s
  | .addpc d g im => Sys2Proof.Machine.execAddpc d g im s
  | .lil d im => Sys2Proof.Machine.execLil d im s
  | .lih d im => Sys2Proof.Machine.execLih d im s
  | .ldb d a g im => Sys2Proof.Machine.execLdb d a g im s
  | .ldbu d a g im => Sys2Proof.Machine.execLdbu d a g im s
  | .ldh d a g im => Sys2Proof.Machine.execLdh d a g im s
  | .ldhu d a g im => Sys2Proof.Machine.execLdhu d a g im s
  | .ldw d a g im => Sys2Proof.Machine.execLdw d a g im s
  | .ldwu d a g im => Sys2Proof.Machine.execLdwu d a g im s
  | .ldd d a g im => Sys2Proof.Machine.execLdd d a g im s
  | .stb d a g im => Sys2Proof.Machine.execStb d a g im s
  | .sth d a g im => Sys2Proof.Machine.execSth d a g im s
  | .stw d a g im => Sys2Proof.Machine.execStw d a g im s
  | .std d a g im => Sys2Proof.Machine.execStd d a g im s
  | .ldt d a g im => Sys2Proof.Machine.execLdt d a g im s
  | .stt d a g im => Sys2Proof.Machine.execStt d a g im s
  | .amoAdd d a b g o z => Sys2Proof.Machine.execAmoAdd d a b g o z s
  | .amoAnd d a b g o z => Sys2Proof.Machine.execAmoAnd d a b g o z s
  | .amoOr d a b g o z => Sys2Proof.Machine.execAmoOr d a b g o z s
  | .amoXor d a b g o z => Sys2Proof.Machine.execAmoXor d a b g o z s
  | .amoMin d a b g o z => Sys2Proof.Machine.execAmoMin d a b g o z s
  | .amoMax d a b g o z => Sys2Proof.Machine.execAmoMax d a b g o z s
  | .amoMinu d a b g o z => Sys2Proof.Machine.execAmoMinu d a b g o z s
  | .amoMaxu d a b g o z => Sys2Proof.Machine.execAmoMaxu d a b g o z s
  | .amoSwp d a b g o z => Sys2Proof.Machine.execAmoSwp d a b g o z s
  | .amoFadd d a b g o => Sys2Proof.Machine.execAmoFadd d a b g o s
  | .amoBfadd d a b g o => Sys2Proof.Machine.execAmoBfadd d a b g o s
  | .amocas d a b g o z => Sys2Proof.Machine.execAmocas d a b g o z s
  | .redtAdd a b g o => Sys2Proof.Machine.execRedtAdd a b g o s
  | .redtFadd a b g o => Sys2Proof.Machine.execRedtFadd a b g o s
  | .redtBfadd a b g o => Sys2Proof.Machine.execRedtBfadd a b g o s
  | .redtMin a b g o => Sys2Proof.Machine.execRedtMin a b g o s
  | .redtMax a b g o => Sys2Proof.Machine.execRedtMax a b g o s
  | .br g o => Sys2Proof.Machine.execBr g o s
  | .jmp o => Sys2Proof.Machine.execJmp o s
  | .call d im => Sys2Proof.Machine.execCall d im s
  | .loopImm l c n => Sys2Proof.Machine.execLoopImm l c n s
  | .loopReg l sv n => Sys2Proof.Machine.execLoopReg l sv n s
  | .cmpi d a c im => Sys2Proof.Machine.execCmpi d a c im s
  | .cmp d a b g c => Sys2Proof.Machine.execCmp d a b g c s
  | .plogAnd d a b g => Sys2Proof.Machine.execPlogAnd d a b g s
  | .plogOr d a b g => Sys2Proof.Machine.execPlogOr d a b g s
  | .plogXor d a b g => Sys2Proof.Machine.execPlogXor d a b g s
  | .plogNot d a g => Sys2Proof.Machine.execPlogNot d a g s
  | .s2p d a g => Sys2Proof.Machine.execS2p d a g s
  | .p2s d a g => Sys2Proof.Machine.execP2s d a g s
  | .jr d a g => Sys2Proof.Machine.execJr d a g s
  | .lbrk l g => Sys2Proof.Machine.execLbrk l g s
  | .wait a g => Sys2Proof.Machine.execWait a g s
  | .halt g => Sys2Proof.Machine.execHalt g s
  | .srd d n => Sys2Proof.Machine.execSrd d n s
  | .swr a n => Sys2Proof.Machine.execSwr a n s
  | .srs d a n => Sys2Proof.Machine.execSrs d a n s
  | .src d a n => Sys2Proof.Machine.execSrc d a n s
  | .trap n => Sys2Proof.Machine.execTrap n s
  | .eret => Sys2Proof.Machine.execEret s
  | .fence d w sv => Sys2Proof.Machine.execFence d w sv s
  | .wsync => Sys2Proof.Machine.execWsync s
  | .msg d a m => Sys2Proof.Machine.execMsg d a m s
  | .nextp d => Sys2Proof.Machine.execNextp d s
  | .vfma d a b c m im o k => Sys2Proof.Machine.execVfma d a b c m im o k s
  | .vfms d a b c m im o k => Sys2Proof.Machine.execVfms d a b c m im o k s
  | .vfnma d a b c m im o k => Sys2Proof.Machine.execVfnma d a b c m im o k s
  | .vsel d a b c m k => Sys2Proof.Machine.execVsel d a b c m k s
  | .vimac d a b c m k => Sys2Proof.Machine.execVimac d a b c m k s
  | .vadd d a b m im o k => Sys2Proof.Machine.execVadd d a b m im o k s
  | .vsub d a b m im o k => Sys2Proof.Machine.execVsub d a b m im o k s
  | .vmul d a b m im o k => Sys2Proof.Machine.execVmul d a b m im o k s
  | .vmax d a b m im o k => Sys2Proof.Machine.execVmax d a b m im o k s
  | .vmin d a b m im o k => Sys2Proof.Machine.execVmin d a b m im o k s
  | .vabs d a m im o k => Sys2Proof.Machine.execVabs d a m im o k s
  | .vneg d a m im o k => Sys2Proof.Machine.execVneg d a m im o k s
  | .vcps d a b m im o k => Sys2Proof.Machine.execVcps d a b m im o k s
  | .vcls d a m im k => Sys2Proof.Machine.execVcls d a m im k s
  | .vdot d a b m im o k => Sys2Proof.Machine.execVdot d a b m im o k s
  | .vexpf d a m im o k => Sys2Proof.Machine.execVexpf d a m im o k s
  | .vlogf d a m im o k => Sys2Proof.Machine.execVlogf d a m im o k s
  | .vscale d a b m im o k => Sys2Proof.Machine.execVscale d a b m im o k s
  | .vgetx d a m im o k => Sys2Proof.Machine.execVgetx d a m im o k s
  | .vrcp d a m im o k => Sys2Proof.Machine.execVrcp d a m im o k s
  | .vrsq d a m im o k => Sys2Proof.Machine.execVrsq d a m im o k s
  | .vcmp d a b c m im k => Sys2Proof.Machine.execVcmp d a b c m im k s
  | .viadd d a b m k => Sys2Proof.Machine.execViadd d a b m k s
  | .visub d a b m k => Sys2Proof.Machine.execVisub d a b m k s
  | .vimul d a b m k => Sys2Proof.Machine.execVimul d a b m k s
  | .vand d a b m k => Sys2Proof.Machine.execVand d a b m k s
  | .vor d a b m k => Sys2Proof.Machine.execVor d a b m k s
  | .vxor d a b m k => Sys2Proof.Machine.execVxor d a b m k s
  | .vshl d a b m k => Sys2Proof.Machine.execVshl d a b m k s
  | .vshr d a b m k => Sys2Proof.Machine.execVshr d a b m k s
  | .vsar d a b m k => Sys2Proof.Machine.execVsar d a b m k s
  | .vimin d a b m k => Sys2Proof.Machine.execVimin d a b m k s
  | .vimax d a b m k => Sys2Proof.Machine.execVimax d a b m k s
  | .vcnt d a m k => Sys2Proof.Machine.execVcnt d a m k s
  | .vsumt d a m im o k => Sys2Proof.Machine.execVsumt d a m im o k s
  | .vmaxt d a m im o k => Sys2Proof.Machine.execVmaxt d a m im o k s
  | .vscan d a m im o k => Sys2Proof.Machine.execVscan d a m im o k s
  | .vperm d a b m k => Sys2Proof.Machine.execVperm d a b m k s
  | .vshuf d a b m k => Sys2Proof.Machine.execVshuf d a b m k s
  | .vbcst d a b m k => Sys2Proof.Machine.execVbcst d a b m k s
  | .vins d a b => Sys2Proof.Machine.execVins d a b s
  | .vext d a b => Sys2Proof.Machine.execVext d a b s
  | .vhist d a b m => Sys2Proof.Machine.execVhist d a b m s
  | .vhmrg d a b m k => Sys2Proof.Machine.execVhmrg d a b m k s
  | .vmsk d a b m k => Sys2Proof.Machine.execVmsk d a b m k s
  | .vcvt d a t f r v im o k => Sys2Proof.Machine.execVcvt d a t f r v im o k s
  | .vrndi d a t f r v im o k => Sys2Proof.Machine.execVrndi d a t f r v im o k s
  | .vftoi d a t f r v im o k => Sys2Proof.Machine.execVftoi d a t f r v im o k s
  | .vitof d a t f r v im o k => Sys2Proof.Machine.execVitof d a t f r v im o k s
  | .vpack d a t f r v im o k => Sys2Proof.Machine.execVpack d a t f r v im o k s
  | .vunpk d a t f r v im o k => Sys2Proof.Machine.execVunpk d a t f r v im o k s
  | .vbfp d a b m im => Sys2Proof.Machine.execVbfp d a b m im s
  | .vpld d a b m k => Sys2Proof.Machine.execVpld d a b m k s
  | .ldts d a b m k => Sys2Proof.Machine.execLdts d a b m k s
  | .stts d a b m k => Sys2Proof.Machine.execStts d a b m k s
  | .ldtg d a b m k => Sys2Proof.Machine.execLdtg d a b m k s
  | .sttg d a b m k => Sys2Proof.Machine.execSttg d a b m k s
  | .cfg d a b g => Sys2Proof.Machine.execCfg d a b g s
  | .cfgw d g => Sys2Proof.Machine.execCfgw d g s
  | .pusht a b g => Sys2Proof.Machine.execPusht a b g s
  | .popt d a g => Sys2Proof.Machine.execPopt d a g s
  | .drn d a b g => Sys2Proof.Machine.execDrn d a b g s
  | .cpy d a g => Sys2Proof.Machine.execCpy d a g s
  | .cpySlice d a g => Sys2Proof.Machine.execCpySlice d a g s
  | .cpyw d g => Sys2Proof.Machine.execCpyw d g s
  | .ocl d a g => Sys2Proof.Machine.execOcl d a g s
  | .orl a g => Sys2Proof.Machine.execOrl a g s
  | .old d a b g => Sys2Proof.Machine.execOld d a b g s
  | .ost d a b g => Sys2Proof.Machine.execOst d a b g s
  | .hoopArrive d a b g => Sys2Proof.Machine.execHoopArrive d a b g s
  | .hoopArm d a b g => Sys2Proof.Machine.execHoopArm d a b g s
  | .hoopQuery d a b g => Sys2Proof.Machine.execHoopQuery d a b g s
  | .pub d a g => Sys2Proof.Machine.execPub d a g s
  | .ple d a g => Sys2Proof.Machine.execPle d a g s
  | .mig d a g => Sys2Proof.Machine.execMig d a g s
  | .migSp d a g => Sys2Proof.Machine.execMigSp d a g s
  | .hsplit d a b g => Sys2Proof.Machine.execHsplit d a b g s
  | .ptew d a b g => Sys2Proof.Machine.execPtew d a b g s
  | .ptecas d a b g => Sys2Proof.Machine.execPtecas d a b g s
  | .pinv d a g => Sys2Proof.Machine.execPinv d a g s
  | .wardw a b g => Sys2Proof.Machine.execWardw a b g s
  | .cellMacf q im o f x => Sys2Proof.Machine.execCellMacf q im o f x s
  | .cellMacb q im o f x => Sys2Proof.Machine.execCellMacb q im o f x s
  | .cellMacp q im o f x => Sys2Proof.Machine.execCellMacp q im o f x s
  | .cellWload d a q im o x => Sys2Proof.Machine.execCellWload d a q im o x s
  | .cellWplt d a q im o x => Sys2Proof.Machine.execCellWplt d a q im o x s
  | .cellPsum d a b q im o x => Sys2Proof.Machine.execCellPsum d a b q im o x s
  | .cellPass d a q im o x => Sys2Proof.Machine.execCellPass d a q im o x s
  | .cellBubl d q im o x => Sys2Proof.Machine.execCellBubl d q im o x s
  | .cellSelr d a b q im o x => Sys2Proof.Machine.execCellSelr d a b q im o x s
  | .cellRsum d a b q im o f x => Sys2Proof.Machine.execCellRsum d a b q im o f x s
  | .cellRmax d a b q im o f x => Sys2Proof.Machine.execCellRmax d a b q im o f x s
  | .cellRmin d a b q im o f x => Sys2Proof.Machine.execCellRmin d a b q im o f x s
  | .cellRfold d a b q im o f x => Sys2Proof.Machine.execCellRfold d a b q im o f x s
  | .cellAgen q im o sv => Sys2Proof.Machine.execCellAgen q im o sv s
  | .cellAreq q im o sv => Sys2Proof.Machine.execCellAreq q im o sv s
  | .cellAstq a q im o sv => Sys2Proof.Machine.execCellAstq a q im o sv s
  | .cellAred a q im o sv => Sys2Proof.Machine.execCellAred a q im o sv s
  | .cellAwin d q im o w => Sys2Proof.Machine.execCellAwin d q im o w s
  | .cellFeedr q im o f e => Sys2Proof.Machine.execCellFeedr q im o f e s
  | .cellOutr q im o e => Sys2Proof.Machine.execCellOutr q im o e s
  | .cellVadd d a b c q im o f x => Sys2Proof.Machine.execCellVadd d a b c q im o f x s
  | .cellVsub d a b c q im o f x => Sys2Proof.Machine.execCellVsub d a b c q im o f x s
  | .cellVmul d a b c q im o f x => Sys2Proof.Machine.execCellVmul d a b c q im o f x s
  | .cellVfma d a b c q im o f x => Sys2Proof.Machine.execCellVfma d a b c q im o f x s
  | .cellVfms d a b c q im o f x => Sys2Proof.Machine.execCellVfms d a b c q im o f x s
  | .cellVfnma d a b c q im o f x => Sys2Proof.Machine.execCellVfnma d a b c q im o f x s
  | .cellVmax d a b c q im o f x => Sys2Proof.Machine.execCellVmax d a b c q im o f x s
  | .cellVmin d a b c q im o f x => Sys2Proof.Machine.execCellVmin d a b c q im o f x s
  | .cellVabs d a b c q im o f x => Sys2Proof.Machine.execCellVabs d a b c q im o f x s
  | .cellVneg d a b c q im o f x => Sys2Proof.Machine.execCellVneg d a b c q im o f x s
  | .cellVcps d a b c q im o f x => Sys2Proof.Machine.execCellVcps d a b c q im o f x s
  | .cellVcmp d a b c q im o f n => Sys2Proof.Machine.execCellVcmp d a b c q im o f n s
  | .cellVsel d a b c q im o f x => Sys2Proof.Machine.execCellVsel d a b c q im o f x s
  | .cellVcls d a b c q im o f x => Sys2Proof.Machine.execCellVcls d a b c q im o f x s
  | .cellVcvt d a b c q im o f x => Sys2Proof.Machine.execCellVcvt d a b c q im o f x s
  | .cellVrndi d a b c q im o f x => Sys2Proof.Machine.execCellVrndi d a b c q im o f x s
  | .cellVftoi d a b c q im o f x => Sys2Proof.Machine.execCellVftoi d a b c q im o f x s
  | .cellVitof d a b c q im o f x => Sys2Proof.Machine.execCellVitof d a b c q im o f x s
  | .cellVexpf d a b c q im o f x => Sys2Proof.Machine.execCellVexpf d a b c q im o f x s
  | .cellVlogf d a b c q im o f x => Sys2Proof.Machine.execCellVlogf d a b c q im o f x s
  | .cellVscale d a b c q im o f x => Sys2Proof.Machine.execCellVscale d a b c q im o f x s
  | .cellVgetx d a b c q im o f x => Sys2Proof.Machine.execCellVgetx d a b c q im o f x s
  | .cellVrcp d a b c q im o f x => Sys2Proof.Machine.execCellVrcp d a b c q im o f x s
  | .cellVrsq d a b c q im o f x => Sys2Proof.Machine.execCellVrsq d a b c q im o f x s
  | .cellVdot d a b c q im o f x => Sys2Proof.Machine.execCellVdot d a b c q im o f x s
  | .cellVsumt d a b c q im o f x => Sys2Proof.Machine.execCellVsumt d a b c q im o f x s
  | .cellVmaxt d a b c q im o f x => Sys2Proof.Machine.execCellVmaxt d a b c q im o f x s
  | .cellVscan d a b c q im o f x => Sys2Proof.Machine.execCellVscan d a b c q im o f x s
  | .cellVperm d a b c q im o f x => Sys2Proof.Machine.execCellVperm d a b c q im o f x s
  | .cellVshuf d a c q im o f x => Sys2Proof.Machine.execCellVshuf d a c q im o f x s
  | .cellVbcst d a c q im o f x => Sys2Proof.Machine.execCellVbcst d a c q im o f x s
  | .cellVhist d a b c q im o f x => Sys2Proof.Machine.execCellVhist d a b c q im o f x s
  | .cellVhmrg d a b c q im o f x => Sys2Proof.Machine.execCellVhmrg d a b c q im o f x s
  | .cellVpack d a b c q im o f x => Sys2Proof.Machine.execCellVpack d a b c q im o f x s
  | .cellVunpk d a b c q im o f x => Sys2Proof.Machine.execCellVunpk d a b c q im o f x s
  | .cellVbfp d a b c q im o f x => Sys2Proof.Machine.execCellVbfp d a b c q im o f x s
  | .cellVpld d a q im o f x => Sys2Proof.Machine.execCellVpld d a q im o f x s
  | .cellVmsk d a b c q im o f x => Sys2Proof.Machine.execCellVmsk d a b c q im o f x s
  | .cellViadd d a b c q f => Sys2Proof.Machine.execCellViadd d a b c q f s
  | .cellVisub d a b c q f => Sys2Proof.Machine.execCellVisub d a b c q f s
  | .cellVimul d a b c q f => Sys2Proof.Machine.execCellVimul d a b c q f s
  | .cellVand d a b c q f => Sys2Proof.Machine.execCellVand d a b c q f s
  | .cellVor d a b c q f => Sys2Proof.Machine.execCellVor d a b c q f s
  | .cellVxor d a b c q f => Sys2Proof.Machine.execCellVxor d a b c q f s
  | .cellVshl d a b c q f => Sys2Proof.Machine.execCellVshl d a b c q f s
  | .cellVshr d a b c q f => Sys2Proof.Machine.execCellVshr d a b c q f s
  | .cellVsar d a b c q f => Sys2Proof.Machine.execCellVsar d a b c q f s
  | .cellVimin d a b c q f => Sys2Proof.Machine.execCellVimin d a b c q f s
  | .cellVimax d a b c q f => Sys2Proof.Machine.execCellVimax d a b c q f s
  | .cellVcnt d a b c q f => Sys2Proof.Machine.execCellVcnt d a b c q f s
  | .cellVimac d a b c q f => Sys2Proof.Machine.execCellVimac d a b c q f s

end Sys2Proof.Machine
end

