-- ==== Sys2Proof/Machine/Fetch.lean ====
section
/-! DEFINITION. Running the instruction that a word decodes to. The decoder builds constructors past Lean's limit for compiled
code, so its composition with `exec` is compiled as the equal function of `Machine/Direct.lean`. -/

namespace Sys2Proof.Machine

/-- What the decoder's answer means. -/
noncomputable def meaningOf (i : Option Instr) (s : State) : Option Result :=
  match i with
  | some i => if i.wellFormed then some (exec i s) else none
  | none => none

theorem meaningOf_ite (c : Prop) [Decidable c] (a b : Option Instr) (s : State) :
    meaningOf (if c then a else b) s = if c then meaningOf a s else meaningOf b s := by split <;> rfl

theorem directOp01_eq (w : Word) (s : State) : directOp01 w s = meaningOf (decodeOp01 w) s := by
  unfold directOp01 decodeOp01
  generalize (fld w 0 7).toNat = n
  match n with
  | 0 => rfl
  | 1 => rfl
  | 2 => rfl
  | 3 => rfl
  | 4 => rfl
  | 5 => rfl
  | 6 => rfl
  | 7 => rfl
  | 8 => rfl
  | 9 => rfl
  | 10 => rfl
  | 11 => rfl
  | 12 => rfl
  | 13 => rfl
  | 14 => rfl
  | 15 => rfl
  | 16 => rfl
  | 17 => rfl
  | 18 => rfl
  | 19 => rfl
  | 20 => rfl
  | 21 => change _ = meaningOf (ite _ _ _) s; rw [meaningOf_ite]; rfl
  | 22 => change _ = meaningOf (ite _ _ _) s; rw [meaningOf_ite]; rfl
  | 23 => change _ = meaningOf (ite _ _ _) s; rw [meaningOf_ite]; rfl
  | 24 => change _ = meaningOf (ite _ _ _) s; rw [meaningOf_ite]; rfl
  | 25 => change _ = meaningOf (ite _ _ _) s; rw [meaningOf_ite]; rfl
  | 26 => change _ = meaningOf (ite _ _ _) s; rw [meaningOf_ite]; rfl
  | 27 => change _ = meaningOf (ite _ _ _) s; rw [meaningOf_ite]; rfl
  | 28 => change _ = meaningOf (ite _ _ _) s; rw [meaningOf_ite]; rfl
  | 29 => change _ = meaningOf (ite _ _ _) s; rw [meaningOf_ite]; rfl
  | 30 => change _ = meaningOf (ite _ _ _) s; rw [meaningOf_ite]; rfl
  | 31 => rfl
  | 32 => rfl
  | 33 => rfl
  | 34 => rfl
  | 35 => rfl
  | 36 => rfl
  | 37 => rfl
  | _ + 38 => rfl

theorem directOp15_eq (w : Word) (s : State) : directOp15 w s = meaningOf (decodeOp15 w) s := by
  unfold directOp15 decodeOp15
  generalize (fld w 10 2).toNat = n
  match n with
  | 0 => rfl
  | 1 => rfl
  | 2 => rfl
  | 3 => rfl
  | _ + 4 => rfl

theorem directOp18_eq (w : Word) (s : State) : directOp18 w s = meaningOf (decodeOp18 w) s := by
  unfold directOp18 decodeOp18
  generalize (fld w 0 4).toNat = n
  match n with
  | 0 => rfl
  | 1 => rfl
  | 2 => rfl
  | 3 => rfl
  | 4 => rfl
  | 5 => rfl
  | 6 => rfl
  | 7 => rfl
  | 8 => rfl
  | 9 => change _ = meaningOf (ite _ _ _) s; rw [meaningOf_ite]; rfl
  | 10 => change _ = meaningOf (ite _ _ _) s; rw [meaningOf_ite]; rfl
  | _ + 11 => rfl

theorem directOp19_eq (w : Word) (s : State) : directOp19 w s = meaningOf (decodeOp19 w) s := by
  unfold directOp19 decodeOp19
  generalize (fld w 0 4).toNat = n
  match n with
  | 0 => rfl
  | 1 => rfl
  | 2 => rfl
  | 3 => rfl
  | 4 => rfl
  | 5 => rfl
  | 6 => rfl
  | 7 => rfl
  | 8 => change _ = meaningOf (ite _ _ _) s; rw [meaningOf_ite]; rfl
  | 9 => change _ = meaningOf (ite _ _ _) s; rw [meaningOf_ite]; rfl
  | 10 => change _ = meaningOf (ite _ _ _) s; rw [meaningOf_ite]; rfl
  | 11 => change _ = meaningOf (ite _ _ _) s; rw [meaningOf_ite]; rfl
  | 12 => change _ = meaningOf (ite _ _ _) s; rw [meaningOf_ite]; rfl
  | _ + 13 => rfl

theorem directBranch_eq (w : Word) (s : State) : directBranch w s = meaningOf (decodeBranch w) s := by
  unfold directBranch decodeBranch
  rw [meaningOf_ite]
  by_cases h : fld w 22 4 = 0
  · rw [if_pos h, if_pos h]; rfl
  · rw [if_neg h, if_neg h]; rfl

theorem directOp1C_eq (w : Word) (s : State) : directOp1C w s = meaningOf (decodeOp1C w) s := by
  unfold directOp1C decodeOp1C
  generalize (fld w 23 1).toNat = n
  match n with
  | 0 => change _ = meaningOf (ite _ _ _) s; rw [meaningOf_ite]; rfl
  | 1 => change _ = meaningOf (ite _ _ _) s; rw [meaningOf_ite]; rfl
  | _ + 2 => rfl

theorem directOp1E_eq (w : Word) (s : State) : directOp1E w s = meaningOf (decodeOp1E w) s := by
  unfold directOp1E decodeOp1E
  rw [meaningOf_ite]
  by_cases h : fld w 4 3 = 0
  · rw [if_pos h, if_pos h, meaningOf_ite]; rfl
  rw [if_neg h, if_neg h]
  generalize (fld w 0 7).toNat = n
  match n with
  | 0 => rfl
  | 1 => rfl
  | 2 => rfl
  | 3 => rfl
  | 4 => rfl
  | 5 => rfl
  | 6 => rfl
  | 7 => rfl
  | 8 => rfl
  | 9 => rfl
  | 10 => rfl
  | 11 => rfl
  | 12 => rfl
  | 13 => rfl
  | 14 => rfl
  | 15 => rfl
  | 16 => change _ = meaningOf (ite _ _ _) s; rw [meaningOf_ite]; rfl
  | 17 => change _ = meaningOf (ite _ _ _) s; rw [meaningOf_ite]; rfl
  | 18 => change _ = meaningOf (ite _ _ _) s; rw [meaningOf_ite]; rfl
  | 19 => change _ = meaningOf (ite _ _ _) s; rw [meaningOf_ite]; rfl
  | 20 => change _ = meaningOf (ite _ _ _) s; rw [meaningOf_ite]; rfl
  | 21 => change _ = meaningOf (ite _ _ _) s; rw [meaningOf_ite]; rfl
  | 22 => rfl
  | 23 => rfl
  | 24 => change _ = meaningOf (ite _ _ _) s; rw [meaningOf_ite]; rfl
  | 25 => change _ = meaningOf (ite _ _ _) s; rw [meaningOf_ite]; rfl
  | 26 => change _ = meaningOf (ite _ _ _) s; rw [meaningOf_ite]; rfl
  | 27 => change _ = meaningOf (ite _ _ _) s; rw [meaningOf_ite]; rfl
  | _ + 28 => rfl

theorem directOp1F_eq (w : Word) (s : State) : directOp1F w s = meaningOf (decodeOp1F w) s := by
  unfold directOp1F decodeOp1F
  generalize (fld w 0 4).toNat = n
  match n with
  | 0 => change _ = meaningOf (ite _ _ _) s; rw [meaningOf_ite]; rfl
  | 1 => change _ = meaningOf (ite _ _ _) s; rw [meaningOf_ite]; rfl
  | 2 => rfl
  | 3 => rfl
  | 4 => change _ = meaningOf (ite _ _ _) s; rw [meaningOf_ite]; rfl
  | 5 => change _ = meaningOf (ite _ _ _) s; rw [meaningOf_ite]; rfl
  | 6 => change _ = meaningOf (ite _ _ _) s; rw [meaningOf_ite]; rfl
  | 7 => change _ = meaningOf (ite _ _ _) s; rw [meaningOf_ite]; rfl
  | 8 => change _ = meaningOf (ite _ _ _) s; rw [meaningOf_ite]; rfl
  | 9 => change _ = meaningOf (ite _ _ _) s; rw [meaningOf_ite]; rfl
  | _ + 10 => rfl

theorem directOp25_eq (w : Word) (s : State) : directOp25 w s = meaningOf (decodeOp25 w) s := by
  unfold directOp25 decodeOp25
  generalize (fld w 6 5).toNat = n
  match n with
  | 0 => rfl
  | 1 => rfl
  | 2 => rfl
  | 3 => rfl
  | 4 => rfl
  | 5 => change _ = meaningOf (ite _ _ _) s; rw [meaningOf_ite]; rfl
  | 6 => change _ = meaningOf (ite _ _ _) s; rw [meaningOf_ite]; rfl
  | 7 => rfl
  | 8 => change _ = meaningOf (ite _ _ _) s; rw [meaningOf_ite]; rfl
  | 9 => rfl
  | 10 => change _ = meaningOf (ite _ _ _) s; rw [meaningOf_ite]; rfl
  | 11 => change _ = meaningOf (ite _ _ _) s; rw [meaningOf_ite]; rfl
  | 12 => rfl
  | 13 => change _ = meaningOf (ite _ _ _) s; rw [meaningOf_ite]; rfl
  | 14 => change _ = meaningOf (ite _ _ _) s; rw [meaningOf_ite]; rfl
  | 15 => change _ = meaningOf (ite _ _ _) s; rw [meaningOf_ite]; rfl
  | 16 => change _ = meaningOf (ite _ _ _) s; rw [meaningOf_ite]; rfl
  | 17 => change _ = meaningOf (ite _ _ _) s; rw [meaningOf_ite]; rfl
  | 18 => change _ = meaningOf (ite _ _ _) s; rw [meaningOf_ite]; rfl
  | 19 => change _ = meaningOf (ite _ _ _) s; rw [meaningOf_ite]; rfl
  | 20 => change _ = meaningOf (ite _ _ _) s; rw [meaningOf_ite]; rfl
  | 21 => change _ = meaningOf (ite _ _ _) s; rw [meaningOf_ite]; rfl
  | 22 => change _ = meaningOf (ite _ _ _) s; rw [meaningOf_ite]; rfl
  | 23 => change _ = meaningOf (ite _ _ _) s; rw [meaningOf_ite]; rfl
  | _ + 24 => rfl

theorem directOp26_eq (w : Word) (s : State) : directOp26 w s = meaningOf (decodeOp26 w) s := by
  unfold directOp26 decodeOp26
  generalize (fld w 6 5).toNat = n
  match n with
  | 0 => change _ = meaningOf (ite _ _ _) s; rw [meaningOf_ite]; rfl
  | 1 => change _ = meaningOf (ite _ _ _) s; rw [meaningOf_ite]; rfl
  | 2 => change _ = meaningOf (ite _ _ _) s; rw [meaningOf_ite]; rfl
  | 3 => change _ = meaningOf (ite _ _ _) s; rw [meaningOf_ite]; rfl
  | 4 => change _ = meaningOf (ite _ _ _) s; rw [meaningOf_ite]; rfl
  | 5 => change _ = meaningOf (ite _ _ _) s; rw [meaningOf_ite]; rfl
  | 6 => change _ = meaningOf (ite _ _ _) s; rw [meaningOf_ite]; rfl
  | 7 => change _ = meaningOf (ite _ _ _) s; rw [meaningOf_ite]; rfl
  | 8 => change _ = meaningOf (ite _ _ _) s; rw [meaningOf_ite]; rfl
  | 9 => change _ = meaningOf (ite _ _ _) s; rw [meaningOf_ite]; rfl
  | 10 => change _ = meaningOf (ite _ _ _) s; rw [meaningOf_ite]; rfl
  | 11 => change _ = meaningOf (ite _ _ _) s; rw [meaningOf_ite]; rfl
  | _ + 12 => rfl

theorem directOp27_eq (w : Word) (s : State) : directOp27 w s = meaningOf (decodeOp27 w) s := by
  unfold directOp27 decodeOp27
  generalize (fld w 6 5).toNat = n
  match n with
  | 0 => change _ = meaningOf (ite _ _ _) s; rw [meaningOf_ite]; rfl
  | 1 => change _ = meaningOf (ite _ _ _) s; rw [meaningOf_ite]; rfl
  | 2 => change _ = meaningOf (ite _ _ _) s; rw [meaningOf_ite]; rfl
  | 3 => change _ = meaningOf (ite _ _ _) s; rw [meaningOf_ite]; rfl
  | 4 => change _ = meaningOf (ite _ _ _) s; rw [meaningOf_ite]; rfl
  | 5 => change _ = meaningOf (ite _ _ _) s; rw [meaningOf_ite]; rfl
  | 6 => change _ = meaningOf (ite _ _ _) s; rw [meaningOf_ite]; rfl
  | 7 => change _ = meaningOf (ite _ _ _) s; rw [meaningOf_ite]; rfl
  | 8 => change _ = meaningOf (ite _ _ _) s; rw [meaningOf_ite]; rfl
  | 9 => change _ = meaningOf (ite _ _ _) s; rw [meaningOf_ite]; rfl
  | 10 => change _ = meaningOf (ite _ _ _) s; rw [meaningOf_ite]; rfl
  | _ + 11 => rfl

theorem directOp2E_eq (w : Word) (s : State) : directOp2E w s = meaningOf (decodeOp2E w) s := by
  unfold directOp2E decodeOp2E
  generalize (fld w 6 5).toNat = n
  match n with
  | 0 => change _ = meaningOf (ite _ _ _) s; rw [meaningOf_ite]; rfl
  | 1 => change _ = meaningOf (ite _ _ _) s; rw [meaningOf_ite]; rfl
  | _ + 2 => rfl

theorem directOp2F_eq (w : Word) (s : State) : directOp2F w s = meaningOf (decodeOp2F w) s := by
  unfold directOp2F decodeOp2F
  generalize (fld w 6 5).toNat = n
  match n with
  | 0 => change _ = meaningOf (ite _ _ _) s; rw [meaningOf_ite]; rfl
  | 1 => change _ = meaningOf (ite _ _ _) s; rw [meaningOf_ite]; rfl
  | 2 => change _ = meaningOf (ite _ _ _) s; rw [meaningOf_ite]; rfl
  | 3 => change _ = meaningOf (ite _ _ _) s; rw [meaningOf_ite]; rfl
  | _ + 4 => rfl

theorem directOp30_eq (w : Word) (s : State) : directOp30 w s = meaningOf (decodeOp30 w) s := by
  unfold directOp30 decodeOp30
  generalize (fld w 0 7).toNat = n
  match n with
  | 0 => rfl
  | 1 => change _ = meaningOf (ite _ _ _) s; rw [meaningOf_ite]; rfl
  | _ + 2 => rfl

theorem directOp31_eq (w : Word) (s : State) : directOp31 w s = meaningOf (decodeOp31 w) s := by
  unfold directOp31 decodeOp31
  generalize (fld w 0 7).toNat = n
  match n with
  | 0 => change _ = meaningOf (ite _ _ _) s; rw [meaningOf_ite]; rfl
  | 1 => change _ = meaningOf (ite _ _ _) s; rw [meaningOf_ite]; rfl
  | 2 => rfl
  | _ + 3 => rfl

theorem directOp32_eq (w : Word) (s : State) : directOp32 w s = meaningOf (decodeOp32 w) s := by
  unfold directOp32 decodeOp32
  generalize (fld w 0 7).toNat = n
  match n with
  | 0 => change _ = meaningOf (ite _ _ _) s; rw [meaningOf_ite]; rfl
  | 1 => change _ = meaningOf (ite _ _ _) s; rw [meaningOf_ite]; rfl
  | _ + 2 => rfl

theorem directOp33_eq (w : Word) (s : State) : directOp33 w s = meaningOf (decodeOp33 w) s := by
  unfold directOp33 decodeOp33
  generalize (fld w 0 7).toNat = n
  match n with
  | 0 => change _ = meaningOf (ite _ _ _) s; rw [meaningOf_ite]; rfl
  | 1 => change _ = meaningOf (ite _ _ _) s; rw [meaningOf_ite]; rfl
  | 2 => rfl
  | 3 => rfl
  | _ + 4 => rfl

theorem directOp34_eq (w : Word) (s : State) : directOp34 w s = meaningOf (decodeOp34 w) s := by
  unfold directOp34 decodeOp34
  generalize (fld w 0 7).toNat = n
  match n with
  | 0 => rfl
  | 1 => change _ = meaningOf (ite _ _ _) s; rw [meaningOf_ite]; rfl
  | _ + 2 => rfl

theorem directOp35_eq (w : Word) (s : State) : directOp35 w s = meaningOf (decodeOp35 w) s := by
  unfold directOp35 decodeOp35
  generalize (fld w 0 7).toNat = n
  match n with
  | 0 => change _ = meaningOf (ite _ _ _) s; rw [meaningOf_ite]; rfl
  | 1 => change _ = meaningOf (ite _ _ _) s; rw [meaningOf_ite]; rfl
  | 2 => change _ = meaningOf (ite _ _ _) s; rw [meaningOf_ite]; rfl
  | 3 => rfl
  | _ + 4 => rfl

theorem directOp36_eq (w : Word) (s : State) : directOp36 w s = meaningOf (decodeOp36 w) s := by
  unfold directOp36 decodeOp36
  generalize (fld w 0 7).toNat = n
  match n with
  | 0 => rfl
  | 1 => rfl
  | 2 => change _ = meaningOf (ite _ _ _) s; rw [meaningOf_ite]; rfl
  | _ + 3 => rfl

theorem directOp37_eq (w : Word) (s : State) : directOp37 w s = meaningOf (decodeOp37 w) s := by
  unfold directOp37 decodeOp37
  generalize (fld w 0 7).toNat = n
  match n with
  | 0 => change _ = meaningOf (ite _ _ _) s; rw [meaningOf_ite]; rfl
  | _ + 1 => rfl

theorem directRaw_eq (w : Word) (s : State) : directRaw w s = meaningOf (rawRim w) s := by
  unfold directRaw rawRim
  generalize (fld w 26 6).toNat = n
  match n with
  | 0 => rfl
  | 1 => exact directOp01_eq w s
  | 2 => rfl
  | 3 => rfl
  | 4 => rfl
  | 5 => rfl
  | 6 => change _ = meaningOf (ite _ _ _) s; rw [meaningOf_ite]; rfl
  | 7 => change _ = meaningOf (ite _ _ _) s; rw [meaningOf_ite]; rfl
  | 8 => change _ = meaningOf (ite _ _ _) s; rw [meaningOf_ite]; rfl
  | 9 => rfl
  | 10 => change _ = meaningOf (ite _ _ _) s; rw [meaningOf_ite]; rfl
  | 11 => rfl
  | 12 => rfl
  | 13 => rfl
  | 14 => rfl
  | 15 => rfl
  | 16 => rfl
  | 17 => rfl
  | 18 => rfl
  | 19 => rfl
  | 20 => rfl
  | 21 => exact directOp15_eq w s
  | 22 => rfl
  | 23 => rfl
  | 24 => exact directOp18_eq w s
  | 25 => exact directOp19_eq w s
  | 26 => exact directBranch_eq w s
  | 27 => rfl
  | 28 => exact directOp1C_eq w s
  | 29 => change _ = meaningOf (ite _ _ _) s; rw [meaningOf_ite]; rfl
  | 30 => exact directOp1E_eq w s
  | 31 => exact directOp1F_eq w s
  | 32 => rfl
  | 33 => rfl
  | 34 => rfl
  | 35 => change _ = meaningOf (ite _ _ _) s; rw [meaningOf_ite]; rfl
  | 36 => change _ = meaningOf (ite _ _ _) s; rw [meaningOf_ite]; rfl
  | 37 => exact directOp25_eq w s
  | 38 => exact directOp26_eq w s
  | 39 => exact directOp27_eq w s
  | 40 => rfl
  | 41 => rfl
  | 42 => rfl
  | 43 => rfl
  | 44 => rfl
  | 45 => rfl
  | 46 => exact directOp2E_eq w s
  | 47 => exact directOp2F_eq w s
  | 48 => exact directOp30_eq w s
  | 49 => exact directOp31_eq w s
  | 50 => exact directOp32_eq w s
  | 51 => exact directOp33_eq w s
  | 52 => exact directOp34_eq w s
  | 53 => exact directOp35_eq w s
  | 54 => exact directOp36_eq w s
  | 55 => exact directOp37_eq w s
  | _ + 56 => rfl

/-- R10, R33: the word of a rim core's code store runs as the instruction that it decodes to. -/
noncomputable def runRimWord (w : Word) (s : State) : Result := exec (rimInstr w) s

theorem runRimWord_eq_directRim (w : Word) (s : State) : runRimWord w s = directRim w s := by
  unfold runRimWord directRim rimInstr decodeRim
  rw [directRaw_eq]
  cases rawRim w with
  | none => rfl
  | some i =>
    by_cases h : i.wellFormed = true
    · simp only [meaningOf, wellFormedOnly, h, if_true]
    · simp only [meaningOf, wellFormedOnly, h]; rfl

/-- The compiled form. -/
@[csimp] theorem runRimWord_eq : @runRimWord = @directRim := by
  funext w s; exact runRimWord_eq_directRim w s

theorem directCell3E_eq (w : Word) (s : State) : directCell3E w s = meaningOf (decodeCell3E w) s := by
  unfold directCell3E decodeCell3E
  generalize (fld w 0 5).toNat = n
  match n with
  | 0 => change _ = meaningOf (ite _ _ _) s; rw [meaningOf_ite]; rfl
  | 1 => change _ = meaningOf (ite _ _ _) s; rw [meaningOf_ite]; rfl
  | 2 => change _ = meaningOf (ite _ _ _) s; rw [meaningOf_ite]; rfl
  | 3 => change _ = meaningOf (ite _ _ _) s; rw [meaningOf_ite]; rfl
  | 4 => change _ = meaningOf (ite _ _ _) s; rw [meaningOf_ite]; rfl
  | 5 => change _ = meaningOf (ite _ _ _) s; rw [meaningOf_ite]; rfl
  | 6 => change _ = meaningOf (ite _ _ _) s; rw [meaningOf_ite]; rfl
  | 7 => change _ = meaningOf (ite _ _ _) s; rw [meaningOf_ite]; rfl
  | 8 => change _ = meaningOf (ite _ _ _) s; rw [meaningOf_ite]; rfl
  | 9 => change _ = meaningOf (ite _ _ _) s; rw [meaningOf_ite]; rfl
  | 10 => change _ = meaningOf (ite _ _ _) s; rw [meaningOf_ite]; rfl
  | 11 => change _ = meaningOf (ite _ _ _) s; rw [meaningOf_ite]; rfl
  | 12 => change _ = meaningOf (ite _ _ _) s; rw [meaningOf_ite]; rfl
  | _ + 13 => rfl

theorem directRawCell_eq (w : Word) (s : State) : directRawCell w s = meaningOf (rawCell w) s := by
  unfold directRawCell rawCell
  generalize (fld w 26 6).toNat = n
  match n with
  | 0 => rfl
  | 1 => change _ = meaningOf (ite _ _ _) s; rw [meaningOf_ite]; rfl
  | 2 => change _ = meaningOf (ite _ _ _) s; rw [meaningOf_ite]; rfl
  | 3 => change _ = meaningOf (ite _ _ _) s; rw [meaningOf_ite]; rfl
  | 4 => change _ = meaningOf (ite _ _ _) s; rw [meaningOf_ite]; rfl
  | 5 => change _ = meaningOf (ite _ _ _) s; rw [meaningOf_ite]; rfl
  | 6 => change _ = meaningOf (ite _ _ _) s; rw [meaningOf_ite]; rfl
  | 7 => change _ = meaningOf (ite _ _ _) s; rw [meaningOf_ite]; rfl
  | 8 => change _ = meaningOf (ite _ _ _) s; rw [meaningOf_ite]; rfl
  | 9 => change _ = meaningOf (ite _ _ _) s; rw [meaningOf_ite]; rfl
  | 10 => change _ = meaningOf (ite _ _ _) s; rw [meaningOf_ite]; rfl
  | 11 => change _ = meaningOf (ite _ _ _) s; rw [meaningOf_ite]; rfl
  | 12 => change _ = meaningOf (ite _ _ _) s; rw [meaningOf_ite]; rfl
  | 13 => change _ = meaningOf (ite _ _ _) s; rw [meaningOf_ite]; rfl
  | 14 => change _ = meaningOf (ite _ _ _) s; rw [meaningOf_ite]; rfl
  | 15 => change _ = meaningOf (ite _ _ _) s; rw [meaningOf_ite]; rfl
  | 16 => change _ = meaningOf (ite _ _ _) s; rw [meaningOf_ite]; rfl
  | 17 => change _ = meaningOf (ite _ _ _) s; rw [meaningOf_ite]; rfl
  | 18 => change _ = meaningOf (ite _ _ _) s; rw [meaningOf_ite]; rfl
  | 19 => change _ = meaningOf (ite _ _ _) s; rw [meaningOf_ite]; rfl
  | 20 => change _ = meaningOf (ite _ _ _) s; rw [meaningOf_ite]; rfl
  | 21 => rfl
  | 22 => rfl
  | 23 => rfl
  | 24 => rfl
  | 25 => rfl
  | 26 => rfl
  | 27 => rfl
  | 28 => rfl
  | 29 => rfl
  | 30 => rfl
  | 31 => rfl
  | 32 => rfl
  | 33 => rfl
  | 34 => rfl
  | 35 => change _ = meaningOf (ite _ _ _) s; rw [meaningOf_ite]; rfl
  | 36 => rfl
  | 37 => rfl
  | 38 => rfl
  | 39 => rfl
  | 40 => rfl
  | 41 => rfl
  | 42 => rfl
  | 43 => rfl
  | 44 => rfl
  | 45 => rfl
  | 46 => rfl
  | 47 => rfl
  | 48 => rfl
  | 49 => rfl
  | 50 => rfl
  | 51 => rfl
  | 52 => rfl
  | 53 => change _ = meaningOf (ite _ _ _) s; rw [meaningOf_ite]; rfl
  | 54 => change _ = meaningOf (ite _ _ _) s; rw [meaningOf_ite]; rfl
  | 55 => rfl
  | 56 => rfl
  | 57 => rfl
  | 58 => rfl
  | 59 => rfl
  | 60 => change _ = meaningOf (ite _ _ _) s; rw [meaningOf_ite]; rfl
  | 61 => rfl
  | 62 => exact directCell3E_eq w s
  | _ + 63 => rfl

/-- R10, R187: a row word runs as the instruction that it decodes to. -/
noncomputable def runCellWord (w : Word) (s : State) : Result :=
  match decodeCell w with
  | .ok i => exec i s
  | .error _ => .next s

theorem runCellWord_eq_directCell (w : Word) (s : State) : runCellWord w s = directCell w s := by
  unfold runCellWord directCell decodeCell
  rw [directRawCell_eq]
  cases rawCell w with
  | none => rfl
  | some i =>
    by_cases h : i.wellFormed = true
    · simp only [meaningOf, wellFormedOnly, h, if_true]
    · simp only [meaningOf, wellFormedOnly, h]; rfl

/-- The compiled form. -/
@[csimp] theorem runCellWord_eq : @runCellWord = @directCell := by
  funext w s; exact runCellWord_eq_directCell w s

end Sys2Proof.Machine
end

