-- ==== Sys2Proof/Machine/Turns.lean ====
section
/-! DEFINITION. The turn of each agent: fetching and running the next word of a rim core, the next word of a configuration stream,
the next row of a graph's slot, and the order in which the agents move (R23, R96, R97, R99, R109, R111, R159 to R162, R170 to R172,
R177, R187, R207, R251, R262, R371, R372, R376, R381, R398, R402; assumption 2). -/

namespace Sys2Proof.Machine

/-- An agent hands the turn to the others. -/
def State.yieldTurn (s : State) : State :=
  match s.turns with
  | [] => s
  | a :: rest => { s with turns := rest ++ [a] }

/-- A result whose next state hands the turn on. -/
def handOn (r : Result) : Result :=
  match r with
  | .next s => .next s.yieldTurn
  | .fault e => .fault e
  | .refused e => .refused e

/-! ### Rim cores -/

/-- R159, R395: a core counts the corrected words that it fetches, saturating. -/
def State.countFetch (s : State) (m : CodeMark) : State :=
  if m = .corrected ∧ s.tile.softErr ≠ 0xFFFFFFFF then { s with tile := { s.tile with softErr := s.tile.softErr + 1 } } else s

/-- R162: a fetch in user mode from the supervisor's part of the code store. -/
def Core.fetchesSuper (c : Core) : Bool := !c.mode && c.tvecValid && c.tvecEntry.ule c.pc

/-- R109, R159, R162: the core in focus fetches the word at its pc and runs it. CODEERR and the PRIV of a fetch come before all
else. -/
def fetchAndRun (s : State) : Result :=
  let c := s.tile.core
  let x := s.tile.fetchWord c.pc
  let s := s.countFetch x.2
  if x.2 = .uncorrectable then .next (trapAt s causeCodeErr (zext64 c.pc) x.1)
  else if c.fetchesSuper then .next (trapAt s causePriv 0 x.1)
  else runRimWord x.1 s

/-- R157, R170: an instruction that has been fetched and could not issue tries again; its word is not fetched afresh. -/
def reissue (s : State) : Result :=
  match s.tile.core.held with
  | some h => runRimWord h.word (s.setCore { s.tile.core with stall := .none })
  | none => fetchAndRun s

/-- R170, R171: what the core in focus does next. An instruction that has issued and waits goes on in any case; others wait until the
core may issue. -/
def coreTurn (s : State) : Result :=
  let c := s.tile.core
  let issue (r : Result) : Result := if s.mayIssue s.tileIdx then r else .next s
  match c.stall with
  | .none => issue (fetchAndRun s)
  | .again => issue (reissue s)
  | .nextp => issue (reissue s)
  | .wait _ => exec (.waitRelease s.tileIdx) s
  | .fence _ _ _ => exec (.fenceComplete s.tileIdx) s
  | .halt => exec (.haltComplete s.tileIdx) s
  | .held _ => exec (.loadReturn s.tileIdx) s
  | .load _ _ => .next s
  | .away _ => .next s
  | .aborted va => .next (trapAt s causePageAbort va ((c.held.map fun h => h.word).getD 0))

/-- R207: the commands of a tile that can start now. -/
def State.readyCmds (s : State) (t : Nat) : List Instr :=
  ((s.getTile t).core.cmds.filter fun x => s.cmdReady t x).map fun x => .commandStart t x.serial

/-- R172, R207: the turn of a core: its queued commands that can start will, and it takes a pending event, PREEMPT first, else goes on
with its instructions. -/
def rimTurn (t : Nat) (s : State) : Result :=
  let s := s.focusTile t
  let s := { s with agenda := s.agenda ++ s.readyCmds t }
  let c := s.tile.core
  if c.pendPreempt && s.takesEvent then exec (.preempt t) s
  else if c.pendMgmt && s.takesEvent then exec (.mgmtreq t) s
  else if c.run == .running then coreTurn s
  else .next s

/-! ### Configuration streams (R177) -/

/-- R16, R177, R182: the word that a stream has read: a raw word of an IMG, a C-word, or a word that is refused. -/
def runStreamWord (w : Word) (s : State) : Result :=
  if s.stream.raw ≠ 0 then .next (rawWord w s)
  else
    match decodeCword w with
    | .ok i => exec i s
    | .error _ => .next (refuseStream s 1 0 s.stream.offset)

/-- R177: the turn of a net: it starts its stream, reads the next word and acts on it, or ends it. -/
def netTurn (n : Nat) (s : State) : Result :=
  let s := s.focusNet n
  let x := s.stream
  if x.len = 0 then .next s
  else if x.result.isSome then .next (if x.ref.isSome then s.endStream else s.finishBind)
  else if !x.started then exec (.cfgStreamRead n) s
  else if x.paused then .next s
  else
    match nextWord s with
    | .word w s => runStreamWord w s
    | .other s => .next s

/-! ### Graphs -/

/-- R187, R251: region `r` of the graph in focus runs its row. A region that has faulted and a row that SV holds back issue
nothing. The graph keeps the turn unless the row must wait (R262). -/
def rowTurn (r : Nat) (s : State) : Result :=
  let s := s.focusRegion r
  let w := sparseGet 0 s.region.cfg.words s.region.rowNo
  if s.region.id ≠ r ∨ s.graph.faulted.contains r = true ∨ s.region.gateOpen (fld w 26 6).toNat = false then .next s.settle
  else
    match runCellWord w s with
    | .next s => .next (if s.graph.todo.contains r then s.settle.yieldTurn else s.settle)
    | .fault e => .fault e
    | .refused e => .refused e

/-- What dispatch sees of a graph before its spine cycle begins: it has ended (R376), it has drained (R372), or it has come to rest and
is saved (R373). -/
def State.graphExit (s : State) : Option Instr :=
  if s.graphEnds s.graph && s.graphQuiet s.graph then some (.graphComplete s.graph.slot)
  else if s.graphDrains s.graph then some (.graphDrained s.graph.slot)
  else if s.graph.saving && s.mayBeSaved s.graph then some (.graphPreempt s.graph.slot)
  else none

/-- The regions of the graph in focus that have yet to run their row in this slot. -/
def State.setTodo (s : State) (todo : List Nat) : State := { s with graph := { s.graph with todo := todo } }

/-- R187, R254: the turn of a graph: one spine cycle, a row at a time. -/
def graphTurn (g : Nat) (s : State) : Result :=
  let s := s.focusGraph g
  if s.graph.slot ≠ g then .next s.yieldTurn
  else
    match s.graph.phase with
    | .idle =>
      match s.graph.starts, s.graphExit with
      | (0, _) :: _, _ => exec (.regionStart g) s
      | _, some i => handOn (exec i s)
      | _, none => .next { s with graph := s.graph.ageStarts }.beginCycle
    | .opened => .next s.openRows
    | .rows =>
      match s.graph.todo with
      | r :: rest => rowTurn r (s.setTodo rest)
      | [] => .next s.closeRows
    | .closing => .next s.endCycle.yieldTurn

/-! ### The order of the agents -/

/-- Whether an agent moves in the module's present state (R381, R398, R401, R402). The reference always moves. -/
def State.moves (s : State) (a : Agent) : Bool :=
  match a with
  | .tick => true
  | .hubs => !s.mgmt.thermal && s.island.st != .off
  | .harts => true
  | .rim _ => !s.mgmt.thermal && s.island.st == .serve
  | .net _ => !s.mgmt.thermal && s.island.st == .serve
  | .graph _ => !s.mgmt.thermal && s.island.st == .serve

/-- R354, R382: every tenth round of turns is a reference tick (assumption 2). -/
def State.clockTurn (s : State) : Result :=
  if 9 ≤ s.cycle then exec .referenceTick { s with cycle := 0 } else .next { s with cycle := s.cycle + 1 }

/-- R207, R373: the commands of saved graphs that can start now. -/
def State.savedCmds (s : State) : List Instr :=
  s.mgmt.saved.flatMap fun v => v.tiles.flatMap fun x =>
    (x.2.core.cmds.filter fun y => s.cmdReady x.1 y).map fun y => .commandStart x.1 y.serial

/-- The turn of the hubs: the commands of saved graphs that can start will, and one request is met. -/
def hubsTurn (s : State) : Result :=
  let s := { s with agenda := s.agenda ++ s.savedCmds }
  if s.hubq.isEmpty then .next s else exec .hubRequest s

/-- The turn of an agent. A graph hands the turn on itself. -/
def agentTurn (a : Agent) (s : State) : Result :=
  match a with
  | .tick => handOn s.clockTurn
  | .hubs => handOn (hubsTurn s)
  | .harts => handOn (hartsTurn s)
  | .rim t => handOn (rimTurn t s)
  | .net n => handOn (netTurn n s)
  | .graph g => graphTurn g s

/-- What happens next: the first event of the agenda, else the turn of the first agent that moves. In a module that is OFF the reference
alone runs on (R382, R398, R399). -/
def advance (s : State) : Result :=
  match s.agenda with
  | i :: rest => exec i { s with agenda := rest }
  | [] =>
    match s.turns with
    | [] => .next s
    | a :: _ => if s.moves a then agentTurn a s else .next s.yieldTurn

/-! ### Placing a word to run next (assumption 1) -/

/-- A module that serves, its clocks running, in which one agent moves next. -/
def State.nextIs (s : State) (a : Agent) : State :=
  { s with
    agenda := []
    turns := [a]
    mgmt := { s.mgmt with thermal := false }
    island := { s.island with st := .serve } }

/-- A core that issues at its pc from the code store: nothing pending, nothing to start, and its pc outside supervisor code. -/
def Core.atIssue (c : Core) : Core :=
  { c with
    run := .running
    stall := .none
    held := none
    loopBuf := []
    lcsAct := 0
    tvecValid := c.tvecValid && !c.fetchesSuper
    pendPreempt := false
    pendMgmt := false
    cmds := c.cmds.filter fun x => x.state != .queued }

/-- A rim word stands at the pc of the core in focus, which issues next. -/
def placeRim (s : State) (w : Word) : State :=
  let free (g : Graph) : Graph := { g with hist := 0, stopped := false, saving := false }
  let t := s.tile.putCode s.tile.core.pc.toNat w
  { s.nextIs (.rim s.tileIdx) with
    tile := { t with core := s.tile.core.atIssue }
    graph := free s.graph
    graphs := s.graphs.map free }

/-- An entry that maps a page to frame 0, readable, accessed, ordered as RC. -/
def placedPte : BitVec 128 := 0xA3

/-- A C-word is the next word, and the last, of the stream on the net in focus: one word at byte 0 of page 0. -/
def placeCword (s : State) (w : Word) : State :=
  let s := s.nextIs (.net s.netIdx)
  let s := cachePte (putPte s 0 placedPte) 0 placedPte
  { s with
    mem := writeBytes s.mem (frameLoc 0 0) 4 w.toNat
    stream := { s.stream with
      va := 0, len := 1, offset := 0, wards := [hartWard], raw := 0, started := true, paused := false, result := none } }

/-- A cell word is the row that a region of the graph in focus runs next: the region in focus, else region 0 of one cell. A
graph is bound to tile 0 where none is in focus. -/
def placeRow (s : State) (w : Word) : State :=
  let g : Graph := if s.graph.slot < 64 then s.graph
    else { Graph.empty with slot := 0, trows := 1, tcols := 1 }
  let r : Region := if s.region.id < 1024 then s.region
    else { Region.empty with id := 0, cfg := { RegionCfg.empty with rows := 1, cols := 1 }, wards := g.wards }
  let r : Region := { r with
    loop := .running, sv := 0xFF, cfg := { r.cfg with words := sparsePut 0 r.cfg.words r.rowNo w } }
  { s.nextIs (.graph g.slot) with
    region := Region.empty
    graph := { g.putRegion r with phase := .rows, todo := [r.id], ran := [r.id], faulted := [] } }

/-- Where a word that stands alone is read, in the order of `decodeTableWord`. An illegal word is a rim word. -/
noncomputable def wordKind (w : Word) : Nat :=
  match decodeRim w, decodeCword w, decodeCell w with
  | .ok _, _, _ => 0
  | .error _, .ok _, _ => 1
  | .error _, .error _, .ok _ => 2
  | .error _, .error _, .error _ => 0

/-- A word placed where its kind is read. -/
noncomputable def placeWord (s : State) (w : Word) : State :=
  match wordKind w with
  | 0 => placeRim s w
  | 1 => placeCword s w
  | _ => placeRow s w

end Sys2Proof.Machine
end

