-- ==== Sys2Proof/Machine/Step.lean ====
section
/-! DEFINITION. One step of the machine, and a word placed so that the next step runs it. -/

namespace Sys2Proof.Machine

/-- One step: the first event of the agenda, else the turn of the agent that moves next. -/
def step (s : State) : Host.Outcome State Fault Refusal := advance s

/-- The state with an instruction of the opcode table placed where the next step fetches. -/
noncomputable def State.withFetchWord (s : State) (nbits w : Nat) : State :=
  match tableWord nbits w with
  | some v => placeWord s v
  | none => s

end Sys2Proof.Machine
end

