-- ==== Sys2Proof/Safety.lean ====
section
/-! DEFINITION. The terms in which claims are stated: what it means that an instruction retires, what stays as it was, and, for
the families that share a shape, the table of what the spec makes each instruction compute. -/

namespace Sys2Proof

open Sys2Proof.Machine

/-! ### What stays as it was -/

/-- Nothing but the core in focus differs: no byte of memory, no other tile, no graph, no hub, no pending event. -/
def OnlyCore (s t : State) : Prop := t = s.setCore t.tile.core

/-- Every byte of memory reads as before. -/
def MemKept (s t : State) : Prop := ∀ a, readByte t.mem a = readByte s.mem a

/-- Every byte of memory but the `n` bytes from `lo` on reads as before. -/
def MemKeptBut (lo n : Nat) (s t : State) : Prop := ∀ a, a < lo ∨ lo + n ≤ a → readByte t.mem a = readByte s.mem a

/-- A core with what retirement itself writes (pc, loop counters and activity, energy, stall, residency, the answers and the word
that a wait held, and the results that may still be late) taken from another. -/
def Machine.Core.retiredAs (c x : Core) : Core :=
  { c with
    pc := x.pc, lc := x.lc, lcsAct := x.lcsAct, energy := x.energy, energySat := x.energySat, stall := x.stall
    resident := x.resident, answers := x.answers, late := x.late, held := x.held }

/-! ### Retirement (R23, R94, R168, R357, R359) -/

/-- R94: LoopEnd of the pc: the next address, and the core with the loop state after it. -/
def nextOf (s : State) : Nat × Core := s.tile.core.loopEnd s.tile.core.pc.toNat

/-- R23: LoopEnd does not lead to word 1,024. -/
def CanRetire (s : State) : Prop := (nextOf s).1 ≠ 1024

/-- R357, R359: the counter after an instruction of class `cls`. -/
def energyAfter (c : Core) (cls : Fin 8) : Nat :=
  if c.mode then c.energy.toNat else min (c.energy.toNat + (c.ew.get cls).toNat) (2 ^ 48 - 1)

/-- An instruction of class `cls` has retired with next address and loop state `r`: the pc and the loop state are those of `r`, the
energy counter is charged, and the core is not stalled. -/
def RetiredAt (cls : Fin 8) (r : Nat × Core) (s t : State) : Prop :=
  t.tile.core.pc = BitVec.ofNat 10 r.1 ∧ t.tile.core.lc = r.2.lc ∧ t.tile.core.lcsAct = r.2.lcsAct ∧
  t.tile.core.energy.toNat = energyAfter s.tile.core cls ∧ t.tile.core.stall = .none

/-- An instruction of class `cls` has retired with next address and loop state `r`, and all that it did besides is `f` on the core:
`t`'s core, with what retirement writes put back, is `f` of `s`'s core, and nothing else differs. -/
def CoreEffectAt (cls : Fin 8) (r : Nat × Core) (f : Core → Core) (s t : State) : Prop :=
  RetiredAt cls r s t ∧ OnlyCore s t ∧ t.tile.core.retiredAs s.tile.core = f s.tile.core

/-- The same with the next address and the loop state that LoopEnd of the pc leaves. -/
def CoreEffect (cls : Fin 8) (f : Core → Core) (s t : State) : Prop := CoreEffectAt cls (nextOf s) f s t

/-- R157, R170: the core waits in state `st` with the word of `i` that it has fetched, and the scalar registers as they are: its pc,
its registers and everything else are as they were. -/
def Stalls (st : Stall) (i : Instr) (s t : State) : Prop :=
  OnlyCore s t ∧ t.tile.core = { s.tile.core with
    stall := st, resident := t.tile.core.resident, held := some ⟨encode i, s.tile.core.sregs⟩ }

/-! ### Traps (R107) -/

/-- R107: a handler takes traps of this core: it runs in user mode, and TVEC is valid. -/
def HandlerReady (c : Core) : Prop := c.mode = false ∧ c.tvecValid = true

/-- R107: what EnterTrap leaves of a core whose handler is ready: the cause, its detail, the resume address and the trapping word
are saved, the mode and loop enable saved and changed, and the pc is at the handler. -/
def trapped (c : Core) (cause : BitVec 8) (detail : BitVec 64) (resume : BitVec 10) (async : Bool) (word : Word) : Core :=
  { c with
    epc := resume, ecause := cause, easync := async, eaddr := detail, estat := if async then 0 else word
    pmode := false, ple := c.le, mode := true, le := false, pc := c.tvecEntry
    stall := .none, resident := false, answers := [], held := none }

/-- The core in focus has trapped synchronously at its pc, and nothing else differs: no register, no byte of memory. -/
def TrapsWith (cause : BitVec 8) (detail : BitVec 64) (word : Word) (s t : State) : Prop :=
  t = s.setCore (trapped s.tile.core cause detail s.tile.core.pc false word)

/-! ### Second names -/

/-- The rows of the opcode table whose words decode to another row's instruction: the operations that sa or a record selects, and
the words that trap ILLEGAL. -/
def Instr.isSecondName : Instr → Bool
  | .cpySlice _ _ _ => true
  | .hoopArm _ _ _ _ => true
  | .hoopQuery _ _ _ _ => true
  | .illegalRimWord _ => true
  | _ => false

/-! ### Scalar instructions (R86 to R90) -/

/-- R22, R27, R86 to R88, R90: the scalar instructions: destination, guard (0 where the word has none), and the value. -/
def scalarSpec : Instr → Option (BitVec 5 × BitVec 4 × (Core → BitVec 64))
  | .add d a b g => some (d, g, fun c => c.s a + c.s b)
  | .sub d a b g => some (d, g, fun c => c.s a - c.s b)
  | .and d a b g => some (d, g, fun c => c.s a &&& c.s b)
  | .or d a b g => some (d, g, fun c => c.s a ||| c.s b)
  | .xor d a b g => some (d, g, fun c => c.s a ^^^ c.s b)
  | .andn d a b g => some (d, g, fun c => c.s a &&& ~~~c.s b)
  | .sll d a b g => some (d, g, fun c => c.s a <<< ((c.s b).toNat % 64))
  | .srl d a b g => some (d, g, fun c => c.s a >>> ((c.s b).toNat % 64))
  | .sra d a b g => some (d, g, fun c => (c.s a).sshiftRight ((c.s b).toNat % 64))
  | .rol d a b g => some (d, g, fun c => (c.s a).rotateLeft ((c.s b).toNat % 64))
  | .mul d a b g => some (d, g, fun c => BitVec.ofNat 64 ((c.s a).toNat * (c.s b).toNat))
  | .mulh d a b g => some (d, g, fun c => BitVec.ofInt 64 ((c.s a).toInt * (c.s b).toInt / 2 ^ 64))
  | .mulhu d a b g => some (d, g, fun c => BitVec.ofNat 64 ((c.s a).toNat * (c.s b).toNat / 2 ^ 64))
  | .div d a b g => some (d, g, fun c =>
      if c.s b = 0 then BitVec.allOnes 64 else BitVec.ofInt 64 ((c.s a).toInt.tdiv (c.s b).toInt))
  | .divu d a b g => some (d, g, fun c =>
      if c.s b = 0 then BitVec.allOnes 64 else BitVec.ofNat 64 ((c.s a).toNat / (c.s b).toNat))
  | .rem d a b g => some (d, g, fun c =>
      if c.s b = 0 then c.s a else BitVec.ofInt 64 ((c.s a).toInt.tmod (c.s b).toInt))
  | .remu d a b g => some (d, g, fun c =>
      if c.s b = 0 then c.s a else BitVec.ofNat 64 ((c.s a).toNat % (c.s b).toNat))
  | .min d a b g => some (d, g, fun c => if (c.s a).toInt < (c.s b).toInt then c.s a else c.s b)
  | .max d a b g => some (d, g, fun c => if (c.s a).toInt < (c.s b).toInt then c.s b else c.s a)
  | .minu d a b g => some (d, g, fun c => if (c.s a).toNat < (c.s b).toNat then c.s a else c.s b)
  | .maxu d a b g => some (d, g, fun c => if (c.s a).toNat < (c.s b).toNat then c.s b else c.s a)
  | .clz d a g => some (d, g, fun c => leadZeros (c.s a))
  | .ctz d a g => some (d, g, fun c => trailZeros (c.s a))
  | .popc d a g => some (d, g, fun c => BitVec.ofNat 64 (((List.range 64).filter (c.s a).getLsbD).length))
  | .bswap d a g => some (d, g, fun c => byteSwap (c.s a))
  | .sextB d a g => some (d, g, fun c => BitVec.ofInt 64 (BitVec.ofNat 8 (c.s a).toNat).toInt)
  | .sextH d a g => some (d, g, fun c => BitVec.ofInt 64 (BitVec.ofNat 16 (c.s a).toNat).toInt)
  | .sextW d a g => some (d, g, fun c => BitVec.ofInt 64 (BitVec.ofNat 32 (c.s a).toNat).toInt)
  | .zextB d a g => some (d, g, fun c => BitVec.ofNat 64 ((c.s a).toNat % 2 ^ 8))
  | .zextH d a g => some (d, g, fun c => BitVec.ofNat 64 ((c.s a).toNat % 2 ^ 16))
  | .zextW d a g => some (d, g, fun c => BitVec.ofNat 64 ((c.s a).toNat % 2 ^ 32))
  | .bfx d a b g => some (d, g, fun c => bfExtract (c.s a) (c.s b))
  | .bfi d a b g => some (d, g, fun c => bfInsert (c.s d) (c.s a) (c.s b))
  | .lea1 d a b g => some (d, g, fun c => c.s a + c.s b)
  | .lea2 d a b g => some (d, g, fun c => c.s a + c.s b * 2)
  | .lea4 d a b g => some (d, g, fun c => c.s a + c.s b * 4)
  | .lea8 d a b g => some (d, g, fun c => c.s a + c.s b * 8)
  | .sel d a b p => some (d, 0, fun c => if c.guard p then c.s a else c.s b)
  | .addi d a g i => some (d, g, fun c => c.s a + i.signExtend 64)
  | .andi d a g i => some (d, g, fun c => c.s a &&& i.setWidth 64)
  | .ori d a g i => some (d, g, fun c => c.s a ||| i.setWidth 64)
  | .xori d a g i => some (d, g, fun c => c.s a ^^^ i.setWidth 64)
  | .slli d a g k => some (d, g, fun c => c.s a <<< k.toNat)
  | .srli d a g k => some (d, g, fun c => c.s a >>> k.toNat)
  | .srai d a g k => some (d, g, fun c => (c.s a).sshiftRight k.toNat)
  | .muli d a g i => some (d, g, fun c => c.s a * i.signExtend 64)
  | .addpc d g i => some (d, g, fun c => BitVec.ofInt 64 (c.pc.toNat + i.toInt))
  | .lil d i => some (d, 0, fun _ => i.signExtend 64)
  | .lih d i => some (d, 0, fun c => BitVec.ofNat 64 ((c.s d).toNat * 2 ^ 21 + i.toNat))
  | .p2s d a g => some (d, g, fun c => if c.p a then 1 else 0)
  | _ => none

/-- R21, R97, R357: the unprivileged words with a guard whose class and false guard mean retiring without an effect. -/
def guardSpec : Instr → Option (Fin 8 × BitVec 4)
  | .br g _ | .jr _ _ g | .lbrk _ g | .wait _ g | .halt g => some (1, g)
  | .cmp _ _ _ g _ | .plogAnd _ _ _ g | .plogOr _ _ _ g | .plogXor _ _ _ g | .plogNot _ _ g | .s2p _ _ g => some (0, g)
  | .ldb _ _ g _ | .ldbu _ _ g _ | .ldh _ _ g _ | .ldhu _ _ g _ | .ldw _ _ g _ | .ldwu _ _ g _ | .ldd _ _ g _
  | .ldt _ _ g _ => some (4, g)
  | .stb _ _ g _ | .sth _ _ g _ | .stw _ _ g _ | .std _ _ g _ | .stt _ _ g _ => some (5, g)
  | .amoAdd _ _ _ g _ _ | .amoAnd _ _ _ g _ _ | .amoOr _ _ _ g _ _ | .amoXor _ _ _ g _ _ | .amoMin _ _ _ g _ _
  | .amoMax _ _ _ g _ _ | .amoMinu _ _ _ g _ _ | .amoMaxu _ _ _ g _ _ | .amoSwp _ _ _ g _ _ | .amoFadd _ _ _ g _
  | .amoBfadd _ _ _ g _ | .amocas _ _ _ g _ _ => some (5, g)
  | .redtAdd _ _ g _ | .redtFadd _ _ g _ | .redtBfadd _ _ g _ | .redtMin _ _ g _ | .redtMax _ _ g _ => some (5, g)
  | .cfg _ _ _ g | .cfgw _ g | .pusht _ _ g | .popt _ _ g | .drn _ _ _ g | .cpy _ _ g | .cpySlice _ _ g | .cpyw _ g
  | .ocl _ _ g | .orl _ g | .old _ _ _ g | .ost _ _ _ g | .hoopArrive _ _ _ g | .hoopArm _ _ _ g | .hoopQuery _ _ _ g
  | .pub _ _ g | .ple _ _ g => some (6, g)
  | i => (scalarSpec i).map fun x => (0, x.2.1)

/-- R89, R90: the instructions that write a predicate: destination, guard, and the value. -/
def predSpec : Instr → Option (BitVec 3 × BitVec 4 × (Core → Bool))
  | .cmp d a b g k => some (d, g, fun c => scalarCond k (c.s a) (c.s b))
  | .cmpi d a k i => some (d, 0, fun c => scalarCond k (c.s a) (i.signExtend 64))
  | .plogAnd d a b g => some (d, g, fun c => c.p a && c.p b)
  | .plogOr d a b g => some (d, g, fun c => c.p a || c.p b)
  | .plogXor d a b g => some (d, g, fun c => xor (c.p a) (c.p b))
  | .plogNot d a g => some (d, g, fun c => !c.p a)
  | .s2p d a g => some (d, g, fun c => (c.s a).getLsbD 0)
  | _ => none

/-! ### Transfers and loops (R91, R93) -/

/-- R91: the control transfers: guard, link register and target. -/
def transferSpec : Instr → Option (BitVec 4 × BitVec 5 × (Core → Int))
  | .br g o => some (g, 0, fun c => c.pc.toNat + o.toInt)
  | .jmp o => some (0, 0, fun c => c.pc.toNat + o.toInt)
  | .call d i => some (0, d, fun c => c.pc.toNat + i.toInt)
  | .jr d a g => some (g, d, fun c => (c.s a).toNat)
  | _ => none

/-- R93: LOOP: level, count, and the last word of the body counted from the LOOP. -/
def loopSpec : Instr → Option (BitVec 2 × (Core → Nat) × Nat)
  | .loopImm l n len => some (l, fun _ => n.toNat, len.toNat + 1)
  | .loopReg l r len => some (l, fun c => (c.s r).toNat, len.toNat + 1)
  | _ => none

/-- R93: every active loop lies outside level `l`, and its body holds the words from `pc + 1` to `last`. -/
def LoopFits (c : Core) (l last : Nat) : Prop :=
  ∀ k : Fin 3, c.lcsAct.getLsbD k = true → k.val < l ∧ (c.lcsStart.get k).toNat ≤ c.pc.toNat ∧ last ≤ (c.lcsEnd.get k).toNat

/-! ### Waits (R84, R96, R97, R111) -/

/-- R84: no command that names sn as its status register is outstanding. -/
def NothingPending (c : Core) (n : BitVec 5) : Prop := n = 0 ∨ ∀ x ∈ c.cmds, x.d ≠ n

/-- R96: WAIT on sn may retire. -/
def MayEndWait (c : Core) (n : BitVec 5) : Prop :=
  NothingPending c n ∧ (n.toNat < 28 ∨ c.mailFull.getLsbD (n.toNat - 28) = true)

/-- R96: a WAIT on a mail register clears its FULL bit. -/
def afterWait (n : BitVec 5) (c : Core) : Core :=
  { c with mailFull := if n.toNat < 28 then c.mailFull else setBit c.mailFull (n.toNat - 28) false }

/-- R111: an entry's scope lies within a named scope: one of CELL to PACKAGE within every scope from CELL to PACKAGE and within
SYSTEM, and SYSTEM within SYSTEM only. -/
def InScope (entry named : BitVec 3) : Prop := entry.toNat ≤ 4 ∨ named = 5

/-- R111: every access of the resident context has been performed at a scope, and without .nw every creel entry in scope has
ended. -/
def MayEndFence (c : Core) (nw : Bool) (scope : BitVec 3) : Prop :=
  (∀ x ∈ c.sent, x.ctx ≠ c.ctx) ∧ (∀ e ∈ c.aloft, e.ctx ≠ c.ctx) ∧
  (nw = false → ∀ e ∈ c.creel, e.ctx = c.ctx → ¬ InScope e.scope scope) ∧
  (scope = 5 → c.owedLines = [] ∧ ∀ x ∈ c.owedRemote, x.entry.ctx ≠ c.ctx)

/-- R111, R229: FENCE's status goes to sd and the accumulated state is cleared. `remains`: entries in scope remain. -/
def afterFence (d : BitVec 5) (remains : Bool) (c : Core) : Core :=
  { c.setS d (c.fence.word remains) with fence := FenceAcc.reset }

/-- R97: HALT may complete: FENCE.graph's wait has ended, and no status is pending. -/
def MayEndHalt (c : Core) : Prop := MayEndFence c false 3 ∧ ∀ x ∈ c.cmds, x.d = 0

/-- R97, R114: HALT has completed: the fence status is the completion status, the accumulated state is cleared, and the messages
that waited are discarded. -/
def Halted (s t : State) : Prop :=
  t = { s with tile := { s.tile with core := t.tile.core, inbox := [] } } ∧
  t.tile.core = { s.tile.core with
    run := .halted, stall := .none, resident := false, doneStatus := s.tile.core.fence.word false, fence := FenceAcc.reset
    energy := t.tile.core.energy, energySat := t.tile.core.energySat } ∧
  t.tile.core.energy.toNat = energyAfter s.tile.core 1

/-! ### Special registers (R76 to R85) -/

/-- R78: the instructions that reach a special register: its number, and whether they write. -/
def srAccess : Instr → Option (BitVec 12 × Bool)
  | .srd _ n => some (n, false)
  | .swr _ n | .srs _ _ n | .src _ _ n => some (n, true)
  | _ => none

/-- R76: a mode may reach a number. -/
def SrOpen (c : Core) (n : BitVec 12) (write : Bool) : Prop :=
  srNamed n.toNat = true ∧
  (c.mode = true ∨
    (¬ (0x100 ≤ n.toNat ∧ n.toNat < 0x200) ∧ ¬ (0x300 ≤ n.toNat ∧ n.toNat < 0x400) ∧
      (write = true → 0x010 ≤ n.toNat ∧ n.toNat < 0x200 ∧ n ≠ 0x047)))

/-- R78 to R85, R356: the registers whose fields are all plain RW or RO: the bits that a write sets, and those that read as 1
whatever is written. -/
def srPlain (n : Nat) : Option (BitVec 64 × BitVec 64) :=
  if n = 0x002 then some (0x7FFFFFFFFFFFFFFF, 0)
  else if n = 0x003 then some (0x1F, 0)
  else if n = 0x004 then some (0xFFFFFFFF1FFF, 0)
  else if 0x031 ≤ n ∧ n ≤ 0x037 then some (0xFFFF, 0)
  else if 0x040 ≤ n ∧ n ≤ 0x042 then some (0xFFFFFFFF, 0)
  else if n = 0x044 then some (0xFE, 1)
  else if n = 0x100 then some (0x80000000000003FF, 0)
  else if n = 0x101 then some (0x3FF, 0)
  else if n = 0x102 then some (0x1FF, 0)
  else if n = 0x103 ∨ (0x108 ≤ n ∧ n ≤ 0x10B) then some (BitVec.allOnes 64, 0)
  else if n = 0x104 then some (0xFFFFFFFF, 0)
  else if n = 0x201 then some (0x1FFFFFFFFFFFF, 0)
  else if 0x208 ≤ n ∧ n ≤ 0x210 then some (0xFFFF, 0)
  else none

/-! ### Accesses (R98, R99, R285, R286, R306, R309) -/

/-- R306: a ward's range holds a VA. -/
def WardHolds (w : Ward) (va : BitVec 64) : Prop :=
  w.v = true ∧ va.toNat < 2 ^ 48 ∧ w.vbase.toNat ≤ va.toNat / 65536 ∧ va.toNat / 65536 < w.vlimit.toNat

/-- R306: `w` is the lowest-numbered ward of a core that holds a VA. -/
def WardOf (c : Core) (va : BitVec 64) (w : Ward) : Prop :=
  ∃ pre post, c.wards.toList = pre ++ w :: post ∧ (∀ x ∈ pre, ¬ WardHolds x va) ∧ WardHolds w va

/-- R306: the IA of a VA under a ward. -/
def iaOf (w : Ward) (va : BitVec 64) : Nat := (w.iabase.toNat * 65536 + (va.toNat - w.vbase.toNat * 65536)) % 2 ^ 44

/-- R98: an access of `n` bytes passes the checks at issue, under ward `w`, which leads to this module. -/
def Reaches (c : Core) (va : BitVec 64) (n : Nat) (rd wr : Bool) (w : Ward) : Prop :=
  va.toNat % n = 0 ∧ WardOf c va w ∧ (rd = true → w.pr = true) ∧ (wr = true → w.pw = true) ∧ w.isRemote = false

/-- R319, R326: the writes of a core that are on their way, to their home hubs and to other modules. -/
def onTheWay (c : Core) : List CreelEntry := c.aloft ++ c.owedRemote.map RemoteWrite.entry

/-- R320: no SO write of the core is on its way where an access to a page of this module is ordered as SO. -/
def OrderClear (c : Core) (ia : Nat) : Prop := attrOf c.attrs (ia / 65536) = 0 → ∀ e ∈ onTheWay c, e.attr ≠ 0

/-- R286, R319, R320: no write of the core stands in the way of a load or atomic that reads some lines of this module, at an IA:
no pending entry of its creel and, unless its page is UN, none on its way, to one of the lines, and no SO one where the access is
ordered as SO. -/
def LoadClear (c : Core) (ia : Nat) (lines : List Nat) : Prop :=
  (∀ e ∈ c.creel, e.state = .pending →
    (e.dest = none → e.ia.toNat / 64 ∉ lines) ∧ (attrOf c.attrs (ia / 65536) = 0 → e.attr ≠ 0)) ∧
  (attrOf c.attrs (ia / 65536) ≠ 2 → ∀ e ∈ onTheWay c, e.dest = none → e.ia.toNat / 64 ∉ lines) ∧ OrderClear c ia

/-- R285, R320: no write of the core stands in the way of a store or reduction to this module at an IA: no pending entry of its creel
for the same page, and no SO write where it is ordered as SO. -/
def StoreClear (c : Core) (ia : Nat) : Prop :=
  (∀ e ∈ c.creel, e.state = .pending →
    e.pageKey ≠ ia / 65536 ∧ (attrOf c.attrs (ia / 65536) = 0 → e.attr ≠ 0)) ∧ OrderClear c ia

/-- R285: the creel has room for `n` entries more, beside those in use and those reserved for writes on their way. -/
def CreelHas (c : Core) (n : Nat) : Prop :=
  c.creel.length + c.sent.length + c.aloft.length + c.owedRemote.length + n ≤ 64

/-- Nothing but page-table entries, what the hubs cache of them, and the attributes that the core in focus has seen, differs. -/
def OnlyEntries (s t : State) : Prop :=
  t = { s with
    ptes := t.ptes, hubs := t.hubs
    tile := { s.tile with core := { s.tile.core with attrs := t.tile.core.attrs } } }

/-- R99: the core in focus reads `n` bytes at a VA: its value is `v`, and the hub's reply leaves state `t`. -/
def ReadOne (n : Nat) (va : BitVec 64) (s : State) (v : Nat) (t : State) : Prop :=
  ∃ w attr u, Reaches s.tile.core va n true false w ∧
    LoadClear s.tile.core (iaOf w va) (loadLines s (iaOf w va)) ∧ (∀ l ∈ loadLines s (iaOf w va), l ∉ s.island.dirtyLines) ∧
    hubLoad s (iaOf w va) n (Access.loads s.tile.core.mode) = .value v attr u ∧ t = u.sawAttr (iaOf w va) attr

/-- Several reads in order. -/
def ReadAll (n : Nat) : List (BitVec 64) → State → List Nat → State → Prop
  | [], s, vs, t => vs = [] ∧ t = s
  | _ :: _, _, [], _ => False
  | va :: r, s, v :: vs, t => ∃ u, ReadOne n va s v u ∧ ReadAll n r u vs t

/-- An instruction of class `cls` has retired after accesses that left state `u`, with `f` on the core. -/
def AfterAccess (cls : Fin 8) (f : Core → Core) (s u t : State) : Prop :=
  RetiredAt cls (nextOf s) s t ∧ OnlyCore u t ∧ t.tile.core.retiredAs u.tile.core = f u.tile.core

/-- R98 to R101: scalar and token loads: guard, VA, size, and what the value does to the core. -/
def loadSpec : Instr → Option (BitVec 4 × (Core → BitVec 64) × Nat × (Nat → Core → Core))
  | .ldb d a g i => some (g, fun c => c.s a + i.signExtend 64, 1, fun v c => c.setS d ((BitVec.ofNat 8 v).signExtend 64))
  | .ldbu d a g i => some (g, fun c => c.s a + i.signExtend 64, 1, fun v c => c.setS d (BitVec.ofNat 64 v))
  | .ldh d a g i => some (g, fun c => c.s a + i.signExtend 64 * 2, 2, fun v c => c.setS d ((BitVec.ofNat 16 v).signExtend 64))
  | .ldhu d a g i => some (g, fun c => c.s a + i.signExtend 64 * 2, 2, fun v c => c.setS d (BitVec.ofNat 64 v))
  | .ldw d a g i => some (g, fun c => c.s a + i.signExtend 64 * 4, 4, fun v c => c.setS d ((BitVec.ofNat 32 v).signExtend 64))
  | .ldwu d a g i => some (g, fun c => c.s a + i.signExtend 64 * 4, 4, fun v c => c.setS d (BitVec.ofNat 64 v))
  | .ldd d a g i => some (g, fun c => c.s a + i.signExtend 64 * 8, 8, fun v c => c.setS d (BitVec.ofNat 64 v))
  | .ldt d a g i => some (g, fun c => c.s a + i.signExtend 64 * 64, 64, fun v c =>
      c.setT d { data := BitVec.ofNat 512 v, tag := 0, exp := 0, bub := false, valid := 0xFFFF, pred := 0 })
  | _ => none

/-- R100, R101: scalar and token stores: guard, VA, size and value. -/
def storeSpec : Instr → Option (BitVec 4 × (Core → BitVec 64) × Nat × (Core → Nat))
  | .stb d a g i => some (g, fun c => c.s a + i.signExtend 64, 1, fun c => (c.s d).toNat)
  | .sth d a g i => some (g, fun c => c.s a + i.signExtend 64 * 2, 2, fun c => (c.s d).toNat)
  | .stw d a g i => some (g, fun c => c.s a + i.signExtend 64 * 4, 4, fun c => (c.s d).toNat)
  | .std d a g i => some (g, fun c => c.s a + i.signExtend 64 * 8, 8, fun c => (c.s d).toNat)
  | .stt d a g i => some (g, fun c => c.s a + i.signExtend 64 * 64, 64, fun c => (c.t d).data.toNat)
  | _ => none

/-- R99, R309: a store of `n` bytes at an IA reaches location `loc` at its home, which meets the line that holds it: a poisoned one
only where the whole line is written. -/
def LandsAt (s : State) (n ia loc : Nat) : Prop :=
  ∃ line attr u, hubAccess s (ia / 64 * 64) Access.stores = .at line attr u ∧ (linePoisoned s line = false ∨ n = 64) ∧
    loc = line + ia % 64

/-- R99: what a store that was sent changes besides memory: the entries of its page, what the hub notes of the line, the events
that report it, and of the core the report it awaits and the attribute seen. -/
def OnlyStore (s t : State) : Prop :=
  t = { s with
    mem := t.mem, ptes := t.ptes, hubs := t.hubs, linePoison := t.linePoison, migrations := t.migrations, agenda := t.agenda
    free := t.free, island := { s.island with overlaid := t.island.overlaid }
    tile := { s.tile with core := { s.tile.core with
      attrs := t.tile.core.attrs, sent := t.tile.core.sent, owedLines := t.tile.core.owedLines } } }

/-- R99, R318: a store of the low `n` bytes of `v` has been performed at a location. -/
def Stored (n v loc : Nat) (s t : State) : Prop :=
  readBytes t.mem loc n = v % 2 ^ (8 * n) ∧ MemKeptBut loc n s t ∧ OnlyStore s t ∧
  (∃ x, t.tile.core.sent = s.tile.core.sent ++ [x] ∧ x.ctx = s.tile.core.ctx ∧ x.out = 0) ∧
  ∃ l, t.agenda = s.agenda ++ l ∧ .writeAcknowledgement (.rim s.tileIdx) ∈ l

/-- R288: the creel entry of a store of `n` bytes at a VA under a ward, or the entry that is reserved for it on its way (R285). -/
def StoreEntry (c : Core) (w : Ward) (va : BitVec 64) (n v : Nat) (ord : Bool) (e : CreelEntry) : Prop :=
  e.ia.toNat = iaOf w va / 64 * 64 ∧ e.op = 0 ∧ e.scope = w.scope ∧ e.ord = ord ∧ e.state = .pending ∧ e.ctx = c.ctx ∧
  e.dest = none ∧ e.attr = attrOf c.attrs (iaOf w va / 65536) ∧
  (∀ k, k < 64 → e.mask.getLsbD k = decide (iaOf w va % 64 ≤ k ∧ k < iaOf w va % 64 + n)) ∧
  ∀ k, k < n → e.data.extractLsb' (8 * (iaOf w va % 64 + k)) 8 = BitVec.ofNat 8 (v >>> (8 * k))

/-- R99, R285: a store that became a creel entry changes the creel of its core, the open notices and what its hub holds of the page,
and no byte of memory. -/
def OnlyCreel (s t : State) : Prop :=
  t = { s with
    notices := t.notices, noticeId := t.noticeId, hubs := t.hubs, free := t.free
    tile := { s.tile with core := { s.tile.core with creel := t.tile.core.creel, creelSeq := t.tile.core.creelSeq } } }

/-- R99, R319: a write is on its way to its home hub, which has yet to meet it; nothing else differs. -/
def OnItsWay (e : CreelEntry) (s t : State) : Prop :=
  t = { s with
    hubq := s.hubq ++ [.rimStore s.tileIdx], free := s.free + 1
    tile := { s.tile with core := { s.tile.core with aloft := s.tile.core.aloft ++ [e] } } }

/-- R99, R229, R309: the home hub has turned a store of `n` bytes away; its report will carry the outcome. No byte of memory changes. -/
def TurnedAway (n ia : Nat) (s t : State) : Prop :=
  OnlyStore s t ∧ t.mem = s.mem ∧ ∃ x, t.tile.core.sent = s.tile.core.sent ++ [x] ∧ x.ctx = s.tile.core.ctx ∧
    (((∃ r, hubAccess s (ia / 64 * 64) Access.stores = .refused r) ∧ x.out = outRefused) ∨
      ((hubAccess s (ia / 64 * 64) Access.stores = .poisoned ∨ ∃ line attr u,
          hubAccess s (ia / 64 * 64) Access.stores = .at line attr u ∧ linePoisoned s line = true ∧ n ≠ 64) ∧
        x.out = outPoison))

/-- R99, R285, R319: a store of the low `n` bytes of `v` at a VA, whose checks have passed and for which the creel has room, has gone
its way. Behind a pending entry of its page, or as SO behind an SO one, it is an entry of the creel. Otherwise it is performed, or an
entry of an unmapped page, or turned away, as its hub meets it now, or, unless it is ordered as SO, it is on its way there. -/
def Sends (n : Nat) (va : BitVec 64) (v : Nat) (s t : State) : Prop :=
  ∃ w, Reaches s.tile.core va n false true w ∧
    let c := s.tile.core
    let ia := iaOf w va
    let behind := attrOf c.attrs (ia / 65536) = 0 ∧ ∃ e ∈ c.creel, e.state = .pending ∧ e.attr = 0
    let same := ∃ e ∈ c.creel, e.state = .pending ∧ e.pageKey = ia / 65536
    let enters := fun ord => ∃ e, OnlyCreel s t ∧ t.tile.core.creel = c.creel ++ [e] ∧ StoreEntry c w va n v ord e
    (behind → enters true) ∧ (¬ behind → same → enters false) ∧
    (¬ behind → ¬ same →
      (attrOf c.attrs (ia / 65536) ≠ 0 ∧ ∃ e, StoreEntry c w va n v false e ∧ OnItsWay e s t) ∨
      (∃ loc, LandsAt s n ia loc ∧ Stored n v loc s t) ∨
      (hubAccess s (ia / 64 * 64) Access.stores = .unmapped (ia / 65536) ∧ enters false ∧
        ∃ x ∈ t.notices, x.page = ia / 65536 ∧ x.who = .rim s.tileIdx ∧ x.ctx = c.ctx) ∨
      TurnedAway n ia s t)

/-- R102: several stores have gone their way, one after another. -/
def SendsAll (n : Nat) : List (BitVec 64 × Nat) → State → State → Prop
  | [], s, t => t = s
  | x :: r, s, t => ∃ u, Sends n x.1 x.2 s u ∧ SendsAll n r u t

/-- R98: the instructions with one VA: guard, VA, alignment, and whether they read and write. -/
def accessSpec (i : Instr) : Option (BitVec 4 × (Core → BitVec 64) × Nat × Bool × Bool) :=
  match loadSpec i, storeSpec i with
  | some x, _ => some (x.1, x.2.1, x.2.2.1, true, false)
  | none, some x => some (x.1, x.2.1, x.2.2.1, false, true)
  | none, none =>
    match i with
    | .amoAdd _ a _ g _ z | .amoAnd _ a _ g _ z | .amoOr _ a _ g _ z | .amoXor _ a _ g _ z | .amoMin _ a _ g _ z
    | .amoMax _ a _ g _ z | .amoMinu _ a _ g _ z | .amoMaxu _ a _ g _ z | .amoSwp _ a _ g _ z | .amocas _ a _ g _ z =>
      some (g, fun c => c.s a, if z = 1 then 8 else 4, true, true)
    | .amoFadd _ a _ g _ | .amoBfadd _ a _ g _ => some (g, fun c => c.s a, 4, true, true)
    | .redtAdd a _ g _ | .redtFadd a _ g _ | .redtBfadd a _ g _ | .redtMin a _ g _ | .redtMax a _ g _ =>
      some (g, fun c => c.s a, 64, false, true)
    | _ => none

/-- An atomic as the spec describes it. -/
structure Amo where
  guard : BitVec 4
  order : BitVec 2
  size : Nat
  d : BitVec 5
  a : BitVec 5
  /-- the new element from the core and the old element; none where AMOCAS does not match -/
  new : Core → Nat → Option Nat

/-- R103: an AMO whose new element is `f old v` of its operands. -/
def amoOf (g : BitVec 4) (o : BitVec 2) (z : BitVec 1) (d a b : BitVec 5) (f : Nat → Nat → Nat → Nat) : Option Amo :=
  let size := if z = 1 then 8 else 4
  some ⟨g, o, size, d, a, fun c old => some (f (2 ^ (8 * size)) old ((c.s b).toNat % 2 ^ (8 * size)))⟩

/-- R103, R104: the atomics. `m` is 2 to the width. -/
def amoSpec : Instr → Option Amo
  | .amoAdd d a b g o z => amoOf g o z d a b fun m x v => (x + v) % m
  | .amoAnd d a b g o z => amoOf g o z d a b fun _ x v => x &&& v
  | .amoOr d a b g o z => amoOf g o z d a b fun _ x v => x ||| v
  | .amoXor d a b g o z => amoOf g o z d a b fun _ x v => x ^^^ v
  | .amoMin d a b g o z => amoOf g o z d a b fun m x v => if (x + m / 2) % m ≤ (v + m / 2) % m then x else v
  | .amoMax d a b g o z => amoOf g o z d a b fun m x v => if (x + m / 2) % m ≤ (v + m / 2) % m then v else x
  | .amoMinu d a b g o z => amoOf g o z d a b fun _ x v => Nat.min x v
  | .amoMaxu d a b g o z => amoOf g o z d a b fun _ x v => Nat.max x v
  | .amoSwp d a b g o z => amoOf g o z d a b fun _ _ v => v
  | .amoFadd d a b g o => amoOf g o 0 d a b fun _ x v => bankAdd 0 x v
  | .amoBfadd d a b g o => amoOf g o 0 d a b fun _ x v =>
      bankAdd 2 (x % 65536) (v % 65536) + 65536 * bankAdd 2 (x / 65536) (v / 65536)
  | .amocas d a b g o z =>
      let size := if z = 1 then 8 else 4
      let m := 2 ^ (8 * size)
      some ⟨g, o, size, d, a, fun c x => if x = (c.s d).toNat % m then some ((c.s b).toNat % m) else none⟩
  | _ => none

/-- A reduction as the spec describes it: guard, ordering, operands, OP of its creel entry (R288), the bytes of a word that it
writes, and the combination of one 32-bit word. -/
structure Redt where
  guard : BitVec 4
  order : BitVec 2
  a : BitVec 5
  b : BitVec 5
  op : BitVec 3
  bytes : Nat
  new : Nat → Nat → Nat

/-- R105: the reductions. -/
def redtSpec : Instr → Option Redt
  | .redtAdd a b g o => some ⟨g, o, a, b, 1, 4, fun x v => (x + v) % 2 ^ 32⟩
  | .redtFadd a b g o => some ⟨g, o, a, b, 2, 4, fun x v => bankAdd 0 x v⟩
  | .redtBfadd a b g o => some ⟨g, o, a, b, 3, 2, fun x v => x / 65536 * 65536 + bankAdd 2 (x % 65536) (v % 65536)⟩
  | .redtMin a b g o => some ⟨g, o, a, b, 4, 4, fun x v => if (BitVec.ofNat 32 v).slt (BitVec.ofNat 32 x) then v else x⟩
  | .redtMax a b g o => some ⟨g, o, a, b, 5, 4, fun x v => if (BitVec.ofNat 32 x).slt (BitVec.ofNat 32 v) then v else x⟩
  | _ => none

/-- R102: the lane forms: destination or source token, mask, whether inactive lanes stay, and the VA of a lane. -/
def laneSpec : Instr → Option (Bool × BitVec 5 × BitVec 3 × BitVec 1 × (Core → Nat → BitVec 64))
  | .ldts d a b m k => some (true, d, m, k, fun c l => c.s a + BitVec.ofNat 64 l * c.s b)
  | .ldtg d a b m k => some (true, d, m, k, fun c l => c.s a + ((c.t b).data.extractLsb' (32 * l) 32).signExtend 64)
  | .stts d a b m k => some (false, d, m, k, fun c l => c.s a + BitVec.ofNat 64 l * c.s b)
  | .sttg d a b m k => some (false, d, m, k, fun c l => c.s a + ((c.t b).data.extractLsb' (32 * l) 32).signExtend 64)
  | _ => none

/-- R102: the active lanes of a mask, lowest first. -/
def activeOf (m : BitVec 16) : List Nat := (List.range 16).filter fun l => m.getLsbD l

/-- R99, R103: what an atomic changes besides memory. -/
def OnlyAtomic (s t : State) : Prop :=
  t = { s with
    mem := t.mem, ptes := t.ptes, hubs := t.hubs, migrations := t.migrations, agenda := t.agenda
    tile := { s.tile with core := { s.tile.core with
      attrs := t.tile.core.attrs, owedLines := t.tile.core.owedLines } } }

/-- R106, R316, R319: what a release in a scope class waits for has been performed: the pending creel entries within it, the writes on
their way, and for SYSTEM those that have not been acknowledged. -/
def MayRelease (c : Core) (entry : CreelEntry → Prop) (scope : BitVec 3) : Prop :=
  (∀ e ∈ c.creel, e.state = .pending → ¬ entry e) ∧ c.aloft = [] ∧ (scope = 5 → c.owedLines = [] ∧ c.owedRemote = [])

/-- R102, R151: a token that a masked load wrote over `old`: each lane of `vals` takes its value and becomes valid, with its
predicate bit clear; another lane reads 0 and invalid, or with `k` stays as it was. -/
def LanesLoaded (old t : Token) (k : BitVec 1) (vals : List (Nat × Nat)) : Prop :=
  t.bub = false ∧
  (∀ x ∈ vals, t.data.extractLsb' (32 * x.1) 32 = BitVec.ofNat 32 x.2 ∧ t.valid.getLsbD x.1 = true ∧
    t.pred.getLsbD x.1 = false) ∧
  ∀ l, l < 16 → (∀ x ∈ vals, x.1 ≠ l) →
    if k = 0 then t.data.extractLsb' (32 * l) 32 = 0#32 ∧ t.valid.getLsbD l = false ∧ t.pred.getLsbD l = false
    else t.data.extractLsb' (32 * l) 32 = old.data.extractLsb' (32 * l) 32 ∧ t.valid.getLsbD l = old.valid.getLsbD l ∧
      t.pred.getLsbD l = old.pred.getLsbD l

/-! ### Token instructions (R117 to R150) -/

/-- R118 to R128, R138 to R147, R149: the token instructions that write one token: class, destination, and the outcome. -/
def tokSpec : Instr → Option (Fin 8 × BitVec 5 × (Core → TokOut))
  | .vfma d a b c m i o k => some (2, d, fun x =>
      tokArith x.env x.rnd .fma (x.t d) (x.t a) (x.t b) (x.t c) (x.m m) (i == 1) (o == 1) (k == 1))
  | .vfms d a b c m i o k => some (2, d, fun x =>
      tokArith x.env x.rnd .fms (x.t d) (x.t a) (x.t b) (x.t c) (x.m m) (i == 1) (o == 1) (k == 1))
  | .vfnma d a b c m i o k => some (2, d, fun x =>
      tokArith x.env x.rnd .fnma (x.t d) (x.t a) (x.t b) (x.t c) (x.m m) (i == 1) (o == 1) (k == 1))
  | .vsel d a b c m k => some (2, d, fun x => tokSel x.rnd (x.t d) (x.t a) (x.t b) (x.t c) (x.m m) (k == 1))
  | .vadd d a b m i o k => some (2, d, fun x =>
      tokArith x.env x.rnd .add (x.t d) (x.t a) (x.t b) Token.reset (x.m m) (i == 1) (o == 1) (k == 1))
  | .vsub d a b m i o k => some (2, d, fun x =>
      tokArith x.env x.rnd .sub (x.t d) (x.t a) (x.t b) Token.reset (x.m m) (i == 1) (o == 1) (k == 1))
  | .vmul d a b m i o k => some (2, d, fun x =>
      tokArith x.env x.rnd .mul (x.t d) (x.t a) (x.t b) Token.reset (x.m m) (i == 1) (o == 1) (k == 1))
  | .vmax d a b m i o k => some (2, d, fun x =>
      tokMinMax x.env x.rnd true (x.t d) (x.t a) (x.t b) (x.m m) (i == 1) (o == 1) (k == 1))
  | .vmin d a b m i o k => some (2, d, fun x =>
      tokMinMax x.env x.rnd false (x.t d) (x.t a) (x.t b) (x.m m) (i == 1) (o == 1) (k == 1))
  | .vabs d a m i o k => some (2, d, fun x =>
      tokSign x.env x.rnd .abs (x.t d) (x.t a) (x.t a) (x.m m) (i == 1) (o == 1) (k == 1))
  | .vneg d a m i o k => some (2, d, fun x =>
      tokSign x.env x.rnd .neg (x.t d) (x.t a) (x.t a) (x.m m) (i == 1) (o == 1) (k == 1))
  | .vcps d a b m i o k => some (2, d, fun x =>
      tokSign x.env x.rnd .cps (x.t d) (x.t a) (x.t b) (x.m m) (i == 1) (o == 1) (k == 1))
  | .vcls d a m i k => some (2, d, fun x => tokClass x.env x.rnd (x.t d) (x.t a) (x.m m) (i == 1) (k == 1))
  | .vcmp d a b c m i k => some (2, d, fun x =>
      tokCmp x.env x.rnd c.toNat (x.t d) (x.t a) (x.t b) (x.m m) (i == 1) (k == 1))
  | .vdot d a b m i o k => some (3, d, fun x =>
      tokDot x.env x.rnd (x.t d) (x.t a) (x.t b) (x.m m) (i == 1) (o == 1) (k == 1))
  | .vexpf d a m i o k => some (3, d, fun x =>
      tokSpecial x.env x.rnd .expf (x.t d) (x.t a) (x.m m) (i == 1) (o == 1) (k == 1))
  | .vlogf d a m i o k => some (3, d, fun x =>
      tokSpecial x.env x.rnd .logf (x.t d) (x.t a) (x.m m) (i == 1) (o == 1) (k == 1))
  | .vgetx d a m i o k => some (3, d, fun x =>
      tokSpecial x.env x.rnd .getx (x.t d) (x.t a) (x.m m) (i == 1) (o == 1) (k == 1))
  | .vrcp d a m i o k => some (3, d, fun x =>
      tokSpecial x.env x.rnd .rcp (x.t d) (x.t a) (x.m m) (i == 1) (o == 1) (k == 1))
  | .vrsq d a m i o k => some (3, d, fun x =>
      tokSpecial x.env x.rnd .rsq (x.t d) (x.t a) (x.m m) (i == 1) (o == 1) (k == 1))
  | .vscale d a b m i o k => some (3, d, fun x =>
      tokScale x.env x.rnd (x.t d) (x.t a) (x.t b) (x.m m) (i == 1) (o == 1) (k == 1))
  | .vsumt d a m i o k => some (2, d, fun x =>
      tokTree x.env x.rnd true (x.t d) (x.t a) (x.m m) (i == 1) (o == 1) (k == 1))
  | .vmaxt d a m i o k => some (2, d, fun x =>
      tokTree x.env x.rnd false (x.t d) (x.t a) (x.m m) (i == 1) (o == 1) (k == 1))
  | .vscan d a m i o k => some (2, d, fun x => tokScan x.env x.rnd (x.t d) (x.t a) (x.m m) (i == 1) (o == 1) (k == 1))
  | .viadd d a b m k => some (2, d, fun x =>
      tokInt x.rnd .add (x.t d) (x.t a) (x.t b) Token.reset [x.t a, x.t b] (x.m m) (k == 1))
  | .visub d a b m k => some (2, d, fun x =>
      tokInt x.rnd .sub (x.t d) (x.t a) (x.t b) Token.reset [x.t a, x.t b] (x.m m) (k == 1))
  | .vimul d a b m k => some (2, d, fun x =>
      tokInt x.rnd .mul (x.t d) (x.t a) (x.t b) Token.reset [x.t a, x.t b] (x.m m) (k == 1))
  | .vand d a b m k => some (2, d, fun x =>
      tokInt x.rnd .and (x.t d) (x.t a) (x.t b) Token.reset [x.t a, x.t b] (x.m m) (k == 1))
  | .vor d a b m k => some (2, d, fun x =>
      tokInt x.rnd .or (x.t d) (x.t a) (x.t b) Token.reset [x.t a, x.t b] (x.m m) (k == 1))
  | .vxor d a b m k => some (2, d, fun x =>
      tokInt x.rnd .xor (x.t d) (x.t a) (x.t b) Token.reset [x.t a, x.t b] (x.m m) (k == 1))
  | .vshl d a b m k => some (2, d, fun x =>
      tokInt x.rnd .shl (x.t d) (x.t a) (x.t b) Token.reset [x.t a, x.t b] (x.m m) (k == 1))
  | .vshr d a b m k => some (2, d, fun x =>
      tokInt x.rnd .shr (x.t d) (x.t a) (x.t b) Token.reset [x.t a, x.t b] (x.m m) (k == 1))
  | .vsar d a b m k => some (2, d, fun x =>
      tokInt x.rnd .sar (x.t d) (x.t a) (x.t b) Token.reset [x.t a, x.t b] (x.m m) (k == 1))
  | .vimin d a b m k => some (2, d, fun x =>
      tokInt x.rnd .min (x.t d) (x.t a) (x.t b) Token.reset [x.t a, x.t b] (x.m m) (k == 1))
  | .vimax d a b m k => some (2, d, fun x =>
      tokInt x.rnd .max (x.t d) (x.t a) (x.t b) Token.reset [x.t a, x.t b] (x.m m) (k == 1))
  | .vcnt d a m k => some (2, d, fun x =>
      tokInt x.rnd .cnt (x.t d) (x.t a) Token.reset Token.reset [x.t a] (x.m m) (k == 1))
  | .vimac d a b c m k => some (2, d, fun x =>
      tokInt x.rnd .mac (x.t d) (x.t a) (x.t b) (x.t c) [x.t a, x.t b, x.t c] (x.m m) (k == 1))
  | .vperm d a b m k => some (2, d, fun x => tokPerm x.rnd (x.t d) (x.t a) (x.t b) (x.m m) (k == 1))
  | .vshuf d a b m k => some (2, d, fun x =>
      tokShuf x.rnd (laneIndex (x.t b) 5) (x.t d) (x.t a) [x.t a, x.t b] (x.m m) (k == 1))
  | .vbcst d a b m k => some (2, d, fun x =>
      tokBcst x.rnd (laneIndex (x.t b) 4) (x.t d) (x.t a) [x.t a, x.t b] (x.m m) (k == 1))
  | .vmsk d a b m k => some (2, d, fun x => tokMask x.rnd (x.t d) (x.t a) (x.t b) (x.m m) (k == 1))
  | .vhmrg d a b m k => some (2, d, fun x =>
      tokHmrg x.rnd (x.t d) ((x.toks.toList.drop a.toNat).take (b.toNat + 1 - a.toNat)) (x.m m) (k == 1))
  | _ => none

/-- R129 to R137: the conversion words with one destination: overflow policy, destination, and the outcome. -/
def convSpec : Instr → Option (BitVec 2 × BitVec 5 × (Core → TokOut))
  | .vcvt d a t f r v i o k => some (v, d, fun x =>
      tokConvert x.env x.rnd .vcvt t f (x.env.mode r) (Overflow.ofCode v) (x.t d) (x.t a) (i == 1) (o == 1) (k == 1))
  | .vrndi d a t f r v i o k => some (v, d, fun x =>
      tokConvert x.env x.rnd .vrndi t f (x.env.mode r) (Overflow.ofCode v) (x.t d) (x.t a) (i == 1) (o == 1) (k == 1))
  | .vftoi d a t f r v i o k => some (v, d, fun x =>
      tokConvert x.env x.rnd .vftoi t f (x.env.mode r) (Overflow.ofCode v) (x.t d) (x.t a) (i == 1) (o == 1) (k == 1))
  | .vitof d a t f r v i o k => some (v, d, fun x =>
      tokConvert x.env x.rnd .vitof t f (x.env.mode r) (Overflow.ofCode v) (x.t d) (x.t a) (i == 1) (o == 1) (k == 1))
  | .vpack d a t f r v i o k => some (v, d, fun x =>
      tokPack x.env x.rnd t f (x.env.mode r) (Overflow.ofCode v) (x.t d) (x.t a) (i == 1) (o == 1) (k == 1))
  | _ => none

/-- R119, R120: a token written lane by lane: an active lane takes its value, becomes valid and takes the predicate bit of operand
a; another reads 0 with its bits clear, or with k stays as it was. -/
def LaneResult (old a new : Token) (k : BitVec 1) (active : Nat → Bool) (val : Nat → BitVec 32) : Prop :=
  new.bub = false ∧ ∀ l, l < 16 →
    if active l = true then
      new.data.extractLsb' (32 * l) 32 = val l ∧ new.valid.getLsbD l = true ∧ new.pred.getLsbD l = a.pred.getLsbD l
    else if k = 0 then
      new.data.extractLsb' (32 * l) 32 = 0#32 ∧ new.valid.getLsbD l = false ∧ new.pred.getLsbD l = false
    else new.data.extractLsb' (32 * l) 32 = old.data.extractLsb' (32 * l) 32 ∧ new.valid.getLsbD l = old.valid.getLsbD l ∧
      new.pred.getLsbD l = old.pred.getLsbD l

/-- R120: the destination of an operation one of whose source tokens is a bubble. -/
def bubbled (old : Token) (k : BitVec 1) (tag : BitVec 4) : Token :=
  if k = 0 then { data := 0, tag := tag, exp := 0, bub := true, valid := 0, pred := 0 } else old

/-- R119: lane l of a mask and of the sources is active. -/
def laneOn (c : Core) (m : BitVec 3) (srcs : List (BitVec 5)) (l : Nat) : Bool :=
  (c.m m).getLsbD l && srcs.all fun r => (c.t r).valid.getLsbD l

/-- R147: an integer operation: destination, sources, mask, k, and the result from the width, whether a is UINT8, and the low bits
of the operands. -/
structure IntForm where
  d : BitVec 5
  a : BitVec 5
  rest : List (BitVec 5)
  m : BitVec 3
  k : BitVec 1
  f : Nat → Bool → Nat → Nat → Nat → Nat

/-- R147: the integer group. -/
def intSpec : Instr → Option IntForm
  | .viadd d a b m k => some ⟨d, a, [b], m, k, fun w _ x y _ => (x + y) % 2 ^ w⟩
  | .visub d a b m k => some ⟨d, a, [b], m, k, fun w _ x y _ => (x + 2 ^ w - y) % 2 ^ w⟩
  | .vimul d a b m k => some ⟨d, a, [b], m, k, fun w _ x y _ => (x * y) % 2 ^ w⟩
  | .vand d a b m k => some ⟨d, a, [b], m, k, fun _ _ x y _ => x &&& y⟩
  | .vor d a b m k => some ⟨d, a, [b], m, k, fun _ _ x y _ => x ||| y⟩
  | .vxor d a b m k => some ⟨d, a, [b], m, k, fun _ _ x y _ => x ^^^ y⟩
  | .vshl d a b m k => some ⟨d, a, [b], m, k, fun w _ x y _ => if w ≤ y then 0 else x * 2 ^ y % 2 ^ w⟩
  | .vshr d a b m k => some ⟨d, a, [b], m, k, fun w _ x y _ => if w ≤ y then 0 else x / 2 ^ y⟩
  | .vsar d a b m k => some ⟨d, a, [b], m, k, fun w _ x y _ => ((BitVec.ofNat w x).sshiftRight (min y w)).toNat⟩
  | .vimin d a b m k => some ⟨d, a, [b], m, k, fun w u x y _ =>
      if (if u then decide (x < y) else (BitVec.ofNat w x).slt (BitVec.ofNat w y)) then x else y⟩
  | .vimax d a b m k => some ⟨d, a, [b], m, k, fun w u x y _ =>
      if (if u then decide (x < y) else (BitVec.ofNat w x).slt (BitVec.ofNat w y)) then y else x⟩
  | .vcnt d a m k => some ⟨d, a, [], m, k, fun _ _ x _ _ => ((List.range 32).filter x.testBit).length⟩
  | .vimac d a b c m k => some ⟨d, a, [b, c], m, k, fun w _ x y z => (x * y + z) % 2 ^ w⟩
  | _ => none

/-- R147: the width of the integer group under a tag. -/
def intBits (tag : BitVec 4) : Nat := if tag = 6 ∨ tag = 7 then 8 else if tag = 8 then 16 else 32

/-- R117: an integer result in lane form. -/
def intLane (tag : BitVec 4) (v : Nat) : BitVec 32 :=
  if tag = 6 then (BitVec.ofNat 8 v).signExtend 32
  else if tag = 7 then BitVec.ofNat 32 (v % 2 ^ 8)
  else if tag = 8 then (BitVec.ofNat 16 v).signExtend 32
  else BitVec.ofNat 32 v

/-- R123: a form of floating-point arithmetic. -/
structure ArithForm where
  d : BitVec 5
  a : BitVec 5
  b : BitVec 5
  c : Option (BitVec 5)
  m : BitVec 3
  i : BitVec 1
  o : BitVec 1
  k : BitVec 1
  /-- the exact outcome on decoded operands -/
  f : Rounding → Val → Val → Val → Outc

/-- The sources of a form. -/
def ArithForm.srcs (x : ArithForm) : List (BitVec 5) :=
  match x.c with
  | some c => [x.a, x.b, c]
  | none => [x.a, x.b]

/-- R123: VADD, VSUB, VMUL, VFMA, VFMS and VFNMA. -/
def arithSpec : Instr → Option ArithForm
  | .vadd d a b m i o k => some ⟨d, a, b, none, m, i, o, k, fun r x y _ => sumVals r [x, y]⟩
  | .vsub d a b m i o k => some ⟨d, a, b, none, m, i, o, k, fun r x y _ => sumVals r [x, y.negate]⟩
  | .vmul d a b m i o k => some ⟨d, a, b, none, m, i, o, k, fun _ x y _ => mulVal x y⟩
  | .vfma d a b c m i o k => some ⟨d, a, b, some c, m, i, o, k, fun r x y z =>
      match mulVal x y with | .val p => sumVals r [p, z] | .invalid => .invalid⟩
  | .vfms d a b c m i o k => some ⟨d, a, b, some c, m, i, o, k, fun r x y z =>
      match mulVal x y with | .val p => sumVals r [p, z.negate] | .invalid => .invalid⟩
  | .vfnma d a b c m i o k => some ⟨d, a, b, some c, m, i, o, k, fun r x y z =>
      match mulVal x y with | .val p => sumVals r [p.negate, z] | .invalid => .invalid⟩
  | _ => none

/-- R118: the element of a lane, decoded by its own tag, after input flush. -/
def element (c : Core) (i : BitVec 1) (t : Token) (l : Nat) : Val :=
  let v := (decodeElem t.tag.toNat t.exp c.remap (t.data.extractLsb' (32 * l) 32).toNat).1
  if i = 1 then flushIn t.tag.toNat v else v

/-- R64, R65, R123: the lane that arithmetic writes: the exact outcome rounded once, or the NaN that its operands call for. -/
def arithLane (c : Core) (x : ArithForm) (l : Nat) : BitVec 32 :=
  let fmt := opFormat (c.t x.a).tag.toNat
  let rm := Rounding.ofCode c.rm.toNat
  let u := element c x.i (c.t x.a) l
  let v := element c x.i (c.t x.b) l
  let g := stepGen (c.rnd.at l)
  match x.c with
  | none => laneForm fmt (roundOutc fmt rm (x.o == 1) g [u, v] false (x.f rm u v Val.zero)).bits
  | some r =>
    let w := element c x.i (c.t r) l
    let zeroInf := !u.isNaN && !v.isNaN && mulVal u v == .invalid
    laneForm fmt (roundOutc fmt rm (x.o == 1) g [w, u, v] zeroInf (x.f rm u v w)).bits

/-- R142 to R144: the moves of lanes: destination, source, sources of the bubble rule, k, activity, and the lane of a that a lane
takes. -/
structure MoveForm where
  d : BitVec 5
  a : BitVec 5
  b : BitVec 5
  k : BitVec 1
  active : Core → Nat → Bool
  from_ : Core → Nat → Nat

/-- R143, R144: the low bits of tb's lane 0, or 0 when its valid bit is clear. -/
def laneIndexOf (t : Token) (n : Nat) : Nat :=
  if t.valid.getLsbD 0 = true then (t.data.extractLsb' 0 32).toNat % 2 ^ n else 0

/-- R142 to R144: VPERM, VSHUF and VBCST. -/
def moveSpec : Instr → Option MoveForm
  | .vperm d a b m k => some ⟨d, a, b, k, fun c l => (c.m m).getLsbD l && (c.t b).valid.getLsbD l,
      fun c l => ((c.t b).data.extractLsb' (32 * l) 32).toNat % 16⟩
  | .vshuf d a b m k => some ⟨d, a, b, k, fun c l => (c.m m).getLsbD l, fun c l =>
      let p := laneIndexOf (c.t b) 5
      if p < 16 then (l ^^^ p) % 16 else (l + p - 16) % 16⟩
  | .vbcst d a b m k => some ⟨d, a, b, k, fun c l => (c.m m).getLsbD l, fun c _ => laneIndexOf (c.t b) 4⟩
  | _ => none

/-! ### Commands (R206 to R235) -/

/-- A status command as the spec describes its issue: its kind, status register, guard, whether only supervisor mode may issue it,
the operands it takes along, and the VA, alignment and size of its record. -/
structure CmdForm where
  kind : CmdKind
  d : BitVec 5
  g : BitVec 4
  priv : Bool
  sa : Core → BitVec 64
  sb : Core → BitVec 64
  record : Option ((Core → BitVec 64) × Nat × Nat)

/-- R31, R178, R206, R207, R213, R214, R217, R221, R222, R224, R227, R230 to R234: the status commands but for CFG. -/
def cmdSpec : Instr → Option CmdForm
  | .cfgw d g => some ⟨.cfgw, d, g, false, fun _ => 0, fun _ => 0, none⟩
  | .drn d a b g => some ⟨.drn, d, g, false, fun c => c.s a, fun c => c.s b, none⟩
  | .cpy d a g | .cpySlice d a g => some ⟨.cpy, d, g, false, fun c => c.s a, fun _ => 0, some (fun c => c.s a, 64, 128)⟩
  | .cpyw d g => some ⟨.cpyw, d, g, false, fun _ => 0, fun _ => 0, none⟩
  | .ocl d a g => some ⟨.ocl, d, g, false, fun c => c.s a, fun _ => 0, none⟩
  | .hoopArrive d a b g | .hoopArm d a b g | .hoopQuery d a b g =>
    some ⟨.hoop, d, g, false, fun c => c.s a, fun c => c.s b, none⟩
  | .pub d a g => some ⟨.pub, d, g, false, fun c => c.s a, fun _ => 0, none⟩
  | .ple d a g => some ⟨.ple, d, g, false, fun c => c.s a, fun _ => 0, some (fun c => c.s a, 64, 64)⟩
  | .mig d a g => some ⟨.mig, d, g, true, fun c => c.s a, fun _ => 0, none⟩
  | .migSp d a g => some ⟨.migSp, d, g, true, fun c => c.s a, fun _ => 0, none⟩
  | .hsplit d a b g => some ⟨.hsplit, d, g, true, fun c => c.s a, fun c => c.s b, none⟩
  | .ptew d a b g => some ⟨.ptew, d, g, true, fun c => c.s a, fun c => c.s b, some (fun c => c.s b, 16, 16)⟩
  | .ptecas d a b g => some ⟨.ptecas, d, g, true, fun c => c.s a, fun c => c.s b, some (fun c => c.s b, 32, 32)⟩
  | .pinv d a g => some ⟨.pinv, d, g, true, fun c => c.s a, fun _ => 0, none⟩
  | _ => none

/-- R98, R207: a record of a size at a VA is aligned, and lies within one ward that grants reading. -/
def RecordOk (c : Core) (va : BitVec 64) (align size : Nat) : Prop :=
  va.toNat % align = 0 ∧ ∃ w, WardOf c va w ∧ w.pr = true ∧ va.toNat + size ≤ w.vlimit.toNat * 65536

/-- R207: `x` is the command that a core queues next. -/
def Queued (c : Core) (k : CmdKind) (d : BitVec 5) (sa sb : BitVec 64) (x : Cmd) : Prop :=
  x.serial = c.cmdSerial ∧ x.kind = k ∧ x.d = d ∧ x.sa = sa ∧ x.sb = sb ∧ x.ctx = c.ctx ∧ x.user = !c.mode ∧
  x.barrier = c.creelSeq ∧ x.state = .queued

/-- R305: the ward of four words. -/
def wardOfWords (w0 w1 w2 w3 : BitVec 64) : Ward where
  v := w0.getLsbD 0
  pr := w0.getLsbD 1
  pw := w0.getLsbD 2
  px := w0.getLsbD 3
  scope := w0.extractLsb' 4 3
  vbase := w0.extractLsb' 16 32
  vlimit := w1.extractLsb' 16 32
  iabase := w2.extractLsb' 16 28
  modnum := w3.extractLsb' 0 14
  isRemote := w3.getLsbD 14

/-- R306: a ward that word 0 may install. -/
def WardFits (x : Ward) : Prop :=
  (x.v = true → x.vbase.toNat < x.vlimit.toNat ∧ x.iabase.toNat + (x.vlimit.toNat - x.vbase.toNat) ≤ 2 ^ 28) ∧
  x.scope.toNat ≤ 5 ∧ (x.isRemote = true → x.scope = 5)

/-- R305: the bits of a ward word that are reserved. -/
def wardZero (w : BitVec 2) : BitVec 64 :=
  if w = 0 then 0xFFFF00000000FF80
  else if w = 1 then 0xFFFF00000000FFFF
  else if w = 2 then 0xFFFFF0000000FFFF
  else 0xFFFFFFFFFFFF8000

/-- R275, R276: what a read of a token of tile n finds: what the token held when the present port slot first wrote it, else what it
holds now. -/
def OmSees (s : State) (n x : Nat) (y : OmImage) : Prop :=
  y.token = x / 64 ∧
  ((∃ pre post, (s.getTile n).omBefore = pre ++ y :: post ∧ ∀ b ∈ pre, b.token ≠ x / 64) ∨
    ((∀ b ∈ (s.getTile n).omBefore, b.token ≠ x / 64) ∧ y.poison = (s.getTile n).omPoison.contains (x / 64) ∧
      y.exp = readByte s.mem (sideLoc n x) ∧
      ∀ k, k < 64 → y.data.extractLsb' (8 * k) 8 = readByte s.mem (omLoc n x + k)))

/-- R274, R276: the read has counted the words of the token that it had to correct in OMCORR, which saturates; nothing else differs. -/
def OmCounted (x : Nat) (s u : State) : Prop :=
  u = { s with tile := { s.tile with omCorr := u.tile.omCorr } } ∧
  u.tile.omCorr.toNat = min (2 ^ 32 - 1) (s.tile.omCorr.toNat + (s.tile.omErrors.filter fun k => k / 8 == x / 64).length)

/-- R216: an operand memory address that OLD and OST accept. -/
def OmReaches (s : State) (x : BitVec 64) : Prop :=
  x.toNat % 64 = 0 ∧ x.toNat < 2 ^ 24 ∧ assocGet s.tile.owners (x.toNat / 65536) = some s.tile.core.ctx

/-! ### Configuration streams (R16 to R19, R179 to R183, R252) -/

/-- R18, R19: the running stream has taken the word `w`, and is `x` but for its offset and sum. -/
def took (u : State) (w : Word) (x : Stream) : State :=
  { u with stream := { x with
      offset := u.stream.offset + 1, sum := u.stream.sum + (w.extractLsb' 0 16 + w.extractLsb' 16 16) } }

/-- R18: the running stream is refused at its present word: the code, reason and offset are its status, and its target list, open
region, selected row and pending FLDH are discarded. Only the status that lands changes anything else: no region and no byte of
memory. -/
def Refused (code reason : BitVec 8) (off : Nat) (u t : State) : Prop :=
  t = { u with
    stream := { u.stream with
      result := some ⟨code, reason, BitVec.ofNat 32 off⟩, landed := u.stream.ref.isSome, targets := [], extOpen := false
      region := none, rowSel := none, high := none, raw := 0 }
    tile := t.tile, tiles := t.tiles, mgmt := t.mgmt, free := t.free }

/-- R16: a rectangle of cells, or of tiles, lies inside the bound rectangle of a graph. -/
def InRectangle (x : Target) (g : Graph) : Prop :=
  let n := if x.tiles then 1 else 16
  n * g.trow0 ≤ x.row ∧ x.row + x.rows ≤ n * (g.trow0 + g.trows) ∧
  n * g.tcol0 ≤ x.col ∧ x.col + x.cols ≤ n * (g.tcol0 + g.tcols)

/-! ### Rows of cells (R36, R122, R187 to R202) -/

/-- What a row leaves: in every cell of the region the beat, sent to the row's destinations for the elements that its guard lets
through, to land `lat` slots on (R188), the flags in the region's sticky word (R55), the generators in the cells (R56). Nothing else
changes. -/
def RowLands (lat : Nat) (d : BitVec 3) (allow : CellIn → BitVec 128) (beat : CellIn → Beat) (flags : CellIn → Flags)
    (gens : CellIn → Gens) (s t : State) : Prop :=
  let cells := s.region.cfg.cells
  t = { s with region := { s.region with
      landings := s.region.landings ++ cells.flatMap fun p => (destsOf d).map fun k =>
        ⟨p.1, p.2, k, s.graph.slotNo + lat - 1, beat (s.cellIn p), allow (s.cellIn p)⟩
      gens := t.region.gens
      status := { s.region.status with flags := t.region.status.flags } } } ∧
  (∀ k, t.region.status.flags.getLsbD k =
    (s.region.status.flags.getLsbD k || cells.any fun p => (flags (s.cellIn p)).getLsbD k)) ∧
  (s.region.cfg.cols ≤ 1024 → ∀ p ∈ cells, t.region.gensAt p.1 p.2 = gens (s.cellIn p))

/-- What a row leaves whose guard reads the operands of `u`. -/
def RowResult (lat : Nat) (u : RowUse) : (CellIn → Beat) → (CellIn → Flags) → (CellIn → Gens) → State → State → Prop :=
  RowLands lat u.d fun n => n.allow u

/-- R122: a token row: latency, operands, and the rim word whose operation it applies, over t0 for the destination and t1 to t3
for operands a to c; a pattern or lane of x stands in t2. -/
structure RowForm where
  lat : Nat
  u : RowUse
  rim : Instr
  x : Option (BitVec 5)

/-- R39, R122, R191: the token rows that apply a rim operation. -/
noncomputable def rowForm : Instr → Option RowForm
  | .cellVadd d a b c q i o f x => some ⟨4, ⟨d, a, b, c, q, f, x⟩, .vadd 0 1 2 0 i o 0, none⟩
  | .cellVsub d a b c q i o f x => some ⟨4, ⟨d, a, b, c, q, f, x⟩, .vsub 0 1 2 0 i o 0, none⟩
  | .cellVmul d a b c q i o f x => some ⟨4, ⟨d, a, b, c, q, f, x⟩, .vmul 0 1 2 0 i o 0, none⟩
  | .cellVfma d a b c q i o f x => some ⟨4, ⟨d, a, b, c, q, f, x⟩, .vfma 0 1 2 3 0 i o 0, none⟩
  | .cellVfms d a b c q i o f x => some ⟨4, ⟨d, a, b, c, q, f, x⟩, .vfms 0 1 2 3 0 i o 0, none⟩
  | .cellVfnma d a b c q i o f x => some ⟨4, ⟨d, a, b, c, q, f, x⟩, .vfnma 0 1 2 3 0 i o 0, none⟩
  | .cellVmax d a b c q i o f x => some ⟨2, ⟨d, a, b, c, q, f, x⟩, .vmax 0 1 2 0 i o 0, none⟩
  | .cellVmin d a b c q i o f x => some ⟨2, ⟨d, a, b, c, q, f, x⟩, .vmin 0 1 2 0 i o 0, none⟩
  | .cellVabs d a b c q i o f x => some ⟨2, ⟨d, a, b, c, q, f, x⟩, .vabs 0 1 0 i o 0, none⟩
  | .cellVneg d a b c q i o f x => some ⟨2, ⟨d, a, b, c, q, f, x⟩, .vneg 0 1 0 i o 0, none⟩
  | .cellVcps d a b c q i o f x => some ⟨2, ⟨d, a, b, c, q, f, x⟩, .vcps 0 1 2 0 i o 0, none⟩
  | .cellVcmp d a b c q i _ f n => some ⟨2, ⟨d, a, b, c, q, f, 0⟩, .vcmp 0 1 2 n 0 i 0, none⟩
  | .cellVsel d a b c q _ _ f x => some ⟨2, ⟨d, a, b, c, q, f, x⟩, .vsel 0 1 2 3 0 0, none⟩
  | .cellVcls d a b c q i _ f x => some ⟨2, ⟨d, a, b, c, q, f, x⟩, .vcls 0 1 0 i 0, none⟩
  | .cellVexpf d a b c q i o f x => some ⟨8, ⟨d, a, b, c, q, f, x⟩, .vexpf 0 1 0 i o 0, none⟩
  | .cellVlogf d a b c q i o f x => some ⟨8, ⟨d, a, b, c, q, f, x⟩, .vlogf 0 1 0 i o 0, none⟩
  | .cellVgetx d a b c q i o f x => some ⟨8, ⟨d, a, b, c, q, f, x⟩, .vgetx 0 1 0 i o 0, none⟩
  | .cellVrcp d a b c q i o f x => some ⟨8, ⟨d, a, b, c, q, f, x⟩, .vrcp 0 1 0 i o 0, none⟩
  | .cellVrsq d a b c q i o f x => some ⟨8, ⟨d, a, b, c, q, f, x⟩, .vrsq 0 1 0 i o 0, none⟩
  | .cellVscale d a b c q i o f x => some ⟨4, ⟨d, a, b, c, q, f, x⟩, .vscale 0 1 2 0 i o 0, none⟩
  | .cellVdot d a b c q i o f x => some ⟨6, ⟨d, a, b, c, q, f, x⟩, .vdot 0 1 2 0 i o 0, none⟩
  | .cellVsumt d a b c q i o f x => some ⟨6, ⟨d, a, b, c, q, f, x⟩, .vsumt 0 1 0 i o 0, none⟩
  | .cellVmaxt d a b c q i o f x => some ⟨6, ⟨d, a, b, c, q, f, x⟩, .vmaxt 0 1 0 i o 0, none⟩
  | .cellVscan d a b c q i o f x => some ⟨8, ⟨d, a, b, c, q, f, x⟩, .vscan 0 1 0 i o 0, none⟩
  | .cellVperm d a b c q _ _ f x => some ⟨2, ⟨d, a, b, c, q, f, x⟩, .vperm 0 1 2 0 0, none⟩
  | .cellVshuf d a c q _ _ f x => some ⟨2, ⟨d, a, 0, c, q, f, 0⟩, .vshuf 0 1 2 0 0, some x⟩
  | .cellVbcst d a c q _ _ f x => some ⟨2, ⟨d, a, 0, c, q, f, 0⟩, .vbcst 0 1 2 0 0, some x⟩
  | .cellVmsk d a b c q _ _ f x => some ⟨2, ⟨d, a, b, c, q, f, x⟩, .vmsk 0 1 2 0 0, none⟩
  | .cellViadd d a b c q f => some ⟨2, ⟨d, a, b, c, q, f, 0⟩, .viadd 0 1 2 0 0, none⟩
  | .cellVisub d a b c q f => some ⟨2, ⟨d, a, b, c, q, f, 0⟩, .visub 0 1 2 0 0, none⟩
  | .cellVimul d a b c q f => some ⟨2, ⟨d, a, b, c, q, f, 0⟩, .vimul 0 1 2 0 0, none⟩
  | .cellVand d a b c q f => some ⟨2, ⟨d, a, b, c, q, f, 0⟩, .vand 0 1 2 0 0, none⟩
  | .cellVor d a b c q f => some ⟨2, ⟨d, a, b, c, q, f, 0⟩, .vor 0 1 2 0 0, none⟩
  | .cellVxor d a b c q f => some ⟨2, ⟨d, a, b, c, q, f, 0⟩, .vxor 0 1 2 0 0, none⟩
  | .cellVshl d a b c q f => some ⟨2, ⟨d, a, b, c, q, f, 0⟩, .vshl 0 1 2 0 0, none⟩
  | .cellVshr d a b c q f => some ⟨2, ⟨d, a, b, c, q, f, 0⟩, .vshr 0 1 2 0 0, none⟩
  | .cellVsar d a b c q f => some ⟨2, ⟨d, a, b, c, q, f, 0⟩, .vsar 0 1 2 0 0, none⟩
  | .cellVimin d a b c q f => some ⟨2, ⟨d, a, b, c, q, f, 0⟩, .vimin 0 1 2 0 0, none⟩
  | .cellVimax d a b c q f => some ⟨2, ⟨d, a, b, c, q, f, 0⟩, .vimax 0 1 2 0 0, none⟩
  | .cellVcnt d a b c q f => some ⟨2, ⟨d, a, b, c, q, f, 0⟩, .vcnt 0 1 0 0, none⟩
  | .cellVimac d a b c q f => some ⟨2, ⟨d, a, b, c, q, f, 0⟩, .vimac 0 1 2 3 0 0, none⟩
  | _ => none

/-- R122: a rim core that holds the tokens of one position of a row, with the region's rounding mode and remap constant, a cell's
generators, and mask m0. -/
def rowCore (n : CellIn) (g : Gens) (t : RowToks) (x : Option (BitVec 5)) : Core :=
  let b : Token := match x with
    | some v => { data := v.setWidth 512, tag := 9, exp := 0, bub := false, valid := 0xFFFF, pred := 0 }
    | none => t.b
  { Core.reset 0 0 with
    toks := (((((Vector.replicate 32 Token.reset).set 0 t.old).set 1 t.a).set 2 b).set 3 t.c)
    rm := (n.cfg.mode.extractLsb' 2 3), remap := ((n.cfg.field 6).extractLsb' 0 8), rnd := g }

/-- R122, R191: the outcome of a token row at token position q of a cell. -/
def RowForm.at (x : RowForm) (n : CellIn) (q : Nat) (g : Gens) : TokOut :=
  match tokSpec x.rim with
  | some (_, _, op) => op (rowCore n g (n.toks x.u q) x.x)
  | none => ⟨Token.reset, g, 0, 0⟩

/-- R122, R129, R191: the conversion rows: operation, operands, fi, fo, and the rim word for a source format and overflow policy. -/
noncomputable def rowConv : Instr → Option (Conv × RowUse × BitVec 1 × BitVec 1 × (BitVec 4 → BitVec 2 → Instr))
  | .cellVcvt d a b c q i o f x => some (.vcvt, ⟨d, a, b, c, q, f, x⟩, i, o, fun t v => .vcvt 0 1 f t 6 v i o 0)
  | .cellVrndi d a b c q i o f x => some (.vrndi, ⟨d, a, b, c, q, f, x⟩, i, o, fun t v => .vrndi 0 1 f t 6 v i o 0)
  | .cellVftoi d a b c q i o f x => some (.vftoi, ⟨d, a, b, c, q, f, x⟩, i, o, fun t v => .vftoi 0 1 f t 6 v i o 0)
  | .cellVitof d a b c q i o f x => some (.vitof, ⟨d, a, b, c, q, f, x⟩, i, o, fun t v => .vitof 0 1 f t 6 v i o 0)
  | .cellVpack d a b c q i o f x => some (.vpack, ⟨d, a, b, c, q, f, x⟩, i, o, fun t v => .vpack 0 1 f t 6 v i o 0)
  | .cellVunpk d a b c q i o f x => some (.vunpk, ⟨d, a, b, c, q, f, x⟩, i, o, fun t v => .vunpk 0 1 f t 6 v i o 0)
  | _ => none

/-- R197: the reductions: operands, operation, whether RFOLD, fi, fo. -/
def rowRed : Instr → Option (RowUse × Combine × Bool × BitVec 1 × BitVec 1)
  | .cellRsum d a b q i o f x => some (⟨d, a, b, 0, q, f, x⟩, .sum, false, i, o)
  | .cellRmax d a b q i o f x => some (⟨d, a, b, 0, q, f, x⟩, .max, false, i, o)
  | .cellRmin d a b q i o f x => some (⟨d, a, b, 0, q, f, x⟩, .min, false, i, o)
  | .cellRfold d a b q i o f x => some (⟨d, a, b, 0, q, f, x⟩, .sum, true, i, o)
  | _ => none

/-- R67, R192: lane q of MACF: the sum of the psum lane and the exact products of the elements valid in both tokens, rounded once
to nearest even; a NaN psum first, then the default NaN where an element is one. -/
def macfLane (n : CellIn) (i o : BitVec 1) (psum : BitVec 32) (a w : Token) : BitVec 32 :=
  let dec := fun (t : Token) (e : Nat) =>
    let v := (decodeElem t.tag.toNat t.exp n.env.remap (t.data.extractLsb' (32 * e) 32).toNat).1
    if i = 1 then flushIn t.tag.toNat v else v
  let els := (List.range 16).filter fun e => a.valid.getLsbD e && w.valid.getLsbD e && !w.bub
  let p := (fun v => if i = 1 then flushIn 0 v else v) (decodeFloat 0 psum.toNat)
  let prods := els.map fun e => mulVal (dec a e) (dec w e)
  BitVec.ofNat 32 (match p with
    | .nan neg sig pay => (roundNan 0 neg sig pay).bits
    | _ =>
      if els.any fun e => (dec a e).isNaN || (dec w e).isNaN then defaultNaN 0
      else (roundOutc 0 .rne (o == 1) 0 [] false (if prods.contains .invalid then .invalid
        else sumVals .rne (p :: prods.filterMap fun v => match v with | .val y => some y | .invalid => none))).bits)

/-- R193, R194: weight e of MACB, or with `mp` of MACP: 0 where it is not valid, and for MACB where the tag is no BFP code. -/
def macWeight (mp : Bool) (w : Token) (e : Nat) : Int :=
  if w.bub || !w.valid.getLsbD e then 0
  else if mp then sliceWeight w e
  else if w.tag.toNat < 10 then 0
  else ((w.data.extractLsb' (32 * e) 32).extractLsb' 0 (bfpWidth w.tag.toNat)).toInt

/-- R188, R192, R193: what a multiply and accumulate row leaves in every cell: E takes the activation, S the beat `y`. -/
def MacResult (q : BitVec 3) (f : BitVec 4) (x : BitVec 5) (y : CellIn → Beat) (s t : State) : Prop :=
  t = { s with region := { s.region with
    landings := s.region.landings ++ s.region.cfg.cells.flatMap fun p =>
      [⟨p.1, p.2, 4, s.graph.slotNo, (s.cellIn p).west, BitVec.allOnes 128⟩,
        ⟨p.1, p.2, 5, s.graph.slotNo, y (s.cellIn p), (s.cellIn p).allow ⟨5, 5, 6, 4, q, f, x⟩⟩]
    status := { s.region.status with flags := t.region.status.flags } } } ∧
  ((∀ p ∈ s.region.cfg.cells, (s.cellIn p).west.bub = true) → t.region.status = s.region.status)

/-! ### Events -/

/-- Graph g has become x; no other graph differs, and nothing but graphs. -/
def GraphTo (g : Nat) (x : Graph) (u t : State) : Prop :=
  t = { u with graph := t.graph, graphs := t.graphs } ∧ t.getGraph g = some x ∧ ∀ k, k ≠ g → t.getGraph k = u.getGraph k

/-- The holds of a graph with a source raised (R254). -/
def raised (src : Nat) (holds : List Nat) : List Nat := if src ∈ holds then holds else holds ++ [src]

/-- R208: a status word that has landed: CODE, REASON, CMD, DONE and DETAIL. -/
def statusWord (k : CmdKind) (st : Status) : BitVec 64 := st.detail ++ (1#1 ++ 0#7 ++ BitVec.ofNat 8 k.code ++ st.reason ++ st.code)

/-- R84, R207, R294: the status of an outstanding command of a core has landed: the command is no longer outstanding, and its word
stands in its register, or nowhere where the core is idle. A result of the register that may be on its way still (R158, R169) can come
after it and replace it. Statuses that wait in other cores, or in saved graphs, do not change. -/
def Lands (ref : CmdRef) (st : Status) (u t : State) : Prop :=
  t = { u with tile := t.tile, tiles := t.tiles, free := t.free, mgmt := { u.mgmt with saved := t.mgmt.saved } } ∧
  (∀ n, n ≠ ref.tile → t.getTile n = u.getTile n) ∧
  ∀ x, ((u.getTile ref.tile).core.cmds.find? fun y => y.serial == ref.serial) = some x →
    let c := (u.getTile ref.tile).core
    let d := (t.getTile ref.tile).core
    t.mgmt = u.mgmt ∧ t.getTile ref.tile = { u.getTile ref.tile with core := d } ∧ (∀ y ∈ d.cmds, y.serial ≠ ref.serial) ∧
    ((∀ y ∈ c.cmds, y.kind ≠ .cfgw ∧ y.kind ≠ .cpyw) →
      d = { c with
        cmds := c.cmds.filter fun y => y.serial != ref.serial
        cfgLog := d.cfgLog, cpyLog := d.cpyLog, sregs := d.sregs } ∧
      (c.run = .idle → d.sregs = c.sregs) ∧
      (c.run ≠ .idle → d.sregs = (c.setS x.d (statusWord x.kind st)).sregs ∨
        ((∃ y ∈ c.late, y.1 = x.d) ∧ d.sregs = c.sregs)))

/-- A command of a kind that has started on a core. -/
def Started (u : State) (ref : CmdRef) (k : CmdKind) (x : Cmd) : Prop :=
  ((u.getTile ref.tile).core.cmds.find? fun y => y.serial == ref.serial && y.kind == k && y.state == .started) = some x

/-- The core of tile k has become c; nothing else differs. -/
def CoreTo (k : Nat) (c : Core) (u t : State) : Prop :=
  t = { u with tile := t.tile, tiles := t.tiles } ∧ t.getTile k = { u.getTile k with core := c } ∧
  ∀ n, n ≠ k → t.getTile n = u.getTile n

/-- R229, R289: FENCE state after one more failed access, in the bit positions of R229, at an IA. -/
def fenceWith (f : FenceAcc) (out : BitVec 6) (ia : BitVec 44) : FenceAcc :=
  ⟨f.dead || out.getLsbD 0, f.refused || out.getLsbD 1, f.poison || out.getLsbD 3, f.orphan || out.getLsbD 4,
    f.aborted || out.getLsbD 5, if f.fails = 4095 then 4095 else f.fails + 1, if f.fails = 0 then ia else f.firstIa⟩

/-- R283, R287, R326: what holds an entry of an issuer: an open notice for its page; for a page of another module, the wait for that
module's word; and a write of its page on its way there, or with ORD a replay on its way. -/
def EntryHeld (s : State) (who : Issuer) (owed : List RemoteWrite) (e : CreelEntry) : Prop :=
  (e.dest = none ∧ ∃ n ∈ s.notices, n.page = e.ia.toNat / 65536 ∧ n.who = who ∧ n.ctx = e.ctx) ∨
  (e.dest ≠ none ∧ ∃ x ∈ s.island.farPages, x.key = e.pageKey ∧ x.who = who ∧ x.ctx = e.ctx) ∨
  ∃ x ∈ owed, x.entry.pageKey = e.pageKey ∨ (e.ord = true ∧ x.again = true)

/-- R287: entry e of a creel may be performed, where `held` are the entries that something holds. -/
def MayReplay (held : CreelEntry → Prop) (creel : List CreelEntry) (e : CreelEntry) : Prop :=
  e.state = .pending ∧ ¬ held e ∧ ∀ x ∈ creel, x.state = .pending → x.seq < e.seq → x.pageKey ≠ e.pageKey ∧ e.ord = false

/-- R207, R283: the commands of a core, those that waited for a record queued again. -/
def requeued (l : List Cmd) : List Cmd := l.map fun x => if x.state = .recordWait then { x with state := .queued } else x

/-! ### Strand -/

/-- Port p has become x; no other port differs, and nothing but ports. -/
def PortTo (p : Nat) (x : Port) (u t : State) : Prop :=
  t = { u with island := { u.island with ports := t.island.ports } } ∧ t.port p = x ∧ ∀ k, k ≠ p → t.port k = u.port k

/-- R405, R407: a packet has set out from this module under the newest table generation, and is the next packet of the crossbar to
hop. -/
def SetsOut (dest : BitVec 14) (response : Bool) (body : PacketBody) (u t : State) : Prop :=
  ∃ gen, t = { u with
    island := { u.island with
      pktId := u.island.pktId + 1
      transit := u.island.transit ++ [⟨u.island.pktId,
        ⟨dest, u.island.moduleNum, gen, if response then 1 else 0, response, body⟩, none, false⟩] }
    agenda := u.agenda ++ [.packetHop u.island.pktId] } ∧
  ∀ g r, u.island.gens = g :: r → gen = g.gen

/-- R405: an answer to a packet has set out. -/
def Answered (p : Packet) (body : PacketBody) : State → State → Prop := SetsOut p.src true body

/-- R326, R405: a write of an issuer has set out for another module, whose answer it awaits. -/
def WriteOut (who : Issuer) (ctx : BitVec 16) (dest : BitVec 14) (ia : Nat) (body : PacketBody) (u t : State) : Prop :=
  ∃ v, SetsOut dest false body u v ∧
    t = { v with island := { v.island with remotes := u.island.remotes ++ [⟨u.island.pktId, who, ctx, dest, ia, true, []⟩] } }

/-- R229, R287, R326, R403, R408: the write `y` of a core to another module has ended with an outcome in the bit positions of R229:
its reservation is free, a failure joins the FENCE state of its context or is kept for it, and what waited behind it is tried again. -/
def RemoteStoreEnds (k : Nat) (y : RemoteWrite) (out : BitVec 6) (u t : State) : Prop :=
  let c := (u.getTile k).core
  let d := (t.getTile k).core
  let free : Core := { c with
    owedRemote := c.owedRemote.filter fun x => x.id != y.id, attrs := d.attrs, cmds := requeued c.cmds }
  t = { u with
    tile := t.tile, tiles := t.tiles, agenda := u.agenda ++ [.creelReplay (.rim k)]
    mgmt := { u.mgmt with saved := t.mgmt.saved } } ∧
  t.getTile k = { u.getTile k with core := d } ∧ (∀ n, n ≠ k → t.getTile n = u.getTile n) ∧
  (out = 0 → d = free) ∧
  (out ≠ 0 → y.entry.ctx = c.ctx → c.run ≠ .stopped → d = { free with fence := fenceWith c.fence out y.entry.failIa }) ∧
  (out ≠ 0 → y.entry.ctx ≠ c.ctx → ∃ e, d = { free with creel := c.creel ++ [e], creelSeq := c.creelSeq + 1 } ∧
    e.state = .ended ∧ e.ctx = y.entry.ctx ∧ e.out = out ∧ e.ia = y.entry.failIa)

/-! ### Launches and graphs -/

/-- R376: SEQ, QUEUE, STATUS, REASON and TEND of a completion record, its other bits of the first dword zero. -/
def CompletionLine (seq : BitVec 32) (queue : Nat) (status : BitVec 8) (reason : Nat) (time : BitVec 64) (l : Line) : Prop :=
  l.extractLsb' 0 32 = seq ∧ (l.extractLsb' 32 4).toNat = queue ∧ l.extractLsb' 36 8 = status ∧
  (l.extractLsb' 44 8).toNat = reason ∧ l.extractLsb' 52 12 = 0 ∧ l.extractLsb' 320 64 = time

/-- R376: a completion record of a launch that did not run: nothing but its first dword and TEND. -/
def NotRun (l : Line) : Prop := l.extractLsb' 64 256 = 0 ∧ l.extractLsb' 384 128 = 0

/-- R365, R376: a completion record at an IA that is 64-byte aligned and whose page management can write has been written: the line
stands there, no other byte of memory has changed, management notes SEQ and STATUS for the queue, open or closed, and VALID of the
launch's slot table entry, if it has one, is cleared (R376 step 4). -/
def Completes (compl : BitVec 44) (seq : BitVec 32) (queue : Nat) (status : BitVec 8) (reason : Nat) (more : Line → Prop)
    (slot : Option Nat) (u t : State) : Prop :=
  let log := fun x : Nat × Queue => if x.1 = queue then (x.1, { x.2 with ended := x.2.ended ++ [(seq, status)] }) else x
  ∀ loc attr h, compl.toNat % 64 = 0 → hubAccess u compl.toNat Access.stores = .at loc attr h → loc % 64 = 0 →
    ∃ l, CompletionLine seq queue status reason u.time l ∧ more l ∧
      (∀ j, j < 64 → readByte t.mem (loc + j) = l.extractLsb' (8 * j) 8) ∧ MemKeptBut loc 64 u t ∧
      t = { u with
        mem := t.mem, ptes := t.ptes, hubs := t.hubs, linePoison := t.linePoison, migrations := t.migrations, agenda := t.agenda
        island := { u.island with overlaid := t.island.overlaid }
        mgmt := { u.mgmt with
          queues := u.mgmt.queues.map log, closed := u.mgmt.closed.map log
          slots := match slot with
            | some k => sparsePut 0 u.mgmt.slots k (setBit (sparseGet 0 u.mgmt.slots k) 24 false)
            | none => u.mgmt.slots } }

/-- R364: management has read one record of queue n: the head has advanced, and HEADW in memory with it. -/
def HeadAdvanced (n : Nat) (q : Queue) (seq : BitVec 32) (u t : State) : Prop :=
  let q' : Queue := { q with head := q.head + 1, seen := q.seen ++ [seq] }
  t = { u with
    mem := t.mem, ptes := t.ptes, hubs := t.hubs, linePoison := t.linePoison, migrations := t.migrations, agenda := t.agenda
    notices := t.notices, noticeId := t.noticeId, island := { u.island with overlaid := t.island.overlaid }
    mgmt := { u.mgmt with queues := t.mgmt.queues, writes := t.mgmt.writes } } ∧
  t.queue n = some q' ∧ (∀ k, k ≠ n → t.queue k = u.queue k) ∧ .launchRecord n ∈ t.agenda ∧
  ∀ loc attr h, q.headw % 8 = 0 → hubAccess (u.putQueue n q') (q.headw / 64 * 64) Access.stores = .at loc attr h →
    loc % 64 = 0 → linePoisoned h loc = false →
    readBytes t.mem (loc + q.headw % 64) 8 = q'.head.toNat ∧ MemKeptBut (loc + q.headw % 64) 8 u t

/-- R371, R376: graph g has left its slot: the slot holds no graph, and the cores of its rectangle run no context. Where it had no
gates, no other graph has changed. -/
def Released (g : Graph) (u t : State) : Prop :=
  t = { u with tile := t.tile, tiles := t.tiles, graph := t.graph, graphs := t.graphs, turns := t.turns, gates := t.gates } ∧
  t.getGraph g.slot = none ∧
  (∀ k ∈ bindTiles g.record, (t.getTile k).core.run = .idle ∧
    t.getTile k = { u.getTile k with core := { (u.getTile k).core with run := .idle, resident := false } }) ∧
  (∀ k, k ∉ bindTiles g.record → t.getTile k = u.getTile k) ∧
  ((∀ x ∈ u.gates, x.fromGraph ≠ g.slot ∧ x.toGraph ≠ g.slot) → t.gates = u.gates ∧
    ∀ k, k ≠ g.slot → k < 64 → t.getGraph k = u.getGraph k)

/-- The slot of a graph names it alone, in a state whose region in focus has been put back. -/
def OnlyGraph (slot : Nat) (g : Graph) (u : State) : Prop :=
  u.settle = u ∧ slot < 64 ∧ u.allGraphs.filter (fun x => x.slot == slot) = [g]

/-- R372: a graph's AGN accesses have all ended. -/
def AgnQuiet (g : Graph) : Prop :=
  g.requests = [] ∧ ∀ r ∈ g.regions,
    r.sent = [] ∧ r.owedRemote = [] ∧ r.heldWrites = [] ∧ ∀ e ∈ r.creel, e.state ≠ .pending

/-- No configuration stream of dispatch itself runs or waits for a graph. -/
def NotBinding (slot : Nat) (u : State) : Prop :=
  ∀ x : Stream, (x = u.stream ∨ ∃ n ∈ u.nets.toList, x = n.running ∨ x ∈ n.queue) → x.graph = slot → x.len = 0 ∨ x.ref.isSome = true

/-- R76, R237, R354, R371, R382: a core that dispatch has set up for a context: its cursor with EXH for a table of `len` entries, the
last parcel returned, and the energy weights supplied for its launch. Its creel and its writes on their way stay in place. -/
def SetUp (c d : Core) (r : BitVec 1024) (wards : Vector Ward 8) (super : Option Nat) (cursor len : Nat) (last : Option Nat)
    (weights : Option (List (BitVec 16) × BitVec 16)) (run : RunState) : Prop :=
  d = { Core.reset c.trow c.tcol with
    run := run, ctx := r.extractLsb' 0 16, wards := wards, tvecValid := super.isSome
    tvecEntry := BitVec.ofNat 10 (super.getD 0), nxcur := BitVec.ofNat 10 cursor, exh := decide (len ≤ cursor), parcel := last
    ew := d.ew, statw := d.statw
    creel := c.creel, creelSeq := c.creelSeq, sent := c.sent, aloft := c.aloft, owedLines := c.owedLines
    owedRemote := c.owedRemote, cmdSerial := c.cmdSerial } ∧
  match weights with
  | none => d.ew = Vector.replicate 8 0 ∧ d.statw = 0
  | some w => d.statw = w.2 ∧ ∀ k : Fin 8, d.ew.get k = w.1.getD k.val 0

/-! ### The island -/

/-- R376: the bytes of a completion record stand at its IA, where that is aligned and its page can be written. -/
def Recorded (compl : BitVec 44) (seq : BitVec 32) (queue : Nat) (status : BitVec 8) (u t : State) : Prop :=
  ∀ loc attr h, compl.toNat % 64 = 0 → hubAccess u compl.toNat Access.stores = .at loc attr h → loc % 64 = 0 →
    ∃ l, CompletionLine seq queue status 0 u.time l ∧ (∀ j, j < 64 → readByte t.mem (loc + j) = l.extractLsb' (8 * j) 8) ∧
      MemKeptBut loc 64 u t

/-- A saturating count. -/
def countUp (n : BitVec 16) : BitVec 16 := if n = 0xFFFF then n else n + 1

/-- R401 steps 1 and 2: a compute reset has begun: the island is in TRANSIT, no graph is bound, and no queue, launch or saved graph
is left; what was waiting has completed ABORTED. -/
def ResetBegun (s t : State) : Prop :=
  let u := s.settle
  t.island = { s.island with st := .transit, overlaid := t.island.overlaid } ∧ t.mgmt.queues = [] ∧ t.mgmt.launches = [] ∧ t.mgmt.saved = [] ∧
  t.mgmt.drained = [] ∧ .orphanTimeout ∈ t.agenda ∧ t.hubq = s.hubq ∧ t.time = s.time ∧
  ((∀ x ∈ u.graphs, x.slot < 64) → t.allGraphs = []) ∧
  (∀ g ∈ u.allGraphs, ∀ k ∈ bindTiles g.record, (t.getTile k).core.run = .idle) ∧
  (u.allGraphs = [] → u.mgmt.saved = [] → (∀ x ∈ u.mgmt.slots, x.2.getLsbD 24 = false) → u.mgmt.queues = [] →
    u.mgmt.launches = [] → t.mem = s.mem) ∧
  (∀ l v, u.allGraphs = [] → u.mgmt.saved = [] → (∀ x ∈ u.mgmt.slots, x.2.getLsbD 24 = false) → u.mgmt.queues = [] →
    u.mgmt.launches = [l] → l.queue < 16 →
    v = { u with island := { u.island with st := .transit } } →
    Recorded (l.record.extractLsb' 192 44) (l.record.extractLsb' 0 32) l.queue 6 v t)

/-- R400, R402, R408: the island has been reset: every graph is held, the packets in the island are gone, HingeLink is down, and
nothing else differs. -/
def IslandHeld (s t : State) : Prop :=
  t = { s with
    graph := t.graph, graphs := t.graphs
    island := { s.island with
      st := .ireset, held := s.island.st, transit := [], linkUp := false, iresets := countUp s.island.iresets } } ∧
  ∀ k, k < 64 → t.getGraph k = (s.getGraph k).map fun g => { g with holds := raised holdMgmt g.holds }

/-- R308, R401 step 5, R399: the compute dies have been reset: HBM and companion memory keep their bytes, scratch and operand memory
are zero, every page is unmapped, hoops, keys, creels, commands, format ranges and registers are at reset; TIME, the frame poison maps
and management's settings stay. -/
def ComputeReset (s t : State) : Prop :=
  (∀ a, readByte t.mem a = if a < spaceSize ∨ 4 * spaceSize ≤ a then readByte s.mem a else 0) ∧ (∀ p, getPte t p = 0) ∧
  t.hoops = State.reset.hoops ∧ t.keys = [] ∧ t.gates = [] ∧ t.cells = [] ∧ t.allGraphs = [] ∧ t.notices = [] ∧ t.hubq = [] ∧
  t.migrations = [] ∧ t.splits = [] ∧ t.time = s.time ∧
  (∀ k, k < 2112 → (t.getTile k).core = Core.reset (BitVec.ofNat 6 (k / 44)) (BitVec.ofNat 6 (k % 44)) ∧
    (t.getTile k).owners = [] ∧ (t.getTile k).code = []) ∧
  (∀ h, h < 12 → (getHub t h).ranges = [] ∧ (getHub t h).engines = Hub.reset.engines ∧ (getHub t h).encodings = [] ∧
    (getHub t h).cacheSize = []) ∧
  t.mgmt = { Mgmt.reset with
    few := s.mgmt.few, statg := s.mgmt.statg, budget := s.mgmt.budget, freqs := s.mgmt.freqs, thermal := s.mgmt.thermal
    closed := s.mgmt.closed, acts := s.mgmt.acts, reads := s.mgmt.reads }

end Sys2Proof
end

