-- ==== Sys2Proof/Certificates/Slice0/Obligations.lean ====
section
/-! DEFINITION. The statements for the provers. -/

open Sys2Proof Sys2Proof.Machine

/-! ### Encoding and decoding -/

/-- R10, R20 to R33: a well-formed rim word decodes to the instruction it encodes. -/
def Obligations.RimRoundTrip : Prop :=
  ∀ i : Instr, i.kind = 0 → i.wellFormed = true → i.isSecondName = false → decodeRim (encode i) = .ok i

/-- R13 to R19, R34 to R40: a well-formed C-word, and a well-formed cell word, decodes to the instruction it encodes. -/
def Obligations.WordRoundTrip : Prop :=
  (∀ i : Instr, i.kind = 1 → i.wellFormed = true → decodeCword (encode i) = .ok i) ∧
  (∀ i : Instr, i.kind = 2 → i.wellFormed = true → decodeCell (encode i) = .ok i)

/-! ### A step -/

/-- The event that stands first on the agenda happens before any agent moves. -/
def Obligations.StepRunsEvent : Prop :=
  ∀ (s : State) (i : Instr) (rest : List Instr), s.agenda = i :: rest → step s = exec i { s with agenda := rest }

/-- R23, R170, R177, R187: on an agent's turn the word that stands next, where it decodes to an instruction, runs as that
instruction: the word at a core's pc, with the corrected words that the fetch met counted; the next word of a net's stream; and
the row word of a graph's next region within a slot. The turn is then handed on; a graph keeps it unless the row has to wait. A word
that a core has fetched and that could not issue tries again without another fetch (R157). -/
def Obligations.StepRunsWords : Prop :=
  (∀ (s : State) (t : Nat) (rest : List Agent) (w : Word) (m : CodeMark) (i : Instr),
     s.agenda = [] → s.island.st = .serve → s.mgmt.thermal = false → s.turns = .rim t :: rest →
     (s.focusTile t).tile.core.stall = .none → (s.focusTile t).tile.core.run = .running →
     (s.focusTile t).mayIssue t = true → (s.focusTile t).tile.core.pendPreempt = false →
     (s.focusTile t).tile.core.pendMgmt = false →
     (∀ x ∈ (s.focusTile t).tile.core.cmds, (s.focusTile t).cmdReady t x = false) →
     (s.focusTile t).tile.core.fetchesSuper = false →
     (s.focusTile t).tile.fetchWord (s.focusTile t).tile.core.pc = (w, m) → m ≠ .uncorrectable → decodeRim w = .ok i →
     step s = handOn (exec i ((s.focusTile t).countFetch m))) ∧
  (∀ (s u : State) (t : Nat) (rest : List Agent) (h : Held) (i : Instr),
     s.agenda = [] → s.island.st = .serve → s.mgmt.thermal = false → s.turns = .rim t :: rest → u = s.focusTile t →
     u.tile.core.stall = .again ∨ u.tile.core.stall = .nextp → u.tile.core.held = some h → u.tile.core.run = .running →
     u.mayIssue t = true → u.tile.core.pendPreempt = false → u.tile.core.pendMgmt = false →
     (∀ x ∈ u.tile.core.cmds, u.cmdReady t x = false) → decodeRim h.word = .ok i →
     step s = handOn (exec i (u.setCore { u.tile.core with stall := .none }))) ∧
  (∀ (s u : State) (n : Nat) (rest : List Agent) (w : Word) (i : Instr),
     s.agenda = [] → s.island.st = .serve → s.mgmt.thermal = false → s.turns = .net n :: rest →
     (s.focusNet n).stream.len ≠ 0 → (s.focusNet n).stream.result = none → (s.focusNet n).stream.started = true →
     (s.focusNet n).stream.paused = false → nextWord (s.focusNet n) = .word w u → u.stream.raw = 0 → decodeCword w = .ok i →
     step s = handOn (exec i u)) ∧
  (∀ (s u : State) (g r : Nat) (rest : List Agent) (todo : List Nat) (w : Word) (i : Instr),
     s.agenda = [] → s.island.st = .serve → s.mgmt.thermal = false → s.turns = .graph g :: rest →
     (s.focusGraph g).graph.slot = g → (s.focusGraph g).graph.phase = .rows → (s.focusGraph g).graph.todo = r :: todo →
     u = ((s.focusGraph g).setTodo todo).focusRegion r →
     u.region.id = r → u.graph.faulted.contains r = false →
     w = sparseGet 0 u.region.cfg.words u.region.rowNo → u.region.gateOpen (fld w 26 6).toNat = true → decodeCell w = .ok i →
     ∀ v, exec i u = .next v → step s = .next (if v.graph.todo.contains r then v.settle.yieldTurn else v.settle))

/-! ### Scalar instructions -/

/-- R22, R86 to R88, R90: every scalar instruction whose guard holds retires with its result in sd, and changes nothing else. -/
def Obligations.ScalarResults : Prop :=
  ∀ i d g v s, scalarSpec i = some (d, g, v) → CanRetire s → s.tile.core.guard g = true →
    ∃ t, exec i s = .next t ∧ CoreEffect 0 (fun c => c.setS d (v c)) s t

/-- R89, R90: every compare and predicate instruction whose guard holds retires with its result in pd, and changes nothing
else. -/
def Obligations.PredicateResults : Prop :=
  ∀ i d g v s, predSpec i = some (d, g, v) → CanRetire s → s.tile.core.guard g = true →
    ∃ t, exec i s = .next t ∧ CoreEffect 0 (fun c => c.setP d (v c)) s t

/-- R21, R23: a word whose guard is false retires with no effect on registers, memory, flags or mail; a scalar or predicate
instruction whose next address would be 1,024 traps BADTGT with EADDR 1,024 and has no effect. -/
def Obligations.GuardsAndLastWord : Prop :=
  (∀ i k g s, guardSpec i = some (k, g) → CanRetire s → s.tile.core.guard g = false →
     ∃ t, exec i s = .next t ∧ CoreEffect k id s t) ∧
  (∀ i k g s, guardSpec i = some (k, g) → (scalarSpec i).isSome = true ∨ (predSpec i).isSome = true → ¬ CanRetire s →
     HandlerReady s.tile.core → ∃ t, exec i s = .next t ∧ TrapsWith causeBadTgt 1024 (encode i) s t)

/-- R74: s0 and m0 and p0 have fixed values and discard writes; a write of any other register is read back, and leaves every
other register of its file and every other file as they were. -/
def Obligations.RegisterFiles : Prop :=
  ∀ (c : Core),
    (∀ (d r : BitVec 5) (v : BitVec 64), (c.setS d v).s r = if r = 0 then 0 else if r = d then v else c.s r) ∧
    (∀ (d r : BitVec 3) (v : Bool), (c.setP d v).p r = if r = 0 then true else if r = d then v else c.p r) ∧
    (∀ (d r : BitVec 3) (v : BitVec 16), (c.setM d v).m r = if r = 0 then 0xFFFF else if r = d then v else c.m r) ∧
    (∀ (d r : BitVec 5) (v : Token), (c.setT d v).t r = if r = d then v else c.t r) ∧
    (∀ (d : BitVec 5) (v : BitVec 64), c.setS d v = { c with sregs := (c.setS d v).sregs }) ∧
    (∀ (d : BitVec 3) (v : Bool), c.setP d v = { c with preds := (c.setP d v).preds }) ∧
    (∀ (d : BitVec 3) (v : BitVec 16), c.setM d v = { c with masks := (c.setM d v).masks }) ∧
    ∀ (d : BitVec 5) (v : Token), c.setT d v = { c with toks := (c.setT d v).toks }

/-! ### Transfers and loops -/

/-- R91, R92: a transfer whose guard holds and whose target lies in the code store goes there, links the next address in its link
register, evaluates no loop end, and changes nothing else; one whose target lies outside 0 to 1,023 traps BADTGT with the target
in EADDR, and changes neither the pc that EPC saves nor the link register. -/
def Obligations.Transfers : Prop :=
  (∀ i g l f s, transferSpec i = some (g, l, f) → s.tile.core.guard g = true → 0 ≤ f s.tile.core → f s.tile.core ≤ 1023 →
     ∃ t, exec i s = .next t ∧
       CoreEffectAt 1 ((f s.tile.core).toNat, s.tile.core) (fun c => c.setS l (BitVec.ofNat 64 (c.pc.toNat + 1))) s t) ∧
  (∀ i g l f s, transferSpec i = some (g, l, f) → s.tile.core.guard g = true → f s.tile.core < 0 ∨ 1023 < f s.tile.core →
     HandlerReady s.tile.core → ∃ t, exec i s = .next t ∧ TrapsWith causeBadTgt (BitVec.ofInt 64 (f s.tile.core)) (encode i) s t)

/-- R93, R95, R108: LOOP at a level that fits into the active loops: a count above 0 starts the loop, with its bounds, counter and
activity, at the next word (where no loop was active, the loop buffer takes the body); a count of 0 skips the body, as though its
last word had retired. A body that leaves the code store traps BADTGT with its last address; else a count above 0xFFFFFFFF traps
LOOPERR with the count; else one that does not fit traps LOOPERR with the level. LBRK ends its loop and every loop inside it, and
then takes the loop end of its own address. -/
def Obligations.Loops : Prop :=
  (∀ i (l : BitVec 2) n d s (k : Fin 3), loopSpec i = some (l, n, d) → l.toNat = k.val → s.tile.core.pc.toNat + d ≤ 1023 →
     n s.tile.core ≤ 0xFFFFFFFF → LoopFits s.tile.core l.toNat (s.tile.core.pc.toNat + d) →
     (n s.tile.core ≠ 0 → ∃ t, exec i s = .next t ∧
       CoreEffectAt 1
         (s.tile.core.pc.toNat + 1, { s.tile.core with
           lc := s.tile.core.lc.set k.val (BitVec.ofNat 32 (n s.tile.core)) k.isLt
           lcsAct := s.tile.core.lcsAct ||| BitVec.ofNat 3 (2 ^ k.val) })
         (fun c => { c with
           lcsStart := c.lcsStart.set k.val (c.pc + 1) k.isLt
           lcsEnd := c.lcsEnd.set k.val (BitVec.ofNat 10 (c.pc.toNat + d)) k.isLt
           loopBuf := if c.lcsAct = 0 then s.tile.fillLoop (c.pc.toNat + 1) (c.pc.toNat + d) else c.loopBuf }) s t) ∧
     (n s.tile.core = 0 → (s.tile.core.loopEnd (s.tile.core.pc.toNat + d)).1 ≠ 1024 → ∃ t, exec i s = .next t ∧
       CoreEffectAt 1 (s.tile.core.loopEnd (s.tile.core.pc.toNat + d)) id s t)) ∧
  (∀ i l n d s, loopSpec i = some (l, n, d) → HandlerReady s.tile.core →
     (1023 < s.tile.core.pc.toNat + d → ∃ t, exec i s = .next t ∧
       TrapsWith causeBadTgt (BitVec.ofNat 64 (s.tile.core.pc.toNat + d)) (encode i) s t) ∧
     (s.tile.core.pc.toNat + d ≤ 1023 → 0xFFFFFFFF < n s.tile.core → ∃ t, exec i s = .next t ∧
       TrapsWith causeLoopErr (BitVec.ofNat 64 (n s.tile.core)) (encode i) s t) ∧
     (s.tile.core.pc.toNat + d ≤ 1023 → n s.tile.core ≤ 0xFFFFFFFF →
       ¬ LoopFits s.tile.core l.toNat (s.tile.core.pc.toNat + d) → ∃ t, exec i s = .next t ∧
       TrapsWith causeLoopErr (l.setWidth 64) (encode i) s t)) ∧
  (∀ (l : BitVec 5) (g : BitVec 4) (s : State), s.tile.core.guard g = true → ∀ c : Core,
     c = { s.tile.core with lc := c.lc, lcsAct := c.lcsAct } →
     (∀ k : Fin 3, c.lc.get k = if l.toNat ≤ k.val then 0 else s.tile.core.lc.get k) →
     (∀ k : Fin 3, c.lcsAct.getLsbD k = (decide (k.val < l.toNat) && s.tile.core.lcsAct.getLsbD k)) →
     (c.loopEnd c.pc.toNat).1 ≠ 1024 →
     ∃ t, exec (.lbrk l g) s = .next t ∧ CoreEffectAt 1 (c.loopEnd c.pc.toNat) id s t)

/-- R94: the loop end at an address, innermost level first: the first loop that ends there with a counter above 1 counts down and
branches, those inside it that end there end with counter 0, and every loop outside it and every loop that ends elsewhere is
untouched; where none branches, the next address follows. With LE clear nothing is evaluated. -/
def Obligations.LoopEndRule : Prop :=
  ∀ (c : Core) (a : Nat),
    let hit := fun k : Fin 3 => c.lcsAct.getLsbD k && (c.lcsEnd.get k).toNat == a
    let back := fun k : Fin 3 => hit k && decide (1 < (c.lc.get k).toNat)
    let r := c.loopEnd a
    (c.le = false → r = (a + 1, c)) ∧
    (c.le = true → ∀ k : Fin 3, back k = true → (∀ j : Fin 3, k < j → back j = false) →
      r.1 = (c.lcsStart.get k).toNat ∧ r.2.lc.get k = c.lc.get k - 1 ∧
      (∀ j : Fin 3, j < k → r.2.lc.get j = c.lc.get j ∧ r.2.lcsAct.getLsbD j = c.lcsAct.getLsbD j)) ∧
    (c.le = true → (∀ k : Fin 3, back k = false) → r.1 = a + 1) ∧
    (c.le = true → ∀ k : Fin 3, hit k = true → (∀ j : Fin 3, k ≤ j → back j = false) →
      r.2.lc.get k = 0 ∧ r.2.lcsAct.getLsbD k = false) ∧
    (∀ k : Fin 3, hit k = false → r.2.lc.get k = c.lc.get k ∧ r.2.lcsAct.getLsbD k = c.lcsAct.getLsbD k) ∧
    r.2 = { c with lc := r.2.lc, lcsAct := r.2.lcsAct }

/-! ### Waits -/

/-- R96, R97: a WAIT on a register whose statuses have landed, and on a full mail register, retires, and clears FULL; another
waits at its address, and retires by WAIT_RELEASE once it may. A HALT whose waits have ended completes its context with the fence
status; another waits at its address, and completes by HALT_COMPLETE once it may. -/
def Obligations.WaitsAndHalts : Prop :=
  (∀ (n : BitVec 5) (g : BitVec 4) (s : State),
     (CanRetire s → s.tile.core.guard g = true → MayEndWait s.tile.core n →
       ∃ t, exec (.wait n g) s = .next t ∧ CoreEffect 1 (afterWait n) s t) ∧
     (CanRetire s → s.tile.core.guard g = true → ¬ MayEndWait s.tile.core n →
       ∃ t, exec (.wait n g) s = .next t ∧ Stalls (.wait n) (.wait n g) s t) ∧
     (∀ k, (s.focusTile k).tile.core.stall = .wait n → MayEndWait (s.focusTile k).tile.core n →
       ∃ t, exec (.waitRelease k) s = .next t ∧ CoreEffect 1 (afterWait n) (s.focusTile k) t)) ∧
  (∀ (g : BitVec 4) (s : State),
     (s.tile.core.guard g = true → MayEndHalt s.tile.core → ∃ t, exec (.halt g) s = .next t ∧ Halted s t) ∧
     (s.tile.core.guard g = true → ¬ MayEndHalt s.tile.core →
       ∃ t, exec (.halt g) s = .next t ∧ Stalls .halt (.halt g) s t) ∧
     (∀ k, (s.focusTile k).tile.core.stall = .halt → MayEndHalt (s.focusTile k).tile.core →
       ∃ t, exec (.haltComplete k) s = .next t ∧ Halted (s.focusTile k) t))

/-- R111, R229: a FENCE whose wait has ended retires with the status word, CREELP telling whether a .nw form leaves entries in
scope, and clears the accumulated state; another waits at its address, and retires by FENCE_COMPLETE once it may. -/
def Obligations.FenceRetires : Prop :=
  ∀ (d : BitVec 5) (w : BitVec 1) (sc : BitVec 3) (s : State) (left : Core → Bool),
    (∀ c, left c = true ↔ w = 1 ∧ ∃ e ∈ c.creel, e.ctx = c.ctx ∧ InScope e.scope sc) →
    (CanRetire s → MayEndFence s.tile.core (w == 1) sc →
      ∃ t, exec (.fence d w sc) s = .next t ∧ CoreEffect 7 (fun c => afterFence d (left c) c) s t) ∧
    (CanRetire s → ¬ MayEndFence s.tile.core (w == 1) sc →
      ∃ t, exec (.fence d w sc) s = .next t ∧ Stalls (.fence d w sc) (.fence d w sc) s t) ∧
    (∀ k, (s.focusTile k).tile.core.stall = .fence d w sc → MayEndFence (s.focusTile k).tile.core (w == 1) sc →
      ∃ t, exec (.fenceComplete k) s = .next t ∧ CoreEffect 7 (fun c => afterFence d (left c) c) (s.focusTile k) t)

/-! ### Special registers -/

/-- R76 to R78, R108: SRD, and SRS and SRC beside their writes, put the value of the register into sd; SWR, SRS and SRC then
write the register: sa; old OR sa, or sa where the fields are W1C; old AND NOT sa, or nothing where they are W1C (RESEED of TCR is
write-only). An access that a mode may not make traps with no effect: PRIV with the number in EADDR, ILLEGAL with 0, the range of
the number first. -/
def Obligations.SpecialRegisters : Prop :=
  (∀ (d a : BitVec 5) (n : BitVec 12) (s : State), CanRetire s → SrOpen s.tile.core n false →
     let old := s.readSR n.toNat
     let w1c := n = 0x011 ∨ n = 0x045
     (∃ t, exec (.srd d n) s = .next t ∧ CoreEffect 7 (fun c => c.setS d old) s t) ∧
     (SrOpen s.tile.core n true →
       (∃ u t, exec (.swr a n) s = .next t ∧ CoreEffect 7 id s u ∧ exec (.registerWrite n (s.tile.core.s a)) u = .next t) ∧
       (∃ u t, exec (.srs d a n) s = .next t ∧ CoreEffect 7 (fun c => c.setS d old) s u ∧
         ∀ v, v = (if w1c then s.tile.core.s a
             else old ||| (s.tile.core.s a &&& ~~~ (if n = 0x010 then 0x100000000 else 0))) →
           exec (.registerWrite n v) u = .next t) ∧
       (∃ u t, exec (.src d a n) s = .next t ∧ CoreEffect 7 (fun c => c.setS d old) s u ∧
         exec (.registerWrite n (if w1c then 0 else old &&& ~~~ s.tile.core.s a)) u = .next t))) ∧
  (∀ i (n : BitVec 12) (w : Bool) s, srAccess i = some (n, w) → HandlerReady s.tile.core → ¬ SrOpen s.tile.core n w →
     ∃ t, exec i s = .next t ∧
       (if 0xF00 ≤ n.toNat then TrapsWith causePriv (n.setWidth 64) (encode i) s t
         else if 0x600 ≤ n.toNat then TrapsWith causeIllegal 0 (encode i) s t
         else if (0x100 ≤ n.toNat ∧ n.toNat < 0x200) ∨ (0x300 ≤ n.toNat ∧ n.toNat < 0x400) ∨
             (w = true ∧ (n.toNat < 0x010 ∨ 0x200 ≤ n.toNat ∨ n = 0x047)) then
           TrapsWith causePriv (n.setWidth 64) (encode i) s t
         else TrapsWith causeIllegal 0 (encode i) s t))

/-- R78 to R85, R356: a write of a register whose fields are RW or RO is read back in its RW fields; every other special register
reads as before, but for THDR after a write of TSEL; the register files, the pc and everything outside the core are as they
were, but for the masks, predicates, loop counters and the token whose registers these are. -/
def Obligations.RegisterWriteReadsBack : Prop :=
  ∀ (n : BitVec 12) (v m o : BitVec 64) (s : State), srPlain n.toNat = some (m, o) →
    ∃ t, exec (.registerWrite n v) s = .next t ∧ OnlyCore s t ∧
      t.readSR n.toNat = (v &&& m) ||| o ∧
      (∀ k, srNamed k = true → k ≠ n.toNat → ¬ (n = 0x003 ∧ k = 0x004) → t.readSR k = s.readSR k) ∧
      t.tile.core.sregs = s.tile.core.sregs ∧ t.tile.core.pc = s.tile.core.pc ∧
      (n ≠ 0x044 → t.tile.core.preds = s.tile.core.preds) ∧ (n ≠ 0x004 → t.tile.core.toks = s.tile.core.toks) ∧
      t.tile.core.creel = s.tile.core.creel ∧ t.tile.core.cmds = s.tile.core.cmds ∧ t.tile.core.run = s.tile.core.run

/-- R54 to R56, R79, R81 to R84, R237, R356: what each write step of a special register does: it changes the fields of its
register, as their access codes say, and nothing else. -/
def Obligations.RegisterWriteSteps : Prop :=
  ∀ (v : BitVec 64) (s : State), let c := s.tile.core
    (exec (.statusWrite v) s =
      .next (s.setCore { c with pmode := v.getLsbD 1, le := v.getLsbD 2, ple := v.getLsbD 3 })) ∧
    (exec (.tcrWrite v) s = .next (s.setCore { c with
      rm := if v.extractLsb' 0 3 ≤ 5#3 then v.extractLsb' 0 3 else c.rm
      remap := v.extractLsb' 8 8, seed := v.extractLsb' 16 16
      rnd := if v.getLsbD 32 then Gens.seeded (v.extractLsb' 16 16) else c.rnd })) ∧
    (exec (.tcrReseed v) s = .next (s.setCore { c with
      rm := if v.extractLsb' 0 3 ≤ 5#3 then v.extractLsb' 0 3 else c.rm
      remap := v.extractLsb' 8 8, seed := v.extractLsb' 16 16, rnd := Gens.seeded (v.extractLsb' 16 16) })) ∧
    (exec (.fstatClear v) s = .next (s.setCore { c with fstat := c.fstat &&& ~~~ v.extractLsb' 0 6 })) ∧
    (∀ l : BitVec 4, exec (.rndWrite l v) s = .next (s.setCore
      (if v.extractLsb' 0 32 = 0 then c else { c with rnd := c.rnd.set l.toNat (v.extractLsb' 0 32) l.isLt }))) ∧
    (exec (.lcsWrite v) s = .next (s.setCore { c with
      lcsStart := #v[v.extractLsb' 0 10, v.extractLsb' 20 10, v.extractLsb' 40 10]
      lcsEnd := #v[v.extractLsb' 10 10, v.extractLsb' 30 10, v.extractLsb' 50 10]
      lcsAct := v.extractLsb' 60 3 })) ∧
    (∀ (l : BitVec 2) (h : l.toNat < 3),
      exec (.lcWrite l v) s = .next (s.setCore { c with lc := c.lc.set l.toNat (v.extractLsb' 0 32) h })) ∧
    (exec (.thdrWrite v) s = .next (s.setCore (c.setT c.tsel { c.t c.tsel with
      tag := v.extractLsb' 0 4, exp := v.extractLsb' 4 8, bub := v.getLsbD 12, valid := v.extractLsb' 16 16
      pred := v.extractLsb' 32 16 }))) ∧
    (exec (.mailstClear v) s = .next (s.setCore { c with
      mailFull := c.mailFull &&& ~~~ v.extractLsb' 0 4, mailOvr := c.mailOvr &&& ~~~ v.extractLsb' 4 4 })) ∧
    (exec (.nxcurWrite v) s = .next (s.setCore { c with
      nxcur := BitVec.ofNat 10 (min (v.extractLsb' 0 10).toNat s.tile.parcels.length)
      exh := decide (s.tile.parcels.length ≤ (v.extractLsb' 0 10).toNat) })) ∧
    (exec (.energyWrite v) s =
      .next (s.setCore { c with energy := v.extractLsb' 0 48, energySat := v.getLsbD 48 })) ∧
    (∀ w, exec (.registerWrite 0x000 w) s = exec (.statusWrite w) s ∧ exec (.registerWrite 0x010 w) s = exec (.tcrWrite w) s ∧
      exec (.registerWrite 0x011 w) s = exec (.fstatClear w) s ∧ exec (.registerWrite 0x045 w) s = exec (.mailstClear w) s ∧
      exec (.registerWrite 0x047 w) s = exec (.nxcurWrite w) s)

/-! ### Traps -/

/-- R33, R107, R110, R294: a trap with a handler saves its cause, detail, resume address and word, and goes to the handler in
supervisor mode: an illegal word at once, TRAP after it has retired, with the address after it. A trap without a handler, or in
supervisor mode, stops the context with a fault record that carries the trap registers. ERET in supervisor mode restores the mode
and LE and resumes at EPC, with no loop end; in user mode it traps PRIV. -/
def Obligations.Traps : Prop :=
  (∀ (s : State), HandlerReady s.tile.core →
     (∀ w, ∃ t, exec (.illegalRimWord w) s = .next t ∧ TrapsWith causeIllegal 0 w s t) ∧
     (∀ n, CanRetire s → ∃ u, CoreEffect 7 id s u ∧ exec (.trap n) s = .next (u.setCore
       (trapped u.tile.core causeSwTrap (n.setWidth 64) (BitVec.ofNat 10 (nextOf s).1) false (encode (.trap n)))))) ∧
  (∀ (w : Word) (s : State), ¬ HandlerReady s.tile.core →
     ∃ t, exec (.illegalRimWord w) s = .next t ∧
       t = { s with tile := { s.tile with core := t.tile.core, inbox := [] } } ∧
       t.tile.core = { s.tile.core with
         epc := s.tile.core.pc, ecause := causeIllegal, easync := false, eaddr := 0, estat := w
         stall := .none, resident := false, answers := [], held := none, run := .stopped, fault := t.tile.core.fault } ∧
       ∃ f, t.tile.core.fault = some f ∧ f.cause = causeIllegal ∧ f.eaddr = 0 ∧ f.estat = w ∧ f.epc = s.tile.core.pc ∧
         f.ctx = s.tile.core.ctx ∧ f.trow = s.tile.core.trow ∧ f.tcol = s.tile.core.tcol ∧ f.async = false ∧
         f.super = s.tile.core.mode ∧ f.time = s.time) ∧
  (∀ (s : State), let c := s.tile.core
     (c.mode = true → exec .eret s =
       .next (s.setCore { c with mode := c.pmode, le := c.ple, pc := c.epc, stall := .none, resident := false })) ∧
     (HandlerReady c → ∃ t, exec .eret s = .next t ∧ TrapsWith causePriv 0 (encode .eret) s t))

/-- R107, R170, R172, R358, R374: PREEMPT and MGMTREQ enter the handler where the core can take an event, with the address that would
have issued next; otherwise they stay pending, end the residency, and change nothing else. PREEMPT goes first, and is raised only
while TVEC is valid. No event interrupts a NEXTP that a drain holds, a load on its way, a load that traps, or a held core. -/
def Obligations.AsynchronousEvents : Prop :=
  ∀ (k : Nat) (s : State), let u := s.focusTile k; let c := u.tile.core
    (c.tvecValid = true → u.takesEvent = true →
      exec (.preempt k) s =
        .next (u.setCore { trapped c causePreempt 0 c.pc true 0 with pendPreempt := false }) ∧
      (c.pendPreempt = false → exec (.mgmtreq k) s =
        .next (u.setCore { trapped c causeMgmtReq 0 c.pc true 0 with pendMgmt := false }))) ∧
    (c.tvecValid = false → c.pendPreempt = false → exec (.preempt k) s = .next u) ∧
    (c.tvecValid = true → u.takesEvent = false →
      exec (.preempt k) s = .next (u.setCore { c with pendPreempt := true, resident := false })) ∧
    (u.takesEvent = false ∨ c.pendPreempt = true →
      exec (.mgmtreq k) s = .next (u.setCore { c with pendMgmt := true, resident := false })) ∧
    (u.takesEvent = true →
      c.mode = false ∧ c.run = .running ∧ c.stall ≠ .nextp ∧ (∀ va, c.stall ≠ .aborted va) ∧ (∀ n, c.stall ≠ .away n) ∧
      ∀ g, u.graphOfTile u.tileIdx = some g → g.hist.getLsbD 7 = false)

/-! ### Messages and parcels -/

/-- R113, R114: MSG to a tile of the bound rectangle with reserved bits zero enters the outgoing buffer, waits while it is full,
and traps BADTGT with sd for another destination. The oldest message of a sender to a core that runs leaves the sender's buffer and
lands in its mail register, sets FULL, and sets OVR where FULL was set; only a result of that register which is on its way still can
come after it (R169). -/
def Obligations.Messages : Prop :=
  (∀ (d a : BitVec 5) (m : BitVec 2) (s : State) (g : Graph), CanRetire s → s.graphOfTile s.tileIdx = some g →
     let v := s.tile.core.s d
     let rel := v.getLsbD 16
     let row := (v.extractLsb' 8 6).toNat + (if rel then g.trow0 else 0)
     let col := (v.extractLsb' 0 6).toNat + (if rel then g.tcol0 else 0)
     let good := v.extractLsb' 6 2 = 0 ∧ v.extractLsb' 14 2 = 0 ∧ v.extractLsb' 17 47 = 0 ∧
       (g.trow0 ≤ row ∧ row < g.trow0 + g.trows) ∧ (g.tcol0 ≤ col ∧ col < g.tcol0 + g.tcols)
     (good → s.tile.core.outbox.length < 4 → ∃ u,
       CoreEffect 7 (fun c => { c with outbox := c.outbox ++ [⟨s.tileIdx, row * 44 + col, m, c.s a⟩] }) s u ∧
       exec (.msg d a m) s = .next { u with agenda := s.agenda ++ [.msgArrive s.tileIdx (row * 44 + col)] }) ∧
     (good → 4 ≤ s.tile.core.outbox.length → ∃ t, exec (.msg d a m) s = .next t ∧ Stalls .again (.msg d a m) s t) ∧
     (¬ good → HandlerReady s.tile.core → ∃ t, exec (.msg d a m) s = .next t ∧
       TrapsWith causeBadTgt v (encode (.msg d a m)) s t)) ∧
  (∀ (src dst : Nat) (s : State) (m : Msg) (pre post : List Msg),
     (s.getTile src).core.outbox = pre ++ m :: post → (∀ x ∈ pre, x.dst ≠ dst) → m.dst = dst →
     (s.graphOfTile dst).isSome = true → (∀ g, s.graphOfTile dst = some g → g.stopped = false) →
     (s.getTile dst).core.run ≠ .halted → (s.getTile dst).core.run ≠ .stopped →
     let lands := fun (c : Core) => { c with
       mailFull := c.mailFull ||| BitVec.ofNat 4 (2 ^ m.mail.toNat)
       mailOvr := if c.mailFull.getLsbD m.mail.toNat then c.mailOvr ||| BitVec.ofNat 4 (2 ^ m.mail.toNat) else c.mailOvr }
     let after := fun (f : Core → Core) =>
       { (s.onCore src fun c => { c with outbox := pre ++ post }).onCore dst f with free := s.free + 1 }
     exec (.msgArrive src dst) s = .next (after fun c => lands (c.setS (28 + m.mail.setWidth 5) m.value)) ∨
       ((∃ x ∈ (s.getTile dst).core.late, x.1 = 28 + m.mail.setWidth 5) ∧ exec (.msgArrive src dst) s = .next (after lands)))

/-- R112, R115, R236, R237: NEXTP reads the entry under the cursor, whose number is kept for the next mapping, and advances it, or
reads all ones with the cursor left where it is; EXH follows the cursor; it waits
while the graph is to be drained. WSYNC retires: a WARDW takes effect as it retires (assumption 2). -/
def Obligations.ParcelsAndWardSync : Prop :=
  ∀ (d : BitVec 5) (s : State), CanRetire s →
    (∃ t, exec .wsync s = .next t ∧ CoreEffect 7 id s t) ∧
    ((∀ g, s.graphOfTile s.tileIdx = some g → g.drain = false) →
      (∀ h : s.tile.core.nxcur.toNat < s.tile.parcels.length, ∃ t, exec (.nextp d) s = .next t ∧
        CoreEffect 7 (fun c => { c.setS d s.tile.parcels[s.tile.core.nxcur.toNat] with
          nxcur := c.nxcur + 1, exh := decide (s.tile.parcels.length ≤ (c.nxcur + 1).toNat)
          parcel := some (s.tile.parcels[s.tile.core.nxcur.toNat].extractLsb' 48 12).toNat }) s t) ∧
      (s.tile.parcels.length ≤ s.tile.core.nxcur.toNat → ∃ t, exec (.nextp d) s = .next t ∧
        CoreEffect 7 (fun c => { c.setS d (BitVec.allOnes 64) with exh := true }) s t)) ∧
    (∀ g, s.graphOfTile s.tileIdx = some g → g.drain = true → ∃ t, exec (.nextp d) s = .next t ∧ Stalls .nextp (.nextp d) s t)

/-! ### Memory -/

/-- R99, R226, R309, R311, R314, R318: an access to an ordinary page under the entry that its home holds: a clear V leaves it
unmapped; PSN poisons it; a missing permission refuses it with PERM, and another module's access to a page with RMT clear with
SCOPE; else it goes to the frame that FRAME, or for the key's parity SHADOW, names, and the walker sets A, and D for a write. Byte
off of a slice's scratch window is byte C MiB + off of the slice, and an access past its share is refused with ROLE. The value of a
load that reaches a location is that of the bytes there, the lowest address first, unless its line is poisoned. -/
def Obligations.HubAccess : Prop :=
  (∀ (s : State) (ia : Nat) (a : Access) (e : BitVec 128) (f : BitVec 24),
     (ia < 0x80000000000 ∨ 0x8FFFFFFFFFF < ia) → (ia < 0xF0000000000 ∨ 0xF00FFFFFFFF < ia) →
     rangeOf (getHub s (homeHub (ia / 65536))) ia = none →
     cachedPte s (ia / 65536) = e → getPte s (ia / 65536) = e → a.key = none →
     f = (if e.getLsbD 11 = true ∧ keyParity s (e.extractLsb' 12 8) = true then e.extractLsb' 64 24 else e.extractLsb' 36 24) →
     if e.getLsbD 0 = false then hubAccess s ia a = .unmapped (ia / 65536)
     else if e.getLsbD 10 = true then hubAccess s ia a = .poisoned
     else if (a.load = true ∧ e.getLsbD 1 = false) ∨ (a.store = true ∧ e.getLsbD 2 = false) then hubAccess s ia a = .refused 1
     else if a.remote = true ∧ e.getLsbD 3 = false then hubAccess s ia a = .refused 5
     else frameExists s f = true → restriping s f = false →
       ∃ u, hubAccess s ia a = .at (f.toNat * 65536 + ia % 65536) (e.extractLsb' 5 2) u ∧
         getPte u (ia / 65536) = (e ||| 0x80 ||| (if a.store then 0x100 else 0)) ∧
         (∀ p, p ≠ ia / 65536 → getPte u p = getPte s p) ∧ u = { s with ptes := u.ptes, hubs := u.hubs }) ∧
  (∀ (s : State) (slice off c : Nat) (a : Access), off < 2 ^ 23 → slice < 1024 → a.key = none →
     c = cacheMiB s slice → c ≤ 8 → s.splits = [] → (getHub s (slice / 64)).cacheDie ≠ 2 →
     hubAccess s (0x80000000000 + 0x800000 * slice + off) a =
       if slice < 768 ∧ off < (8 - c) * 2 ^ 20 then .at (scratchLoc slice (c * 2 ^ 20 + off)) 1 s else .refused 4) ∧
  (∀ (s u : State) (ia n loc : Nat) (a : Access) (attr : BitVec 2), hubAccess s ia a = .at loc attr u →
     (linePoisoned s loc = false → ∃ v, hubLoad s ia n a = .value v attr u ∧
       ∀ k, k < n → BitVec.ofNat 8 (v >>> (8 * k)) = readByte s.mem (loc + k)) ∧
     (linePoisoned s loc = true → hubLoad s ia n a = .poisoned u) ∧ u.mem = s.mem)

/-- R99 to R101, R318: a load whose guard holds and whose access passes its checks retires with the bytes at its VA, extended, in
its destination; no byte of memory and no other register changes. -/
def Obligations.LoadResults : Prop :=
  ∀ i g va n f s v u, loadSpec i = some (g, va, n, f) → CanRetire s → s.tile.core.guard g = true →
    ReadOne n (va s.tile.core) s v u → ∃ t, exec i s = .next t ∧ AfterAccess 4 (f v) s u t ∧ MemKept s t ∧ OnlyEntries s u

/-- R99, R108, R170, R283, R347: a load whose page is not mapped waits with a notice open for it; one that is refused, or whose line
is poisoned, traps REFUSED or POISON with its VA, or the VA of the decoded line that a refused fill reads. A load or atomic that has
waited is met again with the word and the scalar registers of its issue (R157, R169): it does what its word does, and of the scalar
registers it changes at most its destination; a load whose access now passes retires with its value. -/
def Obligations.LoadWaits : Prop :=
  (∀ i g va n f s w, loadSpec i = some (g, va, n, f) → CanRetire s → s.tile.core.guard g = true →
     Reaches s.tile.core (va s.tile.core) n true false w →
     LoadClear s.tile.core (iaOf w (va s.tile.core)) (loadLines s (iaOf w (va s.tile.core))) →
     (∀ l ∈ loadLines s (iaOf w (va s.tile.core)), l ∉ s.island.dirtyLines) →
     let r := hubLoad s (iaOf w (va s.tile.core)) n (Access.loads s.tile.core.mode)
     (∀ p, r = .unmapped p → ∃ t, exec i s = .next t ∧
       t = { s.setCore t.tile.core with notices := t.notices, noticeId := t.noticeId } ∧
       t.tile.core = { s.tile.core with
         stall := .load (va s.tile.core) p, resident := t.tile.core.resident, held := some ⟨encode i, s.tile.core.sregs⟩ } ∧
       ∃ x ∈ t.notices, x.page = p ∧ x.who = .rim s.tileIdx ∧ x.ctx = s.tile.core.ctx) ∧
     (HandlerReady s.tile.core → ∀ c, r = .refused c → ∃ t, exec i s = .next t ∧
       TrapsWith causeRefused (if (fillRange s (iaOf w (va s.tile.core))).isSome then va s.tile.core &&& ~~~ 63
         else va s.tile.core) (encode i) s t) ∧
     (HandlerReady s.tile.core → ∀ u, r = .poisoned u → ∃ t, exec i s = .next t ∧
       TrapsWith causePoison (va s.tile.core) (encode i) u t ∧ u = { s with ptes := u.ptes, hubs := u.hubs })) ∧
  (∀ (k : Nat) (s u r : State) (h : Held) (i : Instr), u = s.focusTile k →
     (∃ va p, u.tile.core.stall = .load va p) ∨ (∃ va, u.tile.core.stall = .held va) ∨
       (∃ n, u.tile.core.stall = .away n ∧ ∀ x ∈ u.island.remotes, x.id ≠ n) →
     u.tile.core.held = some h → r = u.setCore { u.tile.core with stall := .none, sregs := h.sregs } →
     decodeRim h.word = .ok i →
     (∀ t, exec i r = .next t → ∃ c, exec (.loadReturn k) s = .next (t.setCore c) ∧ c = { t.tile.core with sregs := c.sregs } ∧
       ∀ d, (some d ≠ slowDest h.word → c.s d = u.tile.core.s d) ∧ (c.s d = u.tile.core.s d ∨ c.s d = t.tile.core.s d)) ∧
     ∀ g va n f v x, loadSpec i = some (g, va, n, f) → CanRetire r → r.tile.core.guard g = true →
       r.tile.core.run = .running → ReadOne n (va r.tile.core) r v x → ∃ t, exec (.loadReturn k) s = .next t ∧
         AfterAccess 4 (fun c => f v { c with sregs := u.tile.core.sregs }) r x t ∧ MemKept r t)

/-- R99 to R101, R285, R318, R319: a store whose guard holds, whose access passes its checks, that no earlier write holds back and for
which the creel has room, retires: it is performed at the location of its VA, where the bytes are those of its source and every
other byte is as it was, or, unless its page is ordered as SO, it is on its way there. No register changes. -/
def Obligations.StoreResults : Prop :=
  ∀ i g va n v s w loc, storeSpec i = some (g, va, n, v) → CanRetire s → s.tile.core.guard g = true →
    let c := s.tile.core
    let ia := iaOf w (va c)
    Reaches c (va c) n false true w → StoreClear c ia → CreelHas c 1 → LandsAt s n ia loc →
    ∃ u t, exec i s = .next t ∧ AfterAccess 5 id s u t ∧
      (Stored n (v c) loc s u ∨
        (attrOf c.attrs (ia / 65536) ≠ 0 ∧ ∃ e, StoreEntry c w (va c) n (v c) false e ∧ OnItsWay e s u))

/-- R99, R283, R285, R288, R320: a store that a pending entry of its page or of an SO page precedes becomes a creel entry and retires;
so does one whose page is not mapped, with a notice open for it, unless it is still on its way: no byte of memory changes. ORD is set
only where both pages are SO. A full creel makes it wait, and so does an SO write on its way where it is ordered as SO. -/
def Obligations.StoreEntersCreel : Prop :=
  ∀ i g va n v s w, storeSpec i = some (g, va, n, v) → CanRetire s → s.tile.core.guard g = true →
    Reaches s.tile.core (va s.tile.core) n false true w →
    let c := s.tile.core
    let ia := iaOf w (va c)
    let behind := attrOf c.attrs (ia / 65536) = 0 ∧ ∃ e ∈ c.creel, e.state = .pending ∧ e.attr = 0
    let same := ∃ e ∈ c.creel, e.state = .pending ∧ e.pageKey = ia / 65536
    let enters := fun (ord : Bool) (t : State) => ∃ e u, AfterAccess 5 id s u t ∧ OnlyCreel s u ∧
      u.tile.core.creel = c.creel ++ [e] ∧ StoreEntry c w (va c) n (v c) ord e
    (CreelHas c 1 → OrderClear c ia →
      (behind → ∃ t, exec i s = .next t ∧ enters true t) ∧
      (¬ behind → same → ∃ t, exec i s = .next t ∧ enters false t) ∧
      (¬ behind → ¬ same → hubAccess s (ia / 64 * 64) Access.stores = .unmapped (ia / 65536) → ∃ t, exec i s = .next t ∧
        ((enters false t ∧ ∃ x ∈ t.notices, x.page = ia / 65536 ∧ x.who = .rim s.tileIdx ∧ x.ctx = c.ctx) ∨
          (attrOf c.attrs (ia / 65536) ≠ 0 ∧ ∃ e u, StoreEntry c w (va c) n (v c) false e ∧ OnItsWay e s u ∧
            AfterAccess 5 id s u t)))) ∧
    (¬ CreelHas c 1 ∨ ¬ OrderClear c ia → ∃ t, exec i s = .next t ∧ Stalls .again i s t)

/-- R98, R108, R109: an access that is not aligned to its size traps ALIGN; else one whose VA no ward holds traps WARDMISS; else one
that its ward does not grant traps WARDPERM, each with the VA in EADDR and no effect. -/
def Obligations.AccessTraps : Prop :=
  ∀ i g va n rd wr s, accessSpec i = some (g, va, n, rd, wr) → CanRetire s → s.tile.core.guard g = true →
    HandlerReady s.tile.core →
    (n ≠ 0 → (va s.tile.core).toNat % n ≠ 0 → ∃ t, exec i s = .next t ∧
      TrapsWith causeAlign (va s.tile.core) (encode i) s t) ∧
    ((va s.tile.core).toNat % n = 0 → (∀ x ∈ s.tile.core.wards.toList, ¬ WardHolds x (va s.tile.core)) →
      ∃ t, exec i s = .next t ∧ TrapsWith causeWardMiss (va s.tile.core) (encode i) s t) ∧
    (∀ w, (va s.tile.core).toNat % n = 0 → WardOf s.tile.core (va s.tile.core) w →
      (rd = true ∧ w.pr = false) ∨ (wr = true ∧ w.pw = false) →
      ∃ t, exec i s = .next t ∧ TrapsWith causeWardPerm (va s.tile.core) (encode i) s t)

/-- R102: a lane-form load whose active lanes can all be read writes them, makes them valid, and clears or keeps the others; tag
FP32, exponent 0, no bubble. No byte of memory changes. -/
def Obligations.LaneLoads : Prop :=
  ∀ i d m k addr s vs u, laneSpec i = some (true, d, m, k, addr) → CanRetire s →
    ReadAll 4 ((activeOf (s.tile.core.m m)).map (addr s.tile.core)) s vs u →
    ∃ x t, exec i s = .next t ∧ AfterAccess 4 (fun c => c.setT d x) s u t ∧ MemKept s t ∧ OnlyEntries s u ∧
      x.tag = 0 ∧ x.exp = 0 ∧ LanesLoaded (s.tile.core.t d) x k ((activeOf (s.tile.core.m m)).zip vs)

/-- R99, R102, R285: STTS and STTG: a lane-form store each of whose active lanes lies in a ward of this module that grants writing,
with no SO write on its way where it is ordered as SO, and for which the creel has room, retires: its lanes' words have gone their
way one after another, the lowest lane first; no register changes. -/
def Obligations.LaneStores : Prop :=
  ∀ i d m k addr s xs, laneSpec i = some (false, d, m, k, addr) → CanRetire s →
    xs = ((activeOf (s.tile.core.m m)).map fun l =>
      (addr s.tile.core l, ((s.tile.core.t d).data.extractLsb' (32 * l) 32).toNat)) →
    CreelHas s.tile.core xs.length →
    (∀ x ∈ xs, ∃ w, Reaches s.tile.core x.1 4 false true w ∧ OrderClear s.tile.core (iaOf w x.1)) →
    ∃ u t, exec i s = .next t ∧ SendsAll 4 xs s u ∧ AfterAccess 5 id s u t

/-- R103, R104, R106: an atomic that passes its checks, and behind which its release has nothing to wait for, leaves the new element
at its location, every other byte as it was, and the old element, sign-extended from a word, in sd. -/
def Obligations.AtomicResults : Prop :=
  ∀ i (x : Amo) s w loc attr h, amoSpec i = some x → CanRetire s → s.tile.core.guard x.guard = true →
    Reaches s.tile.core (s.tile.core.s x.a) x.size true true w →
    LoadClear s.tile.core (iaOf w (s.tile.core.s x.a)) [iaOf w (s.tile.core.s x.a) / 64] →
    (x.order.getLsbD 1 = true → MayRelease s.tile.core (fun e => InScope e.scope w.scope) w.scope) →
    iaOf w (s.tile.core.s x.a) / 64 ∉ s.island.dirtyLines →
    hubAccess s (iaOf w (s.tile.core.s x.a)) (Access.atomic s.tile.core.mode) = .at loc attr h → linePoisoned s loc = false →
    let old := readBytes s.mem loc x.size
    ∃ u t, exec i s = .next t ∧
      AfterAccess 5 (fun c => c.setS x.d (if x.size = 4 then (BitVec.ofNat 32 old).signExtend 64 else BitVec.ofNat 64 old))
        s u t ∧
      readBytes u.mem loc x.size = (match x.new s.tile.core old with | some v => v % 2 ^ (8 * x.size) | none => old) ∧
      MemKeptBut loc x.size s u ∧ OnlyAtomic s u

/-- R105, R326: a reduction that passes its checks, that no earlier write holds back and for which the creel has room, retires. It is
performed: each valid lane of its token is combined into its word of the line, and the words of the other lanes and every other byte
are as they were; or, unless its page is ordered as SO, it is on its way to its home, with its operation, data and bytes. Where the
companion holds its line modified, it is on its way behind the recall. No register changes. -/
def Obligations.ReductionResults : Prop :=
  ∀ i (x : Redt) s w loc attr h, redtSpec i = some x → CanRetire s → s.tile.core.guard x.guard = true →
    let c := s.tile.core
    let ia := iaOf w (c.s x.a)
    let tok := c.t x.b
    Reaches c (c.s x.a) 64 false true w → StoreClear c ia → CreelHas c 1 →
    (x.order.getLsbD 1 = true → MayRelease c (fun _ => True) w.scope) →
    hubAccess s ia Access.stores = .at loc attr h → linePoisoned s loc = false →
    let away := fun (u : State) => ∃ e, OnItsWay e s u ∧ e.ia.toNat = ia ∧ e.op = x.op ∧ e.scope = w.scope ∧ e.ord = false ∧
      e.state = .pending ∧ e.ctx = c.ctx ∧ e.dest = none ∧ e.attr = attrOf c.attrs (ia / 65536) ∧ e.data = tok.data ∧
      ∀ k, k < 64 → e.mask.getLsbD k = (!tok.bub && tok.valid.getLsbD (k / 4) && decide (k % 4 < x.bytes))
    let performed := fun (u : State) => MemKeptBut loc 64 s u ∧ OnlyStore s u ∧
      ∀ l, l < 16 → readBytes u.mem (loc + 4 * l) 4 =
        if tok.bub = false ∧ tok.valid.getLsbD l = true then
          x.new (readBytes s.mem (loc + 4 * l) 4) (tok.data.extractLsb' (32 * l) 32).toNat
        else readBytes s.mem (loc + 4 * l) 4
    ∃ u t, exec i s = .next t ∧ AfterAccess 5 id s u t ∧
      (ia / 64 ∈ s.island.dirtyLines → away u) ∧
      (ia / 64 ∉ s.island.dirtyLines → performed u ∨ (attrOf c.attrs (ia / 65536) ≠ 0 ∧ away u))

/-- R151, R152, R334: VPLD whose bytes can be read: a bad header clears or keeps every lane, and raises NV; a good one writes each
active element below the weight count with its value, and the exponent of its block. VA must be a multiple of 16. -/
def Obligations.PlaitLoads : Prop :=
  ∀ (d a b : BitVec 5) (m : BitVec 3) (k : BitVec 1) (s u : State) (hs : List Nat), CanRetire s →
    let va := s.tile.core.s a
    let old := s.tile.core.t d
    va.toNat % 16 = 0 → ReadAll 1 ((List.range 16).map fun j => va + BitVec.ofNat 64 j) s hs u →
    let head := BitVec.ofNat 128 (natOfBytes (hs.map (BitVec.ofNat 8)))
    (plaitHeader head = none → ∃ x t, exec (.vpld d a b m k) s = .next t ∧
      AfterAccess 4 (fun c => { c.setT d x with fstat := c.fstat ||| flagNV }) s u t ∧ MemKept s t ∧
      x.tag = 14 ∧ x.exp = 0 ∧ LanesLoaded old x k []) ∧
    (∀ h i0 els expAt stream needed vs v, plaitHeader head = some h → i0 = (s.tile.core.s b).toNat / 16 * 16 →
      els = (activeOf (s.tile.core.m m)).filter (fun l => decide (i0 + l < h.n)) → expAt = h.expOffset + i0 / 48 →
      stream = plaitBytes h 16 (els.map fun l => h.pos (i0 + l)) →
      needed = (if i0 < h.n then insertRising expAt stream else stream) →
      ReadAll 1 (needed.map fun o => va + BitVec.ofNat 64 o) u vs v →
      let byte := fun o => (assocGet (needed.zip vs) o).getD 0
      ∃ x t, exec (.vpld d a b m k) s = .next t ∧ AfterAccess 4 (fun c => c.setT d x) s v t ∧ MemKept s t ∧
        x.tag = 14 ∧ x.exp = (if i0 < h.n then BitVec.ofNat 8 (byte expAt) else 0) ∧
        LanesLoaded old x k (els.map fun l => (l,
          (BitVec.ofInt 32 (plaitValue (plaitBits h 16 (h.pos (i0 + l)) byte) h.mul h.add)).toNat)))

/-! ### Token instructions -/

/-- R55, R56, R118 to R128, R138 to R147, R149: every token instruction that writes one token retires with the token, generators
and flags of its operation, the flags added to FSTAT, and changes nothing else. -/
def Obligations.TokenResults : Prop :=
  ∀ i k d op s, tokSpec i = some (k, d, op) → CanRetire s →
    ∃ t, exec i s = .next t ∧ CoreEffect k (fun c =>
      { c.setT d (op c).tok with rnd := (op c).gens, fstat := c.fstat ||| (op c).flags }) s t

/-- R118 to R120, R123: VADD, VSUB, VMUL and the fused forms round the exact outcome of each active lane once, under TCR.RM, with
the lane's own generator, to the operation format; activity, inactive lanes, bubbles and the header follow R119 and R120. A
generator steps only under RSR, where its lane rounds. -/
def Obligations.TokenArithmetic : Prop :=
  ∀ i x s, arithSpec i = some x → CanRetire s →
    let c := s.tile.core
    let a := c.t x.a
    let tag := BitVec.ofNat 4 (opFormat a.tag.toNat)
    let active := laneOn c x.m x.srcs
    ((∃ r ∈ x.srcs, (c.t r).bub = true) → ∃ t, exec i s = .next t ∧
      CoreEffect 2 (fun c => c.setT x.d (bubbled (c.t x.d) x.k tag)) s t) ∧
    ((∀ r ∈ x.srcs, (c.t r).bub = false) → ∃ w gens fl t, exec i s = .next t ∧
      CoreEffect 2 (fun c => { c.setT x.d w with rnd := gens, fstat := c.fstat ||| fl }) s t ∧
      w.tag = tag ∧ w.exp = a.exp ∧ LaneResult (c.t x.d) a w x.k active (arithLane c x) ∧
      ∀ l, l < 16 → gens.at l =
        if active l = true ∧ Rounding.ofCode c.rm.toNat = .rsr then stepGen (c.rnd.at l) else c.rnd.at l)

/-- R117, R119, R120, R147: the integer group computes modulo 2 to the width that a's tag gives, on the active lanes, and raises no
flag; activity, inactive lanes, bubbles and the header follow R119 and R120. -/
def Obligations.TokenIntegers : Prop :=
  ∀ i x s, intSpec i = some x → CanRetire s →
    let c := s.tile.core
    let a := c.t x.a
    let tag := if a.tag = 6 ∨ a.tag = 7 ∨ a.tag = 8 ∨ a.tag = 9 then a.tag else 9
    let w := intBits a.tag
    let src := fun (n : Nat) (l : Nat) =>
      ((c.t ((x.a :: x.rest).getD n 0)).data.extractLsb' (32 * l) 32).toNat % 2 ^ w
    ((∃ r ∈ x.a :: x.rest, (c.t r).bub = true) → ∃ t, exec i s = .next t ∧
      CoreEffect 2 (fun c => c.setT x.d (bubbled (c.t x.d) x.k tag)) s t) ∧
    ((∀ r ∈ x.a :: x.rest, (c.t r).bub = false) → ∃ y t, exec i s = .next t ∧
      CoreEffect 2 (fun c => c.setT x.d y) s t ∧ y.tag = tag ∧ y.exp = a.exp ∧
      LaneResult (c.t x.d) a y x.k (laneOn c x.m (x.a :: x.rest)) fun l =>
        intLane tag (x.f w (a.tag == 7) (src 0 l) (src 1 l) (src 2 l)))

/-- R142 to R146: VPERM, VSHUF and VBCST move lanes of a with their valid and predicate bits, under a's header; VINS changes the
part of a token that its index names and VEXT reads it; VMSK ands b's predicate bits into a's valid bits. -/
def Obligations.TokenMoves : Prop :=
  (∀ i x s, moveSpec i = some x → CanRetire s →
    let c := s.tile.core
    let a := c.t x.a
    let old := c.t x.d
    (a.bub = true ∨ (c.t x.b).bub = true → ∃ t, exec i s = .next t ∧
      CoreEffect 2 (fun c => c.setT x.d (bubbled old x.k a.tag)) s t) ∧
    (a.bub = false → (c.t x.b).bub = false → ∃ y t, exec i s = .next t ∧ CoreEffect 2 (fun c => c.setT x.d y) s t ∧
      y.tag = a.tag ∧ y.exp = a.exp ∧ y.bub = false ∧
      ∀ l, l < 16 →
        let j := x.from_ c l
        if x.active c l = true then
          y.data.extractLsb' (32 * l) 32 = a.data.extractLsb' (32 * j) 32 ∧ y.valid.getLsbD l = a.valid.getLsbD j ∧
            y.pred.getLsbD l = a.pred.getLsbD j
        else if x.k = 0 then
          y.data.extractLsb' (32 * l) 32 = 0#32 ∧ y.valid.getLsbD l = false ∧ y.pred.getLsbD l = false
        else
          y.data.extractLsb' (32 * l) 32 = old.data.extractLsb' (32 * l) 32 ∧ y.valid.getLsbD l = old.valid.getLsbD l ∧
            y.pred.getLsbD l = old.pred.getLsbD l)) ∧
  (∀ d a b s, CanRetire s →
    let c := s.tile.core
    let n := ((c.s b).extractLsb' 0 5).toNat
    let old := c.t d
    let v := c.s a
    ∃ y t, exec (.vins d a b) s = .next t ∧ CoreEffect 2 (fun c => c.setT d y) s t ∧
      (∀ l, l < 16 → y.data.extractLsb' (32 * l) 32 = if l = n then v.extractLsb' 0 32 else old.data.extractLsb' (32 * l) 32) ∧
      (∀ l, l < 16 → y.valid.getLsbD l = if n = 17 then v.getLsbD l else if l = n then true else old.valid.getLsbD l) ∧
      (∀ l, l < 16 → y.pred.getLsbD l = if n = 16 then v.getLsbD l else if l = n then false else old.pred.getLsbD l) ∧
      y.tag = (if n = 18 then v.extractLsb' 0 4 else old.tag) ∧ y.exp = (if n = 18 then v.extractLsb' 4 8 else old.exp) ∧
      y.bub = if n = 18 then v.getLsbD 12 else old.bub) ∧
  (∀ d a b s, CanRetire s →
    let n := ((s.tile.core.s b).extractLsb' 0 5).toNat
    ∃ t, exec (.vext d a b) s = .next t ∧ CoreEffect 2 (fun c => c.setS d (
      if n < 16 then ((c.t a).data.extractLsb' (32 * n) 32).signExtend 64
      else if n = 16 then (c.t a).pred.setWidth 64
      else if n = 17 then (c.t a).valid.setWidth 64
      else if n = 18 then BitVec.ofNat 64 ((c.t a).tag.toNat + 16 * (c.t a).exp.toNat + 4096 * (c.t a).bub.toNat)
      else 0)) s t) ∧
  (∀ d a b m s, CanRetire s → (s.tile.core.t a).bub = false → (s.tile.core.t b).bub = false →
    ∃ y t, exec (.vmsk d a b m 0) s = .next t ∧ CoreEffect 2 (fun c => c.setT d y) s t ∧ y.tag = (s.tile.core.t a).tag ∧
      ∀ l, l < 16 → (s.tile.core.m m).getLsbD l = true →
        y.data.extractLsb' (32 * l) 32 = (s.tile.core.t a).data.extractLsb' (32 * l) 32 ∧
        y.valid.getLsbD l = ((s.tile.core.t a).valid.getLsbD l && (s.tile.core.t b).pred.getLsbD l))

/-- R63, R121, R129 to R137: a conversion retires with its token, generators and flags, and VUNPK with k shifts its source down;
under TRAP an overflowing lane traps OVERFLOW with the lanes in EADDR, and writes nothing. -/
def Obligations.TokenConversions : Prop :=
  (∀ i v d op s, convSpec i = some (v, d, op) → CanRetire s →
    (v ≠ 3 ∨ (op s.tile.core).ovf = 0 → ∃ t, exec i s = .next t ∧ CoreEffect 2 (fun c =>
      { c.setT d (op c).tok with rnd := (op c).gens, fstat := c.fstat ||| (op c).flags }) s t) ∧
    (v = 3 → (op s.tile.core).ovf ≠ 0 → HandlerReady s.tile.core → ∃ t, exec i s = .next t ∧
      TrapsWith causeOverflow ((op s.tile.core).ovf.setWidth 64) (encode i) s t)) ∧
  (∀ d a t f r v i o k s, CanRetire s →
    let op := fun (x : Core) =>
      tokUnpack x.env x.rnd t f (x.env.mode r) (Overflow.ofCode v) (x.t a) (i == 1) (o == 1) (k == 1)
    v ≠ 3 ∨ (op s.tile.core).1.ovf = 0 → ∃ u, exec (.vunpk d a t f r v i o k) s = .next u ∧ CoreEffect 2 (fun c =>
      { (if k = 1 then c.setT a { c.t a with data := (c.t a).data >>> (16 * codeWidth f.toNat) } else c).setT d (op c).1.tok with
        rnd := (op c).1.gens, fstat := c.fstat ||| (op c).1.flags }) s u)

/-- R148, R150: VHIST adds the weight of each active lane to its lane of the bin that the lane of ta names, within td up to t31, and
changes no header; VBFP writes the shared exponent of its block into the three headers, and adds its flags. -/
def Obligations.BlocksAndHistograms : Prop :=
  (∀ d a b m s, CanRetire s → (s.tile.core.t a).bub = false → (s.tile.core.t b).bub = false →
    ∃ ts t, exec (.vhist d a b m) s = .next t ∧ CoreEffect 2 (fun c => { c with toks := ts }) s t ∧
      ∀ r : Fin 32, ts.get r = { s.tile.core.toks.get r with data := (ts.get r).data } ∧
        ∀ l, l < 16 → (ts.get r).data.extractLsb' (32 * l) 32 =
          if d.toNat ≤ r.val ∧ laneOn s.tile.core m [a, b] l = true ∧
              (((s.tile.core.t a).data.extractLsb' (32 * l) 32).toInt : Int) = r.val - d.toNat then
            (s.tile.core.toks.get r).data.extractLsb' (32 * l) 32 + (s.tile.core.t b).data.extractLsb' (32 * l) 32
          else (s.tile.core.toks.get r).data.extractLsb' (32 * l) 32) ∧
  (∀ d a b m i s, CanRetire s → a ≠ b → d ≠ a → d ≠ b → ∃ t, exec (.vbfp d a b m i) s = .next t ∧
    ∃ e fl, blockExp s.tile.core.env (i == 1) (s.tile.core.m m) [s.tile.core.t a, s.tile.core.t b, s.tile.core.t d] = (e, fl) ∧
      CoreEffect 2 (fun c => { ((c.setT a { c.t a with exp := e }).setT b { c.t b with exp := e }).setT d { c.t d with exp := e } with
        fstat := c.fstat ||| fl }) s t)

/-! ### Commands -/

/-- R31, R206, R207, R210: a status command whose guard holds and whose record passes the checks joins the queue of its core with
its operands, and its register is pending, unless 16 are outstanding: then it waits. The privileged ones trap PRIV in user mode. -/
def Obligations.CommandIssue : Prop :=
  ∀ i x s, cmdSpec i = some x → CanRetire s →
    (s.tile.core.guard x.g = true → (x.priv = true → s.tile.core.mode = true) →
      (∀ va al sz, x.record = some (va, al, sz) → RecordOk s.tile.core (va s.tile.core) al sz) →
      (s.tile.core.cmds.length < 16 → ∃ q t, exec i s = .next t ∧
        Queued s.tile.core x.kind x.d (x.sa s.tile.core) (x.sb s.tile.core) q ∧
        CoreEffect 6 (fun c => { c with cmds := c.cmds ++ [q], cmdSerial := c.cmdSerial + 1 }) s t ∧
        (x.d ≠ 0 → t.tile.core.pend.getLsbD x.d.toNat = true)) ∧
      (16 ≤ s.tile.core.cmds.length → ∃ t, exec i s = .next t ∧ Stalls .again i s t)) ∧
    (x.priv = true → HandlerReady s.tile.core → ∃ t, exec i s = .next t ∧ TrapsWith causePriv 0 (encode i) s t) ∧
    (∀ va al sz, s.tile.core.guard x.g = true → (x.priv = true → s.tile.core.mode = true) → HandlerReady s.tile.core →
      x.record = some (va, al, sz) → (va s.tile.core).toNat % al ≠ 0 → ∃ t, exec i s = .next t ∧
      TrapsWith causeAlign (va s.tile.core) (encode i) s t)

/-- R177, R209: CFG with a length from 1 to 2^20 within one readable ward joins the queue; another length lands BADLEN at once;
a misaligned VA traps ALIGN, and a range past its ward traps WARDMISS with the first VA past it. -/
def Obligations.ConfigurationIssue : Prop :=
  ∀ (d a b : BitVec 5) (g : BitVec 4) (s : State), CanRetire s → s.tile.core.guard g = true →
    let c := s.tile.core
    let va := c.s a
    let n := (c.s b).toNat
    (0 < n → n ≤ 2 ^ 20 → RecordOk c va 4 (4 * n) → c.cmds.length < 16 →
      (c.cmds.filter fun x => x.kind == .cfg).length < 8 → ∃ q t, exec (.cfg d a b g) s = .next t ∧
      Queued c .cfg d va (c.s b) q ∧
      CoreEffect 6 (fun c => { c with cmds := c.cmds ++ [q], cmdSerial := c.cmdSerial + 1 }) s t) ∧
    (va.toNat % 4 = 0 → n = 0 ∨ 2 ^ 20 < n → c.cmds.length < 16 → c.run ≠ .idle →
      (∀ x ∈ c.cmds, x.serial < c.cmdSerial ∧ x.kind ≠ .cfgw ∧ x.kind ≠ .cpyw) → ∃ t, exec (.cfg d a b g) s = .next t ∧
      CoreEffect 6 (fun c =>
        let w := BitVec.ofNat 64 (0x80000004 + 2 ^ 32 * (n % 2 ^ 32))
        { c.setS d w with cmdSerial := c.cmdSerial + 1, cfgLog := c.cfgLog ++ [(c.cmdSerial, w)] }) s t) ∧
    (va.toNat % 4 ≠ 0 → HandlerReady c → ∃ t, exec (.cfg d a b g) s = .next t ∧
      TrapsWith causeAlign va (encode (.cfg d a b g)) s t) ∧
    (∀ w, va.toNat % 4 = 0 → 0 < n → n ≤ 2 ^ 20 → WardOf c va w → w.vlimit.toNat * 65536 < va.toNat + 4 * n →
      HandlerReady c → ∃ t, exec (.cfg d a b g) s = .next t ∧
      TrapsWith causeWardMiss (BitVec.ofNat 64 (w.vlimit.toNat * 65536)) (encode (.cfg d a b g)) s t)

/-- R101, R216, R274 to R276, R421: OLD reads 64 bytes of a slot that the context owns into td, as the port slot found them, and counts
the words that it corrects; OST writes td's lanes there and its exponent beside them, which the reads of the same port slot do not
find, and changes no other byte. A poisoned token traps POISON. An address that is not a multiple of 64 traps ALIGN, else one above 24 bits BADTGT, else a
slot that the context does not own REFUSED. -/
def Obligations.OperandMemory : Prop :=
  ∀ (d a b : BitVec 5) (g : BitVec 4) (s : State), CanRetire s → s.tile.core.guard g = true →
    let x := s.tile.core.s a + s.tile.core.s b
    let t0 := s.tile.core.t d
    (∀ y, OmReaches s x → OmSees s s.tileIdx x.toNat y →
      (y.poison = false → ∃ u t, exec (.old d a b g) s = .next t ∧ OmCounted x.toNat s u ∧
        AfterAccess 6 (fun c => c.setT d ⟨y.data, 0, 0, false, 0xFFFF, 0⟩) s u t) ∧
      (y.poison = true → HandlerReady s.tile.core → ∃ u t, exec (.old d a b g) s = .next t ∧ OmCounted x.toNat s u ∧
        TrapsWith causePoison x (encode (.old d a b g)) u t)) ∧
    (OmReaches s x → s.tileIdx < 2112 → ∃ u t, exec (.ost d a b g) s = .next t ∧ AfterAccess 6 id s u t ∧
      u = { s with mem := u.mem, tile := { s.tile with
        omPoison := u.tile.omPoison, omErrors := u.tile.omErrors, omBefore := u.tile.omBefore } } ∧
      ((s.graphOfTile s.tileIdx).isSome = true → ∀ y, OmSees s s.tileIdx x.toNat y → OmSees u s.tileIdx x.toNat y) ∧
      (∀ k, k < 64 → readByte u.mem (omLoc s.tileIdx x.toNat + k) = t0.data.extractLsb' (8 * k) 8) ∧
      readByte u.mem (sideLoc s.tileIdx x.toNat) = t0.exp ∧
      (∀ l, l < omLoc s.tileIdx x.toNat ∨ omLoc s.tileIdx x.toNat + 64 ≤ l → l ≠ sideLoc s.tileIdx x.toNat →
        readByte u.mem l = readByte s.mem l) ∧ u.tile.omPoison.contains (x.toNat / 64) = false) ∧
    (HandlerReady s.tile.core → ∀ i, i = .old d a b g ∨ i = .ost d a b g →
      (x.toNat % 64 ≠ 0 → ∃ t, exec i s = .next t ∧ TrapsWith causeAlign x (encode i) s t) ∧
      (x.toNat % 64 = 0 → 2 ^ 24 ≤ x.toNat → ∃ t, exec i s = .next t ∧ TrapsWith causeBadTgt x (encode i) s t) ∧
      (x.toNat % 64 = 0 → x.toNat < 2 ^ 24 → assocGet s.tile.owners (x.toNat / 65536) ≠ some s.tile.core.ctx →
        ∃ t, exec i s = .next t ∧ TrapsWith causeRefused x (encode i) s t))

/-- R112, R235, R306: WARDW stages words 1 to 3, and with word 0 installs a ward from the staged words at once; a reserved bit, or a
ward that does not fit, traps BADTGT with sa, installs nothing and keeps the staged words. In user mode it traps PRIV. -/
def Obligations.WardWrites : Prop :=
  ∀ (a b : BitVec 5) (g : BitVec 4) (s : State) (n : Fin 8) (w : BitVec 2), CanRetire s → s.tile.core.guard g = true →
    let c := s.tile.core
    let sa := c.s a
    let v := c.s b
    let old := c.staged.get n
    let new := wardOfWords v old.w1 old.w2 old.w3
    let st : StagedWard := ⟨if w = 1 then v else old.w1, if w = 2 then v else old.w2, if w = 3 then v else old.w3⟩
    sa = BitVec.ofNat 64 (n.val + 16 * w.toNat) →
    (c.mode = true → v &&& wardZero w = 0 →
      (w = 0 → WardFits new → ∃ t, exec (.wardw a b g) s = .next t ∧
        CoreEffect 6 (fun c => { c with wards := c.wards.set n.val new n.isLt }) s t) ∧
      (w ≠ 0 → ∃ t, exec (.wardw a b g) s = .next t ∧
        CoreEffect 6 (fun c => { c with staged := c.staged.set n.val st n.isLt }) s t)) ∧
    (c.mode = true → v &&& wardZero w ≠ 0 ∨ (w = 0 ∧ ¬ WardFits new) →
      exec (.wardw a b g) s = .next (trapAt s causeBadTgt sa (encode (.wardw a b g)))) ∧
    (HandlerReady c → ∃ t, exec (.wardw a b g) s = .next t ∧ TrapsWith causePriv 0 (encode (.wardw a b g)) s t)

/-- R211, R212, R215: PUSHT stages a token in the tile's push beat, and with SEND delivers the beat as a reply in the window's latch,
waiting while the latch holds W replies; POPT reads a token of the oldest captured beat, and with POP removes the beat, waiting
while there is none; ORL frees the context's slots of its range once no transfer uses them, waits while one does, and traps REFUSED
where a row's feed names one, of a region's configuration or of the one that is to replace it. -/
def Obligations.TilePorts : Prop :=
  ∀ (d a b : BitVec 5) (g : BitVec 4) (s u : State) (gr : Graph) (r : Region) (pos : Nat), CanRetire s →
    s.tile.core.guard g = true → u = s.settle → u.graphOfTile u.tileIdx = some gr →
    let sa := s.tile.core.s a
    let p := (sa.extractLsb' 0 4).toNat
    let q := (sa.extractLsb' 10 2).toNat
    let win := sa.extractLsb' 5 5
    let tok := s.tile.core.t b
    let beat := stageToken u.tile.pushBeat q tok
    let inEdge : Edge := if sa.getLsbD 4 then .n else .w
    let outEdge : Edge := if sa.getLsbD 4 then .e else .s
    let key := r.id * 32 + (if outEdge = .e then 16 else 0) + p
    gr.getRegion (sa.extractLsb' 16 10).toNat = some r →
    (r.cfg.localPos inEdge u.tileIdx p = some pos → sa &&& 0xFFFFFFFFFC00E000 = 0 → r.cfg.winDef win.toNat = true →
      q < tokensOf tok.tag.toNat →
      (sa.getLsbD 12 = false → ∃ t, exec (.pusht a b g) s = .next t ∧
        AfterAccess 6 id s { u with tile := { u.tile with pushBeat := beat } } t) ∧
      (sa.getLsbD 12 = true → r.heldReplies win inEdge pos < r.cfg.winLen win.toNat → ∃ l v t,
        exec (.pusht a b g) s = .next t ∧ AfterAccess 6 id s v t ∧ l.win = win ∧ l.edge = inEdge ∧ l.pos = pos ∧
        l.issue = gr.slotNo ∧ l.reply = some beat ∧
        v = { u with tile := { u.tile with pushBeat := Beat.invalid beat.tag } }.putGraph
          { (gr.onRegion r.id fun x => { x with latches := x.latches ++ [l] }) with reqId := gr.reqId + 1 }) ∧
      (sa.getLsbD 12 = true → r.cfg.winLen win.toNat ≤ r.heldReplies win inEdge pos → ∃ t,
        exec (.pusht a b g) s = .next t ∧ Stalls .again (.pusht a b g) s t)) ∧
    (r.cfg.localPos inEdge u.tileIdx p = none → HandlerReady s.tile.core → ∃ t, exec (.pusht a b g) s = .next t ∧
      TrapsWith causeBadTgt sa (encode (.pusht a b g)) s t) ∧
    (r.cfg.localPos outEdge u.tileIdx p = some pos → sa &&& 0xFFFFFFFFFC00E3E0 = 0 →
      (∀ x rest, sparseGet [] u.tile.capture key = x :: rest → ∃ t, exec (.popt d a g) s = .next t ∧
        AfterAccess 6 (fun c => c.setT d (x.tok x.tag.toNat q)) s
          { u with tile := { u.tile with
            capture := if sa.getLsbD 12 then sparsePut [] u.tile.capture key rest else u.tile.capture } } t) ∧
      (sparseGet [] u.tile.capture key = [] → ∃ t, exec (.popt d a g) s = .next t ∧ Stalls .again (.popt d a g) s t)) ∧
    (let lo := (sa.extractLsb' 0 8).toNat
     let n := (sa.extractLsb' 8 8).toNat + 1
     let named := ∃ x ∈ u.allGraphs, x.ctx = u.tile.core.ctx ∧ ∃ y ∈ x.regions,
       y.cfg.feedsSlot u.tileIdx lo n = true ∨ ∃ c, y.next = some c ∧ c.feedsSlot u.tileIdx lo n = true
     sa.extractLsb' 16 48 = 0 → lo + n ≤ 256 →
     (named → HandlerReady s.tile.core → ∃ t, exec (.orl a g) s = .next t ∧ TrapsWith causeRefused sa (encode (.orl a g)) s t) ∧
     (¬ named → slotBusy u u.tileIdx u.tile.core.ctx lo n = true → ∃ t, exec (.orl a g) s = .next t ∧
       Stalls .again (.orl a g) s t) ∧
     (¬ named → slotBusy u u.tileIdx u.tile.core.ctx lo n = false → ∃ t, exec (.orl a g) s = .next t ∧
       AfterAccess 6 id s { u with tile := { u.tile with
         owners := u.tile.owners.filter fun x => !(decide (lo ≤ x.1 ∧ x.1 < lo + n) && x.2 == u.tile.core.ctx) } } t))

/-! ### Configuration streams -/

/-- R16 to R18, R179, R180, R182, R183: what each C-word but COMMIT and SEAL does to the running stream where it is in order; and
between FLDH and its FLD every word but NOPC and FLD refuses the stream with BADORDER. -/
def Obligations.StreamWords : Prop :=
  ∀ (s u : State), u = s.settle →
    let x := u.stream
    let g := u.streamGraph
    exec .nopc s = .next (took u (encode .nopc) x) ∧
    (∀ i, i.kind = 1 → i ≠ .nopc → (∀ f v, i ≠ .fld f v) →
      (∀ r c, i = .ext r c → x.extTooBig (r.toNat + 1) (c.toNat + 1) = false) → x.high.isSome = true →
      ∃ t, exec i s = .next t ∧ Refused 2 0 x.offset u t) ∧
    (∀ r c pre y, x.targets = pre ++ [y] → x.extOpen = true →
      (if y.tiles then 48 else 768) < y.row + (r.toNat + 1) ∨ (if y.tiles then 44 else 704) < y.col + (c.toNat + 1) →
      ∃ t, exec (.ext r c) s = .next t ∧ Refused 1 0 x.offset u t) ∧
    (∀ (f : BitVec 12) (v : BitVec 16) (val m : BitVec 32) id c, fieldMask f.toNat = some m → x.region = some (id, c) →
      val = x.high.getD (0 : BitVec 16) ++ v → val &&& ~~~ m = 0 →
      (f.toNat < 0x200 → ∃ c', exec (.fld f v) s = .next (took u (encode (.fld f v))
          { x with region := some (id, c'), high := none, extOpen := false }) ∧ c' = { c with fields := c'.fields } ∧
        c'.field f.toNat = val ∧ ∀ n, n ≠ f.toNat → c'.field n = c.field n) ∧
      (∀ r, f = 0x200 → x.rowSel = some r → ∃ c', exec (.fld f v) s = .next (took u
          (encode (.fld f v)) { x with region := some (id, c'), high := none, extOpen := false }) ∧
        c' = { c with words := c'.words } ∧
        ∀ n, sparseGet 0 c'.words n = if n = r.toNat then val else sparseGet 0 c.words n) ∧
      (f = 0x300 → (∀ y ∈ x.targets, y.tiles = false ∧ ∀ p ∈ y.cells, c.holds p.1 p.2 = true) →
        ∃ c', exec (.fld f v) s = .next (took u (encode (.fld f v))
          { x with region := some (id, c'), high := none, extOpen := false }) ∧ c' = { c with dlyIn := c'.dlyIn } ∧
        ∀ y ∈ x.targets, ∀ p ∈ y.cells,
          sparseGet 0 c'.dlyIn ((p.1 - c.row0) * 1024 + (p.2 - c.col0)) = val.extractLsb' 0 14)) ∧
    (∀ (f : BitVec 12) (v : BitVec 16) (m : BitVec 32), fieldMask f.toNat = some m →
      (x.high.getD (0 : BitVec 16) ++ v : BitVec 32) &&& ~~~ m ≠ 0 →
      ∃ t, exec (.fld f v) s = .next t ∧ Refused 1 0 x.offset u t) ∧
    (x.high = none →
      exec .clrt s = .next (took u (encode .clrt) { x with targets := [], rowSel := none, extOpen := false }) ∧
      (∀ v, exec (.fldh v) s = .next (took u (encode (.fldh v)) { x with high := some v, extOpen := false })) ∧
      (∀ n, x.region.isSome = true →
        exec (.row n) s = .next (took u (encode (.row n)) { x with rowSel := some n, extOpen := false })) ∧
      (∀ n, x.region = none → ∃ t, exec (.row n) s = .next t ∧ Refused 2 0 x.offset u t) ∧
      (∀ r c l y, y = ⟨false, r.toNat + (if l = 1 then 16 * g.trow0 else 0), c.toNat + (if l = 1 then 16 * g.tcol0 else 0), 1, 1⟩ →
        (x.targets.length < 64 → InRectangle y g → exec (.tgt r c l) s = .next (took u (encode (.tgt r c l))
          { x with targets := x.targets ++ [y], extOpen := true })) ∧
        (64 ≤ x.targets.length ∨ ¬ InRectangle y g → ∃ t, exec (.tgt r c l) s = .next t ∧ Refused 3 0 x.offset u t)) ∧
      (∀ r c h w l y, y = ⟨true, r.toNat + (if l = 1 then g.trow0 else 0), c.toNat + (if l = 1 then g.tcol0 else 0),
          h.toNat + 1, w.toNat + 1⟩ → x.region = none → x.targets.length < 64 → InRectangle y g →
        exec (.tgtr r c h w l) s = .next (took u (encode (.tgtr r c h w l))
          { x with targets := x.targets ++ [y], extOpen := true })) ∧
      (∀ r c pre y z, x.targets = pre ++ [y] → x.extOpen = true → z = { y with rows := r.toNat + 1, cols := c.toNat + 1 } →
        z.row + z.rows ≤ (if y.tiles then 48 else 768) → z.col + z.cols ≤ (if y.tiles then 44 else 704) → InRectangle z g →
        exec (.ext r c) s = .next (took u (encode (.ext r c)) { x with targets := pre ++ [z], extOpen := false })) ∧
      (∀ t i st p m y, x.region = none → x.targets = [y] → y.tiles = false →
        (∀ r, g.getRegion i.toNat = some r → r.next = none) → ∃ c, exec (.typeWord t i st p m) s = .next (took u
          (encode (.typeWord t i st p m)) { x with region := some (i.toNat, c), rowSel := none, extOpen := false }) ∧
        c.typ = t ∧ c.row0 = y.row ∧ c.col0 = y.col ∧ c.rows = y.rows ∧ c.cols = y.cols ∧ c.stage = st ∧ c.spine = p ∧
        c.mode = m ∧ c.fields = ((g.getRegion i.toNat).map fun r => r.cfg.fields).getD [] ∧
        c.words = ((g.getRegion i.toNat).map fun r => r.cfg.words).getD []) ∧
      (∀ n st, x.targets ≠ [] → (∀ y ∈ x.targets, y.tiles = true) →
        (x.user = true → ∀ t ∈ targetTiles x.targets, (u.getTile t).core.tvecValid = true →
          st.toNat + n.toNat ≤ (u.getTile t).core.tvecEntry.toNat) → 0 < n.toNat →
        exec (.img n st) s = .next (took u (encode (.img n st)) { x with raw := n.toNat, rawAt := st.toNat, extOpen := false })))

/-- R18, R19, R177, R179, R181, R252: COMMIT of the open region, whose checks pass, makes the pending copy the region's configuration,
at once where it does not run and otherwise as its next one, and closes it; a row or a region that fails refuses the stream with
BADROW or BADREG. SEAL ends a stream of the right length and sum; an open region, a wrong sum or words after it refuse it. The
regions of a sealed stream that did not run at their COMMIT start with counts 0; the root begins to read a stream. -/
def Obligations.CommitAndSeal : Prop :=
  ∀ (s u : State), u = s.settle →
    let x := u.stream
    let g := u.streamGraph
    (∀ i id c, x.high = none → x.region = some (id, c) → i.toNat = id → g.slot = x.graph →
      u.graph.slot = x.graph ∨ (∃ y ∈ u.graphs, y.slot = x.graph) →
      (c.badRow = none → u.badRegion g id c = none →
        (∀ y ∈ u.gates, (y.fromGraph = g.slot → y.fromRegion = id → y.fromStage = c.stage) ∧
          (y.toGraph = g.slot → y.toRegion = id → y.toStage = c.stage)) →
        ∃ t y, exec (.commit i) s = .next t ∧
          t.stream = (took u (encode (.commit i)) { x with
            undo := x.undo ++ [(id, g.getRegion id)], targets := [], region := none, rowSel := none, extOpen := false }).stream ∧
          t = { u with graph := t.graph, graphs := t.graphs, stream := t.stream } ∧
          t.getRegion g.slot id = some y ∧
          (∀ old, g.getRegion id = some old → (old.loop = .running ∨ old.loop = .paused → y = { old with next := some c }) ∧
            (old.loop = .idle ∨ old.loop = .runOut → y = { old with cfg := c, counters := [], cursors := y.cursors })) ∧
          (g.getRegion id = none → y.cfg = c ∧ y.loop = .idle ∧ y.counters = [] ∧ y.acc = [] ∧ y.next = none ∧
            y.wards = g.wards)) ∧
      (∀ r, c.badRow = some r → ∃ t, exec (.commit i) s = .next t ∧ Refused 5 (BitVec.ofNat 8 r) x.offset u t) ∧
      (∀ r, c.badRow = none → u.badRegion g id c = some r →
        ∃ t, exec (.commit i) s = .next t ∧ Refused 6 (BitVec.ofNat 8 r) x.offset u t)) ∧
    (∀ i, x.high = none → (∀ c, x.region ≠ some (i.toNat, c)) →
      ∃ t, exec (.commit i) s = .next t ∧ Refused 2 0 x.offset u t) ∧
    (∀ c, x.high = none →
      (x.region.isSome = true → ∃ t, exec (.sealWord c) s = .next t ∧ Refused 2 0 x.offset u t) ∧
      (x.region = none → x.sum + c = 0 → x.offset + 1 ≠ x.len →
        ∃ t, exec (.sealWord c) s = .next t ∧ Refused 4 0 (x.offset + 1) u t) ∧
      (x.region = none → x.sum + c ≠ 0 → ∃ t, exec (.sealWord c) s = .next t ∧
        t.stream.result = some ⟨7, 0, BitVec.ofNat 32 x.offset⟩ ∧ t.mem = u.mem) ∧
      (x.region = none → x.sum + c = 0 → x.offset + 1 = x.len → ∀ ids,
        ids = (x.undo.filter fun p => !(p.2.any fun r => r.loop == .running || r.loop == .paused)).map Prod.fst →
        exec (.sealWord c) s = .next (({ u with
          stream := { x with offset := x.offset + 1, sealed := true, result := some ⟨0, 0, 0⟩, extOpen := false } }).onGraph
        x.graph fun y => { y with starts := y.starts ++ [(64, ids)] }))) ∧
    (∀ k y n ids rest, u.getGraph k = some y → y.starts = (n, ids) :: rest →
      exec (.regionStart k) s = .next (u.putGraph { y with
        starts := rest
        regions := y.regions.map fun r =>
          if r.id ∈ ids ∧ (r.loop = .idle ∨ r.loop = .runOut) then
            { r with cfg := r.next.getD r.cfg, next := none, loop := .running, slots := 0, pass := 0, sv := 0 }
          else r })) ∧
    (∀ n, exec (.cfgStreamRead n) s = .next { s.focusNet n with stream := { (s.focusNet n).stream with started := true } })

/-! ### Rows of cells -/

/-- R13, R36, R37, R55, R56, R63, R122, R187, R188, R191: a token row applies the rim word's operation, mask all ones and k 0, to
each token position of its operands in every cell of the region; its beat lands after the row's latency on the row's destinations
under the guard. A conversion does so between the arriving tag and the format field where they form a pair, and else writes the
position invalid and raises NV; under TRAP the first cell with an overflowing lane stops the graph with OVERFLOW. -/
def Obligations.CellTokenRows : Prop :=
  (∀ i x s, rowForm i = some x →
    let out := fun (n : CellIn) => overTokens (tokensOf x.u.f.toNat) n.gens (x.at n)
    ∃ t, exec i s = .next t ∧
      RowResult x.lat x.u (fun n => (out n).beat) (fun n => (out n).flags) (fun n => (out n).gens) s t) ∧
  (∀ i k u fi fo rim s, rowConv i = some (k, u, fi, fo, rim) →
    let pos := fun (n : CellIn) => convertPos n k (fi == 1) (fo == 1) u.f (n.ownOperand u u.a)
    let out := fun (n : CellIn) => overTokens (tokensOf u.f.toNat) n.gens (pos n)
    (s.region.cfg.mode.extractLsb' 0 2 ≠ 3 ∨ (∀ p ∈ s.region.cfg.cells, (out (s.cellIn p)).ovf = none) →
      ∃ t, exec i s = .next t ∧
        RowResult 4 u (fun n => (out n).beat) (fun n => (out n).flags) (fun n => (out n).gens) s t) ∧
    (∀ n : CellIn, u.a ≠ 6 → n.ownOperand u u.a = n.operand u u.a) ∧
    (∀ n : CellIn, u.a = 6 → n.ownOperand u u.a =
      (let w := n.cell.w[u.x.toNat]'(u.x.isLt); n.operand { u with f := w.tag } 6)) ∧
    (∀ n q g v r op, (n.ownOperand u u.a).bub = false → q < tokensOf (n.ownOperand u u.a).tag.toNat →
      convPair k u.f (n.ownOperand u u.a).tag = true → v = n.cfg.mode.extractLsb' 0 2 →
      convSpec (rim (n.ownOperand u u.a).tag v) = some r → op = r.2.2 →
      pos n q g = op (rowCore n g ⟨Token.reset, (n.ownOperand u u.a).tok (n.ownOperand u u.a).tag.toNat q, Token.reset, Token.reset⟩
        none)) ∧
    (∀ n q g, (n.ownOperand u u.a).bub = false → q < tokensOf (n.ownOperand u u.a).tag.toNat →
      convPair k u.f (n.ownOperand u u.a).tag = false →
      pos n q g = ⟨{ data := 0, tag := u.f, exp := 0, bub := false, valid := 0, pred := 0 }, g, flagNV, 0⟩) ∧
    (∀ pre p post q lanes, s.region.cfg.cells = pre ++ p :: post → (∀ y ∈ pre, (out (s.cellIn y)).ovf = none) →
      (out (s.cellIn p)).ovf = some (q, lanes) → s.graph.fault = none →
      ∃ t f, exec i s = .next t ∧ t = { s with graph := { s.graph with
          stopped := true, grace := 8, fault := some f, faulted := s.graph.faulted ++ [s.region.id] } } ∧
        f.cause = 2 ∧ f.detail = BitVec.ofNat 64 (lanes.toNat + 2 ^ 16 * (q % 4)) ∧ f.region = BitVec.ofNat 10 s.region.id ∧
        f.slot = BitVec.ofNat 32 s.region.slots ∧ f.time = s.time ∧ f.more = false)) ∧
  (∀ d a b c q i o f x s, let u : RowUse := ⟨d, a, b, c, q, f, x⟩
    let out := fun (n : CellIn) => overTokens (tokensOf f.toNat) n.gens fun p g =>
      let t := n.toks u p
      let r := blockExp n.env (i == 1) 0xFFFF [t.a, t.b, t.c]
      ⟨{ t.a with exp := r.1 }, g, r.2, 0⟩
    ∃ t, exec (.cellVbfp d a b c q i o f x) s = .next t ∧
      RowResult 4 u (fun n => (out n).beat) (fun n => (out n).flags) (fun n => n.gens) s t) ∧
  (∀ d a q i o f x s, let u : RowUse := ⟨d, a, 0, 0, q, f, x⟩
    let out := fun (n : CellIn) => overTokens (tokensOf f.toNat) n.gens fun p g => tokSlice g (n.toks u p).a
    ∃ t, exec (.cellVpld d a q i o f x) s = .next t ∧
      RowResult 8 u (fun n => (out n).beat) (fun n => (out n).flags) (fun n => n.gens) s t) ∧
  (∀ d a b c q i o f x s, let u : RowUse := ⟨d, a, b, c, q, f, x⟩
    let bins := fun (n : CellIn) (p : Nat) =>
      (((n.cell.c.toList.take (b.toNat + 1)).drop a.toNat).map fun y => y.tok y.tag.toNat p)
    let out := fun (n : CellIn) => overTokens (tokensOf f.toNat) n.gens fun p g => tokHmrg g Token.reset (bins n p) 0xFFFF false
    ∃ t, exec (.cellVhmrg d a b c q i o f x) s = .next t ∧
      RowResult 6 u (fun n => (out n).beat) (fun _ => 0) (fun n => n.gens) s t)

/-- R120, R187, R188, R195 to R197: PASS, BUBL, SELR, PSUM and the reductions, and WLOAD and WPLT, in every cell of the region. PASS
passes a weight entry in the layout of the entry's own tag. PSUM and a reduction pass the one valid lane of a pair unchanged, and leave a lane with none invalid; two bubbles reduce to a bubble.
WLOAD puts token 0 of operand a into weight entry x and sends the old entry on; WPLT stores, for a slice that is not well-formed,
one whose weights are 0, and raises NV. -/
def Obligations.CellMoves : Prop :=
  (∀ d a q i o x s, let u := fun (n : CellIn) => (⟨d, a, 0, 0, q, if a = 6 then (n.cell.w[x.toNat]'(x.isLt)).tag else 0, x⟩ : RowUse)
    ∃ t, exec (.cellPass d a q i o x) s = .next t ∧
      RowLands 1 d (fun n => n.allow (u n)) (fun n => n.operand (u n) a) (fun _ => 0) (fun n => n.gens) s t) ∧
  (∀ d q i o x s, ∃ t, exec (.cellBubl d q i o x) s = .next t ∧
    RowResult 1 ⟨d, 0, 0, 0, q, 0, x⟩ (fun _ => Beat.bubbleOf 0) (fun _ => 0) (fun n => n.gens) s t) ∧
  (∀ d a b q i o x s, let u : RowUse := ⟨d, a, b, 0, q, 0, x⟩
    ∃ y t, exec (.cellSelr d a b q i o x) s = .next t ∧ RowResult 1 u y (fun _ => 0) (fun n => n.gens) s t ∧
      ∀ n, let p := n.operand u a
        let r := n.operand u b
        (p.bub = true → y n = r) ∧
        (p.bub = false → (y n).bub = false ∧ (y n).tag = p.tag ∧ (y n).exps = p.exps ∧
          (∀ e, e < 128 → (y n).valid.getLsbD e =
              (if p.pred.getLsbD e then p.valid.getLsbD e else !r.bub && r.valid.getLsbD e) ∧
            (y n).pred.getLsbD e = (p.pred.getLsbD e || (!r.bub && r.pred.getLsbD e))) ∧
          ∀ k, k < 16 * tokensOf p.tag.toNat * elemBits p.tag.toNat → (y n).data.getLsbD k =
            if p.pred.getLsbD (k / elemBits p.tag.toNat) then p.data.getLsbD k else !r.bub && r.data.getLsbD k)) ∧
  (∀ d a b q i o x s, let u : RowUse := ⟨d, a, b, 0, q, 0, x⟩
    let out := fun (n : CellIn) => overTokens 1 n.gens fun p g => combineToken n.env .rne g 0 .sum false (i == 1) (o == 1)
      ((n.operand u a).tok 0 p) ((n.operand u b).tok 0 p)
    ∃ t, exec (.cellPsum d a b q i o x) s = .next t ∧
      RowResult 1 u (fun n => (out n).beat) (fun n => (out n).flags) (fun n => n.gens) s t) ∧
  (∀ ins u op fold i o s, rowRed ins = some (u, op, fold, i, o) →
    let both := fun (n : CellIn) => (n.operand u u.a).bub && (n.operand u u.b).bub
    let out := fun (n : CellIn) => overTokens (tokensOf u.f.toNat) n.gens fun p g =>
      combineToken n.env n.env.rm g u.f op fold (i == 1) (o == 1) ((n.operand u u.a).tok u.f.toNat p)
        ((n.operand u u.b).tok u.f.toNat p)
    ∃ t, exec ins s = .next t ∧ RowResult 2 u (fun n => if both n then Beat.bubbleOf u.f else (out n).beat)
      (fun n => if both n then 0 else (out n).flags) (fun n => if both n then n.gens else (out n).gens) s t) ∧
  (∀ env rm g f op fold fi fo (a b : Token), let y := (combineToken env rm g f op fold fi fo a b).tok
    let src := fun (l : Nat) => if fold then (if l < 8 then (a, 2 * l, a, 2 * l + 1) else (b, 2 * (l - 8), b, 2 * (l - 8) + 1))
      else (a, l, b, l)
    let has := fun (t : Token) (l : Nat) => !t.bub && t.valid.getLsbD l
    y.bub = false ∧ y.tag = f ∧ y.exp = 0 ∧ ∀ l, l < 16 →
      let v := src l
      let lane := y.data.extractLsb' (32 * l) 32
      let p := v.1.data.extractLsb' (32 * v.2.1) 32
      let r := v.2.2.1.data.extractLsb' (32 * v.2.2.2) 32
      y.valid.getLsbD l = (has v.1 v.2.1 || has v.2.2.1 v.2.2.2) ∧
      (has v.1 v.2.1 = true → has v.2.2.1 v.2.2.2 = false → lane = p) ∧
      (has v.1 v.2.1 = false → has v.2.2.1 v.2.2.2 = true → lane = r) ∧
      (has v.1 v.2.1 = true → has v.2.2.1 v.2.2.2 = true → f = 9 → lane =
        match op with | .sum => p + r | .max => if p.slt r then r else p | .min => if r.slt p then r else p)) ∧
  (∀ wplt d a q i o x s, s.region.cfg.col0 + s.region.cfg.cols ≤ 704 →
    let u : RowUse := ⟨d, a, 0, 0, q, 0, x⟩
    let c := s.region.cfg
    let new := fun (n : CellIn) =>
      let b := n.operand u a
      if b.bub then Token.bubble b.tag else b.tok b.tag.toNat 0
    let bad := fun (n : CellIn) => wplt && !(new n).bub && !sliceOk (new n)
    ∃ (t : State) (w : CellIn → Token), exec (if wplt then .cellWplt d a q i o x else .cellWload d a q i o x) s = .next t ∧
      RowResult 1 u (fun n => let y := n.cell.w[x.toNat]'(x.isLt)
        if y.bub then Beat.bubbleOf y.tag else beatOf y.tag [y]) (fun n => if bad n then flagNV else 0) (fun n => n.gens)
        s { t with cells := s.cells } ∧
      (∀ p ∈ c.cells, t.cellAt (c.row0 + p.1) (c.col0 + p.2) =
        (let n := s.cellIn p; { n.cell with w := n.cell.w.set x.toNat (w n) x.isLt })) ∧
      (∀ row col, col < 704 → c.holds row col = false → t.cellAt row col = s.cellAt row col) ∧
      (∀ n, bad n = false → w n = new n) ∧
      (∀ n, bad n = true → (w n).exp = 0 ∧ (w n).bub = false ∧ ∀ e, e < 16 → sliceWeight (w n) e = 0))

/-- R53, R67, R68, R148, R192, R193, R243: MACF, MACB and MACP send the activation on to E and a partial sum to S in every cell: a
bubble activation passes the partial sums; MACF adds the products of each row of the activation; MACB and MACP keep an integer sum
over three cell rows and round it into the partial sum in the third. VHIST adds weights to the bins from d to c3. -/
def Obligations.CellSums : Prop :=
  (∀ q i o f x s, ∃ (y : CellIn → Beat) (t : State), exec (.cellMacf q i o f x) s = .next t ∧ MacResult q f x y s t ∧ ∀ n,
    let p := if n.north.bub then Token.reset else n.north.tok 0 0
    (n.west.bub = true → y n = n.north) ∧
    (n.west.bub = false → (y n).bub = false ∧ (y n).tag = 0 ∧ ∀ l, l < 16 →
      (y n).valid.getLsbD l = (decide (l < tokensOf f.toNat) && p.valid.getLsbD l) ∧
      (l < tokensOf f.toNat → (y n).data.extractLsb' (32 * l) 32 =
        if (n.west.tok f.toNat l).valid = 0 then p.data.extractLsb' (32 * l) 32
        else macfLane n i o (p.data.extractLsb' (32 * l) 32) (n.west.tok f.toNat l) (n.cell.w[x.toNat]'(x.isLt))))) ∧
  (∀ mp q i o f x s, f = 10 ∨ f = 12 ∨ f = 15 → ∃ (y : CellIn → Beat) (t : State),
    exec (if mp then .cellMacp q i o f x else .cellMacb q i o f x) s = .next t ∧ MacResult q f x y s t ∧ ∀ n,
      let p := if n.north.bub then Token.reset else n.north.tok 0 0
      let aw := bfpWidth f.toNat
      let w := n.cell.w[x.toNat]'(x.isLt)
      let ww := if mp then 6 else if w.tag.toNat < 10 then 8 else bfpWidth w.tag.toNat
      let bad := !mp && !w.bub && decide (w.tag.toNat < 10)
      let lane := fun (t : Line) (l : Nat) => t.extractLsb' (32 * l) 32
      let ew := if n.i % 3 = 0 then w.exp else if n.north.bub then 0 else n.north.exps.extractLsb' 0 8
      let sum := fun (r : Nat) =>
        ((List.range 16).map fun e => (n.west.data.extractLsb' ((16 * r + e) * aw) aw).toInt * macWeight mp w e).sum
      let it := fun (r : Nat) => if n.i % 3 = 0 then sum r else ((lane p.data (8 + r)).extractLsb' 0 24).toInt + sum r
      let ea := fun (r : Nat) =>
        if n.i % 3 = 0 then n.west.data.extractLsb' (256 + 8 * r) 8 else (lane p.data (8 + r)).extractLsb' 24 8
      (n.west.bub = true → y n = n.north) ∧
      (n.west.bub = false → (y n).bub = false ∧ (y n).tag = 0 ∧ (y n).exps.extractLsb' 0 8 = ew ∧
        ∀ r, r < 8 → (y n).valid.getLsbD r = decide (r < 16 / aw) ∧ (y n).valid.getLsbD (8 + r) = decide (r < 16 / aw) ∧
          (r < 16 / aw →
            (bad = true → lane (y n).data r = BitVec.ofNat 32 (defaultNaN 0)) ∧
            (n.i % 3 = 2 → lane (y n).data (8 + r) = 0 ∧
              (bad = false → lane (y n).data r = (blockPsum (i == 1) (o == 1) (lane p.data r) (it r) (ea r) ew aw ww).1)) ∧
            (n.i % 3 ≠ 2 → lane (y n).data (8 + r) = ea r ++ BitVec.ofInt 24 (it r) ∧
              (bad = false → (decodeFloat 0 (lane p.data r).toNat).isNaN = false →
                lane (y n).data r = lane p.data r))))) ∧
  (∀ d a b c q i o f x s, let u : RowUse := ⟨d, a, b, c, q, f, x⟩
    ∃ (y : CellIn → Nat → Beat) (t : State), exec (.cellVhist d a b c q i o f x) s = .next t ∧
      t = { s with region := { s.region with
        landings := s.region.landings ++ s.region.cfg.cells.flatMap (fun p =>
          (List.range (4 - d.toNat)).map (fun j => ⟨p.1, p.2, BitVec.ofNat 3 (d.toNat + j), s.graph.slotNo + 1,
            y (s.cellIn p) j, (s.cellIn p).allow u⟩)) } } ∧
      ∀ n j, d.toNat + j < 4 →
        let old := n.cell.c.toList.getD (d.toNat + j) Beat.bubble
        let ta := (n.operand u a).tok 9 0
        let tb := (n.operand u b).tok 9 0
        (y n j).tag = old.tag ∧ (y n j).bub = old.bub ∧
        (f = 9 → old.tag = 9 → ∀ l, l < 16 → (y n j).data.extractLsb' (32 * l) 32 =
          if ta.bub = false ∧ tb.bub = false ∧ ta.valid.getLsbD l = true ∧ tb.valid.getLsbD l = true ∧
              (ta.data.extractLsb' (32 * l) 32).toNat = j then
            old.data.extractLsb' (32 * l) 32 + tb.data.extractLsb' (32 * l) 32
          else old.data.extractLsb' (32 * l) 32))

/-- R99, R198, R199, R284 to R286, R290, R291, R319: AGEN, AREQ, ASTQ and ARED complete: AGEN steps a stream's counters; the others act
cell by cell, by row, then column. An AREQ puts a latch in its consumer's window and a request on its way: with no ward, or one that
does not let it read, the reply is invalid and the region records REFUSED with the VA; a pending creel entry of its line, and an
unmapped page, hold the graph; where nothing of the region is outstanding, the line that is read becomes the reply. A store that no
ward lets through is recorded and dropped; where nothing is outstanding, one that reaches its home changes the bytes of its mask and
no other byte, and one to an unmapped page becomes a creel entry. -/
def Obligations.CellStreams : Prop :=
  (∀ q i o (k : BitVec 5) s, ∃ t, exec (.cellAgen q i o k) s = .next t ∧
    t = { s with region := { s.region with counters := t.region.counters } } ∧
    (let v := s.region.cfg.field (0x105 + 8 * k.toNat)
      let n := sparseGet (0, 0, 0) s.region.counters k.toNat
      sparseGet (0, 0, 0) t.region.counters k.toNat =
        (if n.1 < (v.extractLsb' 0 10).toNat then (n.1 + 1, n.2.1, n.2.2)
         else if n.2.1 < (v.extractLsb' 10 10).toNat then (0, n.2.1 + 1, n.2.2)
         else if n.2.2 < (v.extractLsb' 20 10).toNat then (0, 0, n.2.2 + 1)
         else (0, 0, 0)) ∧
      ∀ j, j ≠ k.toNat → sparseGet (0, 0, 0) t.region.counters j = sparseGet (0, 0, 0) s.region.counters j)) ∧
  (∀ (r : Region) k i j, let f := fun o => r.cfg.field (0x100 + 8 * k + o)
    let n := sparseGet (0, 0, 0) r.counters k
    let base : Int := (f 0).toNat + 2 ^ 32 * ((f 1).extractLsb' 0 16).toNat
    (r.streamVa k i j : Int) = (base + n.1 * (f 2).toInt + n.2.1 * (f 3).toInt + n.2.2 * (f 4).toInt +
      64 * (i * ((f 6).extractLsb' 0 16).toInt + j * ((f 6).extractLsb' 16 16).toInt)) % 2 ^ 48) ∧
  (∀ q i o (k : BitVec 5) s, exec (.cellAreq q i o k) s =
    .next ((s.region.cfg.cells.foldl (fun u p => u.areqCell s.region.id k.toNat p) s.settle).focusRegion s.region.id)) ∧
  (∀ a q i o (k : BitVec 5) s, exec (.cellAstq a q i o k) s =
    .next ((s.region.cfg.cells.foldl (fun u p =>
      let b := u.agnBeat s.region.id a p
      if b.bub then u else u.agnWrite s.region.id ((u.reg s.region.id).streamVa k.toNat p.1 p.2) 0 (beatMask b) b.data)
      s.settle).focusRegion s.region.id)) ∧
  (∀ a q i o (k : BitVec 5) s, exec (.cellAred a q i o k) s =
    .next ((s.region.cfg.cells.foldl (fun u p =>
      let b := u.agnBeat s.region.id a p
      let y := b.tok b.tag.toNat 0
      let r := u.reg s.region.id
      let fn := match ((r.cfg.field (0x101 + 8 * k.toNat)).extractLsb' 17 3).toNat with
        | 0 => ((1 : BitVec 3), 4)
        | 1 => (2, 4)
        | 2 => (3, 2)
        | 3 => (4, 4)
        | _ => (5, 4)
      u.agnWrite s.region.id (r.streamVa k.toNat p.1 p.2) fn.1 (redMask y fn.2) y.data) s.settle).focusRegion s.region.id)) ∧
  (∀ (u : State) r k p y, u.graph.getRegion r = some y →
    let t := u.areqCell r k p
    let hi := y.cfg.field (0x101 + 8 * k)
    let cons := y.cfg.field (0x107 + 8 * k)
    let va := y.streamVa k p.1 p.2
    let w := findWard y.wards.toList va
    let tag := hi.extractLsb' 20 4
    let id := u.graph.reqId
    t.graph.reqId = id + 1 ∧
    (∀ z, u.graph.getRegion (cons.extractLsb' 0 10).toNat = some z → ∃ z',
      t.graph.getRegion (cons.extractLsb' 0 10).toNat = some z' ∧ z'.latches = z.latches ++ [⟨id, hi.extractLsb' 24 5,
        if cons.getLsbD 10 then .n else .w, if cons.getLsbD 10 then p.2 else p.1, u.graph.slotNo, none⟩]) ∧
    ∃ x ∈ t.graph.requests, x.id = id ∧ x.agn = r ∧ x.consumer = (cons.extractLsb' 0 10).toNat ∧ x.tag = tag ∧
      ((∀ z, w = some z → z.pr = false) → x.answer = some ⟨0, tag, 0, false, 0, 0⟩ ∧ t.mem = u.mem ∧
        ∃ y', t.graph.getRegion r = some y' ∧ y'.status.refused = true ∧
          (y.status.fails = 0 → y'.status.firstIa = BitVec.ofNat 44 va)) ∧
      (∀ z, w = some z → z.pr = true → z.isRemote = false →
        ((∃ e ∈ y.creel, e.state = .pending ∧ e.seq < y.creelSeq ∧ e.dest = none ∧ e.ia.toNat / 64 ∈ loadLines u (z.ia va)) →
          x.answer = none ∧ holdLoadSrc id ∈ t.graph.holds ∧ t.mem = u.mem) ∧
        ((∀ e ∈ y.creel, e.state ≠ .pending) → y.owedRemote = [] → y.heldWrites = [] →
          (∀ x ∈ u.graph.requests, x.agn = r → x.answer.isSome = true) →
          (∀ l ∈ loadLines u (z.ia va), l ∉ u.island.dirtyLines) →
          ∃ v, v = { u with graph := v.graph } ∧
            (∀ n attr v', hubLoad v (z.ia va) 64 (Access.loads false) = .value n attr v' →
              x.answer = some (replyBeat (hi.getLsbD 16) tag (BitVec.ofNat 512 n))) ∧
            (∀ page, hubLoad v (z.ia va) 64 (Access.loads false) = .unmapped page → x.held = some page ∧ x.answer = none ∧
              holdLoadSrc id ∈ t.graph.holds ∧ t.mem = u.mem ∧
              ∃ n ∈ t.notices, n.page = page ∧ n.who = .agn u.graph.slot r ∧ n.ctx = u.graph.ctx)))) ∧
  (∀ tag line, replyBeat false tag line =
    ⟨line, tag, 0, false, BitVec.ofNat 128 (2 ^ (16 * tokensOf tag.toNat) - 1), 0⟩) ∧
  (∀ (u : State) r va op mask data y, u.graph.getRegion r = some y →
    let w := findWard y.wards.toList va
    let t := u.agnWrite r va op mask data
    ((∀ z, w = some z → z.pw = false) → t.mem = u.mem ∧
      ∃ y', t.graph.getRegion r = some y' ∧ y'.status.refused = true ∧
        y'.status.fails.toNat = min 4095 (y.status.fails.toNat + 1) ∧
        (y.status.fails = 0 → y'.status.firstIa = BitVec.ofNat 44 va)) ∧
    (∀ z, w = some z → z.pw = true → z.isRemote = false → y.creel = [] → y.sent = [] → y.owedRemote = [] → y.heldWrites = [] →
      (∀ x ∈ u.graph.requests, x.agn ≠ r) → (op = 0 ∨ z.ia va / 64 ∉ u.island.dirtyLines) →
      (∀ loc attr v, hubAccess u (z.ia va / 64 * 64) Access.stores = .at loc attr v → loc % 64 = 0 → linePoisoned v loc = false →
        (∀ k, k < 64 → readByte t.mem (loc + k) = if mask.getLsbD k then
          BitVec.ofNat 8 (combineLine op.toNat data.toNat (readBytes u.mem loc 64) / 2 ^ (8 * k)) else readByte u.mem (loc + k)) ∧
        MemKeptBut loc 64 u t ∧ ∃ y', t.graph.getRegion r = some y' ∧ y'.creel = [] ∧ y'.heldWrites = []) ∧
      (∀ page, hubAccess u (z.ia va / 64 * 64) Access.stores = .unmapped page → t.mem = u.mem ∧
        (∃ n ∈ t.notices, n.page = page ∧ n.who = .agn u.graph.slot r ∧ n.ctx = u.graph.ctx) ∧
        ∃ y' e, t.graph.getRegion r = some y' ∧ y'.creel = [e] ∧ y'.heldWrites = [] ∧ e.op = op ∧ e.mask = mask ∧ e.data = data ∧
          e.state = .pending ∧ e.ia.toNat = z.ia va / 64 * 64)))

/-- R200 to R202, R216, R256, R257, R274 to R276, R292, R293, R421: FEEDR reads operand memory, as the present port slot found it, for
the enabled positions of its edge, each beat to arrive 12 slots on, counts the words that it had to correct, and steps its cursor; OUTR takes its places for the end of the slot. AWIN writes in each cell the beat
of the oldest request that is due, or a bubble, and removes it; where a reply is absent, the graph waits under HOLD with W of 8 or
more and else takes a schedule-miss. -/
def Obligations.CellFeeds : Prop :=
  (∀ q i o (f : BitVec 4) (e : BitVec 5) s,
    let r := s.region
    let a := r.cfg.field (0x80 + 2 * e.toNat)
    let b := r.cfg.field (0x81 + 2 * e.toNat)
    let edge := edgeOfCode (b.extractLsb' 10 2)
    let cur : Nat × Nat := sparseGet ((a.extractLsb' 8 9).toNat, 0) r.cursors e.toNat
    let x := fun (h : Nat) => (a.extractLsb' 0 8).toNat * 65536 + 128 * (cur.1 % 512) + 64 * h
    let step := fun (y : Region) => sparseGet ((a.extractLsb' 8 9).toNat, 0) y.cursors e.toNat =
      if (b.extractLsb' 0 10).toNat ≤ cur.2 then ((a.extractLsb' 8 9).toNat, 0)
      else ((((cur.1 : Int) + (a.extractLsb' 17 10).toInt) % 512).toNat, cur.2 + 1)
    let halves := fun tile => [0, 1].filter fun h =>
      b.getLsbD (20 + h) && (r.cfg.localPos edge tile (b.extractLsb' (12 + 4 * h) 4).toNat).isSome
    (∃ t, exec (.cellFeedr q i o f e) s = .next t ∧ step t.region ∧ t = { s with
        region := { r with feeds := t.region.feeds, cursors := t.region.cursors }, graph := t.graph
        tile := t.tile, tiles := t.tiles } ∧
      (∀ n, t.getTile n = { s.getTile n with omCorr := (t.getTile n).omCorr }) ∧
      (∀ n, n ∉ r.cfg.edgeTiles edge → t.getTile n = s.getTile n) ∧
      (∀ n ∈ r.cfg.edgeTiles edge, (t.getTile n).omCorr.toNat = min (2 ^ 32 - 1) ((s.getTile n).omCorr.toNat +
        ((halves n).map fun h => ((s.getTile n).omErrors.filter fun k => k / 8 == x h / 64).length).sum)) ∧
      (∃ l, t.region.feeds = r.feeds ++ l ∧
        (∀ y ∈ l, y.due = s.graph.slotNo + 12 ∧ y.edge = edge) ∧
        (∀ tile h pos, tile ∈ r.cfg.edgeTiles edge → h < 2 → b.getLsbD (20 + h) = true →
          r.cfg.localPos edge tile (b.extractLsb' (12 + 4 * h) 4).toNat = some pos → ∃ y ∈ l,
            (y.i, y.j) = r.cfg.edgeCell pos edge ∧ y.beat.tag = f ∧ y.beat.bub = false ∧ y.beat.pred = 0 ∧
            ∀ z, OmSees s tile (x h) z →
              (z.poison = true → y.beat.valid = 0) ∧
              (z.poison = false → y.beat.data = z.data ∧
                y.beat.valid = BitVec.ofNat 128 (2 ^ (16 * tokensOf f.toNat) - 1) ∧
                ∀ p, p < tokensOf f.toNat → y.beat.exps.extractLsb' (8 * p) 8 = z.exp))) ∧
      ((∀ tile ∈ r.cfg.edgeTiles edge, ∀ h ∈ halves tile, ∀ z, OmSees s tile (x h) z → z.poison = false) →
        t.graph = { s.graph with devs := t.graph.devs })) ∧
    (∃ t, exec (.cellOutr q i o e) s = .next t ∧ step t.region ∧ t = { s with
      region := { r with outs := r.outs ++ [⟨a, b, cur.1⟩], cursors := t.region.cursors } })) ∧
  (∀ d q i o (w : BitVec 5) s, let u : RowUse := ⟨d, 0, 0, 0, q, 0, 0⟩
    let cells := s.region.cfg.cells
    let beat := fun (x : Due) => match x with
      | .reply b _ _ => b
      | .gate b _ _ _ => b
      | _ => Beat.bubbleOf 0
    ((∀ p ∈ cells, ∀ ed pos n, s.windowDue w p ≠ .absent ed pos n) →
      ∃ t, exec (.cellAwin d q i o w) s = .next t ∧ t = { s with region := t.region, gates := t.gates } ∧
        t.region = { s.region with
          landings := t.region.landings, latches := t.region.latches, feeds := t.region.feeds, status := t.region.status } ∧
        t.region.landings = s.region.landings ++ cells.flatMap (fun p => (destsOf d).map fun k =>
          ⟨p.1, p.2, k, s.graph.slotNo, beat (s.windowDue w p), (s.cellIn p).allow u⟩) ∧
        (∀ l ∈ s.region.latches, l ∈ t.region.latches ↔ ∀ p ∈ cells, ∀ b ed, s.windowDue w p ≠ .reply b l.id ed)) ∧
    (∀ pre p post ed pos n, cells = pre ++ p :: post → (∀ x ∈ pre, ∀ ed pos n, s.windowDue w x ≠ .absent ed pos n) →
      s.windowDue w p = .absent ed pos n →
      let c := s.region.cfg
      let wait := (c.field (0x40 + w.toNat)).getLsbD 16 &&
        (n.isNone || decide (8 ≤ ((c.field (0x40 + w.toNat)).extractLsb' 0 10).toNat + 1))
      (wait = true → ∃ t, exec (.cellAwin d q i o w) s = .next t ∧ t.region = s.region ∧ t.mem = s.mem ∧
        s.region.id ∈ t.graph.todo ∧ (∀ k, n = some k → holdWindow k ∈ t.graph.holds) ∧
        (s.graph.fault = none → t.graph.fault = none)) ∧
      (wait = false → s.graph.fault = none → ∃ t f, exec (.cellAwin d q i o w) s = .next t ∧ t = { s with graph := { s.graph with
          stopped := true, grace := 8, fault := some f, faulted := s.graph.faulted ++ [s.region.id] } } ∧
        f.cause = 1 ∧ f.row = BitVec.ofNat 8 (s.region.slots % c.rrows) ∧ f.region = BitVec.ofNat 10 s.region.id))) ∧
  (∀ (s : State) (w : BitVec 5) (p : Nat × Nat),
    let places := (if p.2 = 0 then [(Edge.w, p.1)] else []) ++ if p.1 = 0 then [(Edge.n, p.2)] else []
    let len := ((s.region.cfg.field (0x40 + w.toNat)).extractLsb' 0 10).toNat + 1
    let due := s.region.latches.filter fun l => l.win == w && places.contains (l.edge, l.pos) &&
      decide (l.issue + len ≤ s.graph.slotNo)
    (∀ e ∈ places, s.gateAt w e = none) →
      (due = [] → s.windowDue w p = .nothing) ∧
      ∀ l ∈ due, (∀ y ∈ due, y = l ∨ l.issue < y.issue ∨ (l.issue = y.issue ∧ l.edge = .w ∧ y.edge = .n)) →
        s.windowDue w p = match l.reply with
          | some b => .reply b l.id l.edge
          | none => .absent l.edge l.pos (some l.id))

/-! ### Events -/

/-- R199, R250, R254 to R257, R261, R266, R276: the events of a slot. A region whose stages empty at a pass has run out; one that
waits to switch pauses once it has drained, and takes its new configuration; a hold source rises or drops; a window is checked eight
slots early; a reply enters its latch and drops its holds; an operand memory deviation holds the graph, and poisons the token where
the retry fails; the beats of a gate come one slot nearer the latch. -/
def Obligations.SlotEvents : Prop :=
  ∀ (g : Nat) (s u : State) (x : Graph), u = s.settle → u.getGraph g = some x →
    (∀ r, ∃ t, exec (.regionRunOut g r) s = .next t ∧ GraphTo g { x with regions := x.regions.map fun y =>
      if y.id = r ∧ y.loop = .running ∧ y.slots % y.cfg.rrows = 0 ∧ y.nextSv = 0 then { y with loop := .runOut, sv := 0 }
      else y } u t) ∧
    (∀ (y : Region), let counts := ([1, 2, 3].map fun k => (y.cfg.field k).toNat).filter fun n => n != 0
      y.nextSv = BitVec.ofNat 8 ((2 * y.sv.toNat + if counts = [] ∨ y.pass < counts.foldl (· * ·) 1 then 1 else 0) %
        2 ^ ((y.cfg.field 4).extractLsb' 0 4).toNat)) ∧
    (∀ r, ∃ t, exec (.regionDrainPoint g r) s = .next t ∧ GraphTo g { x with regions := x.regions.map fun y =>
      if y.id = r ∧ y.loop = .running ∧ y.next.isSome = true ∧ y.slots % y.cfg.rrows = 0 ∧ y.latches = [] ∧
          (∀ f ∈ x.flights, f.beat.bub = true ∨ y.cfg.atEdge f = false) ∧
          (∀ q ∈ u.gates, q.closed = true ∨ q.toGraph ≠ x.slot ∨ q.toRegion ≠ y.id ∨ q.beats = []) then
        { y with loop := .paused } else y } u t) ∧
    (∀ r y c, x.getRegion r = some y → y.next = some c →
      (y.loop = .paused ∨ y.loop = .runOut → y.landings = [] → y.feeds = [] → u.streamEnded x r = true →
        ∃ t y', exec (.regionSwitch g r) s = .next t ∧ t.getRegion g r = some y' ∧ t.mem = u.mem ∧ t.tile = u.tile ∧
          y' = { y with cfg := c, next := none, loop := if y.loop = .paused then .running else .runOut, status := y'.status }) ∧
      (y.loop = .running ∨ y.loop = .idle ∨ y.landings ≠ [] ∨ y.feeds ≠ [] ∨ u.streamEnded x r = false →
        exec (.regionSwitch g r) s = .next u)) ∧
    (∀ src, ∃ t, exec (.holdRaise g src) s = .next t ∧ GraphTo g { x with holds := raised src x.holds } u t) ∧
    (∀ src, ∃ t, exec (.holdDrop g src) s = .next t ∧ GraphTo g { x with holds := x.holds.filter fun k => k != src } u t) ∧
    (∀ r w y, x.getRegion r = some y → ∃ t h, exec (.windowCheck g r w) s = .next t ∧ GraphTo g { x with holds := h } u t ∧
      ∀ k, k ∈ h ↔ k ∈ x.holds ∨ ((y.cfg.field (0x40 + w)).getLsbD 16 = true ∧
        8 ≤ ((y.cfg.field (0x40 + w)).extractLsb' 0 10).toNat + 1 ∧ ∃ l ∈ y.latches, l.win.toNat = w ∧ l.reply = none ∧
          l.issue + ((y.cfg.field (0x40 + w)).extractLsb' 0 10).toNat + 1 = x.slotNo + 8 ∧ k = holdWindow l.id)) ∧
    (∀ id q, g < 64 → (x.requests.find? fun y => y.id == id && y.answer.isSome) = some q → ∃ t l,
      exec (.windowReplyArrive (g + 64 * id)) s = .next t ∧
      t = { u with graph := t.graph, graphs := t.graphs, agenda := u.agenda ++ l } ∧
      t.getGraph g = some { x with
        requests := x.requests.filter fun y => y.id != id
        holds := x.holds.filter fun k => k != holdWindow id && k != holdLoadSrc id
        regions := x.regions.map fun y => if y.id = q.consumer then
          { y with latches := y.latches.map fun l => if l.id = id then { l with reply := q.answer } else l } else y }) ∧
    (∀ r, ∃ t, exec (.feedDeliver g r) s = .next t ∧ GraphTo g { x with regions := x.regions.map fun y => if y.id = r then
      let due := y.feeds.filter fun f => f.due == x.slotNo
      { y with status := { y.status with coll := y.status.coll || (due.any fun f => x.neighbourBeat y.cfg f) ||
        (y.loop == .paused && !due.isEmpty) } } else y } u t) ∧
    (∀ tile slot tok, u.graphOfTile tile = some x → x.slot = g →
      (∃ t, exec (.omReadDeviation tile slot tok false) s = .next t ∧ GraphTo g { x with holds := raised (holdOm tile) x.holds } u t) ∧
      ∃ t x', exec (.omReadDeviation tile slot tok true) s = .next t ∧ t.getGraph g = some x' ∧ t.mem = u.mem ∧
        x'.holds = raised (holdOm tile) x.holds ∧
        (slot % 256 * 65536 + 64 * (tok % 1024)) / 64 ∈ (t.getTile tile).omPoison ∧
        (x.fault = none → x'.regions ≠ x.regions → ∃ f, x'.fault = some f ∧ f.cause = 3 ∧
          f.detail = BitVec.ofNat 64 (slot % 256 * 65536 + 64 * (tok % 1024)) ∧ x'.stopped = true)) ∧
    (∀ n, exec (.gateBeatArrive n) s = .next { s with gates := s.gates.map fun q =>
      if q.num = n then { q with beats := q.beats.map fun b => { b with left := b.left - 1 } } else q })

/-- R292, R293, R358, R359, R377 to R382: TIME advances by 10 at a reference tick, which charges resident cores and bound graphs while
the clocks run; a spine's frequency changes, CK0's never; a tile that loses its primary source holds its graph until the alternate
is locked, and one that loses both, at once or in turn, stops it with SPINE_LOSS; a stretched cycle adds to the phase debt, which holds the graph above 2
cycles; a thermal emergency gates the clocks; the power policy drains the lowest PRIO first, and its request has the graph end at
its next parcel. -/
def Obligations.ClockEvents : Prop :=
  ∀ (s u : State), u = s.settle →
    (∃ t l, exec .referenceTick s = .next t ∧ t.time = s.time + 10 ∧ t.agenda = s.agenda ++ l ∧
      (∀ k v f, (k, v) ∈ s.keys → v.flip = some f → f.toNat ≤ (s.time + 10).toNat → .keyFlip k ∈ l) ∧
      (s.mgmt.thermal = true ∨ s.island.st = .ireset ∨ s.island.st = .off → t = { s with time := t.time, agenda := t.agenda }) ∧
      (s.mgmt.thermal = false → s.island.st ≠ .ireset → s.island.st ≠ .off →
        t = { s with time := t.time, agenda := t.agenda, tile := t.tile, tiles := t.tiles, graph := t.graph, graphs := t.graphs } ∧
        (∀ n c e, c = (s.getTile n).core → e = c.energy.toNat + c.statw.toNat → t.getTile n = { s.getTile n with core :=
          if c.resident = true ∧ c.run = .running then
            { c with energy := if 2 ^ 48 ≤ e then BitVec.allOnes 48 else BitVec.ofNat 48 e
                     energySat := c.energySat || decide (2 ^ 48 ≤ e) }
          else c }) ∧
        (∀ g x e, g < 64 → s.getGraph g = some x → e = x.energy.toNat + s.mgmt.statg.toNat * (x.trows * x.tcols) →
          t.getGraph g = some { x with
            energy := if 2 ^ 48 ≤ e then BitVec.allOnes 48 else BitVec.ofNat 48 e
            energySat := x.energySat || decide (2 ^ 48 ≤ e) }))) ∧
    exec .thermalEmergency s = .next { s with mgmt := { s.mgmt with thermal := true } } ∧
    exec .thermalClear s = .next { s with mgmt := { s.mgmt with thermal := false } } ∧
    (∃ t, exec .throttleByBudget s = .next t ∧
      ((∀ x ∈ u.allGraphs, x.drain = true) → t = u) ∧
      ∀ x ∈ u.allGraphs, x.drain = false → ∃ y ∈ u.allGraphs, y.drain = false ∧
        (y.record.extractLsb' 16 2).toNat ≤ (x.record.extractLsb' 16 2).toNat ∧
        t = { u with graph := t.graph, graphs := t.graphs, agenda := u.agenda ++ [.drainRequest y.slot] } ∧
        (u.getGraph y.slot = some y → t.getGraph y.slot = some { y with limited := true }) ∧
        ∀ k, k ≠ y.slot → t.getGraph k = u.getGraph k) ∧
    (∀ g, (∀ x, u.getGraph g = some x → ∃ t, exec (.drainRequest g) s = .next t ∧ GraphTo g { x with drain := true } u t) ∧
      (u.getGraph g = none → exec (.drainRequest g) s = .next u)) ∧
    (∀ k f, (k = 0 ∨ 44 < f.toNat → exec (.spineFreqChange k f) s = .next s) ∧
      (k ≠ 0 → f.toNat ≤ 44 → ∃ t, exec (.spineFreqChange k f) s = .next t ∧
        t = { s with tile := t.tile, tiles := t.tiles, mgmt := { s.mgmt with freqs := t.mgmt.freqs } } ∧
        t.mgmt.freqs.toList = s.mgmt.freqs.toList.set k.toNat f ∧
        t.tile = { s.tile with spine := { s.tile.spine with
          freq := if s.tile.spine.sel = k then f else s.tile.spine.freq } })) ∧
    (∀ n x, u.graphOfTile n = some x → u.getGraph x.slot = some x →
      ((u.getTile n).spine.aLost = false → ∃ t, exec (.spineSourceLoss n false) s = .next t ∧
        t = { u with tile := t.tile, tiles := t.tiles, graph := t.graph, graphs := t.graphs } ∧
        t.getTile n = { u.getTile n with spine := { (u.getTile n).spine with pLost := true, onAlt := true } } ∧
        t.getGraph x.slot = some { x with holds := raised (holdSpine n) x.holds }) ∧
      (∀ both, both = true ∨ (u.getTile n).spine.aLost = true → ∃ t f, exec (.spineSourceLoss n both) s = .next t ∧
        t = { u with tile := t.tile, tiles := t.tiles, graph := t.graph, graphs := t.graphs, free := t.free } ∧
        t.getTile n = { u.getTile n with spine := { (u.getTile n).spine with pLost := true, aLost := true } } ∧
        (x.fault = none → t.getGraph x.slot = some { x with stopped := true, grace := 0, fault := some f } ∧ f.cause = 5 ∧
          f.detail = 0 ∧ f.time = s.time ∧ f.trow = BitVec.ofNat 6 (n / 44) ∧ f.tcol = BitVec.ofNat 6 (n % 44))) ∧
      (∃ t, exec (.spineAltLocked n) s = .next t ∧
        GraphTo x.slot { x with holds := x.holds.filter fun k => k != holdSpine n } u t)) ∧
    (∀ n, let y := (u.getTile n).spine
      ∃ t, exec (.droopStretch n) s = .next t ∧
        t = { u with tile := t.tile, tiles := t.tiles, graph := t.graph, graphs := t.graphs } ∧
        t.getTile n = { u.getTile n with spine := { y with
          stretch := if y.stretch = 0xFFFF then y.stretch else y.stretch + 1, debt := if y.debt = 0xFF then y.debt else y.debt + 1 } } ∧
        (y.debt.toNat < 4 → t.graph = u.graph ∧ t.graphs = u.graphs) ∧
        (4 ≤ y.debt.toNat → ∀ x, u.graphOfTile n = some x → u.getGraph x.slot = some x →
          t.getGraph x.slot = some { x with holds := raised (holdDroop n) x.holds }))

/-- R203, R207, R213, R214, R218, R223 to R227, R231 to R234, R341, R350, R382: the ends of commands. A command that cannot start
stays queued; HOOP arms, counts arrivals and answers queries, and a hoop opens once its arrivals and bytes are in; a key turns at T; a
drain writes accumulators to operand memory; a claim takes free slots as zeros or lands NOSLOT; a page-table invalidation empties
the hubs' copies and every issuer's attributes; a migration switches the entry with the bytes copied, tries again or gives up; a
split's slices change one by one; a copy and an encoding leave their engines and land. -/
def Obligations.CommandEvents : Prop :=
  ∀ (s u : State) (n k : Nat) (r : CmdRef), u = s.settle → r = ⟨n, k⟩ →
    (((u.getTile n).core.cmds.find? fun y => y.serial == k) = none → u.mgmt.saved = [] → exec (.commandStart n k) s = .next u) ∧
    (∀ x, ((u.getTile n).core.cmds.find? fun y => y.serial == k) = some x →
      (x.state ≠ .queued ∨ (∃ w ∈ (u.getTile n).core.sent, w.ctx = x.ctx) ∨ (∃ e ∈ (u.getTile n).core.aloft, e.ctx = x.ctx) ∨
          (∃ w ∈ (u.getTile n).core.owedRemote, w.entry.ctx = x.ctx) ∨
          (∃ e ∈ (u.getTile n).core.creel, e.ctx = x.ctx ∧ e.seq < x.barrier ∧ e.live = true) ∨
          (∃ y ∈ (u.getTile n).core.cmds, y.kind = x.kind ∧ y.serial < x.serial ∧ y.state ≠ .started) →
        exec (.commandStart n k) s = .next u) ∧
      (x.kind = .hoop → u.cmdReady n x = true →
        let h := (x.sa.extractLsb' 0 6).toNat
        let op := (x.sa.extractLsb' 8 2).toNat
        let y := u.hoops.toList.getD h Hoop.reset
        let held := ∃ g, u.graphOfTile n = some g ∧ g.record.getLsbD (128 + h) = true
        ∃ t, exec (.commandStart n k) s = .next t ∧
          (x.sa.extractLsb' 6 2 ≠ 0 ∨ x.sa.extractLsb' 10 54 ≠ 0 ∨ op = 3 → Lands r ⟨0x10, 0xF1, 0⟩ u t) ∧
          (x.sa.extractLsb' 6 2 = 0 → x.sa.extractLsb' 10 54 = 0 → op ≠ 3 →
            (¬ held → Lands r ⟨0x11, 8, BitVec.ofNat 32 h⟩ u t) ∧
            (held → op ≠ 1 → x.sb ≠ 0 → Lands r ⟨0x10, 0xF2, 0⟩ u t) ∧
            (held → op = 0 → x.sb = 0 → y.p = 0 → Lands r ⟨0x11, 8, BitVec.ofNat 32 h⟩ u t) ∧
            (held → op = 0 → x.sb = 0 → y.p ≠ 0 →
              t = { u with tile := t.tile, tiles := t.tiles, hoops := t.hoops, agenda := t.agenda } ∧
              t.hoops.toList.getD h Hoop.reset = (if y.p.toNat ≤ y.arrivals.length then { y with early := y.early ++ [.cmd r] }
                else { y with arrivals := y.arrivals ++ [.cmd r] }) ∧
              (y.arrivals.length + 1 = y.p.toNat → y.bytes = 0 → .hoopOpen h ∈ t.agenda)) ∧
            (held → op = 1 → x.sb = 0 ∨ 4096 < x.sb.toNat → Lands r ⟨0x10, 0xF2, 0⟩ u t) ∧
            (held → op = 1 → x.sb ≠ 0 → x.sb.toNat ≤ 4096 →
              (y.arrivals ≠ [] ∨ y.bytes ≠ 0 → Lands r ⟨0x15, 0, 0⟩ u t) ∧
              (y.arrivals = [] → y.bytes = 0 → ∃ v, v = { u with hoops := v.hoops } ∧
                v.hoops.toList.getD h Hoop.reset = { y with p := x.sb.extractLsb' 0 13 } ∧
                Lands r ⟨0, 0, BitVec.ofNat 32 y.g.toNat⟩ v t)) ∧
            (held → op = 2 → x.sb = 0 →
              Lands r ⟨0, 0, BitVec.ofNat 32 (y.arrivals.length + 65536 * (y.g.toNat % 65536))⟩ u t)))) ∧
    (∀ h x, s.hoops.toList[h]? = some x →
      (x.p ≠ 0 → x.arrivals.length = x.p.toNat → x.bytes = 0 → ∃ v t, exec (.hoopOpen h) s = .next t ∧
        v.hoops.toList.getD h Hoop.reset =
          { x with g := x.g + 1, arrivals := x.early.take x.p.toNat, early := x.early.drop x.p.toNat } ∧
        v = { s with hoops := v.hoops } ∧ t.hoops = v.hoops ∧ t.mem = s.mem ∧
        (∀ y, x.arrivals = [.cmd y] → ∃ w, Lands y ⟨0, 0, x.g + 1⟩ v w ∧ t = { w with agenda := t.agenda }) ∧
        ∀ p, x.arrivals = [.remote p] → ∃ w, Answered p (.ack (bodyId p.body) 0) v w ∧ t = { w with agenda := t.agenda }) ∧
      (x.p = 0 ∨ x.arrivals.length ≠ x.p.toNat ∨ x.bytes ≠ 0 → exec (.hoopOpen h) s = .next s) ∧
      ∃ v t, exec (.hoopAbandon h) s = .next t ∧ v = { s with hoops := v.hoops } ∧
        v.hoops.toList.getD h Hoop.reset = ⟨0, 0, 0, [], []⟩ ∧ t.hoops = v.hoops ∧ t.mem = s.mem ∧
        (x.arrivals ++ x.early = [] → t = v) ∧
        (∀ y, x.arrivals ++ x.early = [.cmd y] → Lands y ⟨0x13, 0, 0⟩ v t) ∧
        ∀ p, x.arrivals ++ x.early = [.remote p] → Answered p (.aborted (bodyId p.body)) v t) ∧
    (∀ h x, x = sparseGet Key.reset s.keys h →
      (∀ y f, x.pending = some y → x.flip = some f → f.toNat ≤ s.time.toNat → ∃ v t, exec (.keyFlip h) s = .next t ∧
        v = { s with keys := v.keys } ∧ sparseGet Key.reset v.keys h = ⟨!x.parity, none, [], none⟩ ∧
        (∀ j, j ≠ h → sparseGet Key.reset v.keys j = sparseGet Key.reset s.keys j) ∧ Lands y ⟨0, 0, f.extractLsb' 0 32⟩ v t) ∧
      (x.pending = none ∨ x.flip = none ∨ (∃ f, x.flip = some f ∧ s.time.toNat < f.toNat) → exec (.keyFlip h) s = .next s)) ∧
    (∀ x g y, Started u r .drn x → u.graphOfTile n = some g → u.getGraph g.slot = some g → drainRegion u n x = some y →
      let base := (x.sb.extractLsb' 0 24).toNat
      let a := (x.sa.extractLsb' 10 6).toNat
      let c := (x.sa.extractLsb' 16 7).toNat + 1
      n < 2112 → base % 64 = 0 → ∃ v t, exec (.drainSample n k) s = .next t ∧ Lands r ⟨0, 0, BitVec.ofNat 32 c⟩ v t ∧
        (∀ i l, i < c → l < 16 → readBytes v.mem (omLoc n (base + 64 * i) + 4 * l) 4 =
          match y.cfg.localPos .s n l with
          | some j => (sparseGet 0 y.acc (64 * j + (a + i))).toNat
          | none => 0) ∧
        (∀ i, i < c → readByte v.mem (sideLoc n (base + 64 * i)) = 0) ∧
        (∀ q, (q < omLoc n base ∨ omLoc n base + 64 * c ≤ q) → (q < sideLoc n base ∨ sideLoc n base + c ≤ q) →
          readByte v.mem q = readByte u.mem q) ∧
        (x.sa.getLsbD 23 = true → ∃ z, v.getRegion g.slot y.id = some z ∧ z = { y with acc := z.acc } ∧
          ∀ i l j, i < c → l < 16 → y.cfg.localPos .s n l = some j → sparseGet 0 z.acc (64 * j + (a + i)) = 0)) ∧
    (∀ x, Started s r .ocl x →
      let lo := (x.sa.extractLsb' 0 8).toNat
      let c := (x.sa.extractLsb' 8 8).toNat + 1
      let own := fun i => assocGet (s.getTile n).owners i
      (∀ i o, lo ≤ i → i < lo + c → own i = some o → o ≠ x.ctx →
        (∀ j, lo ≤ j → j < i → own j = none ∨ own j = some x.ctx) → ∃ t, exec (.oclGrant n k) s = .next t ∧
          Lands r ⟨0x14, 0, BitVec.ofNat 32 i⟩ s t) ∧
      ((∀ i, lo ≤ i → i < lo + c → own i = none ∨ own i = some x.ctx) → ∃ v t, exec (.oclGrant n k) s = .next t ∧
        Lands r ⟨0, 0, BitVec.ofNat 32 (((List.range c).filter fun i => own (lo + i) == none).length)⟩ v t ∧
        (∀ i, lo ≤ i → i < lo + c → assocGet (v.getTile n).owners i = some x.ctx) ∧
        (∀ i q, lo ≤ i → i < lo + c → own i = none → omLoc n (i * 65536) ≤ q → q < omLoc n (i * 65536) + 65536 →
          readByte v.mem q = 0) ∧
        (∀ i q, own i = some x.ctx → i < 256 → n < 2112 → omLoc n (i * 65536) ≤ q → q < omLoc n (i * 65536) + 65536 →
          readByte v.mem q = readByte s.mem q))) ∧
    (∀ x, Started s r .pinv x → ∃ v t, exec (.pinvDone n k) s = .next t ∧ Lands r ⟨0, 0, 0⟩ v t ∧ v.mem = s.mem ∧
      v.ptes = s.ptes ∧
      let out := fun (p : Nat) =>
        ¬ ((x.sa.extractLsb' 16 28).toNat ≤ p ∧ p ≤ (x.sa.extractLsb' 16 28).toNat + (x.sa.extractLsb' 0 16).toNat)
      (∀ h ∈ v.hubs.toList, (∀ y ∈ h.tlb, out y.1) ∧ ∀ e ∈ h.engines.toList, ∀ y ∈ e.attrs, out y.1) ∧
      (∀ m, ∀ y ∈ (v.getTile m).core.attrs, out y.1) ∧ ∀ w ∈ v.mgmt.saved, ∀ z ∈ w.tiles, ∀ y ∈ z.2.core.attrs, out y.1) ∧
    (∀ p m, (s.migrations.find? fun y => y.page == p && y.splice == false) = some m →
      let e := getPte s p
      (m.seen = false → e = m.entry → e.getLsbD 11 = false → m.shadow = none → ∃ v t, exec (.migTryEnd p) s = .next t ∧
        Lands m.ref ⟨0, 0, BitVec.ofNat 32 m.attempt⟩ v t ∧
        v = { s with mem := v.mem, linePoison := v.linePoison, ptes := v.ptes, hubs := v.hubs
                     migrations := s.migrations.filter fun y => y.page != p } ∧
        (∀ i, i < 65536 → readByte v.mem (m.frame.toNat * 65536 + i) =
          readByte s.mem ((e.extractLsb' 36 24).toNat * 65536 + i)) ∧
        MemKeptBut (m.frame.toNat * 65536) 65536 s v ∧ (∀ q, q ≠ p → getPte v q = getPte s q) ∧
        ∀ i, i < 128 → (getPte v p).getLsbD i =
          if i = 9 then false else if 36 ≤ i ∧ i < 60 then m.frame.getLsbD (i - 36) else e.getLsbD i) ∧
      (m.seen = true ∨ e ≠ m.entry → m.attempt < m.tries → exec (.migTryEnd p) s = .next { s with
        migrations := s.migrations.map fun y =>
          if y.page = p then { y with entry := e, attempt := y.attempt + 1, seen := false } else y
        hubq := s.hubq ++ [.migrate p] }) ∧
      (m.seen = true ∨ e ≠ m.entry → m.tries ≤ m.attempt → ∃ v t, exec (.migTryEnd p) s = .next t ∧
        Lands m.ref ⟨0x16, 0, BitVec.ofNat 32 m.tries⟩ v t ∧ v.mem = s.mem ∧
        v.migrations = (s.migrations.filter fun y => y.page != p) ∧
        ∀ i, i < 128 → (getPte v p).getLsbD i = if i = 9 then false else e.getLsbD i)) ∧
    (∀ p m, (s.migrations.find? fun y => y.page == p && y.splice == true) = some m →
      (getPte s p).getLsbD 11 = false → m.shadow = none → ∃ v t, exec (.migSpSwitch p) s = .next t ∧ Lands m.ref ⟨0, 0, 0⟩ v t ∧
        (∀ i, i < 65536 → readByte v.mem (m.frame.toNat * 65536 + i) =
          readByte s.mem (((getPte s p).extractLsb' 36 24).toNat * 65536 + i)) ∧
        MemKeptBut (m.frame.toNat * 65536) 65536 s v ∧ (getPte v p).extractLsb' 36 24 = m.frame) ∧
    (∀ i slice x, (s.splits.find? fun y => splitNum y.ref == i && y.todo.contains slice) = some x → slice < 768 →
      let c := cacheMiB s slice
      ∃ v t, exec (.hsplitSliceDone i slice) s = .next t ∧ sparseGet 8 (getHub v (slice / 64)).cacheSize (slice % 64) = x.size ∧
        (∀ a, readByte v.mem a = if scratchLoc slice (c * 2 ^ 20) ≤ a ∧ a < scratchLoc slice (x.size.toNat * 2 ^ 20) then 0
          else readByte s.mem a) ∧
        (x.todo = [slice] → (∀ m j, .split m j ∈ s.hubq → m ≠ i) → Lands x.ref ⟨0, 0, 0⟩ v t ∧
          ∀ y ∈ t.splits, splitNum y.ref ≠ i) ∧
        ((∃ j ∈ x.todo, j ≠ slice) → t = { v with splits := t.splits } ∧ t.splits = s.splits.map fun y =>
          if splitNum y.ref = i then { y with todo := x.todo.filter fun j => j != slice } else y)) ∧
    (∀ hub e x c rest st, x = s.engine hub e → x.queue = c :: rest → c.status = some st → copyCmpl c.record = 0 ∨ c.cmplDone = true →
      ((∀ y ∈ x.creel, y.ref ≠ some c.ref) → (∀ y ∈ x.owedRemote, y.entry.ref ≠ some c.ref) → ∃ v w t, exec (.copyComplete hub e) s = .next t ∧ Lands c.ref st v w ∧
        t = { w with keys := t.keys, hubq := t.hubq } ∧ (v.engine hub e).queue = rest ∧ v.mem = s.mem ∧
        (copyHoopen c.record = false → copyArrive c.record = false → v.hoops = s.hoops) ∧
        (copyArrive c.record = true → copyHoopen c.record = false → ∃ y, s.hoops.toList[copyHoop c.record]? = some y →
          v.hoops.toList[copyHoop c.record]? = some (if y.p.toNat ≤ y.arrivals.length then { y with early := y.early ++ [.engine] }
            else { y with arrivals := y.arrivals ++ [.engine] })) ∧
        (rest ≠ [] → .copyStep hub e ∈ t.hubq)) ∧
      ((∃ y ∈ x.creel, y.ref = some c.ref) ∨ (∃ y ∈ x.owedRemote, y.entry.ref = some c.ref) →
        exec (.copyComplete hub e) s = .next s)) ∧
    (∀ hub x rest, (getHub s hub).encodings = x :: rest →
      (x.status = none → x.segment = none → pleCount x.record ≤ x.targets.length → ∃ t, exec (.encodeComplete hub) s = .next t ∧
        t = { s with hubs := t.hubs, hubq := t.hubq } ∧
        (getHub t hub).encodings = { x with segment := some (encodeSegment x.record x.targets) } :: rest) ∧
      (∀ st, x.status = some st → pleCmpl x.record = 0 ∨ x.cmplDone = true →
        (∀ y ∈ (s.engine hub 0).creel, y.ref ≠ some x.ref) → (∀ y ∈ (s.engine hub 0).owedRemote, y.entry.ref ≠ some x.ref) →
        ∃ v w t, exec (.encodeComplete hub) s = .next t ∧ Lands x.ref st v w ∧ t = { w with keys := t.keys, hubq := t.hubq } ∧
          (getHub v hub).encodings = rest ∧ v.mem = s.mem))

/-- R273, R326, R342, R351 to R353, R412, R413: what management and the supplies do at a hub. Words 1 and 2 of a format range wait
for word 0, a reserved KIND is ignored; a bank marked for retirement drains its set, GO stripes it afresh without the bank and marks
its lines, and it returns with FRAMES counted anew, or drains again; a cache die that stops early marks every dirty frame, then loses scratch; a
frame's mark clears once its lines are; an evicted slot stays owned and returns; the companion's acknowledgement frees its line,
and what waited for it goes on. -/
def Obligations.HubMaintenance : Prop :=
  (∀ hub s h, hub < 12 → h = getHub s hub →
    (∀ n w v, ∃ t, exec (.frWrite hub n w v) s = .next t ∧ t = { s with hubs := t.hubs } ∧
      (∀ k, k ≠ hub → getHub t k = getHub s k) ∧ getHub t hub = { h with ranges := (getHub t hub).ranges } ∧
      let r := getRange h n.toNat
      let m : BitVec 64 := if w = 0 then 0xFFFFFFFFF1F else 0xFFFFFFF0000
      getRange (getHub t hub) n.toNat =
        if w = 1 then { r with s1 := v &&& m }
        else if w = 2 then { r with s2 := v &&& m }
        else if w = 0 ∧ (v.extractLsb' 1 4).toNat < 10 then { r with w0 := v &&& m, w1 := r.s1, w2 := r.s2 }
        else r) ∧
    (∀ ch bank, ∃ t x k, exec (.bankRetireMark hub ch bank) s = .next t ∧ t = { s with hubs := t.hubs, free := t.free } ∧
      x = getHub t hub ∧ x = { h with
        bankRt := x.bankRt, setSt := x.setSt, retired := h.retired ++ [(bank % 16, ch % 64)]
        lost := h.lost ++ [(bank % 16, ch % 64, k)] } ∧
      (∀ c, c < 64 → (sparseGet 0 x.bankRt (bank % 16)).getLsbD c =
        (decide (c = ch % 64) || (sparseGet 0 h.bankRt (bank % 16)).getLsbD c)) ∧
      x.setState (bank % 16) = (if h.setState (bank % 16) = 0 then 1 else h.setState (bank % 16)) ∧
      ∀ j, j < 16 → j ≠ bank % 16 → x.setState j = h.setState j) ∧
    (∀ (n : BitVec 4) v, (h.setState n.toNat = 2 → exec (.bankrtClear hub n v) s = .next s) ∧
      (h.setState n.toNat ≠ 2 → ∃ t, exec (.bankrtClear hub n v) s = .next t ∧ t = { s with hubs := t.hubs } ∧
        getHub t hub = { h with bankRt := (getHub t hub).bankRt } ∧
        sparseGet 0 (getHub t hub).bankRt n.toNat = sparseGet 0 h.bankRt n.toNat &&& ~~~ v)) ∧
    (∀ n : BitVec 4, (h.setState n.toNat ≠ 1 → exec (.bankcmdGo hub n) s = .next s) ∧
      (h.setState n.toNat = 1 → ∃ t x, exec (.bankcmdGo hub n) s = .next t ∧ t = { s with hubs := t.hubs } ∧ x = getHub t hub ∧
        x = { h with
          setSt := x.setSt, bankMap := x.bankMap, bankCmd := x.bankCmd, restriped := x.restriped, cleared := x.cleared
          lost := x.lost } ∧
        (∀ y, y ∈ x.lost ↔ y ∈ h.lost ∧ ¬ (y.1 = n.toNat ∧ (sparseGet 0 h.bankRt n.toNat).getLsbD y.2.1 = true)) ∧
        x.setState n.toNat = 2 ∧ sparseGet (BitVec.allOnes 64) x.bankMap n.toNat =
          sparseGet (BitVec.allOnes 64) h.bankMap n.toNat &&& ~~~ sparseGet 0 h.bankRt n.toNat ∧
        n.toNat ∈ x.restriped ∧ ∀ l, l ∈ x.cleared ↔ l ∈ h.cleared ∧ l / 1024 % 16 ≠ n.toNat)) ∧
    (∀ n, (h.setState (n % 16) ≠ 2 → exec (.restripeDone hub n) s = .next s) ∧
      (h.setState (n % 16) = 2 → ∃ t x, exec (.restripeDone hub n) s = .next t ∧ t = { s with hubs := t.hubs } ∧ x = getHub t hub ∧
        x = { h with setSt := x.setSt, frames := x.frames, used := x.used } ∧
        x.setState (n % 16) =
          (if sparseGet 0 h.bankRt (n % 16) &&& sparseGet (BitVec.allOnes 64) h.bankMap (n % 16) = 0 then 0 else 1) ∧
        (∀ f, f ∈ x.used ↔ f ∈ h.used ∧ f % 16 ≠ n % 16) ∧
        x.frames.toNat = 1024 * ((List.range 16).map fun j =>
          ((List.range 64).filter fun c => (sparseGet (BitVec.allOnes 64) h.bankMap j).getLsbD c).length).sum)) ∧
    (h.cacheDie ≠ 0 → exec (.cacheDieEarlyStop hub) s = .next s) ∧
    (h.cacheDie = 0 → ∃ t x, exec (.cacheDieEarlyStop hub) s = .next t ∧ x = getHub t hub ∧
      t = { s with hubs := t.hubs, agenda := .cacheDiePowerLoss hub :: s.agenda } ∧
      x = { h with cacheDie := 1, poisonMap := x.poisonMap } ∧
      ∀ f, f ∈ x.poisonMap ↔ f ∈ h.poisonMap ∨ ∃ y ∈ h.dirty, y.1 = f) ∧
    (h.cacheDie ≠ 1 → exec (.cacheDiePowerLoss hub) s = .next s) ∧
    (h.cacheDie = 1 → ∃ t x, exec (.cacheDiePowerLoss hub) s = .next t ∧ x = getHub t hub ∧
      t = { s with hubs := t.hubs, mem := t.mem } ∧
      x = { h with cacheDie := 2, dirty := [], poisonMap := x.poisonMap, cleared := x.cleared } ∧
      (∀ a, readByte t.mem a = if scratchLoc (64 * hub) 0 ≤ a ∧ a < scratchLoc (64 * hub + 64) 0 then 0 else readByte s.mem a) ∧
      (∀ f ∈ x.poisonMap, f ∈ h.poisonMap) ∧
      ∀ f ∈ h.poisonMap, (∀ y ∈ h.dirty, y.1 ≠ f) → f ∈ x.poisonMap) ∧
    (h.cacheDie = 2 → ∃ t, exec (.cacheDieReturn hub) s = .next t ∧ t = { s with hubs := t.hubs } ∧
      getHub t hub = { h with cacheDie := 0 }) ∧
    (h.cacheDie ≠ 2 → exec (.cacheDieReturn hub) s = .next s)) ∧
  (∀ frame s h, frame < 12 * 2 ^ 20 → h = getHub s (frame / 2 ^ 20) →
    let f := frame % 2 ^ 20
    let named := ∃ e ∈ s.ptes, frame ∈ pteFrames e.2
    let clean := ∀ l, l < 1024 → 1024 * f + l ∈ h.cleared
    (clean ∨ ¬ named → ∃ t, exec (.poisonBitClear frame) s = .next t ∧ t = { s with hubs := t.hubs } ∧
      ∀ k, k ∈ (getHub t (frame / 2 ^ 20)).poisonMap ↔ k ∈ h.poisonMap ∧ k ≠ f) ∧
    (¬ clean → named → exec (.poisonBitClear frame) s = .next s)) ∧
  (∀ tile slot out (s u : State), u = s.settle → slot < 256 → tile < 2112 →
    let here := fun a => (omLoc tile (slot * 65536) ≤ a ∧ a < omLoc tile (slot * 65536) + 65536) ∨
      (sideLoc tile (slot * 65536) ≤ a ∧ a < sideLoc tile (slot * 65536) + 1024)
    let gone := ∃ y ∈ u.mgmt.evicted, y.1 = tile ∧ y.2.1 = slot
    (out = true → (assocGet (u.getTile tile).owners slot = none ∨ gone ∨
        ∃ c g, assocGet (u.getTile tile).owners slot = some c ∧ g ∈ u.allGraphs ∧ g.ctx = c) →
      exec (.slotEviction tile slot out) s = .next u) ∧
    (∀ c, out = true → assocGet (u.getTile tile).owners slot = some c → ¬ gone → (∀ g ∈ u.allGraphs, g.ctx ≠ c) →
      ∃ t l, exec (.slotEviction tile slot out) s = .next t ∧
        t = { u with mem := t.mem, mgmt := { u.mgmt with evicted := u.mgmt.evicted ++ [(tile, slot, l)] } } ∧
        (∀ a, here a → readByte t.mem a = 0 ∧ sparseGet 0 l a = readByte u.mem a) ∧
        ∀ a, ¬ here a → readByte t.mem a = readByte u.mem a) ∧
    (out = false → ¬ gone → exec (.slotEviction tile slot out) s = .next u) ∧
    (∀ y, out = false → (u.mgmt.evicted.find? fun y => y.1 == tile && y.2.1 == slot) = some y → sparseWf 0 y.2.2 = true →
      (∀ x ∈ y.2.2, here x.1) → ∃ t, exec (.slotEviction tile slot out) s = .next t ∧
        t = { u with mem := t.mem, mgmt := { u.mgmt with evicted := t.mgmt.evicted } } ∧
        (∀ x ∈ t.mgmt.evicted, ¬ (x.1 = tile ∧ x.2.1 = slot)) ∧ (∀ a, here a → readByte t.mem a = sparseGet 0 y.2.2 a) ∧
        ∀ a, ¬ here a → readByte t.mem a = readByte u.mem a)) ∧
  (∀ line (s u : State), u = s.settle → ∃ t l, exec (.companionInvalidateAck line) s = .next t ∧
    t = { u with
      island := { u.island with
        heldLines := t.island.heldLines, dirtyLines := t.island.dirtyLines, recalls := t.island.recalls
        overlaid := t.island.overlaid }
      tile := t.tile, tiles := t.tiles, mgmt := { u.mgmt with saved := t.mgmt.saved }, agenda := u.agenda ++ l } ∧
    (∀ l, l ∈ t.island.heldLines ↔ l ∈ s.island.heldLines ∧ l ≠ line) ∧
    (∀ l, l ∈ t.island.dirtyLines ↔ l ∈ s.island.dirtyLines ∧ l ≠ line) ∧
    (∀ l, l ∈ t.island.recalls ↔ l ∈ s.island.recalls ∧ l ≠ line) ∧ sparseGet 0 t.island.overlaid line = 0 ∧
    ∀ n, let c := (s.getTile n).core
      t.getTile n = { s.getTile n with core := { c with
        owedLines := c.owedLines.filter fun l => l != line, cmds := requeued c.cmds } } ∧
      ∀ e ∈ c.creel, e.state = .pending → e.dest = none → e.ia.toNat / 64 = line → .creelReplay (.rim n) ∈ l)

/-- R99, R111, R207, R229, R283 to R287, R289, R291, R309, R319, R326: the requests that wait at the hubs, the reports of writes, the
answers to notices, and the replay of creels. The oldest waiting request is met: a held load's page is looked at again, and a write
on its way is performed or becomes an entry. The report of a write frees its reservation and joins the FENCE state. MAPPED ends a
notice, retries what its issuer held there and starts its replay; ABORT ends the held load, the creel entries and the commands of
that issuer and page, and a stream with BADREAD. Replay performs the oldest entry that may be performed, under the PTE as it stands,
or sends it to its module; its outcome joins the FENCE state of its context once that is resident, and frees the entry. -/
def Obligations.NoticesAndReplay : Prop :=
  (∀ s, s.hubq = [] → exec .hubRequest s = .next s) ∧
  (∀ s k rest, s.hubq = .rimLoad k :: rest →
    exec .hubRequest s = .next { s with hubq := rest, agenda := s.agenda ++ [.loadReturn k] }) ∧
  (∀ (s u : State) k rest c, s.hubq = .rimStore k :: rest → u = { s with hubq := rest } → c = (s.getTile k).core →
    (c.aloft = [] → exec .hubRequest s = .next u) ∧
    ∀ e r, c.aloft = e :: r →
      let so := e.attr = 0 ∧ ∃ y ∈ c.creel, y.state = .pending ∧ y.attr = 0
      let same := ∃ y ∈ c.creel, y.state = .pending ∧ y.pageKey = e.pageKey
      let recalled := e.op ≠ 0 ∧ e.ia.toNat / 64 ∈ s.island.dirtyLines
      let a := hubAccess u e.ia.toNat Access.stores
      let whole := e.op = 0 ∧ e.mask = BitVec.allOnes 64
      let sends := fun (out : BitVec 6) (v t : State) => ∃ x : SentWrite, x.ctx = e.ctx ∧ x.out = out ∧
        CoreTo k { c with aloft := r, sent := c.sent ++ [x] } v t ∧
        v = { u with ptes := t.ptes, hubs := t.hubs, agenda := s.agenda ++ [.writeAcknowledgement (.rim k)] }
      (recalled → ∃ t, exec .hubRequest s = .next t ∧
        t = { s with hubq := rest ++ [.rimStore k], island := { s.island with recalls := t.island.recalls } }) ∧
      (¬ recalled → so ∨ same → ∃ o t, exec .hubRequest s = .next t ∧ (o = true ↔ so) ∧
        CoreTo k { c with aloft := r, creel := c.creel ++ [{ e with ord := o, seq := c.creelSeq }], creelSeq := c.creelSeq + 1 } u t) ∧
      (¬ recalled → ¬ so → ¬ same →
        (∀ loc attr h, a = .at loc attr h → loc % 64 = 0 → linePoisoned h loc = false ∨ whole → ∃ d v t x,
          exec .hubRequest s = .next t ∧ CoreTo k d v t ∧ MemKeptBut loc 64 s t ∧
          v = { u with
            mem := t.mem, ptes := t.ptes, hubs := t.hubs, linePoison := t.linePoison, migrations := t.migrations
            agenda := t.agenda, island := { s.island with overlaid := t.island.overlaid } } ∧
          d = { c with
            aloft := r, attrs := d.attrs, sent := c.sent ++ [x]
            owedLines := if e.ia.toNat / 64 ∈ s.island.heldLines then c.owedLines ++ [e.ia.toNat / 64] else c.owedLines } ∧
          x.ctx = e.ctx ∧ x.out = 0 ∧ (∃ l, t.agenda = s.agenda ++ l ++ [.writeAcknowledgement (.rim k)]) ∧
          ∀ j, j < 64 → readByte t.mem (loc + j) = if e.mask.getLsbD j then
            BitVec.ofNat 8 (combineLine e.op.toNat e.data.toNat (readBytes s.mem loc 64) / 2 ^ (8 * j)) else readByte s.mem (loc + j)) ∧
        (∀ p, a = .unmapped p → ∃ v t, exec .hubRequest s = .next t ∧
          CoreTo k { c with aloft := r, creel := c.creel ++ [{ e with seq := c.creelSeq }], creelSeq := c.creelSeq + 1 } v t ∧
          v = { u with notices := t.notices, noticeId := t.noticeId, hubs := t.hubs } ∧
          ∃ y ∈ t.notices, y.page = p ∧ y.who = .rim k ∧ y.ctx = e.ctx) ∧
        (∀ reason, a = .refused reason → ∃ v t, exec .hubRequest s = .next t ∧ sends 0x02 v t) ∧
        ((a = .poisoned ∨ ∃ loc attr h, a = .at loc attr h ∧ linePoisoned h loc = true ∧ ¬ whole) → ∃ v t,
          exec .hubRequest s = .next t ∧ sends 0x08 v t))) ∧
  (∀ s k c, c = (s.getTile k).core → ∃ d t, exec (.writeAcknowledgement (.rim k)) s = .next t ∧ CoreTo k d s t ∧
    (c.sent = [] → d = c) ∧
    ∀ x r, c.sent = x :: r →
      (x.out = 0 → d = { c with sent := r }) ∧
      (x.out ≠ 0 → x.ctx = c.ctx → d = if c.run = .stopped then { c with sent := r, lateOut := c.lateOut ||| x.out }
        else { c with sent := r, fence := fenceWith c.fence x.out x.ia }) ∧
      (x.out ≠ 0 → x.ctx ≠ c.ctx → ∃ e, d = { c with sent := r, creel := c.creel ++ [e], creelSeq := c.creelSeq + 1 } ∧
        e.state = .ended ∧ e.ctx = x.ctx ∧ e.out = x.out ∧ e.ia = x.ia)) ∧
  (∀ (s u : State) g r x y, u = s.settle → u.getGraph g = some x → x.getRegion r = some y → ∃ z w t,
    exec (.writeAcknowledgement (.agn g r)) s = .next t ∧ GraphTo g z u t ∧ z = { x with regions := z.regions } ∧
    z.getRegion r = some w ∧ (y.sent = [] → w = y) ∧
    ∀ v l, y.sent = v :: l →
      (v.out = 0 → w = { y with sent := l }) ∧
      (v.out ≠ 0 → w = { y with sent := l, status := w.status } ∧ w.status.fails.toNat = min 4095 (y.status.fails.toNat + 1) ∧
        (y.status.fails = 0 → w.status.firstIa = v.ia))) ∧
  (∀ s who, (∀ k, who ≠ .rim k) → (∀ g r, who ≠ .agn g r) → exec (.writeAcknowledgement who) s = .next s) ∧
  (∀ s n, (∀ x ∈ s.notices, x.id ≠ n) → exec (.noticeMapped n) s = .next s ∧ exec (.noticeAbort n) s = .next s) ∧
  (∀ (s u : State) n x, (s.notices.find? fun y => y.id == n) = some x →
    u = { s with notices := s.notices.filter fun y => y.id != n } →
    (∀ k c, x.who = .rim k → c = (s.getTile k).core → ∃ v t, exec (.noticeMapped n) s = .next t ∧
      CoreTo k { c with cmds := requeued c.cmds } u v ∧
      t = { v with
        mgmt := { s.mgmt with saved := t.mgmt.saved }, hubq := t.hubq, agenda := s.agenda ++ [.creelReplay (.rim k)] } ∧
      (∀ w ∈ t.mgmt.saved, ∀ y ∈ w.tiles, y.1 = k → ∀ z ∈ y.2.core.cmds, z.state ≠ .recordWait) ∧
      t.hubq = s.hubq ++ (if c.ctx = x.ctx ∧ ∃ va, c.stall = .load va x.page then [.rimLoad k] else [])) ∧
    (∀ g r y, x.who = .agn g r → u.settle.getGraph g = some y → ∃ z v t, exec (.noticeMapped n) s = .next t ∧ GraphTo g z u.settle v ∧
      let free := fun (q : AgnReq) => q.agn == r && q.held == some x.page
      z = { y with requests := y.requests.map fun q => if free q then { q with held := none } else q } ∧
      t = { v with
        hubq := s.hubq ++ (y.requests.filter free).map fun q => .areq g q.id
        agenda := s.agenda ++ [.creelReplay (.agn g r)] }) ∧
    (∀ hub e, x.who = .eng hub e → exec (.noticeMapped n) s = .next { u with
      hubq := if .copyStep hub e ∈ s.hubq then s.hubq else s.hubq ++ [.copyStep hub e]
      agenda := s.agenda ++ [.creelReplay (.eng hub e)] }) ∧
    (∀ hub, x.who = .enc hub → exec (.noticeMapped n) s = .next { u with
      hubq := if .encodeStep hub ∈ s.hubq then s.hubq else s.hubq ++ [.encodeStep hub]
      agenda := s.agenda ++ [.creelReplay (.eng hub 0)] }) ∧
    (x.who = .root s.netIdx → exec (.noticeMapped n) s = .next { u with stream := { s.stream with paused := false } }) ∧
    (x.who = .harts → s.mgmt.writes = [] → ∃ l, exec (.noticeMapped n) s = .next { u with agenda := s.agenda ++ l } ∧
      ∀ q ∈ s.mgmt.queues, .launchRecord q.1 ∈ l) ∧
    (x.who = .companion → exec (.noticeMapped n) s = .next u) ∧
    (∀ m, x.who = .remote m → ∃ t, exec (.noticeMapped n) s = .next t ∧ SetsOut (BitVec.ofNat 14 m) true (.mapped x.page) u t) ∧
    (∀ k c, x.who = .rim k → c = (s.getTile k).core → s.mgmt.saved = [] → (c.creel.map fun e => e.seq).Nodup → ∃ v w t d,
      exec (.noticeAbort n) s = .next t ∧
      let hit := fun (e : CreelEntry) =>
        e.state == .pending && e.dest == none && e.ia.toNat / 65536 == x.page && e.ctx == x.ctx
      let waits := c.cmds.filter fun y => y.state == .recordWait && y.ctx == x.ctx && !y.ward.isRemote &&
        (y.ward.ia y.recordVa / 65536 == x.page || y.ward.ia (y.recordVa + 127) / 65536 == x.page)
      CoreTo k d u v ∧ w = { v with
        agenda := s.agenda ++ ((c.creel.filter hit).map fun _ => .creelOutcomeReport k) ++ [.creelReplay (.rim k)] } ∧
      d = { c with
        stall := d.stall
        creel := c.creel.map fun e => if hit e then { e with state := .ended, out := 0x20 } else e } ∧
      (∀ va, c.stall = .load va x.page → c.ctx = x.ctx → d.stall = .aborted va) ∧
      ((∀ va, c.stall ≠ .load va x.page) ∨ c.ctx ≠ x.ctx → d.stall = c.stall) ∧
      (waits = [] → t = w) ∧
      ∀ y, waits = [y] → t.island = { s.island with arrived := t.island.arrived } ∧
        Lands ⟨k, y.serial⟩ ⟨0x13, 0, BitVec.ofNat 32 (x.ia / 4096)⟩ { w with island := t.island } t) ∧
    (∀ g r, x.who = .agn g r → u.settle.graph.slot = g → (u.settle.graph.requests.map fun q => q.id).Nodup →
      ∃ t, exec (.noticeAbort n) s = .next t ∧ ∀ q ∈ u.settle.graph.requests, q.agn = r → q.held = some x.page →
        ∃ q' ∈ t.graph.requests, q'.id = q.id ∧ q'.answer = some ⟨0, q.tag, 0, false, 0, 0⟩ ∧ q'.held = none) ∧
    (∀ hub e c q, x.who = .eng hub e → (∀ y ∈ (s.engine hub e).creel, y.state ≠ .pending) →
      (s.engine hub e).queue = c :: q → c.status = none → hub < 12 → e < 4 →
      (c.waits = some x.page → ∃ t, exec (.noticeAbort n) s = .next t ∧ t = { u with hubs := t.hubs, agenda := t.agenda } ∧
        (t.engine hub e).queue = { c with status := some ⟨0x13, 0, BitVec.ofNat 32 (x.ia / 4096)⟩ } :: q) ∧
      (c.waits ≠ some x.page → exec (.noticeAbort n) s = .next { u with
        hubq := if .copyStep hub e ∈ s.hubq then s.hubq else s.hubq ++ [.copyStep hub e]
        agenda := s.agenda ++ [.creelReplay (.eng hub e)] })) ∧
    (∀ v, v = u.settle → x.who = .root s.netIdx → s.stream.len ≠ 0 → s.stream.result = none →
      ∃ t, exec (.noticeAbort n) s = .next t ∧ Refused 8 0 s.stream.offset { v with stream := { s.stream with paused := false } } t) ∧
    (∀ m, x.who = .remote m → s.hubq = [] → ∃ t, exec (.noticeAbort n) s = .next t ∧
      SetsOut (BitVec.ofNat 14 m) true (.cancelled x.page) u t) ∧
    (x.who = .harts ∨ x.who = .companion ∧ s.hubq = [] → exec (.noticeAbort n) s = .next u)) ∧
  (∀ s k c, c = (s.getTile k).core →
    let held := EntryHeld s (.rim k) c.owedRemote
    let kept := fun (e : CreelEntry) => e.op ≠ 0 ∧ e.dest = none ∧ e.ia.toNat / 64 ∈ s.island.dirtyLines
    let ended := fun (e : CreelEntry) (o : BitVec 6) => c.creel.map fun y => if y.seq = e.seq then { y with state := .ended, out := o } else y
    let reports : List Instr := [.creelOutcomeReport k, .creelReplay (.rim k)]
    ((∀ e ∈ c.creel, MayReplay held c.creel e → kept e) → ∃ t, exec (.creelReplay (.rim k)) s = .next t ∧
      t = { s with island := { s.island with recalls := t.island.recalls } } ∧
      ∀ e ∈ c.creel, MayReplay held c.creel e → e.ia.toNat / 64 ∈ t.island.recalls) ∧
    ∀ pre e post, c.creel = pre ++ e :: post → MayReplay held c.creel e → (∀ y ∈ pre, ¬ MayReplay held c.creel y) →
      (∀ y ∈ c.creel, ¬ kept y) →
      let r := hubAccess s e.ia.toNat { Access.stores with key := e.key }
      let whole := e.op = 0 ∧ e.mask = BitVec.allOnes 64
      (∀ m, e.dest = some m → ∃ v w t, exec (.creelReplay (.rim k)) s = .next t ∧
        WriteOut (.rim k) e.ctx m e.failIa.toNat (.write s.island.pktId e.ia.toNat e.op e.mask e.data false) s v ∧
        CoreTo k { c with
          creel := c.creel.filter fun y => y.seq != e.seq
          owedRemote := c.owedRemote ++ [⟨s.island.pktId, e, true⟩] } v w ∧
        t = { w with agenda := v.agenda ++ [.creelReplay (.rim k)] }) ∧
      (e.dest = none →
        (∀ loc attr h, r = .at loc attr h → loc % 64 = 0 → linePoisoned h loc = false ∨ whole → ∃ u t d,
          exec (.creelReplay (.rim k)) s = .next t ∧ CoreTo k d u t ∧ MemKeptBut loc 64 s t ∧
          u = { s with
            mem := t.mem, ptes := t.ptes, hubs := t.hubs, linePoison := t.linePoison, migrations := t.migrations
            agenda := t.agenda, island := { s.island with overlaid := t.island.overlaid } } ∧
          d = { c with
            creel := ended e 0, attrs := d.attrs
            owedLines := if e.ia.toNat / 64 ∈ s.island.heldLines then c.owedLines ++ [e.ia.toNat / 64] else c.owedLines } ∧
          (∃ l, t.agenda = s.agenda ++ l ++ reports) ∧ ∀ j, j < 64 → readByte t.mem (loc + j) = if e.mask.getLsbD j then
            BitVec.ofNat 8 (combineLine e.op.toNat e.data.toNat (readBytes s.mem loc 64) / 2 ^ (8 * j)) else readByte s.mem (loc + j)) ∧
        ((r = .poisoned ∨ ∃ loc attr h, r = .at loc attr h ∧ linePoisoned h loc = true ∧ ¬ whole) → ∃ u t,
          exec (.creelReplay (.rim k)) s = .next t ∧ CoreTo k { c with creel := ended e 0x08 } u t ∧
          u = { s with ptes := t.ptes, hubs := t.hubs, agenda := s.agenda ++ reports }) ∧
        (∀ reason, r = .refused reason → ∃ u t, exec (.creelReplay (.rim k)) s = .next t ∧
          CoreTo k { c with creel := ended e 0x02 } u t ∧ u = { s with hubs := t.hubs, agenda := s.agenda ++ reports }) ∧
        (∀ p, r = .unmapped p → ∃ t, exec (.creelReplay (.rim k)) s = .next t ∧
          t = { s with
            notices := t.notices, noticeId := t.noticeId, hubs := t.hubs, agenda := s.agenda ++ [.creelReplay (.rim k)] } ∧
          ∃ y ∈ t.notices, y.page = p ∧ y.who = .rim k ∧ y.ctx = e.ctx))) ∧
  (∀ s k c, c = (s.getTile k).core →
    ((∀ e ∈ c.creel, e.state = .pending ∨ e.ctx ≠ c.ctx) → ∃ t, exec (.creelOutcomeReport k) s = .next t ∧ CoreTo k c s t) ∧
    ∀ pre e post b ia, c.creel = pre ++ e :: post → e.state = .ended → e.ctx = c.ctx →
      (∀ y ∈ pre, y.state = .pending ∨ y.ctx ≠ c.ctx) → ia = e.ia + BitVec.ofNat 44 b →
      (if e.op = 0 then b < 64 ∧ e.mask.getLsbD b = true ∧ ∀ j, j < b → e.mask.getLsbD j = false else b = 0) →
      ∃ d t, exec (.creelOutcomeReport k) s = .next t ∧ CoreTo k d s t ∧
        d = { c with
          creel := c.creel.filter fun y => y.seq != e.seq
          fence := d.fence, lateOut := d.lateOut, lateCnt := d.lateCnt } ∧
        (c.run ≠ .stopped → d.fence = (if e.out = 0 then c.fence else fenceWith c.fence e.out ia) ∧ d.lateOut = c.lateOut ∧
          d.lateCnt = c.lateCnt) ∧
        (c.run = .stopped → d.fence = c.fence ∧ d.lateOut = c.lateOut ||| e.out ∧
          d.lateCnt.toNat = min 4095 (c.lateCnt.toNat + 1)))

/-- R283, R309, R326, R348, R398, R401, R403 to R408, R419: strand ports. A flit that fails its CRC is asked for again; a sound one
brings its packet into the crossbar. A packet of this module reaches its requester or its hub, or in TRANSIT is answered ORPHAN; any
other leaves by the port that the table of its generation names, or by the escape channel, along x, then y, then z, and is dropped where
that hop is down. A store that ends DEAD, REFUSED, POISON, ORPHAN or ABORTED joins its context's FENCE state, and one that meets an
unmapped page takes its place in the creel. A hub answers a load, a write and an atomic of another module as it meets its own, once the
companion has returned the line that they read and holds no copy of the line that they write. A link that drops marks its port; the
next table that verifies becomes the newest generation, another makes the island lag, and an old one goes once every island holds its
successor. Which port leads along a ring, and which way round, is this model's open function (log entry 11). -/
def Obligations.StrandPorts : Prop :=
  (∀ port ok pkt (s : State), port < 16 →
    let x := s.port port
    let carries := s.island.st = .serve ∨ s.island.st = .transit
    (x.up = false ∨ ¬ carries → exec (.flitReceive port ok pkt) s = .next s) ∧
    (x.up = true → carries → ok = false → ∃ t, exec (.flitReceive port ok pkt) s = .next t ∧
      PortTo port { x with retry := true } s t) ∧
    (x.up = true → carries → ok = true → ∃ v t, exec (.flitReceive port ok pkt) s = .next t ∧
      PortTo port { x with retry := false, nextFlit := x.nextFlit + 1 } s v ∧
      t = { v with
        island := { v.island with
          pktId := s.island.pktId + 1
          transit := s.island.transit ++ [⟨s.island.pktId, pkt, some port, decide (2 ≤ pkt.vc.toNat)⟩] }
        agenda := s.agenda ++ [.packetHop s.island.pktId] }) ∧
    (∃ v t, exec (.linkDown port) s = .next t ∧
      PortTo port { x with up := false, retry := false, replay := [], line := [] } s v ∧
      t = { v with island := { v.island with degraded := true } })) ∧
  (∀ n (s : State), (∀ x ∈ s.island.transit, x.id ≠ n) →
    exec (.packetHop n) s = .next s ∧ exec (.escapeTimeout n) s = .next s) ∧
  (∀ n (s u : State) x, (s.island.transit.find? fun y => y.id == n) = some x →
    u = { s with island := { s.island with transit := s.island.transit.filter fun y => y.id != n } } →
    (x.escape = true → exec (.escapeTimeout n) s = .next s) ∧
    (x.escape = false → exec (.escapeTimeout n) s = .next { s with
      island := { s.island with transit := s.island.transit.map fun y => if y.id = n then { y with escape := true } else y }
      agenda := s.agenda ++ [.packetHop n] }) ∧
    (s.island.st = .ireset ∨ s.island.st = .off → exec (.packetHop n) s = .next u) ∧
    (s.island.st = .serve ∨ s.island.st = .transit →
      (x.pkt.dest = s.island.moduleNum →
        (isRequest x.pkt.body = true →
          (s.island.st = .transit → ∃ t, exec (.packetHop n) s = .next t ∧
            Answered x.pkt (.orphan (bodyId x.pkt.body)) u t) ∧
          (s.island.st = .serve → exec (.packetHop n) s = .next { u with
            hubq := s.hubq ++ [.remote (x.port.getD 16) x.pkt] })) ∧
        (∀ page, x.pkt.body = .mapped page → (∀ y ∈ s.island.farPages, y.key ≠ pageKey (some x.pkt.src) (page * 65536)) →
          exec (.packetHop n) s = .next u) ∧
        (isRequest x.pkt.body = false → (∀ page, x.pkt.body ≠ .mapped page ∧ x.pkt.body ≠ .cancelled page) →
          ((∀ r ∈ s.island.remotes, r.id ≠ bodyId x.pkt.body) → exec (.packetHop n) s = .next u) ∧
          ∀ v r k, (s.island.remotes.find? fun y => y.id == bodyId x.pkt.body) = some r → r.who = .rim k →
            v = { u with island := { u.island with remotes := s.island.remotes.filter fun y => y.id != r.id } } →
            (∀ y, r.store = true → ((s.getTile k).core.owedRemote.find? fun z => z.id == r.id) = some y →
              (∀ out, (∃ a, x.pkt.body = .ack r.id a) ∧ out = 0 ∨ (∃ q, x.pkt.body = .refused r.id q) ∧ out = 0x02 ∨
                x.pkt.body = .poisoned r.id ∧ out = 0x08 ∨ x.pkt.body = .orphan r.id ∧ out = 0x10 ∨
                x.pkt.body = .aborted r.id ∧ out = 0x20 →
                ∃ t, exec (.packetHop n) s = .next t ∧ RemoteStoreEnds k y out v t) ∧
              (x.pkt.body = .unmapped r.id → y.again = false → ∃ c w t, exec (.packetHop n) s = .next t ∧
                c = (s.getTile k).core ∧ w = { v with island := { v.island with farPages := w.island.farPages } } ∧
                ⟨.rim k, y.entry.ctx, y.entry.pageKey⟩ ∈ w.island.farPages ∧
                CoreTo k { c with
                  owedRemote := c.owedRemote.filter fun z => z.id != r.id
                  creel := c.creel ++ [{ y.entry with seq := c.creelSeq }], creelSeq := c.creelSeq + 1 } w t)) ∧
            (∀ attr line c, r.store = false → x.pkt.body = .data r.id attr line → c = (s.getTile k).core → c.stall = .away r.id →
              ∃ t, exec (.packetHop n) s = .next t ∧ CoreTo k { c with
                answers := c.answers ++ [(answerKey (some r.dest) r.ia, .value line.toNat)]
                attrs := seeAttr c.attrs (pageKey (some r.dest) r.ia) attr } { v with agenda := s.agenda ++ [.loadReturn k] } t))) ∧
      (x.pkt.dest ≠ s.island.moduleNum →
        let tabled := fun port => ∃ g, (s.island.gens.find? fun y => y.gen == x.pkt.gen) = some g ∧
          port = (g.table.getD x.pkt.dest.toNat 0).toNat ∧ (s.port port).up = true ∧ (port, x.pkt.gen) ∉ s.island.lags
        let left := fun port (p : Packet) => ∃ y t, exec (.packetHop n) s = .next t ∧
          let q := s.port port
          PortTo port { q with sentFlits := q.sentFlits + 1, replay := y, line := q.line ++ [(q.sentFlits, p)] } u t ∧
          y.length ≤ 256 ∧ y.getLast? = some (q.sentFlits, p) ∧ (q.replay.length ≤ 255 → y = q.replay ++ [(q.sentFlits, p)])
        (∀ port, port < 16 → x.escape = false → tabled port → (s.port port).replay.length ≤ 256 → left port x.pkt) ∧
        (x.escape = true ∨ (∀ port, ¬ tabled port) →
          let me := s.island.moduleNum
          let nx := s.island.dims.1
          let ny := s.island.dims.2.1
          let along := fun d (m : Nat) => if d = 0 then m % nx else if d = 1 then m / nx % ny else m / nx / ny
          ∀ d port, (∀ k, k < d → along k me.toNat = along k x.pkt.dest.toNat) →
            d < 2 ∧ along d me.toNat ≠ along d x.pkt.dest.toNat ∨ d = 2 →
            port = Config.ringPort me d (Config.ringUp d (along d me.toNat) (along d x.pkt.dest.toNat)) →
            let vc : BitVec 2 := if x.pkt.vc = 3 ∨ Config.dateline me port = true then 3 else 2
            (port < 16 → (s.port port).up = true → (s.port port).replay.length ≤ 256 → left port { x.pkt with vc := vc }) ∧
            ((s.port port).up = false → exec (.packetHop n) s = .next u))))) ∧
  (∀ n s, (∀ r ∈ s.island.remotes, r.id ≠ n) → exec (.remoteRequestTimeout n) s = .next s) ∧
  (∀ n (s v : State) r k, (s.island.remotes.find? fun y => y.id == n) = some r → r.who = .rim k →
    v = { s with island := { s.island with remotes := s.island.remotes.filter fun y => y.id != n } } →
    (∀ y, r.store = true → ((s.getTile k).core.owedRemote.find? fun z => z.id == r.id) = some y →
      ∃ t, exec (.remoteRequestTimeout n) s = .next t ∧ RemoteStoreEnds k y 0x01 v t) ∧
    (∀ c, r.store = false → c = (s.getTile k).core → c.stall = .away r.id → ∃ st t,
      exec (.remoteRequestTimeout n) s = .next t ∧ st.code = 0x19 ∧
      CoreTo k { c with answers := c.answers ++ (r.ia :: r.ias).map fun ia => (answerKey (some r.dest) ia, .failed st) }
        { v with agenda := s.agenda ++ [.loadReturn k] } t)) ∧
  (∀ gen table crc rsa slh s,
    let ok := Config.crc32 table = crc ∧ Config.rsaOk table rsa = true ∧ Config.slhOk table slh = true
    let follows := ∀ g older, s.island.gens = g :: older → gen = g.gen + 1
    (¬ follows → exec (.routeTableLoad gen table crc rsa slh) s = .next s) ∧
    (follows → ok → ∃ t, exec (.routeTableLoad gen table crc rsa slh) s = .next t ∧
      t = { s with island := { s.island with
        gens := ⟨gen, table⟩ :: s.island.gens.take 1, ownLag := false, mrs := t.island.mrs } } ∧
      t.island.mrs.toList[1]? = some (Config.sha384 (bytesOf 48 (s.island.mrs.toList.getD 1 0).toNat ++
        bytesOf 48 (Config.sha384 table).toNat)) ∧
      ∀ k, k ≠ 1 → t.island.mrs.toList[k]? = s.island.mrs.toList[k]?) ∧
    (follows → ¬ ok → exec (.routeTableLoad gen table crc rsa slh) s = .next { s with
      island := { s.island with ownLag := true } })) ∧
  (∀ gen (s : State),
    let everywhere := (∃ g ∈ s.island.gens, g.gen = gen + 1) ∧
      ∀ m : Nat, m < s.island.dims.1 * s.island.dims.2.1 * s.island.dims.2.2 → m ≠ s.island.moduleNum.toNat →
        assocGet s.island.reports m = some (gen + 1)
    (¬ everywhere → exec (.routeTableRetire gen) s = .next s) ∧
    (∀ g older, everywhere → s.island.gens = g :: older → exec (.routeTableRetire gen) s = .next { s with
      island := { s.island with gens := g :: older.filter fun y => y.gen != gen } })) ∧
  (∀ (s u : State) port p rest, s.hubq = .remote port p :: rest → u = { s with hubq := rest } →
    let again := { u with hubq := rest ++ [.remote port p] }
    let asked := fun page => ∃ x ∈ s.notices, x.page = page ∧ x.who = .remote p.src.toNat
    let quiet := ∀ page, requestPage u p.body = some page → ¬ asked page
    let held := fun page => ∃ t, exec .hubRequest s = .next t ∧
      t = { again with notices := t.notices, noticeId := t.noticeId } ∧
      ∃ x ∈ t.notices, x.page = page ∧ x.who = .remote p.src.toNat
    let recalled := fun line => ∃ t, exec .hubRequest s = .next t ∧
      t = { again with island := { s.island with recalls := t.island.recalls } } ∧ line ∈ t.island.recalls
    let acked := fun line body (w : State) => ∃ t, exec .hubRequest s = .next t ∧
      (line ∉ s.island.heldLines → Answered p body w t) ∧
      (line ∈ s.island.heldLines → t = { w with hubq := rest ++ [.answer line p body] })
    let poisons := fun id => ∃ v t, exec .hubRequest s = .next t ∧ Answered p (.poisoned id) v t ∧
      v = { u with ptes := v.ptes, hubs := v.hubs }
    (∀ page, requestPage u p.body = some page → asked page → exec .hubRequest s = .next again) ∧
    (∀ id ia len, p.body = .read id ia len → quiet →
      let r := hubLoad u ia len { Access.loads false with remote := true }
      (∀ line ∈ loadLines u ia, line ∈ s.island.dirtyLines → recalled line) ∧
      ((∀ line ∈ loadLines u ia, line ∉ s.island.dirtyLines) →
        (∀ v attr w, r = .value v attr w → ∃ t, exec .hubRequest s = .next t ∧
          Answered p (.data id attr (BitVec.ofNat 512 v)) w t) ∧
        (∀ w, r = .poisoned w → ∃ t, exec .hubRequest s = .next t ∧ Answered p (.poisoned id) w t) ∧
        (∀ q, r = .refused q → ∃ t, exec .hubRequest s = .next t ∧ Answered p (.refused id q) u t) ∧
        ∀ page, r = .unmapped page → held page)) ∧
    (∀ id ia op mask data raw, p.body = .write id ia op mask data raw →
      let r := hubAccess u (ia / 64 * 64) { Access.stores with remote := true, plait := raw }
      let whole := op = 0 ∧ mask = BitVec.allOnes 64
      (op ≠ 0 → ia / 64 ∈ s.island.dirtyLines → recalled (ia / 64)) ∧
      (op = 0 ∨ ia / 64 ∉ s.island.dirtyLines →
        (∀ loc attr h, r = .at loc attr h → loc % 64 = 0 → linePoisoned h loc = false ∨ whole → ∃ w,
          acked (ia / 64) (.ack id attr) w ∧ MemKeptBut loc 64 s w ∧
          w = { u with
            mem := w.mem, ptes := w.ptes, hubs := w.hubs, linePoison := w.linePoison, migrations := w.migrations
            agenda := w.agenda, island := { s.island with overlaid := w.island.overlaid } } ∧
          ∀ j, j < 64 → readByte w.mem (loc + j) = if mask.getLsbD j then
            BitVec.ofNat 8 (combineLine op.toNat data.toNat (readBytes s.mem loc 64) / 2 ^ (8 * j)) else readByte s.mem (loc + j)) ∧
        ((r = .poisoned ∨ ∃ loc attr h, r = .at loc attr h ∧ linePoisoned h loc = true ∧ ¬ whole) → poisons id) ∧
        (∀ q, r = .refused q → ∃ v t, exec .hubRequest s = .next t ∧ Answered p (.refused id q) v t ∧
          v = { u with hubs := v.hubs }) ∧
        ∀ page, r = .unmapped page → ∃ v t, exec .hubRequest s = .next t ∧ Answered p (.unmapped id) v t ∧
          v = { u with notices := v.notices, noticeId := v.noticeId, hubs := v.hubs } ∧
          ∃ x ∈ v.notices, x.page = page ∧ x.who = .remote p.src.toNat)) ∧
    (∀ id ia func size v cmp, p.body = .atomic id ia func size v cmp → quiet →
      (ia / 64 ∈ s.island.dirtyLines → recalled (ia / 64)) ∧
      ∀ loc attr h, ia / 64 ∉ s.island.dirtyLines →
        hubAccess u ia { Access.atomic false with remote := true } = .at loc attr h → linePoisoned s loc = false →
        let old := readBytes s.mem loc size
        ∃ w, acked (ia / 64) (.data id attr (BitVec.ofNat 512 old)) w ∧ MemKeptBut loc size s w ∧
          ∀ x, amoNew func.toNat size old v.toNat cmp.toNat = some x → readBytes w.mem loc size = x % 2 ^ (8 * size)))

/-- R236, R254, R363 to R376, R380, R398: launches and graphs. Management acts where its harts run. A tail in range has its records
read; one out of range closes the queue with QUEUEERR. A record that is read advances the head; a bad one completes BADLAUNCH, a good
one waits, its effective priority rises with its age, and one whose dependence fails completes DEPFAIL. A bind record is in force only
where its entry is free, and that of a launch only once the launch may start and allows it. A bind that a step refuses completes
BINDFAIL with its reason; another installs its graph, its tiles and its cores, which start where the image has no stream. A drained
graph leaves its slot and keeps its operand slots; a drain that takes too long ends in a pre-emption. A pre-empted graph is held, kept
whole once it has come to rest, and returns when what it needs is free; one whose cores have halted, or stopped by fault, completes, and
VALID goes with its record. Which launch, graph or rectangle management chooses is left to it; when a graph has come to rest is log
entry 23's choice, the order of sections entry 19's. -/
def Obligations.LaunchesAndGraphs : Prop :=
  (∀ n (s : State), s.hartsRun = false → exec (.queueTailNotify n) s = .next s ∧ exec (.launchRecord n) s = .next s) ∧
  (∀ n (s : State), s.queue n = none → exec (.queueTailNotify n) s = .next s) ∧
  (∀ n (s u : State) q tail, s.hartsRun = true → s.queue n = some q → hartNum q.tailw 8 s = .ok tail u →
    let inRange := q.head.toNat ≤ tail ∧ tail ≤ q.head.toNat + q.size
    (q.head.toNat = tail → exec (.queueTailNotify n) s = .next u) ∧
    (q.head.toNat < tail → inRange → exec (.queueTailNotify n) s = .next { u with agenda := u.agenda ++ [.launchRecord n] }) ∧
    (∀ v r w, ¬ inRange → v = { u with mgmt := { u.mgmt with
        queues := assocDrop u.mgmt.queues n, closed := assocPut u.mgmt.closed n q } } →
      hartNum (q.entry q.head.toNat) 64 v = .ok r w → n < 16 → ∃ t, exec (.queueTailNotify n) s = .next t ∧ t.queue n = none ∧
      Completes ((BitVec.ofNat 512 r).extractLsb' 192 44) (BitVec.ofNat 32 r) n 5 0 NotRun none w t) ∧
    (s.mgmt.launches = [] → q.head.toNat = tail → exec (.launchRecord n) s = .next u) ∧
    (∀ v w r, s.mgmt.launches = [] → q.head.toNat < tail → inRange → n < 16 → hartNum (q.entry q.head.toNat) 64 u = .ok v w →
      r = BitVec.ofNat 512 v →
      (recordOk r = false → ∃ x t, exec (.launchRecord n) s = .next t ∧ HeadAdvanced n q (r.extractLsb' 0 32) w x ∧
        Completes (r.extractLsb' 192 44) (r.extractLsb' 0 32) n 2 0 NotRun none x t) ∧
      (∀ y, recordOk r = true → checkImage (r.extractLsb' 64 44).toNat (r.extractLsb' 35 2).toNat w = .ok none y →
        ∃ x t, exec (.launchRecord n) s = .next t ∧ HeadAdvanced n q (r.extractLsb' 0 32) y x ∧
        Completes (r.extractLsb' 192 44) (r.extractLsb' 0 32) n 2 0 NotRun none x t) ∧
      (∀ y image, recordOk r = true → r.getLsbD 34 = false →
        checkImage (r.extractLsb' 64 44).toNat (r.extractLsb' 35 2).toNat w = .ok (some image) y →
        ∃ x, HeadAdvanced n q (r.extractLsb' 0 32) y x ∧ exec (.launchRecord n) s = .next { x with
          mgmt := { x.mgmt with launches := [⟨n, r, y.time, (r.extractLsb' 32 2).toNat, image⟩] } }))) ∧
  (∀ n k ia st v (s w : State), s.hartsRun = true → s.queue n = none → s.mgmt.launches = [] → k < 16 →
    (s.mgmt.rejects = [] → exec (.launchRecord n) s = .next s) ∧
    (s.mgmt.rejects = [(k, ia, st)] → hartNum ia 64 { s with mgmt := { s.mgmt with rejects := [] } } = .ok v w →
      ∃ t, exec (.launchRecord n) s = .next t ∧
        Completes ((BitVec.ofNat 512 v).extractLsb' 192 44) (BitVec.ofNat 32 v) k st 0 NotRun none w t)) ∧
  (∀ n (s : State) l q pre post, s.hartsRun = true → s.queue n = none → s.mgmt.launches = [l] → s.mgmt.rejects = [] →
    ((s.queue l.queue).or (assocGet s.mgmt.closed l.queue)) = some q → l.queue < 16 →
    let r := l.record
    r.getLsbD 34 = true → q.seen = pre ++ r.extractLsb' 0 32 :: post → r.extractLsb' 0 32 ∉ pre →
    (r.extractLsb' 128 32 ∉ pre ∨ ∃ y, (q.ended.find? fun x => x.1 == r.extractLsb' 128 32) = some y ∧ y.2 ≠ 0) →
    ∃ t, exec (.launchRecord n) s = .next t ∧
      Completes (r.extractLsb' 192 44) (r.extractLsb' 0 32) l.queue 4 0 NotRun none
        { s with mgmt := { s.mgmt with launches := [] } } t) ∧
  (∀ s, ∃ f : Launch → Launch, exec .launchPriorityAge s = .next { s with mgmt := { s.mgmt with launches := s.mgmt.launches.map f } } ∧
    ∀ l, f l = { l with prio := (f l).prio } ∧
      (f l).prio = min 3 ((l.record.extractLsb' 32 2).toNat + (s.time - l.since).toNat / 10000000)) ∧
  (∀ slot (r : BitVec 1024) (s u : State), u = s.settle →
    let now := sparseGet 0 u.mgmt.slots slot
    let open' := u.island.st = .serve ∧ slot < 64 ∧ r.getLsbD 24 = true ∧ bindClean r = true ∧ u.getGraph slot = none ∧
      (now.getLsbD 24 = false ∨ now = r) ∧ ∀ w ∈ u.mgmt.writes, ∀ n, w.note = some n → n.slot ≠ some slot
    let forLaunch := fun l : Launch => l.queue = (r.extractLsb' 288 4).toNat ∧ recSeq l.record = r.extractLsb' 256 32
    (¬ open' → exec (.bindDispatch slot r) s = .next u ∧ exec (.graphRestore slot r) s = .next u) ∧
    (∀ l pre post, open' → r.getLsbD 25 = false → u.mgmt.launches = pre ++ l :: post → forLaunch l →
      (∃ y ∈ pre, y.queue = l.queue) ∨ u.dependence l = none ∨
        (∃ v ∈ u.mgmt.saved, (l.record.extractLsb' 32 2).toNat ≤ (v.record.extractLsb' 16 2).toNat) ∨
        (∃ y ∈ u.mgmt.launches, u.canStart y = true ∧ (l.aged u.time).prio < (y.aged u.time).prio) ∨ l.allows r = false →
      (∀ y ∈ pre, ¬ forLaunch y) → exec (.bindDispatch slot r) s = .next u) ∧
    (∀ l, open' → r.getLsbD 25 = false → u.mgmt.launches = [l] → forLaunch l → u.mayStart l = true → l.allows r = true →
      exec (.bindDispatch slot r) s = exec (.bindDispatch slot r) { s with mgmt := { s.mgmt with launches := [] } }) ∧
    (∀ v e x w c, open' → r.getLsbD 25 = false → u.mgmt.launches = [] →
      v = { u with mgmt := { u.mgmt with slots := sparsePut 0 u.mgmt.slots slot r } } → readImage r v = .ok (e, x) w →
      c = ((x.cfg.map fun y => scanRegions (bindRow0 r) (bindCol0 r) y.2).getD []) →
      let fits := e.trows = bindRows r ∧ e.tcols = bindCols r ∧ w.budgetAllows r e.power = true
      let invalid := fun y : State => y = { w with mgmt := { w.mgmt with slots := y.mgmt.slots } } ∧
        (sparseGet 0 y.mgmt.slots slot).getLsbD 24 = false
      (¬ fits → ∃ y, invalid y ∧ exec (.bindDispatch slot r) s = .next y) ∧
      (∀ reason, fits → bindRefusal w w.island.absent slot r x c (w.newGates slot x c) = some reason → ∃ y t,
        exec (.bindDispatch slot r) s = .next t ∧ invalid y ∧
        Completes (r.extractLsb' 320 44) (r.extractLsb' 256 32) (r.extractLsb' 288 4).toNat 3 reason NotRun none y t) ∧
      ((48 < bindRow0 r + bindRows r ∨ 44 < bindCol0 r + bindCols r ∨
          ∃ y ∈ w.mgmt.slots, y.1 ≠ slot ∧ y.2.getLsbD 24 = true ∧
            bindRow0 y.2 < bindRow0 r + bindRows r ∧ bindRow0 r < bindRow0 y.2 + bindRows y.2 ∧
            bindCol0 y.2 < bindCol0 r + bindCols r ∧ bindCol0 r < bindCol0 y.2 + bindCols y.2) →
        bindRefusal w w.island.absent slot r x c (w.newGates slot x c) = some 1) ∧
      (fits → bindRefusal w w.island.absent slot r x c (w.newGates slot x c) = none → w.mgmt.drained = [] → w.mgmt.evicted = [] →
        ∃ t g, exec (.bindDispatch slot r) s = .next t ∧ t.getGraph slot = some g ∧ g.slot = slot ∧ g.record = r ∧
        g.trow0 = bindRow0 r ∧ g.tcol0 = bindCol0 r ∧ g.trows = bindRows r ∧ g.tcols = bindCols r ∧ g.ctx = r.extractLsb' 0 16 ∧
        g.spine = r.extractLsb' 20 3 ∧ g.wards = x.wards ∧ g.regions = [] ∧ g.gateEnds = x.gates ∧ g.holds = [] ∧
        g.power = e.power ∧ (∀ k, k ≠ slot → k < 64 → t.getGraph k = w.getGraph k) ∧ t.gates = w.gates ++ w.newGates slot x c ∧
        (∀ k ∈ bindTiles r, let rim := (assocGet x.rims k).getD []
          let super := assocGet x.supers k
          let table := (assocGet x.parcels k).getD []
          SetUp (w.getTile k).core (t.getTile k).core r x.wards (super.map fun _ => rim.length) 0 table.length none
            (assocGet w.mgmt.weights k) (if x.cfg = none ∧ (assocGet x.rims k).isSome then .running else .idle) ∧
          (t.getTile k).spine.sel = r.extractLsb' 20 3 ∧ (t.getTile k).parcels = table ∧
          (∀ a, a < 1024 → a < (rim ++ super.getD []).length →
            sparseGet 0 (t.getTile k).code a = (rim ++ super.getD []).getD a 0) ∧
          ∀ y ∈ x.slots, ∀ i, y.1 ≤ i → i < y.1 + y.2 → assocGet (t.getTile k).owners i = some (r.extractLsb' 0 16)) ∧
        (∀ k, k ∉ bindTiles r → t.getTile k = w.getTile k) ∧
        (∀ b ∈ t.cells, cellInside r b.1 = false ∧ b ∈ w.cells) ∧
        (x.cfg = none → g.tstart = w.time ∧ .graph slot ∈ t.turns ∧ ∀ k ∈ g.rims, .rim k ∈ t.turns) ∧
        (x.slots = [] → MemKept w t) ∧
        ∀ y, x.cfg = some y → (w.focusNet (bindNet r)).stream.len = 0 → t.netIdx = bindNet r ∧
          t.stream = { Stream.empty with
            graph := slot, ctx := r.extractLsb' 0 16, user := false, wards := t.stream.wards, va := y.1, len := y.2.length })) ∧
    (open' → (∀ y ∈ u.mgmt.saved, ¬ (y.record.extractLsb' 0 16 = r.extractLsb' 0 16 ∧ fld y.record 32 32 = fld r 32 32)) →
      exec (.graphRestore slot r) s = .next u) ∧
    (∀ v, open' → u.mgmt.saved = [v] → u.mgmt.evicted = [] → v.record.extractLsb' 0 16 = r.extractLsb' 0 16 →
      fld v.record 32 32 = fld r 32 32 → fld v.record 20 3 = fld r 20 3 → fld v.record 18 2 = fld r 18 2 →
      (v.tiles.map Prod.fst).Nodup →
      (u.rectFree u.island.absent slot r = false ∨ u.grantsFree slot r = false → exec (.graphRestore slot r) s = .next { u with
        mgmt := { u.mgmt with slots := sparsePut 0 u.mgmt.slots slot r } }) ∧
      (u.rectFree u.island.absent slot r = true → u.grantsFree slot r = true → ∃ t, exec (.graphRestore slot r) s = .next t ∧
        (r.getLsbD 25 = true → exec (.bindDispatch slot r) s = .next t) ∧
        t.getGraph slot = some { v.graph with
          slot := slot, record := r, holds := v.graph.holds.filter fun y => y != holdMgmt } ∧
        t.mgmt.saved = [] ∧ t.mem = u.mem ∧
        sparseGet 0 t.mgmt.slots slot = r ∧ (∀ k, k ≠ slot → k < 64 → t.getGraph k = u.getGraph k) ∧
        (∀ y ∈ v.graph.rims, .rim y ∈ t.turns) ∧ .graph slot ∈ t.turns ∧
        (∀ y ∈ v.tiles, let now := (u.getTile y.1).core
          (y.2.inbox = [] → (t.getTile y.1).core = { y.2.core with
            creel := now.creel, creelSeq := now.creelSeq, sent := now.sent, aloft := now.aloft, owedLines := now.owedLines
            owedRemote := now.owedRemote, cmdSerial := (t.getTile y.1).core.cmdSerial }) ∧
          (t.getTile y.1).spine = { y.2.spine with freq := u.mgmt.freqs.toList.getD y.2.spine.sel.toNat 44 } ∧
          (t.getTile y.1).capture = y.2.capture ∧ (t.getTile y.1).parcels = y.2.parcels) ∧
        (∀ y ∈ v.cells, y ∈ t.cells) ∧ (∀ y ∈ v.graph.requests, y.answer = none → .areq slot y.id ∈ t.hubq)))) ∧
  (∀ slot (s u : State), u = s.settle →
    (u.getGraph slot = none → exec (.graphPreempt slot) s = .next u ∧ exec (.graphDrained slot) s = .next u ∧
      exec (.drainTimeout slot) s = .next u ∧ exec (.graphComplete slot) s = .next u) ∧
    ∀ g, OnlyGraph slot g u →
      let cores := g.rims.map fun k => (u.getTile k).core
      let all := (bindTiles g.record).map fun k => (u.getTile k).core
      let drains := g.drain = true ∧ NotBinding slot u ∧ (∀ c ∈ cores, c.stall = .nextp ∨ c.run = .halted) ∧
        (∀ c ∈ cores, c.pend = 0) ∧ AgnQuiet g
      let quiet := NotBinding slot u ∧ (∀ c ∈ all, c.cmds = []) ∧
        ∀ r ∈ g.regions, r.sent = [] ∧ r.owedRemote = [] ∧ r.heldWrites = [] ∧ ∀ e ∈ r.creel, e.state ≠ .pending
      let freed := fun (w : State) => (∃ v, Released g u v ∧ w = { v with
          tile := w.tile, tiles := w.tiles, mgmt := { v.mgmt with evicted := w.mgmt.evicted } }) ∧
        ∀ k i, assocGet (w.getTile k).owners i ≠ some g.ctx
      let r := g.record
      (u.hartsRun = false → exec (.graphPreempt slot) s = .next u) ∧
      (u.hartsRun = true → g.saving = false ∨ u.mayBeSaved g = false → ∃ t, exec (.graphPreempt slot) s = .next t ∧
        GraphTo slot { g with holds := raised holdMgmt g.holds, saving := true } u t) ∧
      (u.hartsRun = true → g.saving = true → u.mayBeSaved g = true → g.requests = [] →
        (∀ c ∈ all, c.outbox = []) → ∃ t v, exec (.graphPreempt slot) s = .next t ∧ t.mgmt.saved = u.mgmt.saved ++ [v] ∧
        v.record = g.record ∧ v.graph = { g with saving := false } ∧ v.tiles.map Prod.fst = bindTiles g.record ∧
        (∀ y ∈ v.tiles, ∃ c, y.2 = { u.getTile y.1 with core := c } ∧ c = { (u.getTile y.1).core with
          stall := .none, held := none, answers := [], resident := false, aloft := [], owedLines := [], owedRemote := [] }) ∧
        (∀ y, y ∈ v.cells ↔ y ∈ u.cells ∧ cellInside g.record y.1 = true) ∧
        t.getGraph slot = none ∧ (sparseGet 0 t.mgmt.slots slot).getLsbD 24 = false ∧
        (∀ k, k ≠ slot → k < 64 → t.getGraph k = u.getGraph k) ∧
        (∀ k ∈ bindTiles g.record, (t.getTile k).core.run = .idle ∧ (t.getTile k).core.creel = (u.getTile k).core.creel ∧
          (t.getTile k).core.owedRemote = (u.getTile k).core.owedRemote ∧
          (t.getTile k).owners = (u.getTile k).owners ∧ (t.getTile k).code = (u.getTile k).code) ∧
        ∀ k, k ∉ bindTiles g.record → t.getTile k = u.getTile k) ∧
      (¬ drains → exec (.graphDrained slot) s = .next u) ∧
      (drains → ∃ v d w t, exec (.graphDrained slot) s = .next t ∧ Released g v w ∧
          v = { u with mgmt := { u.mgmt with drained := (u.mgmt.drained.filter fun x => x.ctx != g.ctx) ++ [d] } } ∧
          d.ctx = g.ctx ∧ d.tstart = g.tstart ∧ d.energy = g.energy ∧ d.energySat = g.energySat ∧
          (∀ p, d.parcel = some p → ∃ c ∈ cores, c.parcel = some p) ∧
          (∀ c ∈ cores, ∀ p, c.parcel = some p → ∃ m, d.parcel = some m ∧ p ≤ m) ∧
          t = { w with mgmt := { w.mgmt with slots := t.mgmt.slots } } ∧ (sparseGet 0 t.mgmt.slots slot).getLsbD 24 = false) ∧
      (g.drain = false → exec (.drainTimeout slot) s = .next u) ∧
      (g.drain = true → (∀ c ∈ cores, c.stall ≠ .nextp) → g.rims.all (fun k => k == u.tileIdx) = true →
        ∃ v t, exec (.drainTimeout slot) s = .next t ∧ GraphTo slot { g with drain := false } u v ∧
          t = { v with agenda := v.agenda ++ [.graphPreempt slot] }) ∧
      (∀ d h, g.drain = true → g.rims = [u.tileIdx] → u.tile.core.stall = .nextp → u.tile.core.held = some h →
        decodeRim h.word = .ok (.nextp d) → ∃ v y t, exec (.drainTimeout slot) s = .next t ∧
          GraphTo slot { g with drain := false } u v ∧ exec (.nextp d) (v.setCore { u.tile.core with stall := .none }) = .next y ∧
          t = { y with agenda := y.agenda ++ [.graphPreempt slot] }) ∧
      (¬ quiet → exec (.graphComplete slot) s = .next u) ∧
        (g.stopped = false → (∃ c ∈ cores, c.run ≠ .halted) → (∀ c ∈ cores, c.run ≠ .stopped) →
          exec (.graphComplete slot) s = .next u) ∧
        (u.mgmt.launches = [] → quiet → g.stopped = false → (∀ c ∈ cores, c.run = .halted) → ∃ w t,
          exec (.graphComplete slot) s = .next t ∧ freed w ∧
          Completes (r.extractLsb' 320 44) (r.extractLsb' 256 32) (r.extractLsb' 288 4).toNat 0 0 (fun l =>
            (∀ j, j < 8 → l.getLsbD (64 + j) = cores.any fun c => c.doneStatus.getLsbD j) ∧
            (l.extractLsb' 72 12).toNat = min 4095 (cores.map fun c => (c.doneStatus.extractLsb' 8 12).toNat).sum ∧
            (∀ pre c post, cores = pre ++ c :: post → c.doneStatus.extractLsb' 8 12 ≠ 0 →
              (∀ y ∈ pre, y.doneStatus.extractLsb' 8 12 = 0) → l.extractLsb' 84 44 = c.doneStatus.extractLsb' 20 44) ∧
            (l.extractLsb' 128 48).toNat = min (cores.map fun c => c.energy.toNat).sum (2 ^ 48 - 1) ∧
            (l.getLsbD 176 = true ↔ 2 ^ 48 ≤ (cores.map fun c => c.energy.toNat).sum ∨ ∃ c ∈ cores, c.energySat = true) ∧
            l.extractLsb' 192 48 = g.energy ∧ l.getLsbD 240 = g.energySat ∧ l.extractLsb' 256 64 = g.tstart ∧
            l.extractLsb' 384 44 = 0) (some slot) w t) ∧
        (∀ k f, u.mgmt.launches = [] → quiet → g.stopped = false → g.rims = [k] → (u.getTile k).core.run = .stopped →
          (u.getTile k).core.fault = some f → ∃ w x t, exec (.graphComplete slot) s = .next t ∧ freed w ∧
          x = { w with
            mem := x.mem, ptes := x.ptes, hubs := x.hubs, linePoison := x.linePoison, migrations := x.migrations
            agenda := x.agenda, notices := x.notices, noticeId := x.noticeId
            island := { w.island with overlaid := x.island.overlaid }, mgmt := { w.mgmt with writes := x.mgmt.writes } } ∧
          (∀ loc attr h, (r.extractLsb' 320 44).toNat % 64 = 0 →
            hubAccess w ((r.extractLsb' 320 44).toNat + 64) Access.stores = .at loc attr h → loc % 64 = 0 →
            MemKeptBut loc 64 w x ∧ readBytes x.mem loc 2 = f.ctx.toNat ∧ readBytes x.mem (loc + 4) 1 = f.cause.toNat ∧
            readBytes x.mem (loc + 8) 8 = f.eaddr.toNat ∧ readBytes x.mem (loc + 16) 4 = f.estat.toNat ∧
            readBytes x.mem (loc + 32) 8 = f.time.toNat ∧ readBytes x.mem (loc + 40) 8 = f.fenceAcc.toNat) ∧
          Completes (r.extractLsb' 320 44) (r.extractLsb' 256 32) (r.extractLsb' 288 4).toNat 1 0 (fun l =>
            l.extractLsb' 384 44 = r.extractLsb' 320 44 + 64 ∧ l.extractLsb' 448 6 = (u.getTile k).core.lateOut ∧
            l.extractLsb' 456 12 = (u.getTile k).core.lateCnt) (some slot) x t))

/-- R363, R380, R398 to R402, R409 to R419: the island. Compute reset aborts what is bound and queued, then resets the compute dies and
boots them; island reset holds every graph and drops the island's packets until the firmware starts; a supply loss leaves OFF, and
power-up boots from step 1, to SERVE where no part fails its test and none has failed in the previous boot, and to the ROM's safe-talk
after a second boot where no image is accepted. A command is refused in safe-talk unless marked S, and otherwise does what R411 says,
answered with its sequence number. That an empty flash slot stands for the image shipped, which is accepted, and which slot is tried
first, are this model's choices (log entry 25). -/
def Obligations.IslandAndMailbox : Prop :=
  (∀ (s : State), let x := s.island
    let unpowered := fun t : State => t.allGraphs = [] ∧ t.time = s.time ∧ (∀ p, getPte t p = 0) ∧
      ∀ a, readByte t.mem a = if 4 * spaceSize ≤ a then readByte s.mem a else 0
    (x.st ≠ .serve → exec .computeWatchdog s = .next s) ∧
    (x.st = .serve → ∃ t, exec .computeWatchdog s = .next t ∧ ResetBegun s t) ∧
    (x.st ≠ .transit ∨ x.safeTalk = true → exec .orphanTimeout s = .next s) ∧
    (x.st = .transit → x.safeTalk = false → x.wear = [] → x.found = [] → x.cuts = [] → (∀ step unit, x.failures step unit = []) →
      s.mgmt.writes = [] → s.mgmt.rejects = [] → ∃ t, exec .orphanTimeout s = .next t ∧ ComputeReset s t ∧ t.island.st = .serve ∧
      t.island.bstep = 9 ∧ t.island.cresets = countUp x.cresets ∧ t.island.iresets = x.iresets ∧ t.island.mrs = x.mrs ∧
      t.island.gens = x.gens ∧ t.island.ports = x.ports ∧ t.island.fwActive = x.fwActive ∧
      (∀ h f, h < 12 → (f ∈ (getHub t h).poisonMap ↔ f ∈ (getHub s h).poisonMap ∨
        (∃ n, (f, n) ∈ (getHub s h).dirty) ∧ f ∉ writtenBack writeBackLines (getHub s h).dirtyOrder)) ∧
      (∀ port p, s.hubq = [.remote port p] → (∀ h ∈ s.hoops.toList, h.arrivals = [] ∧ h.early = []) → ∃ gen, t.island.transit = x.transit ++
        [⟨x.pktId, ⟨p.src, x.moduleNum, gen, 1, true, .orphan (bodyId p.body)⟩, none, false⟩])) ∧
    (x.st = .ireset ∨ x.st = .off → exec .islandWatchdog s = .next s ∧ exec .hingelinkHotReset s = .next s) ∧
    (x.st = .serve ∨ x.st = .transit → ∃ t, exec .islandWatchdog s = .next t ∧ exec .hingelinkHotReset s = .next t ∧
      IslandHeld s t) ∧
    exec .hingelinkLinkDown s = .next { s with island := { x with linkUp := false } } ∧
    (x.st ≠ .ireset → exec .islandFirmwareStart s = .next s) ∧
    (x.st = .ireset → bootSlot x = none → ∃ t, exec .islandFirmwareStart s = .next t ∧ t.island.st = .transit ∧
      t.island.safeTalk = true ∧ t.island.bstep = 2 ∧ t.island.linkUp = true ∧ unpowered t) ∧
    (∀ slot, x.st = .ireset → bootSlot x = some slot → ∃ t, exec .islandFirmwareStart s = .next t ∧
      t = { s with
        graph := t.graph, graphs := t.graphs, agenda := t.agenda
        island := { x with st := x.held, fwActive := slot, fwFresh := false, linkUp := true, mrs := t.island.mrs } } ∧
      (∀ k, k < 64 → t.getGraph k = (s.getGraph k).map fun g =>
        if g.saving = true then g else { g with holds := g.holds.filter fun y => y != holdMgmt }) ∧
      t.agenda = (s.agenda ++ s.mgmt.queues.map fun q => .launchRecord q.1) ++
        (if x.held = .transit ∧ x.safeTalk = false then [.orphanTimeout] else []) ∧
      t.island.mrs.toList[0]? = some (Config.sha384 (bytesOf 48 (x.mrs.toList.getD 0 0).toNat ++
        bytesOf 48 (Config.sha384 (x.image slot)).toNat))) ∧
    (x.st = .off → exec .mainSupplyLoss s = .next s) ∧
    (x.st ≠ .off → ∃ t, exec .mainSupplyLoss s = .next t ∧ t.island.st = .off ∧ t.island.linkUp = false ∧
      t.island.fwSlots = x.fwSlots ∧ t.island.cresets = x.cresets ∧ t.island.iresets = x.iresets ∧
      t.mgmt = { Mgmt.reset with acts := s.mgmt.acts, reads := s.mgmt.reads } ∧ unpowered t) ∧
    (∃ t, exec .standbySupplyLoss s = .next t ∧ t.island.st = .off ∧ t.time = 0 ∧ t.island.cresets = 0 ∧ t.island.iresets = 0 ∧
      t.island.fwSlots = x.fwSlots ∧ t.island.bootCount = x.bootCount ∧ (∀ h, h < 12 → (getHub t h).poisonMap = []) ∧
      ∀ a, readByte t.mem a = if 4 * spaceSize ≤ a then readByte s.mem a else 0) ∧
    (x.st ≠ .off → exec .powerUp s = .next s) ∧
    (x.st = .off → x.wear = [] → (∀ step unit, { x with bootCount := x.bootCount + 1 }.failures step unit = []) →
      bootSlot x = none → ∃ t, exec .powerUp s = .next t ∧ t.island.safeTalk = true ∧ t.island.bstep = 2 ∧
      t.island.st = .transit ∧ t.island.bootCount = x.bootCount + 2 ∧ unpowered t) ∧
    (∀ slot, x.st = .off → x.wear = [] → x.found = [] → x.cuts = [] →
      (∀ step unit, { x with bootCount := x.bootCount + 1 }.failures step unit = []) →
      s.mgmt.writes = [] → s.mgmt.rejects = [] → bootSlot x = some slot → ∃ t, exec .powerUp s = .next t ∧ ComputeReset s t ∧
      t.island.st = .serve ∧
      t.island.bstep = 9 ∧ t.island.linkUp = true ∧ t.island.fwActive = slot ∧ t.island.bootCount = x.bootCount + 1 ∧
      t.island.cresets = (if x.cold then 0 else countUp x.cresets) ∧ t.island.iresets = (if x.cold then 0 else countUp x.iresets) ∧
      (∀ h, h < 12 → (getHub s h).dirty = [] → (getHub t h).cacheDie = 0) ∧
      t.island.mrs.toList[0]? = some (Config.sha384 (bytesOf 48 0 ++ bytesOf 48 (Config.sha384 (x.image slot)).toNat)) ∧
      ∀ k, 3 ≤ k → k < 8 → t.island.mrs.toList[k]? = some 0)) ∧
  (∀ x : Island, let sound := fun (i : List Byte) =>
      let d := bytesOf 48 (Config.sha384 i).toNat
      i = [] ∨ Config.rsaOk d (Config.firmwareSigs i).1 = true ∧ Config.slhOk d (Config.firmwareSigs i).2 = true ∧
        x.rollback.toNat ≤ (Config.firmwareVersion i).toNat
    let first := if x.fwFresh = true then !x.fwActive else x.fwActive
    (sound (x.image first) → bootSlot x = some first) ∧
    (¬ sound (x.image first) → sound (x.image (!first)) → bootSlot x = some (!first)) ∧
    (¬ sound (x.image first) → ¬ sound (x.image (!first)) → bootSlot x = none)) ∧
  (∀ seq (s : State),
    let x := s.island
    let reaches := (x.st = .serve ∨ x.st = .transit) ∧ x.linkUp = true
    let answers := fun (t : State) (code : BitVec 32) => ({ t with island := { t.island with answer := (seq, code) } } : State)
    let noS := fun (i : Instr) => (¬ reaches → exec i s = .next s) ∧
      (reaches → x.safeTalk = true → exec i s = .next (answers s 1))
    let run := reaches ∧ x.safeTalk = false
    noS (.mbxComputeReset seq) ∧ (∀ q d, noS (.mbxInstallQueue seq q d)) ∧ (∀ w, noS (.mbxSetPowerBudget seq w)) ∧
    (run → x.st = .transit → exec (.mbxComputeReset seq) s = .next (answers s 1)) ∧
    (run → x.st = .serve → ∃ t, exec (.mbxComputeReset seq) s = .next (answers t 0) ∧ ResetBegun s t) ∧
    (¬ reaches → exec (.mbxIslandReset seq) s = .next s ∧ (∀ a n d, exec (.mbxReadJournal seq a n d) s = .next s) ∧
      (∀ a n, exec (.mbxAttestation seq a n) s = .next s) ∧ ∀ a n, exec (.mbxLoadFirmware seq a n) s = .next s) ∧
    (reaches → ∃ t, exec (.mbxIslandReset seq) s = .next (answers t 0) ∧
      IslandHeld { s with island := { x with safeTalk := false } } t) ∧
    (∀ first count ia, reaches → count ≤ 4096 → ∃ t, exec (.mbxReadJournal seq first count ia) s = .next (answers t 0) ∧
      t = { s with mem := t.mem } ∧ MemKeptBut (companionLoc ia) (32 * count) s t ∧
      ∀ k, k < count → match x.journal[(first + k) % 4096]? with
        | some e => readBytes t.mem (companionLoc ia + 32 * k) 32 = e.toNat
        | none => ∀ j, j < 32 → readByte t.mem (companionLoc ia + 32 * k + j) = readByte s.mem (companionLoc ia + 32 * k + j)) ∧
    (∀ nonce ia body, reaches → x.safeTalk = false ∨ x.bstep ≠ 2 →
      body = bytesOf 32 nonce.toNat ++ (x.mrs.toList.flatMap fun m => bytesOf 48 m.toNat) ++ bytesOf 4 x.bootCount.toNat ++
        bytesOf 8 s.status0.toNat ++ bytesOf 8 x.status8.toNat →
      ∃ t, exec (.mbxAttestation seq nonce ia) s = .next (answers t 0) ∧ t = { s with mem := t.mem } ∧
        (∀ k b, (body ++ Config.attest body)[k]? = some b → readByte t.mem (companionLoc ia + k) = b) ∧
        MemKeptBut (companionLoc ia) (body ++ Config.attest body).length s t) ∧
    (∀ ia len image, reaches → image = (List.range len).map (fun k => readByte s.mem (companionLoc ia + k)) → image ≠ [] →
      ∃ t, exec (.mbxLoadFirmware seq ia len) s = .next (answers t 0) ∧
        t = { s with island := { x with fwSlots := t.island.fwSlots, fwFresh := true, rollback := t.island.rollback } } ∧
        t.island.image (!x.fwActive) = image ∧ t.island.image x.fwActive = x.image x.fwActive ∧
        (Config.firmwareRaises image = false → t.island.rollback = x.rollback) ∧
        (t.island.rollback ≠ x.rollback → t.island.rollback = Config.firmwareVersion image ∧
          x.rollback.toNat ≤ (Config.firmwareVersion image).toNat)) ∧
    (∀ q (d : BitVec 256), run →
      let ok := d.extractLsb' 0 12 = 0 ∧ 4 ≤ (d.extractLsb' 44 4).toNat ∧ (d.extractLsb' 44 4).toNat ≤ 12 ∧ d.extractLsb' 48 16 = 0 ∧
        d.extractLsb' 64 3 = 0 ∧ d.extractLsb' 108 20 = 0 ∧ d.extractLsb' 128 3 = 0 ∧ d.extractLsb' 172 20 = 0 ∧
        d.extractLsb' 192 64 = 0 ∧
        pteV (getPte s ((d.extractLsb' 64 44).toNat / 65536)) = true ∧ pteHc (getPte s ((d.extractLsb' 64 44).toNat / 65536)) = true
      (q < 16 → ok → ∃ t, exec (.mbxInstallQueue seq q d) s = .next (answers t 0) ∧
        t = { s with mgmt := { s.mgmt with queues := t.mgmt.queues, closed := t.mgmt.closed } } ∧
        (s.queue q = none → assocGet s.mgmt.closed q = none → t.queue q = some ⟨d, 0, [], []⟩) ∧
        (∀ y, (s.queue q).or (assocGet s.mgmt.closed q) = some y → t.queue q = some ⟨d, 0, y.seen, y.ended⟩) ∧
        assocGet t.mgmt.closed q = none ∧
        ∀ k, k ≠ q → t.queue k = s.queue k ∧ assocGet t.mgmt.closed k = assocGet s.mgmt.closed k) ∧
      (16 ≤ q ∨ ¬ ok → exec (.mbxInstallQueue seq q d) s = .next (answers s 1))) ∧
    (∀ w (u : State), run → u = s.settle →
      (w < 2000 ∨ 7000 < w → exec (.mbxSetPowerBudget seq w) s = .next (answers s 1)) ∧
      (2000 ≤ w → w ≤ 7000 → ∃ t l, exec (.mbxSetPowerBudget seq w) s = .next (answers t 0) ∧
        t = { u with graph := t.graph, graphs := t.graphs, mgmt := { u.mgmt with budget := w }, agenda := u.agenda ++ l } ∧
        let total := (u.allGraphs.map fun g => g.power).sum
        (u.mgmt.budget ≤ w ∨ total ≤ w → l = []) ∧
        (∀ i ∈ l, ∃ g ∈ u.allGraphs, g.drain = false ∧ i = .drainRequest g.slot) ∧
        (w < u.mgmt.budget → w < total → ∀ g ∈ u.allGraphs, g.drain = false → ∃ y ∈ u.allGraphs,
          l.head? = some (.drainRequest y.slot) ∧ (y.record.extractLsb' 16 2).toNat ≤ (g.record.extractLsb' 16 2).toNat) ∧
        ∀ k g, k < 64 → u.getGraph k = some g → ∃ b, t.getGraph k = some { g with limited := b } ∧
          (b = true ↔ g.limited = true ∨ .drainRequest k ∈ l))))

/-! ### The whole machine -/

/-- Every step keeps the one form of memory: addresses strictly rising, no listed byte equal to what an unlisted one reads as. -/
def Obligations.MemoryStaysCanonical : Prop :=
  ∀ s t, Memory.wf s.mem = true → Machine.step s = .next t → Memory.wf t.mem = true

/-- R54 to R56, R74, R79, R81 to R85, R180, R187, R223, R226, R234, R235, R237, R285, R305, R308, R342, R356, R363, R377: what the
spec says is held at reset: in every tile the files of the core, its status, numeric, loop, mail, trap and energy registers, its wards,
creel and spine selection; no page mapped, every slice all cache, no format range, key flip, hoop or queue in use. Memory has its one
form. Values at reset that the spec does not give are not stated here. -/
def Obligations.ResetState : Prop :=
  Memory.wf State.reset.mem = true ∧
  (∀ k, k < 2112 → let x := State.reset.getTile k
    let c := x.core
    (∀ n, c.s n = 0) ∧ (∀ n, c.p n = (n == 0)) ∧ (∀ n, c.m n = 0xFFFF) ∧
    (∀ n, c.t n = { data := 0, tag := 0, exp := 0, bub := false, valid := 0xFFFF, pred := 0 }) ∧
    (∀ v ∈ c.lc.toList, v = 0) ∧ c.mode = false ∧ c.pmode = false ∧ c.le = true ∧ c.ple = true ∧ c.lcsAct = 0 ∧
    c.rm = 0 ∧ c.remap = 0x80 ∧ c.seed = 0 ∧ c.fstat = 0 ∧
    (∀ l, l < 16 → c.rnd.toList[l]? = some (BitVec.ofNat 32 (0x5A00 + l))) ∧
    c.mailFull = 0 ∧ c.mailOvr = 0 ∧ c.tvecValid = false ∧ c.tvecEntry = 0 ∧ c.epc = 0 ∧ c.ecause = 0 ∧ c.eaddr = 0 ∧ c.estat = 0 ∧
    (∀ v ∈ c.sscr.toList, v = 0) ∧ c.energy = 0 ∧ c.energySat = false ∧ (∀ v ∈ c.ew.toList, v = 0) ∧ c.statw = 0 ∧
    (∀ w ∈ c.wards.toList, w.v = false) ∧ c.creel = [] ∧ c.cmds = [] ∧ c.nxcur = 0 ∧ c.exh = false ∧
    c.trow.toNat = k / 44 ∧ c.tcol.toNat = k % 44 ∧
    x.spine = ⟨0, false, false, false, 44, 0, 0⟩ ∧ x.owners = []) ∧
  (∀ p, getPte State.reset p = 0) ∧ (∀ slice, cacheMiB State.reset slice = 8) ∧
  (∀ h a, rangeOf (getHub State.reset h) a = none) ∧
  (∀ h ∈ State.reset.hoops.toList, h.p = 0 ∧ h.g = 0 ∧ h.bytes = 0 ∧ h.arrivals = [] ∧ h.early = []) ∧
  (∀ k, keyParity State.reset k = false) ∧ (∀ q, State.reset.queue q = none) ∧
  (∀ n, (sparseGet 0 State.reset.mgmt.slots n).getLsbD 24 = false) ∧ State.reset.allGraphs = []

/-- R16 to R20, R25 to R32, R36, R95, R114, R177, R178, R213: words that the spec writes out, and the instructions they stand for. -/
def Obligations.WordsOfTheSpec : Prop :=
  decodeRim 0x04A63D80 = .ok (.add 5 6 7 0b1011) ∧ decodeRim 0x49090006 = .ok (.ldw 8 9 0 6) ∧
  decodeRim 0x54640FFE = .ok (.std 3 4 0 0x3FE) ∧ decodeRim 0x6ABFFFED = .ok (.br 0b1010 0x3FFFED) ∧
  decodeRim 0x700640B0 = .ok (.loopImm 0 100 11) ∧ decodeRim 0x7CC00046 = .ok (.fence 6 0 4) ∧
  decodeRim 0x808110D4 = .ok (.vfma 4 1 2 3 2 1 0 0) ∧ decodeRim 0xA0C53000 = .ok (.vcvt 6 5 3 0 0 0 0 0 0) ∧
  decodeRim 0x7C850028 = .ok (.msg 4 5 2) ∧ decodeRim 0xC0642800 = .ok (.cfg 3 4 5 0) ∧
  decodeRim 0xC0600001 = .ok (.cfgw 3 0) ∧ decodeRim 0xC5095002 = .ok (.drn 8 9 10 0) ∧
  decodeRim 0xDC042800 = .ok (.wardw 4 5 0) ∧
  decodeCword 0x1000A400 = .ok (.tgt 0 164 0) ∧ decodeCword 0x20081700 = .ok (.ext 2 23) ∧ decodeCword 0xB0000000 = .ok .clrt ∧
  decodeCword 0x300A0000 = .ok (.tgtr 0 10 0 0 0) ∧ decodeCword 0x80020000 = .ok (.img 2 0) ∧
  decodeCword 0xA00023D9 = .ok (.sealWord 0x23D9) ∧ decodeCell 0x06DD0060 = .ok (.cellMacf 0 0 0 3 0)
end

