-- ==== Sys2Proof/Laws/Bits.lean ====
section
/-! SUPPORT. The bits of a mask built from a predicate. -/

namespace Sys2Proof.Laws

/-- The bits of `maskOf`. -/
theorem maskOf_bit {n : Nat} (p : Nat → Bool) (k : Nat) : (maskOf n p).getLsbD k = (decide (k < n) && p k) := by
  have key : ∀ m, m ≤ n → ∀ k, ((List.range m).foldl (fun (x : BitVec n) j => if p j then x ||| (1#n <<< j) else x) 0).getLsbD k =
      (decide (k < m) && p k) := by
    intro m
    induction m with
    | zero => simp
    | succ m ih =>
      intro hm k
      rw [List.range_succ, List.foldl_append]
      simp only [List.foldl_cons, List.foldl_nil]
      have h0 := ih (by omega) k
      generalize (List.range m).foldl (fun (x : BitVec n) j => if p j then x ||| (1#n <<< j) else x) 0 = x at h0 ⊢
      by_cases hk : k = m
      · subst hk
        cases h : p k
        · simpa [h] using h0
        · simp [h0]; omega
      · have e1 : decide (k < m + 1) = decide (k < m) := by rw [decide_eq_decide]; omega
        rw [e1, ← h0]
        cases h : p m
        · simp
        · have : (1#n <<< m).getLsbD k = false := by
            by_cases h1 : k < m
            · simp [h1]
            · have : k - m ≠ 0 := by omega
              simp [this]
          simp [BitVec.getLsbD_or, this]
  exact key n (Nat.le_refl n) k

end Sys2Proof.Laws
end

