-- ==== Sys2Proof/Laws/Memory.lean ====
section
/-! SUPPORT. Sparse tables and byte memory: reading after writing, and that every operation keeps the canonical form. -/

namespace Sys2Proof.Laws

open Sys2Proof.Machine

/-! ### Sparse tables -/

section
variable {α : Type}

theorem sparseGet_filter (d : α) (t : Sparse α) (k j : Nat) :
    sparseGet d (t.filter fun x => x.1 != k) j = if j = k then d else sparseGet d t j := by
  induction t with
  | nil => simp [sparseGet]
  | cons p r ih =>
    obtain ⟨a, v⟩ := p
    by_cases h : a = k
    · simp only [List.filter, h, bne_self_eq_false, ih, sparseGet]
      by_cases hj : j = k
      · simp [hj]
      · simp [hj, Ne.symm hj]
    · have : (a != k) = true := by simpa using h
      simp only [List.filter, this, sparseGet, ih]
      by_cases ha : a = j
      · subst ha; simp [h]
      · simp [ha]

theorem sparseGet_insert (d : α) (t : Sparse α) (k j : Nat) (v : α) (h : sparseGet d t k = d) (hk : ∀ p ∈ t, p.1 ≠ k) :
    sparseGet d (sparseInsert t k v) j = if j = k then v else sparseGet d t j := by
  induction t with
  | nil => simp only [sparseInsert, sparseGet, eq_comm]
  | cons p r ih =>
    obtain ⟨a, x⟩ := p
    have ha : a ≠ k := hk _ (.head _)
    have hr : ∀ p ∈ r, p.1 ≠ k := fun p hp => hk p (.tail _ hp)
    have hd : sparseGet d r k = d := by simpa [sparseGet, ha] using h
    unfold sparseInsert
    split
    · by_cases hj : j = k
      · simp [sparseGet, hj]
      · simp [sparseGet, hj, Ne.symm hj]
    · simp only [sparseGet, ih hd hr]
      by_cases hj : j = k
      · subst hj; simp [ha]
      · simp [hj]

variable [DecidableEq α]

/-- Reading after writing, in every table. -/
theorem sparseGet_put (d : α) (t : Sparse α) (k j : Nat) (v : α) :
    sparseGet d (sparsePut d t k v) j = if j = k then v else sparseGet d t j := by
  unfold sparsePut
  have hf := sparseGet_filter d t k
  dsimp only
  split
  · next h => rw [hf j, h]
  · rw [sparseGet_insert d _ k j v (by rw [hf k]; simp) (by intro p hp; have := List.of_mem_filter hp; simpa using this), hf j]
    split <;> rfl

theorem sparseWfFrom_mono (d : α) (t : Sparse α) (a b : Nat) (h : b ≤ a) (hw : sparseWfFrom d a t = true) :
    sparseWfFrom d b t = true := by
  cases t with
  | nil => rfl
  | cons p r => simp only [sparseWfFrom, Bool.and_eq_true, decide_eq_true_eq] at hw ⊢; exact ⟨⟨by omega, hw.1.2⟩, hw.2⟩

theorem sparseWfFrom_filter (d : α) (t : Sparse α) (f : Nat × α → Bool) (lo : Nat) (hw : sparseWfFrom d lo t = true) :
    sparseWfFrom d lo (t.filter f) = true := by
  induction t generalizing lo with
  | nil => rfl
  | cons p r ih =>
    simp only [sparseWfFrom, Bool.and_eq_true, decide_eq_true_eq] at hw
    rw [List.filter_cons]
    split
    · simp only [sparseWfFrom, Bool.and_eq_true, decide_eq_true_eq]; exact ⟨hw.1, ih _ hw.2⟩
    · exact sparseWfFrom_mono d _ _ _ (by omega) (ih _ hw.2)

theorem sparseWfFrom_insert (d : α) (t : Sparse α) (k : Nat) (v : α) (lo : Nat) (hv : v ≠ d) (hk : ∀ p ∈ t, p.1 ≠ k)
    (hl : lo ≤ k) (hw : sparseWfFrom d lo t = true) : sparseWfFrom d lo (sparseInsert t k v) = true := by
  induction t generalizing lo with
  | nil => simp [sparseInsert, sparseWfFrom, hl, hv]
  | cons p r ih =>
    obtain ⟨a, x⟩ := p
    have ha : a ≠ k := hk _ (.head _)
    simp only [sparseWfFrom, Bool.and_eq_true, decide_eq_true_eq] at hw
    unfold sparseInsert
    split
    · next h =>
      simp only [sparseWfFrom, Bool.and_eq_true, decide_eq_true_eq]
      exact ⟨⟨hl, by simpa using hv⟩, ⟨by omega, hw.1.2⟩, hw.2⟩
    · simp only [sparseWfFrom, Bool.and_eq_true, decide_eq_true_eq]
      exact ⟨hw.1, ih _ (fun p hp => hk p (.tail _ hp)) (by omega) hw.2⟩

/-- A write keeps the canonical form. -/
theorem sparseWf_put (d : α) (t : Sparse α) (k : Nat) (v : α) (hw : sparseWf d t = true) :
    sparseWf d (sparsePut d t k v) = true := by
  unfold sparsePut
  dsimp only
  split
  · exact sparseWfFrom_filter d t _ 0 hw
  · next h =>
    exact sparseWfFrom_insert d _ k v 0 h (by intro p hp; have := List.of_mem_filter hp; simpa using this) (by omega)
      (sparseWfFrom_filter d t _ 0 hw)

/-- Dropping entries keeps the canonical form. -/
theorem sparseWf_filter (d : α) (t : Sparse α) (f : Nat × α → Bool) (hw : sparseWf d t = true) :
    sparseWf d (t.filter f) = true := sparseWfFrom_filter d t f 0 hw

theorem sparseGet_lt (d : α) (t : Sparse α) (lo k : Nat) (hw : sparseWfFrom d lo t = true) (h : k < lo) : sparseGet d t k = d := by
  induction t generalizing lo with
  | nil => rfl
  | cons p r ih =>
    obtain ⟨a, v⟩ := p
    simp only [sparseWfFrom, Bool.and_eq_true, decide_eq_true_eq] at hw
    have : a ≠ k := by omega
    simp only [sparseGet, this, if_false]
    exact ih _ hw.2 (by omega)

/-- Tables in canonical form that read the same are the same. -/
theorem sparse_ext (d : α) (t u : Sparse α) (lo : Nat) (ht : sparseWfFrom d lo t = true) (hu : sparseWfFrom d lo u = true)
    (h : ∀ k, sparseGet d t k = sparseGet d u k) : t = u := by
  induction t generalizing lo u with
  | nil =>
    cases u with
    | nil => rfl
    | cons q r =>
      obtain ⟨b, w⟩ := q
      simp only [sparseWfFrom, Bool.and_eq_true, decide_eq_true_eq] at hu
      have := h b
      simp only [sparseGet, if_true] at this
      simp [← this] at hu
  | cons p r ih =>
    obtain ⟨a, v⟩ := p
    simp only [sparseWfFrom, Bool.and_eq_true, decide_eq_true_eq] at ht
    cases u with
    | nil =>
      have := h a
      simp only [sparseGet, if_true] at this
      simp [this] at ht
    | cons q x =>
      obtain ⟨b, w⟩ := q
      simp only [sparseWfFrom, Bool.and_eq_true, decide_eq_true_eq] at hu
      have hab : a = b := by
        by_contra hne
        rcases Nat.lt_or_gt_of_ne hne with hl | hl
        · have := h a
          simp only [sparseGet, if_true, Ne.symm hne, if_false] at this
          rw [sparseGet_lt d x (b + 1) a hu.2 (by omega)] at this
          simp [this] at ht
        · have := h b
          simp only [sparseGet, if_true, hne, if_false] at this
          rw [sparseGet_lt d r (a + 1) b ht.2 (by omega)] at this
          simp [← this] at hu
      subst hab
      have hv : v = w := by have := h a; simpa [sparseGet] using this
      subst hv
      congr 1
      refine ih x (a + 1) ht.2 hu.2 fun k => ?_
      by_cases hk : a = k
      · subst hk
        rw [sparseGet_lt d r (a + 1) a ht.2 (by omega), sparseGet_lt d x (a + 1) a hu.2 (by omega)]
      · have := h k; simpa [sparseGet, hk] using this
end

theorem assocGet_put {α : Type} (l : List (Nat × α)) (k j : Nat) (v : α) :
    assocGet (assocPut l k v) j = if j = k then some v else assocGet l j := by
  induction l with
  | nil => simp only [assocPut, assocGet, eq_comm]
  | cons p r ih =>
    obtain ⟨a, x⟩ := p
    unfold assocPut
    split
    · next h => subst h; by_cases h : j = a <;> simp [assocGet, h]; simp [Ne.symm h]
    · next h =>
      by_cases hj : j = k
      · subst hj; simp [assocGet, h, ih]
      · simp [assocGet, hj, ih]

theorem assocGet_drop {α : Type} (l : List (Nat × α)) (k j : Nat) :
    assocGet (assocDrop l k) j = if j = k then none else assocGet l j := by
  unfold assocDrop
  induction l with
  | nil => simp [assocGet]
  | cons p r ih =>
    obtain ⟨a, x⟩ := p
    by_cases h : a = k
    · subst h
      simp only [List.filter, bne_self_eq_false, ih, assocGet]
      by_cases hj : j = a
      · simp [hj]
      · simp [hj, Ne.symm hj]
    · have : (a != k) = true := by simpa using h
      simp only [List.filter, this, assocGet, ih]
      by_cases ha : a = j
      · subst ha; simp [h]
      · simp [ha]

/-! ### Byte memory -/

/-- A byte read after a byte was written. -/
theorem readByte_writeByte (m : List Host.Cell) (a b : Nat) (v : Byte) :
    readByte (writeByte m a v) b = if b = a then v else readByte m b := sparseGet_put 0 m a b v

theorem writeByte_wf (m : List Host.Cell) (a : Nat) (v : Byte) (h : Memory.wf m = true) : Memory.wf (writeByte m a v) = true :=
  sparseWf_put 0 m a v h

/-- A byte read after `n` bytes were written. -/
theorem readByte_writeBytes (m : List Host.Cell) (a n v b : Nat) :
    readByte (writeBytes m a n v) b =
      if a ≤ b ∧ b < a + n then BitVec.ofNat 8 (v / 256 ^ (b - a)) else readByte m b := by
  induction n generalizing m a v with
  | zero => simp [writeBytes]
  | succ n ih =>
    rw [writeBytes, ih, readByte_writeByte]
    by_cases h : b = a
    · subst h; simp
    · by_cases hr : a ≤ b ∧ b < a + (n + 1)
      · have h1 : a + 1 ≤ b ∧ b < a + 1 + n := by omega
        have h2 : b - a = (b - (a + 1)) + 1 := by omega
        simp only [h1, hr, and_self, if_true]
        rw [h2, Nat.pow_succ, Nat.mul_comm, Nat.div_div_eq_div_mul]
      · have h1 : ¬ (a + 1 ≤ b ∧ b < a + 1 + n) := by omega
        rw [if_neg h1, if_neg hr, if_neg h]

theorem writeBytes_wf (m : List Host.Cell) (a n v : Nat) (h : Memory.wf m = true) : Memory.wf (writeBytes m a n v) = true := by
  induction n generalizing m a v with
  | zero => exact h
  | succ n ih => exact ih _ _ _ (writeByte_wf m a _ h)

/-- The bytes of a read, lowest address first. -/
theorem readBytes_eq (m x : List Host.Cell) (a n : Nat) (h : ∀ b, a ≤ b → b < a + n → readByte m b = readByte x b) :
    readBytes m a n = readBytes x a n := by
  induction n generalizing a with
  | zero => rfl
  | succ n ih => rw [readBytes, readBytes, h a (by omega) (by omega), ih (a + 1) fun b h1 h2 => h b (by omega) (by omega)]

/-- A read after a write of the same bytes gives the value written. -/
theorem readBytes_writeBytes (m : List Host.Cell) (a n v : Nat) : readBytes (writeBytes m a n v) a n = v % 256 ^ n := by
  induction n generalizing m a v with
  | zero => simp [readBytes, Nat.mod_one]
  | succ n ih =>
    rw [readBytes, readByte_writeBytes]
    have h : a ≤ a ∧ a < a + (n + 1) := by omega
    simp only [h, and_self, if_true, Nat.sub_self, Nat.pow_zero, Nat.div_one]
    rw [writeBytes, ih, Nat.pow_succ, Nat.mul_comm (256 ^ n), Nat.mod_mul]
    simp

/-- The masked bytes of a line write. -/
theorem readByte_writeMasked (m : List Host.Cell) (a : Nat) (f : Nat → Bool) (n v b : Nat) :
    readByte (writeMasked m a f n v) b =
      if a ≤ b ∧ b < a + n ∧ f (b - a) = true then BitVec.ofNat 8 (v >>> (8 * (b - a))) else readByte m b := by
  unfold writeMasked
  induction n with
  | zero => simp; omega
  | succ n ih =>
    rw [List.range_succ, List.foldl_append]
    simp only [List.foldl_cons, List.foldl_nil]
    by_cases h : b = a + n
    · subst h
      by_cases hf : f n = true
      · simp [hf, readByte_writeByte]
      · simp [hf, ih]
    · have : (a ≤ b ∧ b < a + (n + 1) ∧ f (b - a) = true) ↔ (a ≤ b ∧ b < a + n ∧ f (b - a) = true) := by
        constructor <;> rintro ⟨h1, h2, h3⟩ <;> exact ⟨h1, by omega, h3⟩
      simp only [this]
      split
      · rw [readByte_writeByte, if_neg h, ih]
      · exact ih

theorem writeMasked_wf (m : List Host.Cell) (a : Nat) (f : Nat → Bool) (n v : Nat) (h : Memory.wf m = true) :
    Memory.wf (writeMasked m a f n v) = true := by
  unfold writeMasked
  induction n with
  | zero => exact h
  | succ n ih =>
    rw [List.range_succ, List.foldl_append]
    simp only [List.foldl_cons, List.foldl_nil]
    split
    · exact writeByte_wf _ _ _ ih
    · exact ih

theorem filter_wf (m : List Host.Cell) (f : Host.Cell → Bool) (h : Memory.wf m = true) : Memory.wf (m.filter f) = true :=
  sparseWf_filter 0 m f h

/-- Memory after reset is in canonical form. -/
theorem reset_wf : Memory.wf State.reset.mem = true := rfl

/-! ### The named line write -/

/-- What a masked line write leaves in memory. -/
theorem applyLine_wf (s : State) (loc : Nat) (mask : BitVec 64) (f : Nat → Nat) (h : Memory.wf s.mem = true) :
    Memory.wf (applyLine s loc mask f).mem = true := writeMasked_wf _ _ _ _ _ h

theorem readByte_applyLine (s : State) (loc : Nat) (mask : BitVec 64) (f : Nat → Nat) (b : Nat) :
    readByte (applyLine s loc mask f).mem b =
      if loc / 64 * 64 ≤ b ∧ b < loc / 64 * 64 + 64 ∧ mask.getLsbD (b - loc / 64 * 64) = true then
        BitVec.ofNat 8 (f (readBytes s.mem (loc / 64 * 64) 64) >>> (8 * (b - loc / 64 * 64)))
      else readByte s.mem b := readByte_writeMasked ..

end Sys2Proof.Laws
end

