-- ==== Sys2Proof/Laws/State.lean ====
section
/-! SUPPORT. What the shared updates of the state leave in each field: one lemma per field and update, so that no proof unfolds
a record update. -/

namespace Sys2Proof.Laws

open Sys2Proof.Machine

/-! ### The core in focus -/

@[simp] theorem setCore_core (s : State) (c : Core) : (s.setCore c).tile.core = c := rfl
@[simp] theorem setCore_self (s : State) : s.setCore s.tile.core = s := rfl
@[simp] theorem setCore_setCore (s : State) (c d : Core) : (s.setCore c).setCore d = s.setCore d := rfl
@[simp] theorem setCore_mem (s : State) (c : Core) : (s.setCore c).mem = s.mem := rfl
@[simp] theorem setCore_tileIdx (s : State) (c : Core) : (s.setCore c).tileIdx = s.tileIdx := rfl
@[simp] theorem setCore_tiles (s : State) (c : Core) : (s.setCore c).tiles = s.tiles := rfl
@[simp] theorem setCore_cells (s : State) (c : Core) : (s.setCore c).cells = s.cells := rfl
@[simp] theorem setCore_graph (s : State) (c : Core) : (s.setCore c).graph = s.graph := rfl
@[simp] theorem setCore_graphs (s : State) (c : Core) : (s.setCore c).graphs = s.graphs := rfl
@[simp] theorem setCore_region (s : State) (c : Core) : (s.setCore c).region = s.region := rfl
@[simp] theorem setCore_netIdx (s : State) (c : Core) : (s.setCore c).netIdx = s.netIdx := rfl
@[simp] theorem setCore_stream (s : State) (c : Core) : (s.setCore c).stream = s.stream := rfl
@[simp] theorem setCore_nets (s : State) (c : Core) : (s.setCore c).nets = s.nets := rfl
@[simp] theorem setCore_linePoison (s : State) (c : Core) : (s.setCore c).linePoison = s.linePoison := rfl
@[simp] theorem setCore_ptes (s : State) (c : Core) : (s.setCore c).ptes = s.ptes := rfl
@[simp] theorem setCore_hubs (s : State) (c : Core) : (s.setCore c).hubs = s.hubs := rfl
@[simp] theorem setCore_hubq (s : State) (c : Core) : (s.setCore c).hubq = s.hubq := rfl
@[simp] theorem setCore_notices (s : State) (c : Core) : (s.setCore c).notices = s.notices := rfl
@[simp] theorem setCore_noticeId (s : State) (c : Core) : (s.setCore c).noticeId = s.noticeId := rfl
@[simp] theorem setCore_migrations (s : State) (c : Core) : (s.setCore c).migrations = s.migrations := rfl
@[simp] theorem setCore_splits (s : State) (c : Core) : (s.setCore c).splits = s.splits := rfl
@[simp] theorem setCore_hoops (s : State) (c : Core) : (s.setCore c).hoops = s.hoops := rfl
@[simp] theorem setCore_keys (s : State) (c : Core) : (s.setCore c).keys = s.keys := rfl
@[simp] theorem setCore_gates (s : State) (c : Core) : (s.setCore c).gates = s.gates := rfl
@[simp] theorem setCore_time (s : State) (c : Core) : (s.setCore c).time = s.time := rfl
@[simp] theorem setCore_cycle (s : State) (c : Core) : (s.setCore c).cycle = s.cycle := rfl
@[simp] theorem setCore_mgmt (s : State) (c : Core) : (s.setCore c).mgmt = s.mgmt := rfl
@[simp] theorem setCore_island (s : State) (c : Core) : (s.setCore c).island = s.island := rfl
@[simp] theorem setCore_agenda (s : State) (c : Core) : (s.setCore c).agenda = s.agenda := rfl
@[simp] theorem setCore_turns (s : State) (c : Core) : (s.setCore c).turns = s.turns := rfl
@[simp] theorem setCore_free (s : State) (c : Core) : (s.setCore c).free = s.free := rfl
@[simp] theorem setCore_tile_code (s : State) (c : Core) : (s.setCore c).tile.code = s.tile.code := rfl
@[simp] theorem setCore_tile_codeMarks (s : State) (c : Core) : (s.setCore c).tile.codeMarks = s.tile.codeMarks := rfl
@[simp] theorem setCore_tile_softErr (s : State) (c : Core) : (s.setCore c).tile.softErr = s.tile.softErr := rfl
@[simp] theorem setCore_tile_owners (s : State) (c : Core) : (s.setCore c).tile.owners = s.tile.owners := rfl
@[simp] theorem setCore_tile_omCorr (s : State) (c : Core) : (s.setCore c).tile.omCorr = s.tile.omCorr := rfl
@[simp] theorem setCore_tile_omPoison (s : State) (c : Core) : (s.setCore c).tile.omPoison = s.tile.omPoison := rfl
@[simp] theorem setCore_tile_omErrors (s : State) (c : Core) : (s.setCore c).tile.omErrors = s.tile.omErrors := rfl
@[simp] theorem setCore_tile_omBefore (s : State) (c : Core) : (s.setCore c).tile.omBefore = s.tile.omBefore := rfl
@[simp] theorem setCore_tile_pushBeat (s : State) (c : Core) : (s.setCore c).tile.pushBeat = s.tile.pushBeat := rfl
@[simp] theorem setCore_tile_lastDrain (s : State) (c : Core) : (s.setCore c).tile.lastDrain = s.tile.lastDrain := rfl
@[simp] theorem setCore_tile_capture (s : State) (c : Core) : (s.setCore c).tile.capture = s.tile.capture := rfl
@[simp] theorem setCore_tile_parcels (s : State) (c : Core) : (s.setCore c).tile.parcels = s.tile.parcels := rfl
@[simp] theorem setCore_tile_inbox (s : State) (c : Core) : (s.setCore c).tile.inbox = s.tile.inbox := rfl
@[simp] theorem setCore_tile_spine (s : State) (c : Core) : (s.setCore c).tile.spine = s.tile.spine := rfl
@[simp] theorem setCore_tile_cdef (s : State) (c : Core) : (s.setCore c).tile.cdef = s.tile.cdef := rfl
@[simp] theorem setCore_tile_soff (s : State) (c : Core) : (s.setCore c).tile.soff = s.tile.soff := rfl
@[simp] theorem setCore_tile_txlt (s : State) (c : Core) : (s.setCore c).tile.txlt = s.tile.txlt := rfl
@[simp] theorem setCore_tile_seamLat (s : State) (c : Core) : (s.setCore c).tile.seamLat = s.tile.seamLat := rfl
@[simp] theorem setCore_tile_fdmap (s : State) (c : Core) : (s.setCore c).tile.fdmap = s.tile.fdmap := rfl

/-! ### Scalar registers -/

@[simp] theorem setS_preds (c : Core) (r : BitVec 5) (v : BitVec 64) : (c.setS r v).preds = c.preds := by unfold Core.setS; split <;> rfl
@[simp] theorem setS_toks (c : Core) (r : BitVec 5) (v : BitVec 64) : (c.setS r v).toks = c.toks := by unfold Core.setS; split <;> rfl
@[simp] theorem setS_masks (c : Core) (r : BitVec 5) (v : BitVec 64) : (c.setS r v).masks = c.masks := by unfold Core.setS; split <;> rfl
@[simp] theorem setS_lc (c : Core) (r : BitVec 5) (v : BitVec 64) : (c.setS r v).lc = c.lc := by unfold Core.setS; split <;> rfl
@[simp] theorem setS_pc (c : Core) (r : BitVec 5) (v : BitVec 64) : (c.setS r v).pc = c.pc := by unfold Core.setS; split <;> rfl
@[simp] theorem setS_mode (c : Core) (r : BitVec 5) (v : BitVec 64) : (c.setS r v).mode = c.mode := by unfold Core.setS; split <;> rfl
@[simp] theorem setS_pmode (c : Core) (r : BitVec 5) (v : BitVec 64) : (c.setS r v).pmode = c.pmode := by unfold Core.setS; split <;> rfl
@[simp] theorem setS_le (c : Core) (r : BitVec 5) (v : BitVec 64) : (c.setS r v).le = c.le := by unfold Core.setS; split <;> rfl
@[simp] theorem setS_ple (c : Core) (r : BitVec 5) (v : BitVec 64) : (c.setS r v).ple = c.ple := by unfold Core.setS; split <;> rfl
@[simp] theorem setS_ctx (c : Core) (r : BitVec 5) (v : BitVec 64) : (c.setS r v).ctx = c.ctx := by unfold Core.setS; split <;> rfl
@[simp] theorem setS_trow (c : Core) (r : BitVec 5) (v : BitVec 64) : (c.setS r v).trow = c.trow := by unfold Core.setS; split <;> rfl
@[simp] theorem setS_tcol (c : Core) (r : BitVec 5) (v : BitVec 64) : (c.setS r v).tcol = c.tcol := by unfold Core.setS; split <;> rfl
@[simp] theorem setS_lcsStart (c : Core) (r : BitVec 5) (v : BitVec 64) : (c.setS r v).lcsStart = c.lcsStart := by unfold Core.setS; split <;> rfl
@[simp] theorem setS_lcsEnd (c : Core) (r : BitVec 5) (v : BitVec 64) : (c.setS r v).lcsEnd = c.lcsEnd := by unfold Core.setS; split <;> rfl
@[simp] theorem setS_lcsAct (c : Core) (r : BitVec 5) (v : BitVec 64) : (c.setS r v).lcsAct = c.lcsAct := by unfold Core.setS; split <;> rfl
@[simp] theorem setS_tsel (c : Core) (r : BitVec 5) (v : BitVec 64) : (c.setS r v).tsel = c.tsel := by unfold Core.setS; split <;> rfl
@[simp] theorem setS_rm (c : Core) (r : BitVec 5) (v : BitVec 64) : (c.setS r v).rm = c.rm := by unfold Core.setS; split <;> rfl
@[simp] theorem setS_remap (c : Core) (r : BitVec 5) (v : BitVec 64) : (c.setS r v).remap = c.remap := by unfold Core.setS; split <;> rfl
@[simp] theorem setS_seed (c : Core) (r : BitVec 5) (v : BitVec 64) : (c.setS r v).seed = c.seed := by unfold Core.setS; split <;> rfl
@[simp] theorem setS_fstat (c : Core) (r : BitVec 5) (v : BitVec 64) : (c.setS r v).fstat = c.fstat := by unfold Core.setS; split <;> rfl
@[simp] theorem setS_rnd (c : Core) (r : BitVec 5) (v : BitVec 64) : (c.setS r v).rnd = c.rnd := by unfold Core.setS; split <;> rfl
@[simp] theorem setS_mailFull (c : Core) (r : BitVec 5) (v : BitVec 64) : (c.setS r v).mailFull = c.mailFull := by unfold Core.setS; split <;> rfl
@[simp] theorem setS_mailOvr (c : Core) (r : BitVec 5) (v : BitVec 64) : (c.setS r v).mailOvr = c.mailOvr := by unfold Core.setS; split <;> rfl
@[simp] theorem setS_tvecEntry (c : Core) (r : BitVec 5) (v : BitVec 64) : (c.setS r v).tvecEntry = c.tvecEntry := by unfold Core.setS; split <;> rfl
@[simp] theorem setS_tvecValid (c : Core) (r : BitVec 5) (v : BitVec 64) : (c.setS r v).tvecValid = c.tvecValid := by unfold Core.setS; split <;> rfl
@[simp] theorem setS_epc (c : Core) (r : BitVec 5) (v : BitVec 64) : (c.setS r v).epc = c.epc := by unfold Core.setS; split <;> rfl
@[simp] theorem setS_ecause (c : Core) (r : BitVec 5) (v : BitVec 64) : (c.setS r v).ecause = c.ecause := by unfold Core.setS; split <;> rfl
@[simp] theorem setS_easync (c : Core) (r : BitVec 5) (v : BitVec 64) : (c.setS r v).easync = c.easync := by unfold Core.setS; split <;> rfl
@[simp] theorem setS_eaddr (c : Core) (r : BitVec 5) (v : BitVec 64) : (c.setS r v).eaddr = c.eaddr := by unfold Core.setS; split <;> rfl
@[simp] theorem setS_estat (c : Core) (r : BitVec 5) (v : BitVec 64) : (c.setS r v).estat = c.estat := by unfold Core.setS; split <;> rfl
@[simp] theorem setS_sscr (c : Core) (r : BitVec 5) (v : BitVec 64) : (c.setS r v).sscr = c.sscr := by unfold Core.setS; split <;> rfl
@[simp] theorem setS_energy (c : Core) (r : BitVec 5) (v : BitVec 64) : (c.setS r v).energy = c.energy := by unfold Core.setS; split <;> rfl
@[simp] theorem setS_energySat (c : Core) (r : BitVec 5) (v : BitVec 64) : (c.setS r v).energySat = c.energySat := by unfold Core.setS; split <;> rfl
@[simp] theorem setS_ew (c : Core) (r : BitVec 5) (v : BitVec 64) : (c.setS r v).ew = c.ew := by unfold Core.setS; split <;> rfl
@[simp] theorem setS_statw (c : Core) (r : BitVec 5) (v : BitVec 64) : (c.setS r v).statw = c.statw := by unfold Core.setS; split <;> rfl
@[simp] theorem setS_wards (c : Core) (r : BitVec 5) (v : BitVec 64) : (c.setS r v).wards = c.wards := by unfold Core.setS; split <;> rfl
@[simp] theorem setS_staged (c : Core) (r : BitVec 5) (v : BitVec 64) : (c.setS r v).staged = c.staged := by unfold Core.setS; split <;> rfl
@[simp] theorem setS_fence (c : Core) (r : BitVec 5) (v : BitVec 64) : (c.setS r v).fence = c.fence := by unfold Core.setS; split <;> rfl
@[simp] theorem setS_nxcur (c : Core) (r : BitVec 5) (v : BitVec 64) : (c.setS r v).nxcur = c.nxcur := by unfold Core.setS; split <;> rfl
@[simp] theorem setS_exh (c : Core) (r : BitVec 5) (v : BitVec 64) : (c.setS r v).exh = c.exh := by unfold Core.setS; split <;> rfl
@[simp] theorem setS_parcel (c : Core) (r : BitVec 5) (v : BitVec 64) : (c.setS r v).parcel = c.parcel := by unfold Core.setS; split <;> rfl
@[simp] theorem setS_pendPreempt (c : Core) (r : BitVec 5) (v : BitVec 64) : (c.setS r v).pendPreempt = c.pendPreempt := by unfold Core.setS; split <;> rfl
@[simp] theorem setS_pendMgmt (c : Core) (r : BitVec 5) (v : BitVec 64) : (c.setS r v).pendMgmt = c.pendMgmt := by unfold Core.setS; split <;> rfl
@[simp] theorem setS_stall (c : Core) (r : BitVec 5) (v : BitVec 64) : (c.setS r v).stall = c.stall := by unfold Core.setS; split <;> rfl
@[simp] theorem setS_late (c : Core) (r : BitVec 5) (v : BitVec 64) : (c.setS r v).late = c.late := by unfold Core.setS; split <;> rfl
@[simp] theorem setS_held (c : Core) (r : BitVec 5) (v : BitVec 64) : (c.setS r v).held = c.held := by unfold Core.setS; split <;> rfl
@[simp] theorem setS_run (c : Core) (r : BitVec 5) (v : BitVec 64) : (c.setS r v).run = c.run := by unfold Core.setS; split <;> rfl
@[simp] theorem setS_resident (c : Core) (r : BitVec 5) (v : BitVec 64) : (c.setS r v).resident = c.resident := by unfold Core.setS; split <;> rfl
@[simp] theorem setS_fault (c : Core) (r : BitVec 5) (v : BitVec 64) : (c.setS r v).fault = c.fault := by unfold Core.setS; split <;> rfl
@[simp] theorem setS_doneStatus (c : Core) (r : BitVec 5) (v : BitVec 64) : (c.setS r v).doneStatus = c.doneStatus := by unfold Core.setS; split <;> rfl
@[simp] theorem setS_lateOut (c : Core) (r : BitVec 5) (v : BitVec 64) : (c.setS r v).lateOut = c.lateOut := by unfold Core.setS; split <;> rfl
@[simp] theorem setS_lateCnt (c : Core) (r : BitVec 5) (v : BitVec 64) : (c.setS r v).lateCnt = c.lateCnt := by unfold Core.setS; split <;> rfl
@[simp] theorem setS_cmds (c : Core) (r : BitVec 5) (v : BitVec 64) : (c.setS r v).cmds = c.cmds := by unfold Core.setS; split <;> rfl
@[simp] theorem setS_cmdSerial (c : Core) (r : BitVec 5) (v : BitVec 64) : (c.setS r v).cmdSerial = c.cmdSerial := by unfold Core.setS; split <;> rfl
@[simp] theorem setS_cfgLog (c : Core) (r : BitVec 5) (v : BitVec 64) : (c.setS r v).cfgLog = c.cfgLog := by unfold Core.setS; split <;> rfl
@[simp] theorem setS_cpyLog (c : Core) (r : BitVec 5) (v : BitVec 64) : (c.setS r v).cpyLog = c.cpyLog := by unfold Core.setS; split <;> rfl
@[simp] theorem setS_loopBuf (c : Core) (r : BitVec 5) (v : BitVec 64) : (c.setS r v).loopBuf = c.loopBuf := by unfold Core.setS; split <;> rfl
@[simp] theorem setS_outbox (c : Core) (r : BitVec 5) (v : BitVec 64) : (c.setS r v).outbox = c.outbox := by unfold Core.setS; split <;> rfl
@[simp] theorem setS_creel (c : Core) (r : BitVec 5) (v : BitVec 64) : (c.setS r v).creel = c.creel := by unfold Core.setS; split <;> rfl
@[simp] theorem setS_creelSeq (c : Core) (r : BitVec 5) (v : BitVec 64) : (c.setS r v).creelSeq = c.creelSeq := by unfold Core.setS; split <;> rfl
@[simp] theorem setS_sent (c : Core) (r : BitVec 5) (v : BitVec 64) : (c.setS r v).sent = c.sent := by unfold Core.setS; split <;> rfl
@[simp] theorem setS_aloft (c : Core) (r : BitVec 5) (v : BitVec 64) : (c.setS r v).aloft = c.aloft := by unfold Core.setS; split <;> rfl
@[simp] theorem setS_owedLines (c : Core) (r : BitVec 5) (v : BitVec 64) : (c.setS r v).owedLines = c.owedLines := by unfold Core.setS; split <;> rfl
@[simp] theorem setS_owedRemote (c : Core) (r : BitVec 5) (v : BitVec 64) : (c.setS r v).owedRemote = c.owedRemote := by unfold Core.setS; split <;> rfl
@[simp] theorem setS_answers (c : Core) (r : BitVec 5) (v : BitVec 64) : (c.setS r v).answers = c.answers := by unfold Core.setS; split <;> rfl
@[simp] theorem setS_attrs (c : Core) (r : BitVec 5) (v : BitVec 64) : (c.setS r v).attrs = c.attrs := by unfold Core.setS; split <;> rfl

/-! ### Predicate registers -/

@[simp] theorem setP_sregs (c : Core) (r : BitVec 3) (v : Bool) : (c.setP r v).sregs = c.sregs := by unfold Core.setP; split <;> rfl
@[simp] theorem setP_toks (c : Core) (r : BitVec 3) (v : Bool) : (c.setP r v).toks = c.toks := by unfold Core.setP; split <;> rfl
@[simp] theorem setP_masks (c : Core) (r : BitVec 3) (v : Bool) : (c.setP r v).masks = c.masks := by unfold Core.setP; split <;> rfl
@[simp] theorem setP_lc (c : Core) (r : BitVec 3) (v : Bool) : (c.setP r v).lc = c.lc := by unfold Core.setP; split <;> rfl
@[simp] theorem setP_pc (c : Core) (r : BitVec 3) (v : Bool) : (c.setP r v).pc = c.pc := by unfold Core.setP; split <;> rfl
@[simp] theorem setP_mode (c : Core) (r : BitVec 3) (v : Bool) : (c.setP r v).mode = c.mode := by unfold Core.setP; split <;> rfl
@[simp] theorem setP_pmode (c : Core) (r : BitVec 3) (v : Bool) : (c.setP r v).pmode = c.pmode := by unfold Core.setP; split <;> rfl
@[simp] theorem setP_le (c : Core) (r : BitVec 3) (v : Bool) : (c.setP r v).le = c.le := by unfold Core.setP; split <;> rfl
@[simp] theorem setP_ple (c : Core) (r : BitVec 3) (v : Bool) : (c.setP r v).ple = c.ple := by unfold Core.setP; split <;> rfl
@[simp] theorem setP_ctx (c : Core) (r : BitVec 3) (v : Bool) : (c.setP r v).ctx = c.ctx := by unfold Core.setP; split <;> rfl
@[simp] theorem setP_trow (c : Core) (r : BitVec 3) (v : Bool) : (c.setP r v).trow = c.trow := by unfold Core.setP; split <;> rfl
@[simp] theorem setP_tcol (c : Core) (r : BitVec 3) (v : Bool) : (c.setP r v).tcol = c.tcol := by unfold Core.setP; split <;> rfl
@[simp] theorem setP_lcsStart (c : Core) (r : BitVec 3) (v : Bool) : (c.setP r v).lcsStart = c.lcsStart := by unfold Core.setP; split <;> rfl
@[simp] theorem setP_lcsEnd (c : Core) (r : BitVec 3) (v : Bool) : (c.setP r v).lcsEnd = c.lcsEnd := by unfold Core.setP; split <;> rfl
@[simp] theorem setP_lcsAct (c : Core) (r : BitVec 3) (v : Bool) : (c.setP r v).lcsAct = c.lcsAct := by unfold Core.setP; split <;> rfl
@[simp] theorem setP_tsel (c : Core) (r : BitVec 3) (v : Bool) : (c.setP r v).tsel = c.tsel := by unfold Core.setP; split <;> rfl
@[simp] theorem setP_rm (c : Core) (r : BitVec 3) (v : Bool) : (c.setP r v).rm = c.rm := by unfold Core.setP; split <;> rfl
@[simp] theorem setP_remap (c : Core) (r : BitVec 3) (v : Bool) : (c.setP r v).remap = c.remap := by unfold Core.setP; split <;> rfl
@[simp] theorem setP_seed (c : Core) (r : BitVec 3) (v : Bool) : (c.setP r v).seed = c.seed := by unfold Core.setP; split <;> rfl
@[simp] theorem setP_fstat (c : Core) (r : BitVec 3) (v : Bool) : (c.setP r v).fstat = c.fstat := by unfold Core.setP; split <;> rfl
@[simp] theorem setP_rnd (c : Core) (r : BitVec 3) (v : Bool) : (c.setP r v).rnd = c.rnd := by unfold Core.setP; split <;> rfl
@[simp] theorem setP_mailFull (c : Core) (r : BitVec 3) (v : Bool) : (c.setP r v).mailFull = c.mailFull := by unfold Core.setP; split <;> rfl
@[simp] theorem setP_mailOvr (c : Core) (r : BitVec 3) (v : Bool) : (c.setP r v).mailOvr = c.mailOvr := by unfold Core.setP; split <;> rfl
@[simp] theorem setP_tvecEntry (c : Core) (r : BitVec 3) (v : Bool) : (c.setP r v).tvecEntry = c.tvecEntry := by unfold Core.setP; split <;> rfl
@[simp] theorem setP_tvecValid (c : Core) (r : BitVec 3) (v : Bool) : (c.setP r v).tvecValid = c.tvecValid := by unfold Core.setP; split <;> rfl
@[simp] theorem setP_epc (c : Core) (r : BitVec 3) (v : Bool) : (c.setP r v).epc = c.epc := by unfold Core.setP; split <;> rfl
@[simp] theorem setP_ecause (c : Core) (r : BitVec 3) (v : Bool) : (c.setP r v).ecause = c.ecause := by unfold Core.setP; split <;> rfl
@[simp] theorem setP_easync (c : Core) (r : BitVec 3) (v : Bool) : (c.setP r v).easync = c.easync := by unfold Core.setP; split <;> rfl
@[simp] theorem setP_eaddr (c : Core) (r : BitVec 3) (v : Bool) : (c.setP r v).eaddr = c.eaddr := by unfold Core.setP; split <;> rfl
@[simp] theorem setP_estat (c : Core) (r : BitVec 3) (v : Bool) : (c.setP r v).estat = c.estat := by unfold Core.setP; split <;> rfl
@[simp] theorem setP_sscr (c : Core) (r : BitVec 3) (v : Bool) : (c.setP r v).sscr = c.sscr := by unfold Core.setP; split <;> rfl
@[simp] theorem setP_energy (c : Core) (r : BitVec 3) (v : Bool) : (c.setP r v).energy = c.energy := by unfold Core.setP; split <;> rfl
@[simp] theorem setP_energySat (c : Core) (r : BitVec 3) (v : Bool) : (c.setP r v).energySat = c.energySat := by unfold Core.setP; split <;> rfl
@[simp] theorem setP_ew (c : Core) (r : BitVec 3) (v : Bool) : (c.setP r v).ew = c.ew := by unfold Core.setP; split <;> rfl
@[simp] theorem setP_statw (c : Core) (r : BitVec 3) (v : Bool) : (c.setP r v).statw = c.statw := by unfold Core.setP; split <;> rfl
@[simp] theorem setP_wards (c : Core) (r : BitVec 3) (v : Bool) : (c.setP r v).wards = c.wards := by unfold Core.setP; split <;> rfl
@[simp] theorem setP_staged (c : Core) (r : BitVec 3) (v : Bool) : (c.setP r v).staged = c.staged := by unfold Core.setP; split <;> rfl
@[simp] theorem setP_fence (c : Core) (r : BitVec 3) (v : Bool) : (c.setP r v).fence = c.fence := by unfold Core.setP; split <;> rfl
@[simp] theorem setP_nxcur (c : Core) (r : BitVec 3) (v : Bool) : (c.setP r v).nxcur = c.nxcur := by unfold Core.setP; split <;> rfl
@[simp] theorem setP_exh (c : Core) (r : BitVec 3) (v : Bool) : (c.setP r v).exh = c.exh := by unfold Core.setP; split <;> rfl
@[simp] theorem setP_parcel (c : Core) (r : BitVec 3) (v : Bool) : (c.setP r v).parcel = c.parcel := by unfold Core.setP; split <;> rfl
@[simp] theorem setP_pendPreempt (c : Core) (r : BitVec 3) (v : Bool) : (c.setP r v).pendPreempt = c.pendPreempt := by unfold Core.setP; split <;> rfl
@[simp] theorem setP_pendMgmt (c : Core) (r : BitVec 3) (v : Bool) : (c.setP r v).pendMgmt = c.pendMgmt := by unfold Core.setP; split <;> rfl
@[simp] theorem setP_stall (c : Core) (r : BitVec 3) (v : Bool) : (c.setP r v).stall = c.stall := by unfold Core.setP; split <;> rfl
@[simp] theorem setP_late (c : Core) (r : BitVec 3) (v : Bool) : (c.setP r v).late = c.late := by unfold Core.setP; split <;> rfl
@[simp] theorem setP_held (c : Core) (r : BitVec 3) (v : Bool) : (c.setP r v).held = c.held := by unfold Core.setP; split <;> rfl
@[simp] theorem setP_run (c : Core) (r : BitVec 3) (v : Bool) : (c.setP r v).run = c.run := by unfold Core.setP; split <;> rfl
@[simp] theorem setP_resident (c : Core) (r : BitVec 3) (v : Bool) : (c.setP r v).resident = c.resident := by unfold Core.setP; split <;> rfl
@[simp] theorem setP_fault (c : Core) (r : BitVec 3) (v : Bool) : (c.setP r v).fault = c.fault := by unfold Core.setP; split <;> rfl
@[simp] theorem setP_doneStatus (c : Core) (r : BitVec 3) (v : Bool) : (c.setP r v).doneStatus = c.doneStatus := by unfold Core.setP; split <;> rfl
@[simp] theorem setP_lateOut (c : Core) (r : BitVec 3) (v : Bool) : (c.setP r v).lateOut = c.lateOut := by unfold Core.setP; split <;> rfl
@[simp] theorem setP_lateCnt (c : Core) (r : BitVec 3) (v : Bool) : (c.setP r v).lateCnt = c.lateCnt := by unfold Core.setP; split <;> rfl
@[simp] theorem setP_cmds (c : Core) (r : BitVec 3) (v : Bool) : (c.setP r v).cmds = c.cmds := by unfold Core.setP; split <;> rfl
@[simp] theorem setP_cmdSerial (c : Core) (r : BitVec 3) (v : Bool) : (c.setP r v).cmdSerial = c.cmdSerial := by unfold Core.setP; split <;> rfl
@[simp] theorem setP_cfgLog (c : Core) (r : BitVec 3) (v : Bool) : (c.setP r v).cfgLog = c.cfgLog := by unfold Core.setP; split <;> rfl
@[simp] theorem setP_cpyLog (c : Core) (r : BitVec 3) (v : Bool) : (c.setP r v).cpyLog = c.cpyLog := by unfold Core.setP; split <;> rfl
@[simp] theorem setP_loopBuf (c : Core) (r : BitVec 3) (v : Bool) : (c.setP r v).loopBuf = c.loopBuf := by unfold Core.setP; split <;> rfl
@[simp] theorem setP_outbox (c : Core) (r : BitVec 3) (v : Bool) : (c.setP r v).outbox = c.outbox := by unfold Core.setP; split <;> rfl
@[simp] theorem setP_creel (c : Core) (r : BitVec 3) (v : Bool) : (c.setP r v).creel = c.creel := by unfold Core.setP; split <;> rfl
@[simp] theorem setP_creelSeq (c : Core) (r : BitVec 3) (v : Bool) : (c.setP r v).creelSeq = c.creelSeq := by unfold Core.setP; split <;> rfl
@[simp] theorem setP_sent (c : Core) (r : BitVec 3) (v : Bool) : (c.setP r v).sent = c.sent := by unfold Core.setP; split <;> rfl
@[simp] theorem setP_aloft (c : Core) (r : BitVec 3) (v : Bool) : (c.setP r v).aloft = c.aloft := by unfold Core.setP; split <;> rfl
@[simp] theorem setP_owedLines (c : Core) (r : BitVec 3) (v : Bool) : (c.setP r v).owedLines = c.owedLines := by unfold Core.setP; split <;> rfl
@[simp] theorem setP_owedRemote (c : Core) (r : BitVec 3) (v : Bool) : (c.setP r v).owedRemote = c.owedRemote := by unfold Core.setP; split <;> rfl
@[simp] theorem setP_answers (c : Core) (r : BitVec 3) (v : Bool) : (c.setP r v).answers = c.answers := by unfold Core.setP; split <;> rfl
@[simp] theorem setP_attrs (c : Core) (r : BitVec 3) (v : Bool) : (c.setP r v).attrs = c.attrs := by unfold Core.setP; split <;> rfl

/-! ### Mask registers -/

@[simp] theorem setM_sregs (c : Core) (r : BitVec 3) (v : BitVec 16) : (c.setM r v).sregs = c.sregs := by unfold Core.setM; split <;> rfl
@[simp] theorem setM_preds (c : Core) (r : BitVec 3) (v : BitVec 16) : (c.setM r v).preds = c.preds := by unfold Core.setM; split <;> rfl
@[simp] theorem setM_toks (c : Core) (r : BitVec 3) (v : BitVec 16) : (c.setM r v).toks = c.toks := by unfold Core.setM; split <;> rfl
@[simp] theorem setM_lc (c : Core) (r : BitVec 3) (v : BitVec 16) : (c.setM r v).lc = c.lc := by unfold Core.setM; split <;> rfl
@[simp] theorem setM_pc (c : Core) (r : BitVec 3) (v : BitVec 16) : (c.setM r v).pc = c.pc := by unfold Core.setM; split <;> rfl
@[simp] theorem setM_mode (c : Core) (r : BitVec 3) (v : BitVec 16) : (c.setM r v).mode = c.mode := by unfold Core.setM; split <;> rfl
@[simp] theorem setM_pmode (c : Core) (r : BitVec 3) (v : BitVec 16) : (c.setM r v).pmode = c.pmode := by unfold Core.setM; split <;> rfl
@[simp] theorem setM_le (c : Core) (r : BitVec 3) (v : BitVec 16) : (c.setM r v).le = c.le := by unfold Core.setM; split <;> rfl
@[simp] theorem setM_ple (c : Core) (r : BitVec 3) (v : BitVec 16) : (c.setM r v).ple = c.ple := by unfold Core.setM; split <;> rfl
@[simp] theorem setM_ctx (c : Core) (r : BitVec 3) (v : BitVec 16) : (c.setM r v).ctx = c.ctx := by unfold Core.setM; split <;> rfl
@[simp] theorem setM_trow (c : Core) (r : BitVec 3) (v : BitVec 16) : (c.setM r v).trow = c.trow := by unfold Core.setM; split <;> rfl
@[simp] theorem setM_tcol (c : Core) (r : BitVec 3) (v : BitVec 16) : (c.setM r v).tcol = c.tcol := by unfold Core.setM; split <;> rfl
@[simp] theorem setM_lcsStart (c : Core) (r : BitVec 3) (v : BitVec 16) : (c.setM r v).lcsStart = c.lcsStart := by unfold Core.setM; split <;> rfl
@[simp] theorem setM_lcsEnd (c : Core) (r : BitVec 3) (v : BitVec 16) : (c.setM r v).lcsEnd = c.lcsEnd := by unfold Core.setM; split <;> rfl
@[simp] theorem setM_lcsAct (c : Core) (r : BitVec 3) (v : BitVec 16) : (c.setM r v).lcsAct = c.lcsAct := by unfold Core.setM; split <;> rfl
@[simp] theorem setM_tsel (c : Core) (r : BitVec 3) (v : BitVec 16) : (c.setM r v).tsel = c.tsel := by unfold Core.setM; split <;> rfl
@[simp] theorem setM_rm (c : Core) (r : BitVec 3) (v : BitVec 16) : (c.setM r v).rm = c.rm := by unfold Core.setM; split <;> rfl
@[simp] theorem setM_remap (c : Core) (r : BitVec 3) (v : BitVec 16) : (c.setM r v).remap = c.remap := by unfold Core.setM; split <;> rfl
@[simp] theorem setM_seed (c : Core) (r : BitVec 3) (v : BitVec 16) : (c.setM r v).seed = c.seed := by unfold Core.setM; split <;> rfl
@[simp] theorem setM_fstat (c : Core) (r : BitVec 3) (v : BitVec 16) : (c.setM r v).fstat = c.fstat := by unfold Core.setM; split <;> rfl
@[simp] theorem setM_rnd (c : Core) (r : BitVec 3) (v : BitVec 16) : (c.setM r v).rnd = c.rnd := by unfold Core.setM; split <;> rfl
@[simp] theorem setM_mailFull (c : Core) (r : BitVec 3) (v : BitVec 16) : (c.setM r v).mailFull = c.mailFull := by unfold Core.setM; split <;> rfl
@[simp] theorem setM_mailOvr (c : Core) (r : BitVec 3) (v : BitVec 16) : (c.setM r v).mailOvr = c.mailOvr := by unfold Core.setM; split <;> rfl
@[simp] theorem setM_tvecEntry (c : Core) (r : BitVec 3) (v : BitVec 16) : (c.setM r v).tvecEntry = c.tvecEntry := by unfold Core.setM; split <;> rfl
@[simp] theorem setM_tvecValid (c : Core) (r : BitVec 3) (v : BitVec 16) : (c.setM r v).tvecValid = c.tvecValid := by unfold Core.setM; split <;> rfl
@[simp] theorem setM_epc (c : Core) (r : BitVec 3) (v : BitVec 16) : (c.setM r v).epc = c.epc := by unfold Core.setM; split <;> rfl
@[simp] theorem setM_ecause (c : Core) (r : BitVec 3) (v : BitVec 16) : (c.setM r v).ecause = c.ecause := by unfold Core.setM; split <;> rfl
@[simp] theorem setM_easync (c : Core) (r : BitVec 3) (v : BitVec 16) : (c.setM r v).easync = c.easync := by unfold Core.setM; split <;> rfl
@[simp] theorem setM_eaddr (c : Core) (r : BitVec 3) (v : BitVec 16) : (c.setM r v).eaddr = c.eaddr := by unfold Core.setM; split <;> rfl
@[simp] theorem setM_estat (c : Core) (r : BitVec 3) (v : BitVec 16) : (c.setM r v).estat = c.estat := by unfold Core.setM; split <;> rfl
@[simp] theorem setM_sscr (c : Core) (r : BitVec 3) (v : BitVec 16) : (c.setM r v).sscr = c.sscr := by unfold Core.setM; split <;> rfl
@[simp] theorem setM_energy (c : Core) (r : BitVec 3) (v : BitVec 16) : (c.setM r v).energy = c.energy := by unfold Core.setM; split <;> rfl
@[simp] theorem setM_energySat (c : Core) (r : BitVec 3) (v : BitVec 16) : (c.setM r v).energySat = c.energySat := by unfold Core.setM; split <;> rfl
@[simp] theorem setM_ew (c : Core) (r : BitVec 3) (v : BitVec 16) : (c.setM r v).ew = c.ew := by unfold Core.setM; split <;> rfl
@[simp] theorem setM_statw (c : Core) (r : BitVec 3) (v : BitVec 16) : (c.setM r v).statw = c.statw := by unfold Core.setM; split <;> rfl
@[simp] theorem setM_wards (c : Core) (r : BitVec 3) (v : BitVec 16) : (c.setM r v).wards = c.wards := by unfold Core.setM; split <;> rfl
@[simp] theorem setM_staged (c : Core) (r : BitVec 3) (v : BitVec 16) : (c.setM r v).staged = c.staged := by unfold Core.setM; split <;> rfl
@[simp] theorem setM_fence (c : Core) (r : BitVec 3) (v : BitVec 16) : (c.setM r v).fence = c.fence := by unfold Core.setM; split <;> rfl
@[simp] theorem setM_nxcur (c : Core) (r : BitVec 3) (v : BitVec 16) : (c.setM r v).nxcur = c.nxcur := by unfold Core.setM; split <;> rfl
@[simp] theorem setM_exh (c : Core) (r : BitVec 3) (v : BitVec 16) : (c.setM r v).exh = c.exh := by unfold Core.setM; split <;> rfl
@[simp] theorem setM_parcel (c : Core) (r : BitVec 3) (v : BitVec 16) : (c.setM r v).parcel = c.parcel := by unfold Core.setM; split <;> rfl
@[simp] theorem setM_pendPreempt (c : Core) (r : BitVec 3) (v : BitVec 16) : (c.setM r v).pendPreempt = c.pendPreempt := by unfold Core.setM; split <;> rfl
@[simp] theorem setM_pendMgmt (c : Core) (r : BitVec 3) (v : BitVec 16) : (c.setM r v).pendMgmt = c.pendMgmt := by unfold Core.setM; split <;> rfl
@[simp] theorem setM_stall (c : Core) (r : BitVec 3) (v : BitVec 16) : (c.setM r v).stall = c.stall := by unfold Core.setM; split <;> rfl
@[simp] theorem setM_late (c : Core) (r : BitVec 3) (v : BitVec 16) : (c.setM r v).late = c.late := by unfold Core.setM; split <;> rfl
@[simp] theorem setM_held (c : Core) (r : BitVec 3) (v : BitVec 16) : (c.setM r v).held = c.held := by unfold Core.setM; split <;> rfl
@[simp] theorem setM_run (c : Core) (r : BitVec 3) (v : BitVec 16) : (c.setM r v).run = c.run := by unfold Core.setM; split <;> rfl
@[simp] theorem setM_resident (c : Core) (r : BitVec 3) (v : BitVec 16) : (c.setM r v).resident = c.resident := by unfold Core.setM; split <;> rfl
@[simp] theorem setM_fault (c : Core) (r : BitVec 3) (v : BitVec 16) : (c.setM r v).fault = c.fault := by unfold Core.setM; split <;> rfl
@[simp] theorem setM_doneStatus (c : Core) (r : BitVec 3) (v : BitVec 16) : (c.setM r v).doneStatus = c.doneStatus := by unfold Core.setM; split <;> rfl
@[simp] theorem setM_lateOut (c : Core) (r : BitVec 3) (v : BitVec 16) : (c.setM r v).lateOut = c.lateOut := by unfold Core.setM; split <;> rfl
@[simp] theorem setM_lateCnt (c : Core) (r : BitVec 3) (v : BitVec 16) : (c.setM r v).lateCnt = c.lateCnt := by unfold Core.setM; split <;> rfl
@[simp] theorem setM_cmds (c : Core) (r : BitVec 3) (v : BitVec 16) : (c.setM r v).cmds = c.cmds := by unfold Core.setM; split <;> rfl
@[simp] theorem setM_cmdSerial (c : Core) (r : BitVec 3) (v : BitVec 16) : (c.setM r v).cmdSerial = c.cmdSerial := by unfold Core.setM; split <;> rfl
@[simp] theorem setM_cfgLog (c : Core) (r : BitVec 3) (v : BitVec 16) : (c.setM r v).cfgLog = c.cfgLog := by unfold Core.setM; split <;> rfl
@[simp] theorem setM_cpyLog (c : Core) (r : BitVec 3) (v : BitVec 16) : (c.setM r v).cpyLog = c.cpyLog := by unfold Core.setM; split <;> rfl
@[simp] theorem setM_loopBuf (c : Core) (r : BitVec 3) (v : BitVec 16) : (c.setM r v).loopBuf = c.loopBuf := by unfold Core.setM; split <;> rfl
@[simp] theorem setM_outbox (c : Core) (r : BitVec 3) (v : BitVec 16) : (c.setM r v).outbox = c.outbox := by unfold Core.setM; split <;> rfl
@[simp] theorem setM_creel (c : Core) (r : BitVec 3) (v : BitVec 16) : (c.setM r v).creel = c.creel := by unfold Core.setM; split <;> rfl
@[simp] theorem setM_creelSeq (c : Core) (r : BitVec 3) (v : BitVec 16) : (c.setM r v).creelSeq = c.creelSeq := by unfold Core.setM; split <;> rfl
@[simp] theorem setM_sent (c : Core) (r : BitVec 3) (v : BitVec 16) : (c.setM r v).sent = c.sent := by unfold Core.setM; split <;> rfl
@[simp] theorem setM_aloft (c : Core) (r : BitVec 3) (v : BitVec 16) : (c.setM r v).aloft = c.aloft := by unfold Core.setM; split <;> rfl
@[simp] theorem setM_owedLines (c : Core) (r : BitVec 3) (v : BitVec 16) : (c.setM r v).owedLines = c.owedLines := by unfold Core.setM; split <;> rfl
@[simp] theorem setM_owedRemote (c : Core) (r : BitVec 3) (v : BitVec 16) : (c.setM r v).owedRemote = c.owedRemote := by unfold Core.setM; split <;> rfl
@[simp] theorem setM_answers (c : Core) (r : BitVec 3) (v : BitVec 16) : (c.setM r v).answers = c.answers := by unfold Core.setM; split <;> rfl
@[simp] theorem setM_attrs (c : Core) (r : BitVec 3) (v : BitVec 16) : (c.setM r v).attrs = c.attrs := by unfold Core.setM; split <;> rfl

/-! ### Token registers -/

@[simp] theorem setT_sregs (c : Core) (r : BitVec 5) (v : Token) : (c.setT r v).sregs = c.sregs := rfl
@[simp] theorem setT_preds (c : Core) (r : BitVec 5) (v : Token) : (c.setT r v).preds = c.preds := rfl
@[simp] theorem setT_masks (c : Core) (r : BitVec 5) (v : Token) : (c.setT r v).masks = c.masks := rfl
@[simp] theorem setT_lc (c : Core) (r : BitVec 5) (v : Token) : (c.setT r v).lc = c.lc := rfl
@[simp] theorem setT_pc (c : Core) (r : BitVec 5) (v : Token) : (c.setT r v).pc = c.pc := rfl
@[simp] theorem setT_mode (c : Core) (r : BitVec 5) (v : Token) : (c.setT r v).mode = c.mode := rfl
@[simp] theorem setT_pmode (c : Core) (r : BitVec 5) (v : Token) : (c.setT r v).pmode = c.pmode := rfl
@[simp] theorem setT_le (c : Core) (r : BitVec 5) (v : Token) : (c.setT r v).le = c.le := rfl
@[simp] theorem setT_ple (c : Core) (r : BitVec 5) (v : Token) : (c.setT r v).ple = c.ple := rfl
@[simp] theorem setT_ctx (c : Core) (r : BitVec 5) (v : Token) : (c.setT r v).ctx = c.ctx := rfl
@[simp] theorem setT_trow (c : Core) (r : BitVec 5) (v : Token) : (c.setT r v).trow = c.trow := rfl
@[simp] theorem setT_tcol (c : Core) (r : BitVec 5) (v : Token) : (c.setT r v).tcol = c.tcol := rfl
@[simp] theorem setT_lcsStart (c : Core) (r : BitVec 5) (v : Token) : (c.setT r v).lcsStart = c.lcsStart := rfl
@[simp] theorem setT_lcsEnd (c : Core) (r : BitVec 5) (v : Token) : (c.setT r v).lcsEnd = c.lcsEnd := rfl
@[simp] theorem setT_lcsAct (c : Core) (r : BitVec 5) (v : Token) : (c.setT r v).lcsAct = c.lcsAct := rfl
@[simp] theorem setT_tsel (c : Core) (r : BitVec 5) (v : Token) : (c.setT r v).tsel = c.tsel := rfl
@[simp] theorem setT_rm (c : Core) (r : BitVec 5) (v : Token) : (c.setT r v).rm = c.rm := rfl
@[simp] theorem setT_remap (c : Core) (r : BitVec 5) (v : Token) : (c.setT r v).remap = c.remap := rfl
@[simp] theorem setT_seed (c : Core) (r : BitVec 5) (v : Token) : (c.setT r v).seed = c.seed := rfl
@[simp] theorem setT_fstat (c : Core) (r : BitVec 5) (v : Token) : (c.setT r v).fstat = c.fstat := rfl
@[simp] theorem setT_rnd (c : Core) (r : BitVec 5) (v : Token) : (c.setT r v).rnd = c.rnd := rfl
@[simp] theorem setT_mailFull (c : Core) (r : BitVec 5) (v : Token) : (c.setT r v).mailFull = c.mailFull := rfl
@[simp] theorem setT_mailOvr (c : Core) (r : BitVec 5) (v : Token) : (c.setT r v).mailOvr = c.mailOvr := rfl
@[simp] theorem setT_tvecEntry (c : Core) (r : BitVec 5) (v : Token) : (c.setT r v).tvecEntry = c.tvecEntry := rfl
@[simp] theorem setT_tvecValid (c : Core) (r : BitVec 5) (v : Token) : (c.setT r v).tvecValid = c.tvecValid := rfl
@[simp] theorem setT_epc (c : Core) (r : BitVec 5) (v : Token) : (c.setT r v).epc = c.epc := rfl
@[simp] theorem setT_ecause (c : Core) (r : BitVec 5) (v : Token) : (c.setT r v).ecause = c.ecause := rfl
@[simp] theorem setT_easync (c : Core) (r : BitVec 5) (v : Token) : (c.setT r v).easync = c.easync := rfl
@[simp] theorem setT_eaddr (c : Core) (r : BitVec 5) (v : Token) : (c.setT r v).eaddr = c.eaddr := rfl
@[simp] theorem setT_estat (c : Core) (r : BitVec 5) (v : Token) : (c.setT r v).estat = c.estat := rfl
@[simp] theorem setT_sscr (c : Core) (r : BitVec 5) (v : Token) : (c.setT r v).sscr = c.sscr := rfl
@[simp] theorem setT_energy (c : Core) (r : BitVec 5) (v : Token) : (c.setT r v).energy = c.energy := rfl
@[simp] theorem setT_energySat (c : Core) (r : BitVec 5) (v : Token) : (c.setT r v).energySat = c.energySat := rfl
@[simp] theorem setT_ew (c : Core) (r : BitVec 5) (v : Token) : (c.setT r v).ew = c.ew := rfl
@[simp] theorem setT_statw (c : Core) (r : BitVec 5) (v : Token) : (c.setT r v).statw = c.statw := rfl
@[simp] theorem setT_wards (c : Core) (r : BitVec 5) (v : Token) : (c.setT r v).wards = c.wards := rfl
@[simp] theorem setT_staged (c : Core) (r : BitVec 5) (v : Token) : (c.setT r v).staged = c.staged := rfl
@[simp] theorem setT_fence (c : Core) (r : BitVec 5) (v : Token) : (c.setT r v).fence = c.fence := rfl
@[simp] theorem setT_nxcur (c : Core) (r : BitVec 5) (v : Token) : (c.setT r v).nxcur = c.nxcur := rfl
@[simp] theorem setT_exh (c : Core) (r : BitVec 5) (v : Token) : (c.setT r v).exh = c.exh := rfl
@[simp] theorem setT_parcel (c : Core) (r : BitVec 5) (v : Token) : (c.setT r v).parcel = c.parcel := rfl
@[simp] theorem setT_pendPreempt (c : Core) (r : BitVec 5) (v : Token) : (c.setT r v).pendPreempt = c.pendPreempt := rfl
@[simp] theorem setT_pendMgmt (c : Core) (r : BitVec 5) (v : Token) : (c.setT r v).pendMgmt = c.pendMgmt := rfl
@[simp] theorem setT_stall (c : Core) (r : BitVec 5) (v : Token) : (c.setT r v).stall = c.stall := rfl
@[simp] theorem setT_late (c : Core) (r : BitVec 5) (v : Token) : (c.setT r v).late = c.late := rfl
@[simp] theorem setT_held (c : Core) (r : BitVec 5) (v : Token) : (c.setT r v).held = c.held := rfl
@[simp] theorem setT_run (c : Core) (r : BitVec 5) (v : Token) : (c.setT r v).run = c.run := rfl
@[simp] theorem setT_resident (c : Core) (r : BitVec 5) (v : Token) : (c.setT r v).resident = c.resident := rfl
@[simp] theorem setT_fault (c : Core) (r : BitVec 5) (v : Token) : (c.setT r v).fault = c.fault := rfl
@[simp] theorem setT_doneStatus (c : Core) (r : BitVec 5) (v : Token) : (c.setT r v).doneStatus = c.doneStatus := rfl
@[simp] theorem setT_lateOut (c : Core) (r : BitVec 5) (v : Token) : (c.setT r v).lateOut = c.lateOut := rfl
@[simp] theorem setT_lateCnt (c : Core) (r : BitVec 5) (v : Token) : (c.setT r v).lateCnt = c.lateCnt := rfl
@[simp] theorem setT_cmds (c : Core) (r : BitVec 5) (v : Token) : (c.setT r v).cmds = c.cmds := rfl
@[simp] theorem setT_cmdSerial (c : Core) (r : BitVec 5) (v : Token) : (c.setT r v).cmdSerial = c.cmdSerial := rfl
@[simp] theorem setT_cfgLog (c : Core) (r : BitVec 5) (v : Token) : (c.setT r v).cfgLog = c.cfgLog := rfl
@[simp] theorem setT_cpyLog (c : Core) (r : BitVec 5) (v : Token) : (c.setT r v).cpyLog = c.cpyLog := rfl
@[simp] theorem setT_loopBuf (c : Core) (r : BitVec 5) (v : Token) : (c.setT r v).loopBuf = c.loopBuf := rfl
@[simp] theorem setT_outbox (c : Core) (r : BitVec 5) (v : Token) : (c.setT r v).outbox = c.outbox := rfl
@[simp] theorem setT_creel (c : Core) (r : BitVec 5) (v : Token) : (c.setT r v).creel = c.creel := rfl
@[simp] theorem setT_creelSeq (c : Core) (r : BitVec 5) (v : Token) : (c.setT r v).creelSeq = c.creelSeq := rfl
@[simp] theorem setT_sent (c : Core) (r : BitVec 5) (v : Token) : (c.setT r v).sent = c.sent := rfl
@[simp] theorem setT_aloft (c : Core) (r : BitVec 5) (v : Token) : (c.setT r v).aloft = c.aloft := rfl
@[simp] theorem setT_owedLines (c : Core) (r : BitVec 5) (v : Token) : (c.setT r v).owedLines = c.owedLines := rfl
@[simp] theorem setT_owedRemote (c : Core) (r : BitVec 5) (v : Token) : (c.setT r v).owedRemote = c.owedRemote := rfl
@[simp] theorem setT_answers (c : Core) (r : BitVec 5) (v : Token) : (c.setT r v).answers = c.answers := rfl
@[simp] theorem setT_attrs (c : Core) (r : BitVec 5) (v : Token) : (c.setT r v).attrs = c.attrs := rfl

/-! ### Pages and hubs -/

@[simp] theorem putPte_mem (s : State) (p : Nat) (e : BitVec 128) : (putPte s p e).mem = s.mem := rfl
@[simp] theorem putPte_tileIdx (s : State) (p : Nat) (e : BitVec 128) : (putPte s p e).tileIdx = s.tileIdx := rfl
@[simp] theorem putPte_tile (s : State) (p : Nat) (e : BitVec 128) : (putPte s p e).tile = s.tile := rfl
@[simp] theorem putPte_tiles (s : State) (p : Nat) (e : BitVec 128) : (putPte s p e).tiles = s.tiles := rfl
@[simp] theorem putPte_cells (s : State) (p : Nat) (e : BitVec 128) : (putPte s p e).cells = s.cells := rfl
@[simp] theorem putPte_graph (s : State) (p : Nat) (e : BitVec 128) : (putPte s p e).graph = s.graph := rfl
@[simp] theorem putPte_graphs (s : State) (p : Nat) (e : BitVec 128) : (putPte s p e).graphs = s.graphs := rfl
@[simp] theorem putPte_region (s : State) (p : Nat) (e : BitVec 128) : (putPte s p e).region = s.region := rfl
@[simp] theorem putPte_netIdx (s : State) (p : Nat) (e : BitVec 128) : (putPte s p e).netIdx = s.netIdx := rfl
@[simp] theorem putPte_stream (s : State) (p : Nat) (e : BitVec 128) : (putPte s p e).stream = s.stream := rfl
@[simp] theorem putPte_nets (s : State) (p : Nat) (e : BitVec 128) : (putPte s p e).nets = s.nets := rfl
@[simp] theorem putPte_linePoison (s : State) (p : Nat) (e : BitVec 128) : (putPte s p e).linePoison = s.linePoison := rfl
@[simp] theorem putPte_hubs (s : State) (p : Nat) (e : BitVec 128) : (putPte s p e).hubs = s.hubs := rfl
@[simp] theorem putPte_hubq (s : State) (p : Nat) (e : BitVec 128) : (putPte s p e).hubq = s.hubq := rfl
@[simp] theorem putPte_notices (s : State) (p : Nat) (e : BitVec 128) : (putPte s p e).notices = s.notices := rfl
@[simp] theorem putPte_noticeId (s : State) (p : Nat) (e : BitVec 128) : (putPte s p e).noticeId = s.noticeId := rfl
@[simp] theorem putPte_migrations (s : State) (p : Nat) (e : BitVec 128) : (putPte s p e).migrations = s.migrations := rfl
@[simp] theorem putPte_splits (s : State) (p : Nat) (e : BitVec 128) : (putPte s p e).splits = s.splits := rfl
@[simp] theorem putPte_hoops (s : State) (p : Nat) (e : BitVec 128) : (putPte s p e).hoops = s.hoops := rfl
@[simp] theorem putPte_keys (s : State) (p : Nat) (e : BitVec 128) : (putPte s p e).keys = s.keys := rfl
@[simp] theorem putPte_gates (s : State) (p : Nat) (e : BitVec 128) : (putPte s p e).gates = s.gates := rfl
@[simp] theorem putPte_time (s : State) (p : Nat) (e : BitVec 128) : (putPte s p e).time = s.time := rfl
@[simp] theorem putPte_cycle (s : State) (p : Nat) (e : BitVec 128) : (putPte s p e).cycle = s.cycle := rfl
@[simp] theorem putPte_mgmt (s : State) (p : Nat) (e : BitVec 128) : (putPte s p e).mgmt = s.mgmt := rfl
@[simp] theorem putPte_island (s : State) (p : Nat) (e : BitVec 128) : (putPte s p e).island = s.island := rfl
@[simp] theorem putPte_agenda (s : State) (p : Nat) (e : BitVec 128) : (putPte s p e).agenda = s.agenda := rfl
@[simp] theorem putPte_turns (s : State) (p : Nat) (e : BitVec 128) : (putPte s p e).turns = s.turns := rfl
@[simp] theorem putPte_free (s : State) (p : Nat) (e : BitVec 128) : (putPte s p e).free = s.free := rfl
@[simp] theorem putHub_mem (s : State) (h : Nat) (x : Hub) : (putHub s h x).mem = s.mem := rfl
@[simp] theorem putHub_tileIdx (s : State) (h : Nat) (x : Hub) : (putHub s h x).tileIdx = s.tileIdx := rfl
@[simp] theorem putHub_tile (s : State) (h : Nat) (x : Hub) : (putHub s h x).tile = s.tile := rfl
@[simp] theorem putHub_tiles (s : State) (h : Nat) (x : Hub) : (putHub s h x).tiles = s.tiles := rfl
@[simp] theorem putHub_cells (s : State) (h : Nat) (x : Hub) : (putHub s h x).cells = s.cells := rfl
@[simp] theorem putHub_graph (s : State) (h : Nat) (x : Hub) : (putHub s h x).graph = s.graph := rfl
@[simp] theorem putHub_graphs (s : State) (h : Nat) (x : Hub) : (putHub s h x).graphs = s.graphs := rfl
@[simp] theorem putHub_region (s : State) (h : Nat) (x : Hub) : (putHub s h x).region = s.region := rfl
@[simp] theorem putHub_netIdx (s : State) (h : Nat) (x : Hub) : (putHub s h x).netIdx = s.netIdx := rfl
@[simp] theorem putHub_stream (s : State) (h : Nat) (x : Hub) : (putHub s h x).stream = s.stream := rfl
@[simp] theorem putHub_nets (s : State) (h : Nat) (x : Hub) : (putHub s h x).nets = s.nets := rfl
@[simp] theorem putHub_linePoison (s : State) (h : Nat) (x : Hub) : (putHub s h x).linePoison = s.linePoison := rfl
@[simp] theorem putHub_ptes (s : State) (h : Nat) (x : Hub) : (putHub s h x).ptes = s.ptes := rfl
@[simp] theorem putHub_hubq (s : State) (h : Nat) (x : Hub) : (putHub s h x).hubq = s.hubq := rfl
@[simp] theorem putHub_notices (s : State) (h : Nat) (x : Hub) : (putHub s h x).notices = s.notices := rfl
@[simp] theorem putHub_noticeId (s : State) (h : Nat) (x : Hub) : (putHub s h x).noticeId = s.noticeId := rfl
@[simp] theorem putHub_migrations (s : State) (h : Nat) (x : Hub) : (putHub s h x).migrations = s.migrations := rfl
@[simp] theorem putHub_splits (s : State) (h : Nat) (x : Hub) : (putHub s h x).splits = s.splits := rfl
@[simp] theorem putHub_hoops (s : State) (h : Nat) (x : Hub) : (putHub s h x).hoops = s.hoops := rfl
@[simp] theorem putHub_keys (s : State) (h : Nat) (x : Hub) : (putHub s h x).keys = s.keys := rfl
@[simp] theorem putHub_gates (s : State) (h : Nat) (x : Hub) : (putHub s h x).gates = s.gates := rfl
@[simp] theorem putHub_time (s : State) (h : Nat) (x : Hub) : (putHub s h x).time = s.time := rfl
@[simp] theorem putHub_cycle (s : State) (h : Nat) (x : Hub) : (putHub s h x).cycle = s.cycle := rfl
@[simp] theorem putHub_mgmt (s : State) (h : Nat) (x : Hub) : (putHub s h x).mgmt = s.mgmt := rfl
@[simp] theorem putHub_island (s : State) (h : Nat) (x : Hub) : (putHub s h x).island = s.island := rfl
@[simp] theorem putHub_agenda (s : State) (h : Nat) (x : Hub) : (putHub s h x).agenda = s.agenda := rfl
@[simp] theorem putHub_turns (s : State) (h : Nat) (x : Hub) : (putHub s h x).turns = s.turns := rfl
@[simp] theorem putHub_free (s : State) (h : Nat) (x : Hub) : (putHub s h x).free = s.free := rfl

/-! ### Cells, tiles and graphs -/

@[simp] theorem putCell_mem (s : State) (r c : Nat) (x : Cell) : (s.putCell r c x).mem = s.mem := rfl
@[simp] theorem putCell_tileIdx (s : State) (r c : Nat) (x : Cell) : (s.putCell r c x).tileIdx = s.tileIdx := rfl
@[simp] theorem putCell_tile (s : State) (r c : Nat) (x : Cell) : (s.putCell r c x).tile = s.tile := rfl
@[simp] theorem putCell_tiles (s : State) (r c : Nat) (x : Cell) : (s.putCell r c x).tiles = s.tiles := rfl
@[simp] theorem putCell_graph (s : State) (r c : Nat) (x : Cell) : (s.putCell r c x).graph = s.graph := rfl
@[simp] theorem putCell_graphs (s : State) (r c : Nat) (x : Cell) : (s.putCell r c x).graphs = s.graphs := rfl
@[simp] theorem putCell_region (s : State) (r c : Nat) (x : Cell) : (s.putCell r c x).region = s.region := rfl
@[simp] theorem putCell_netIdx (s : State) (r c : Nat) (x : Cell) : (s.putCell r c x).netIdx = s.netIdx := rfl
@[simp] theorem putCell_stream (s : State) (r c : Nat) (x : Cell) : (s.putCell r c x).stream = s.stream := rfl
@[simp] theorem putCell_nets (s : State) (r c : Nat) (x : Cell) : (s.putCell r c x).nets = s.nets := rfl
@[simp] theorem putCell_linePoison (s : State) (r c : Nat) (x : Cell) : (s.putCell r c x).linePoison = s.linePoison := rfl
@[simp] theorem putCell_ptes (s : State) (r c : Nat) (x : Cell) : (s.putCell r c x).ptes = s.ptes := rfl
@[simp] theorem putCell_hubs (s : State) (r c : Nat) (x : Cell) : (s.putCell r c x).hubs = s.hubs := rfl
@[simp] theorem putCell_hubq (s : State) (r c : Nat) (x : Cell) : (s.putCell r c x).hubq = s.hubq := rfl
@[simp] theorem putCell_notices (s : State) (r c : Nat) (x : Cell) : (s.putCell r c x).notices = s.notices := rfl
@[simp] theorem putCell_noticeId (s : State) (r c : Nat) (x : Cell) : (s.putCell r c x).noticeId = s.noticeId := rfl
@[simp] theorem putCell_migrations (s : State) (r c : Nat) (x : Cell) : (s.putCell r c x).migrations = s.migrations := rfl
@[simp] theorem putCell_splits (s : State) (r c : Nat) (x : Cell) : (s.putCell r c x).splits = s.splits := rfl
@[simp] theorem putCell_hoops (s : State) (r c : Nat) (x : Cell) : (s.putCell r c x).hoops = s.hoops := rfl
@[simp] theorem putCell_keys (s : State) (r c : Nat) (x : Cell) : (s.putCell r c x).keys = s.keys := rfl
@[simp] theorem putCell_gates (s : State) (r c : Nat) (x : Cell) : (s.putCell r c x).gates = s.gates := rfl
@[simp] theorem putCell_time (s : State) (r c : Nat) (x : Cell) : (s.putCell r c x).time = s.time := rfl
@[simp] theorem putCell_cycle (s : State) (r c : Nat) (x : Cell) : (s.putCell r c x).cycle = s.cycle := rfl
@[simp] theorem putCell_mgmt (s : State) (r c : Nat) (x : Cell) : (s.putCell r c x).mgmt = s.mgmt := rfl
@[simp] theorem putCell_island (s : State) (r c : Nat) (x : Cell) : (s.putCell r c x).island = s.island := rfl
@[simp] theorem putCell_agenda (s : State) (r c : Nat) (x : Cell) : (s.putCell r c x).agenda = s.agenda := rfl
@[simp] theorem putCell_turns (s : State) (r c : Nat) (x : Cell) : (s.putCell r c x).turns = s.turns := rfl
@[simp] theorem putCell_free (s : State) (r c : Nat) (x : Cell) : (s.putCell r c x).free = s.free := rfl
@[simp] theorem putTile_mem (s : State) (t : Nat) (x : Tile) : (s.putTile t x).mem = s.mem := by
  unfold State.putTile; split <;> rfl
@[simp] theorem putTile_tileIdx (s : State) (t : Nat) (x : Tile) : (s.putTile t x).tileIdx = s.tileIdx := by
  unfold State.putTile; split <;> rfl
@[simp] theorem putTile_cells (s : State) (t : Nat) (x : Tile) : (s.putTile t x).cells = s.cells := by
  unfold State.putTile; split <;> rfl
@[simp] theorem putTile_graph (s : State) (t : Nat) (x : Tile) : (s.putTile t x).graph = s.graph := by
  unfold State.putTile; split <;> rfl
@[simp] theorem putTile_graphs (s : State) (t : Nat) (x : Tile) : (s.putTile t x).graphs = s.graphs := by
  unfold State.putTile; split <;> rfl
@[simp] theorem putTile_region (s : State) (t : Nat) (x : Tile) : (s.putTile t x).region = s.region := by
  unfold State.putTile; split <;> rfl
@[simp] theorem putTile_netIdx (s : State) (t : Nat) (x : Tile) : (s.putTile t x).netIdx = s.netIdx := by
  unfold State.putTile; split <;> rfl
@[simp] theorem putTile_stream (s : State) (t : Nat) (x : Tile) : (s.putTile t x).stream = s.stream := by
  unfold State.putTile; split <;> rfl
@[simp] theorem putTile_nets (s : State) (t : Nat) (x : Tile) : (s.putTile t x).nets = s.nets := by
  unfold State.putTile; split <;> rfl
@[simp] theorem putTile_linePoison (s : State) (t : Nat) (x : Tile) : (s.putTile t x).linePoison = s.linePoison := by
  unfold State.putTile; split <;> rfl
@[simp] theorem putTile_ptes (s : State) (t : Nat) (x : Tile) : (s.putTile t x).ptes = s.ptes := by
  unfold State.putTile; split <;> rfl
@[simp] theorem putTile_hubs (s : State) (t : Nat) (x : Tile) : (s.putTile t x).hubs = s.hubs := by
  unfold State.putTile; split <;> rfl
@[simp] theorem putTile_hubq (s : State) (t : Nat) (x : Tile) : (s.putTile t x).hubq = s.hubq := by
  unfold State.putTile; split <;> rfl
@[simp] theorem putTile_notices (s : State) (t : Nat) (x : Tile) : (s.putTile t x).notices = s.notices := by
  unfold State.putTile; split <;> rfl
@[simp] theorem putTile_noticeId (s : State) (t : Nat) (x : Tile) : (s.putTile t x).noticeId = s.noticeId := by
  unfold State.putTile; split <;> rfl
@[simp] theorem putTile_migrations (s : State) (t : Nat) (x : Tile) : (s.putTile t x).migrations = s.migrations := by
  unfold State.putTile; split <;> rfl
@[simp] theorem putTile_splits (s : State) (t : Nat) (x : Tile) : (s.putTile t x).splits = s.splits := by
  unfold State.putTile; split <;> rfl
@[simp] theorem putTile_hoops (s : State) (t : Nat) (x : Tile) : (s.putTile t x).hoops = s.hoops := by
  unfold State.putTile; split <;> rfl
@[simp] theorem putTile_keys (s : State) (t : Nat) (x : Tile) : (s.putTile t x).keys = s.keys := by
  unfold State.putTile; split <;> rfl
@[simp] theorem putTile_gates (s : State) (t : Nat) (x : Tile) : (s.putTile t x).gates = s.gates := by
  unfold State.putTile; split <;> rfl
@[simp] theorem putTile_time (s : State) (t : Nat) (x : Tile) : (s.putTile t x).time = s.time := by
  unfold State.putTile; split <;> rfl
@[simp] theorem putTile_cycle (s : State) (t : Nat) (x : Tile) : (s.putTile t x).cycle = s.cycle := by
  unfold State.putTile; split <;> rfl
@[simp] theorem putTile_mgmt (s : State) (t : Nat) (x : Tile) : (s.putTile t x).mgmt = s.mgmt := by
  unfold State.putTile; split <;> rfl
@[simp] theorem putTile_island (s : State) (t : Nat) (x : Tile) : (s.putTile t x).island = s.island := by
  unfold State.putTile; split <;> rfl
@[simp] theorem putTile_agenda (s : State) (t : Nat) (x : Tile) : (s.putTile t x).agenda = s.agenda := by
  unfold State.putTile; split <;> rfl
@[simp] theorem putTile_turns (s : State) (t : Nat) (x : Tile) : (s.putTile t x).turns = s.turns := by
  unfold State.putTile; split <;> rfl
@[simp] theorem putTile_free (s : State) (t : Nat) (x : Tile) : (s.putTile t x).free = s.free := by
  unfold State.putTile; split <;> rfl
@[simp] theorem onCore_mem (s : State) (t : Nat) (g : Core → Core) : (s.onCore t g).mem = s.mem := putTile_mem ..
@[simp] theorem onCore_tileIdx (s : State) (t : Nat) (g : Core → Core) : (s.onCore t g).tileIdx = s.tileIdx := putTile_tileIdx ..
@[simp] theorem onCore_cells (s : State) (t : Nat) (g : Core → Core) : (s.onCore t g).cells = s.cells := putTile_cells ..
@[simp] theorem onCore_graph (s : State) (t : Nat) (g : Core → Core) : (s.onCore t g).graph = s.graph := putTile_graph ..
@[simp] theorem onCore_graphs (s : State) (t : Nat) (g : Core → Core) : (s.onCore t g).graphs = s.graphs := putTile_graphs ..
@[simp] theorem onCore_region (s : State) (t : Nat) (g : Core → Core) : (s.onCore t g).region = s.region := putTile_region ..
@[simp] theorem onCore_netIdx (s : State) (t : Nat) (g : Core → Core) : (s.onCore t g).netIdx = s.netIdx := putTile_netIdx ..
@[simp] theorem onCore_stream (s : State) (t : Nat) (g : Core → Core) : (s.onCore t g).stream = s.stream := putTile_stream ..
@[simp] theorem onCore_nets (s : State) (t : Nat) (g : Core → Core) : (s.onCore t g).nets = s.nets := putTile_nets ..
@[simp] theorem onCore_linePoison (s : State) (t : Nat) (g : Core → Core) : (s.onCore t g).linePoison = s.linePoison := putTile_linePoison ..
@[simp] theorem onCore_ptes (s : State) (t : Nat) (g : Core → Core) : (s.onCore t g).ptes = s.ptes := putTile_ptes ..
@[simp] theorem onCore_hubs (s : State) (t : Nat) (g : Core → Core) : (s.onCore t g).hubs = s.hubs := putTile_hubs ..
@[simp] theorem onCore_hubq (s : State) (t : Nat) (g : Core → Core) : (s.onCore t g).hubq = s.hubq := putTile_hubq ..
@[simp] theorem onCore_notices (s : State) (t : Nat) (g : Core → Core) : (s.onCore t g).notices = s.notices := putTile_notices ..
@[simp] theorem onCore_noticeId (s : State) (t : Nat) (g : Core → Core) : (s.onCore t g).noticeId = s.noticeId := putTile_noticeId ..
@[simp] theorem onCore_migrations (s : State) (t : Nat) (g : Core → Core) : (s.onCore t g).migrations = s.migrations := putTile_migrations ..
@[simp] theorem onCore_splits (s : State) (t : Nat) (g : Core → Core) : (s.onCore t g).splits = s.splits := putTile_splits ..
@[simp] theorem onCore_hoops (s : State) (t : Nat) (g : Core → Core) : (s.onCore t g).hoops = s.hoops := putTile_hoops ..
@[simp] theorem onCore_keys (s : State) (t : Nat) (g : Core → Core) : (s.onCore t g).keys = s.keys := putTile_keys ..
@[simp] theorem onCore_gates (s : State) (t : Nat) (g : Core → Core) : (s.onCore t g).gates = s.gates := putTile_gates ..
@[simp] theorem onCore_time (s : State) (t : Nat) (g : Core → Core) : (s.onCore t g).time = s.time := putTile_time ..
@[simp] theorem onCore_cycle (s : State) (t : Nat) (g : Core → Core) : (s.onCore t g).cycle = s.cycle := putTile_cycle ..
@[simp] theorem onCore_mgmt (s : State) (t : Nat) (g : Core → Core) : (s.onCore t g).mgmt = s.mgmt := putTile_mgmt ..
@[simp] theorem onCore_island (s : State) (t : Nat) (g : Core → Core) : (s.onCore t g).island = s.island := putTile_island ..
@[simp] theorem onCore_agenda (s : State) (t : Nat) (g : Core → Core) : (s.onCore t g).agenda = s.agenda := putTile_agenda ..
@[simp] theorem onCore_turns (s : State) (t : Nat) (g : Core → Core) : (s.onCore t g).turns = s.turns := putTile_turns ..
@[simp] theorem onCore_free (s : State) (t : Nat) (g : Core → Core) : (s.onCore t g).free = s.free := putTile_free ..
@[simp] theorem focusTile_mem (s : State) (t : Nat) : (s.focusTile t).mem = s.mem := by
  unfold State.focusTile; split <;> rfl
@[simp] theorem focusTile_cells (s : State) (t : Nat) : (s.focusTile t).cells = s.cells := by
  unfold State.focusTile; split <;> rfl
@[simp] theorem focusTile_graph (s : State) (t : Nat) : (s.focusTile t).graph = s.graph := by
  unfold State.focusTile; split <;> rfl
@[simp] theorem focusTile_graphs (s : State) (t : Nat) : (s.focusTile t).graphs = s.graphs := by
  unfold State.focusTile; split <;> rfl
@[simp] theorem focusTile_region (s : State) (t : Nat) : (s.focusTile t).region = s.region := by
  unfold State.focusTile; split <;> rfl
@[simp] theorem focusTile_netIdx (s : State) (t : Nat) : (s.focusTile t).netIdx = s.netIdx := by
  unfold State.focusTile; split <;> rfl
@[simp] theorem focusTile_stream (s : State) (t : Nat) : (s.focusTile t).stream = s.stream := by
  unfold State.focusTile; split <;> rfl
@[simp] theorem focusTile_nets (s : State) (t : Nat) : (s.focusTile t).nets = s.nets := by
  unfold State.focusTile; split <;> rfl
@[simp] theorem focusTile_linePoison (s : State) (t : Nat) : (s.focusTile t).linePoison = s.linePoison := by
  unfold State.focusTile; split <;> rfl
@[simp] theorem focusTile_ptes (s : State) (t : Nat) : (s.focusTile t).ptes = s.ptes := by
  unfold State.focusTile; split <;> rfl
@[simp] theorem focusTile_hubs (s : State) (t : Nat) : (s.focusTile t).hubs = s.hubs := by
  unfold State.focusTile; split <;> rfl
@[simp] theorem focusTile_hubq (s : State) (t : Nat) : (s.focusTile t).hubq = s.hubq := by
  unfold State.focusTile; split <;> rfl
@[simp] theorem focusTile_notices (s : State) (t : Nat) : (s.focusTile t).notices = s.notices := by
  unfold State.focusTile; split <;> rfl
@[simp] theorem focusTile_noticeId (s : State) (t : Nat) : (s.focusTile t).noticeId = s.noticeId := by
  unfold State.focusTile; split <;> rfl
@[simp] theorem focusTile_migrations (s : State) (t : Nat) : (s.focusTile t).migrations = s.migrations := by
  unfold State.focusTile; split <;> rfl
@[simp] theorem focusTile_splits (s : State) (t : Nat) : (s.focusTile t).splits = s.splits := by
  unfold State.focusTile; split <;> rfl
@[simp] theorem focusTile_hoops (s : State) (t : Nat) : (s.focusTile t).hoops = s.hoops := by
  unfold State.focusTile; split <;> rfl
@[simp] theorem focusTile_keys (s : State) (t : Nat) : (s.focusTile t).keys = s.keys := by
  unfold State.focusTile; split <;> rfl
@[simp] theorem focusTile_gates (s : State) (t : Nat) : (s.focusTile t).gates = s.gates := by
  unfold State.focusTile; split <;> rfl
@[simp] theorem focusTile_time (s : State) (t : Nat) : (s.focusTile t).time = s.time := by
  unfold State.focusTile; split <;> rfl
@[simp] theorem focusTile_cycle (s : State) (t : Nat) : (s.focusTile t).cycle = s.cycle := by
  unfold State.focusTile; split <;> rfl
@[simp] theorem focusTile_mgmt (s : State) (t : Nat) : (s.focusTile t).mgmt = s.mgmt := by
  unfold State.focusTile; split <;> rfl
@[simp] theorem focusTile_island (s : State) (t : Nat) : (s.focusTile t).island = s.island := by
  unfold State.focusTile; split <;> rfl
@[simp] theorem focusTile_agenda (s : State) (t : Nat) : (s.focusTile t).agenda = s.agenda := by
  unfold State.focusTile; split <;> rfl
@[simp] theorem focusTile_turns (s : State) (t : Nat) : (s.focusTile t).turns = s.turns := by
  unfold State.focusTile; split <;> rfl
@[simp] theorem focusTile_free (s : State) (t : Nat) : (s.focusTile t).free = s.free := by
  unfold State.focusTile; split <;> rfl
@[simp] theorem putGraph_mem (s : State) (x : Graph) : (s.putGraph x).mem = s.mem := by
  unfold State.putGraph; split <;> rfl
@[simp] theorem putGraph_tileIdx (s : State) (x : Graph) : (s.putGraph x).tileIdx = s.tileIdx := by
  unfold State.putGraph; split <;> rfl
@[simp] theorem putGraph_tile (s : State) (x : Graph) : (s.putGraph x).tile = s.tile := by
  unfold State.putGraph; split <;> rfl
@[simp] theorem putGraph_tiles (s : State) (x : Graph) : (s.putGraph x).tiles = s.tiles := by
  unfold State.putGraph; split <;> rfl
@[simp] theorem putGraph_cells (s : State) (x : Graph) : (s.putGraph x).cells = s.cells := by
  unfold State.putGraph; split <;> rfl
@[simp] theorem putGraph_region (s : State) (x : Graph) : (s.putGraph x).region = s.region := by
  unfold State.putGraph; split <;> rfl
@[simp] theorem putGraph_netIdx (s : State) (x : Graph) : (s.putGraph x).netIdx = s.netIdx := by
  unfold State.putGraph; split <;> rfl
@[simp] theorem putGraph_stream (s : State) (x : Graph) : (s.putGraph x).stream = s.stream := by
  unfold State.putGraph; split <;> rfl
@[simp] theorem putGraph_nets (s : State) (x : Graph) : (s.putGraph x).nets = s.nets := by
  unfold State.putGraph; split <;> rfl
@[simp] theorem putGraph_linePoison (s : State) (x : Graph) : (s.putGraph x).linePoison = s.linePoison := by
  unfold State.putGraph; split <;> rfl
@[simp] theorem putGraph_ptes (s : State) (x : Graph) : (s.putGraph x).ptes = s.ptes := by
  unfold State.putGraph; split <;> rfl
@[simp] theorem putGraph_hubs (s : State) (x : Graph) : (s.putGraph x).hubs = s.hubs := by
  unfold State.putGraph; split <;> rfl
@[simp] theorem putGraph_hubq (s : State) (x : Graph) : (s.putGraph x).hubq = s.hubq := by
  unfold State.putGraph; split <;> rfl
@[simp] theorem putGraph_notices (s : State) (x : Graph) : (s.putGraph x).notices = s.notices := by
  unfold State.putGraph; split <;> rfl
@[simp] theorem putGraph_noticeId (s : State) (x : Graph) : (s.putGraph x).noticeId = s.noticeId := by
  unfold State.putGraph; split <;> rfl
@[simp] theorem putGraph_migrations (s : State) (x : Graph) : (s.putGraph x).migrations = s.migrations := by
  unfold State.putGraph; split <;> rfl
@[simp] theorem putGraph_splits (s : State) (x : Graph) : (s.putGraph x).splits = s.splits := by
  unfold State.putGraph; split <;> rfl
@[simp] theorem putGraph_hoops (s : State) (x : Graph) : (s.putGraph x).hoops = s.hoops := by
  unfold State.putGraph; split <;> rfl
@[simp] theorem putGraph_keys (s : State) (x : Graph) : (s.putGraph x).keys = s.keys := by
  unfold State.putGraph; split <;> rfl
@[simp] theorem putGraph_gates (s : State) (x : Graph) : (s.putGraph x).gates = s.gates := by
  unfold State.putGraph; split <;> rfl
@[simp] theorem putGraph_time (s : State) (x : Graph) : (s.putGraph x).time = s.time := by
  unfold State.putGraph; split <;> rfl
@[simp] theorem putGraph_cycle (s : State) (x : Graph) : (s.putGraph x).cycle = s.cycle := by
  unfold State.putGraph; split <;> rfl
@[simp] theorem putGraph_mgmt (s : State) (x : Graph) : (s.putGraph x).mgmt = s.mgmt := by
  unfold State.putGraph; split <;> rfl
@[simp] theorem putGraph_island (s : State) (x : Graph) : (s.putGraph x).island = s.island := by
  unfold State.putGraph; split <;> rfl
@[simp] theorem putGraph_agenda (s : State) (x : Graph) : (s.putGraph x).agenda = s.agenda := by
  unfold State.putGraph; split <;> rfl
@[simp] theorem putGraph_turns (s : State) (x : Graph) : (s.putGraph x).turns = s.turns := by
  unfold State.putGraph; split <;> rfl
@[simp] theorem putGraph_free (s : State) (x : Graph) : (s.putGraph x).free = s.free := by
  unfold State.putGraph; split <;> rfl
@[simp] theorem onGraph_mem (s : State) (g : Nat) (h : Graph → Graph) : (s.onGraph g h).mem = s.mem := by
  unfold State.onGraph; split <;> simp
@[simp] theorem onGraph_tileIdx (s : State) (g : Nat) (h : Graph → Graph) : (s.onGraph g h).tileIdx = s.tileIdx := by
  unfold State.onGraph; split <;> simp
@[simp] theorem onGraph_tile (s : State) (g : Nat) (h : Graph → Graph) : (s.onGraph g h).tile = s.tile := by
  unfold State.onGraph; split <;> simp
@[simp] theorem onGraph_tiles (s : State) (g : Nat) (h : Graph → Graph) : (s.onGraph g h).tiles = s.tiles := by
  unfold State.onGraph; split <;> simp
@[simp] theorem onGraph_cells (s : State) (g : Nat) (h : Graph → Graph) : (s.onGraph g h).cells = s.cells := by
  unfold State.onGraph; split <;> simp
@[simp] theorem onGraph_region (s : State) (g : Nat) (h : Graph → Graph) : (s.onGraph g h).region = s.region := by
  unfold State.onGraph; split <;> simp
@[simp] theorem onGraph_netIdx (s : State) (g : Nat) (h : Graph → Graph) : (s.onGraph g h).netIdx = s.netIdx := by
  unfold State.onGraph; split <;> simp
@[simp] theorem onGraph_stream (s : State) (g : Nat) (h : Graph → Graph) : (s.onGraph g h).stream = s.stream := by
  unfold State.onGraph; split <;> simp
@[simp] theorem onGraph_nets (s : State) (g : Nat) (h : Graph → Graph) : (s.onGraph g h).nets = s.nets := by
  unfold State.onGraph; split <;> simp
@[simp] theorem onGraph_linePoison (s : State) (g : Nat) (h : Graph → Graph) : (s.onGraph g h).linePoison = s.linePoison := by
  unfold State.onGraph; split <;> simp
@[simp] theorem onGraph_ptes (s : State) (g : Nat) (h : Graph → Graph) : (s.onGraph g h).ptes = s.ptes := by
  unfold State.onGraph; split <;> simp
@[simp] theorem onGraph_hubs (s : State) (g : Nat) (h : Graph → Graph) : (s.onGraph g h).hubs = s.hubs := by
  unfold State.onGraph; split <;> simp
@[simp] theorem onGraph_hubq (s : State) (g : Nat) (h : Graph → Graph) : (s.onGraph g h).hubq = s.hubq := by
  unfold State.onGraph; split <;> simp
@[simp] theorem onGraph_notices (s : State) (g : Nat) (h : Graph → Graph) : (s.onGraph g h).notices = s.notices := by
  unfold State.onGraph; split <;> simp
@[simp] theorem onGraph_noticeId (s : State) (g : Nat) (h : Graph → Graph) : (s.onGraph g h).noticeId = s.noticeId := by
  unfold State.onGraph; split <;> simp
@[simp] theorem onGraph_migrations (s : State) (g : Nat) (h : Graph → Graph) : (s.onGraph g h).migrations = s.migrations := by
  unfold State.onGraph; split <;> simp
@[simp] theorem onGraph_splits (s : State) (g : Nat) (h : Graph → Graph) : (s.onGraph g h).splits = s.splits := by
  unfold State.onGraph; split <;> simp
@[simp] theorem onGraph_hoops (s : State) (g : Nat) (h : Graph → Graph) : (s.onGraph g h).hoops = s.hoops := by
  unfold State.onGraph; split <;> simp
@[simp] theorem onGraph_keys (s : State) (g : Nat) (h : Graph → Graph) : (s.onGraph g h).keys = s.keys := by
  unfold State.onGraph; split <;> simp
@[simp] theorem onGraph_gates (s : State) (g : Nat) (h : Graph → Graph) : (s.onGraph g h).gates = s.gates := by
  unfold State.onGraph; split <;> simp
@[simp] theorem onGraph_time (s : State) (g : Nat) (h : Graph → Graph) : (s.onGraph g h).time = s.time := by
  unfold State.onGraph; split <;> simp
@[simp] theorem onGraph_cycle (s : State) (g : Nat) (h : Graph → Graph) : (s.onGraph g h).cycle = s.cycle := by
  unfold State.onGraph; split <;> simp
@[simp] theorem onGraph_mgmt (s : State) (g : Nat) (h : Graph → Graph) : (s.onGraph g h).mgmt = s.mgmt := by
  unfold State.onGraph; split <;> simp
@[simp] theorem onGraph_island (s : State) (g : Nat) (h : Graph → Graph) : (s.onGraph g h).island = s.island := by
  unfold State.onGraph; split <;> simp
@[simp] theorem onGraph_agenda (s : State) (g : Nat) (h : Graph → Graph) : (s.onGraph g h).agenda = s.agenda := by
  unfold State.onGraph; split <;> simp
@[simp] theorem onGraph_turns (s : State) (g : Nat) (h : Graph → Graph) : (s.onGraph g h).turns = s.turns := by
  unfold State.onGraph; split <;> simp
@[simp] theorem onGraph_free (s : State) (g : Nat) (h : Graph → Graph) : (s.onGraph g h).free = s.free := by
  unfold State.onGraph; split <;> simp
@[simp] theorem settle_mem (s : State) : s.settle.mem = s.mem := by
  unfold State.settle; split <;> rfl
@[simp] theorem settle_tileIdx (s : State) : s.settle.tileIdx = s.tileIdx := by
  unfold State.settle; split <;> rfl
@[simp] theorem settle_tile (s : State) : s.settle.tile = s.tile := by
  unfold State.settle; split <;> rfl
@[simp] theorem settle_tiles (s : State) : s.settle.tiles = s.tiles := by
  unfold State.settle; split <;> rfl
@[simp] theorem settle_cells (s : State) : s.settle.cells = s.cells := by
  unfold State.settle; split <;> rfl
@[simp] theorem settle_graphs (s : State) : s.settle.graphs = s.graphs := by
  unfold State.settle; split <;> rfl
@[simp] theorem settle_netIdx (s : State) : s.settle.netIdx = s.netIdx := by
  unfold State.settle; split <;> rfl
@[simp] theorem settle_stream (s : State) : s.settle.stream = s.stream := by
  unfold State.settle; split <;> rfl
@[simp] theorem settle_nets (s : State) : s.settle.nets = s.nets := by
  unfold State.settle; split <;> rfl
@[simp] theorem settle_linePoison (s : State) : s.settle.linePoison = s.linePoison := by
  unfold State.settle; split <;> rfl
@[simp] theorem settle_ptes (s : State) : s.settle.ptes = s.ptes := by
  unfold State.settle; split <;> rfl
@[simp] theorem settle_hubs (s : State) : s.settle.hubs = s.hubs := by
  unfold State.settle; split <;> rfl
@[simp] theorem settle_hubq (s : State) : s.settle.hubq = s.hubq := by
  unfold State.settle; split <;> rfl
@[simp] theorem settle_notices (s : State) : s.settle.notices = s.notices := by
  unfold State.settle; split <;> rfl
@[simp] theorem settle_noticeId (s : State) : s.settle.noticeId = s.noticeId := by
  unfold State.settle; split <;> rfl
@[simp] theorem settle_migrations (s : State) : s.settle.migrations = s.migrations := by
  unfold State.settle; split <;> rfl
@[simp] theorem settle_splits (s : State) : s.settle.splits = s.splits := by
  unfold State.settle; split <;> rfl
@[simp] theorem settle_hoops (s : State) : s.settle.hoops = s.hoops := by
  unfold State.settle; split <;> rfl
@[simp] theorem settle_keys (s : State) : s.settle.keys = s.keys := by
  unfold State.settle; split <;> rfl
@[simp] theorem settle_gates (s : State) : s.settle.gates = s.gates := by
  unfold State.settle; split <;> rfl
@[simp] theorem settle_time (s : State) : s.settle.time = s.time := by
  unfold State.settle; split <;> rfl
@[simp] theorem settle_cycle (s : State) : s.settle.cycle = s.cycle := by
  unfold State.settle; split <;> rfl
@[simp] theorem settle_mgmt (s : State) : s.settle.mgmt = s.mgmt := by
  unfold State.settle; split <;> rfl
@[simp] theorem settle_island (s : State) : s.settle.island = s.island := by
  unfold State.settle; split <;> rfl
@[simp] theorem settle_agenda (s : State) : s.settle.agenda = s.agenda := by
  unfold State.settle; split <;> rfl
@[simp] theorem settle_turns (s : State) : s.settle.turns = s.turns := by
  unfold State.settle; split <;> rfl
@[simp] theorem settle_free (s : State) : s.settle.free = s.free := by
  unfold State.settle; split <;> rfl
@[simp] theorem focusGraph_mem (s : State) (g : Nat) : (s.focusGraph g).mem = s.mem := by
  unfold State.focusGraph; dsimp only; split <;> [skip; split] <;> simp
@[simp] theorem focusGraph_tileIdx (s : State) (g : Nat) : (s.focusGraph g).tileIdx = s.tileIdx := by
  unfold State.focusGraph; dsimp only; split <;> [skip; split] <;> simp
@[simp] theorem focusGraph_tile (s : State) (g : Nat) : (s.focusGraph g).tile = s.tile := by
  unfold State.focusGraph; dsimp only; split <;> [skip; split] <;> simp
@[simp] theorem focusGraph_tiles (s : State) (g : Nat) : (s.focusGraph g).tiles = s.tiles := by
  unfold State.focusGraph; dsimp only; split <;> [skip; split] <;> simp
@[simp] theorem focusGraph_cells (s : State) (g : Nat) : (s.focusGraph g).cells = s.cells := by
  unfold State.focusGraph; dsimp only; split <;> [skip; split] <;> simp
@[simp] theorem focusGraph_netIdx (s : State) (g : Nat) : (s.focusGraph g).netIdx = s.netIdx := by
  unfold State.focusGraph; dsimp only; split <;> [skip; split] <;> simp
@[simp] theorem focusGraph_stream (s : State) (g : Nat) : (s.focusGraph g).stream = s.stream := by
  unfold State.focusGraph; dsimp only; split <;> [skip; split] <;> simp
@[simp] theorem focusGraph_nets (s : State) (g : Nat) : (s.focusGraph g).nets = s.nets := by
  unfold State.focusGraph; dsimp only; split <;> [skip; split] <;> simp
@[simp] theorem focusGraph_linePoison (s : State) (g : Nat) : (s.focusGraph g).linePoison = s.linePoison := by
  unfold State.focusGraph; dsimp only; split <;> [skip; split] <;> simp
@[simp] theorem focusGraph_ptes (s : State) (g : Nat) : (s.focusGraph g).ptes = s.ptes := by
  unfold State.focusGraph; dsimp only; split <;> [skip; split] <;> simp
@[simp] theorem focusGraph_hubs (s : State) (g : Nat) : (s.focusGraph g).hubs = s.hubs := by
  unfold State.focusGraph; dsimp only; split <;> [skip; split] <;> simp
@[simp] theorem focusGraph_hubq (s : State) (g : Nat) : (s.focusGraph g).hubq = s.hubq := by
  unfold State.focusGraph; dsimp only; split <;> [skip; split] <;> simp
@[simp] theorem focusGraph_notices (s : State) (g : Nat) : (s.focusGraph g).notices = s.notices := by
  unfold State.focusGraph; dsimp only; split <;> [skip; split] <;> simp
@[simp] theorem focusGraph_noticeId (s : State) (g : Nat) : (s.focusGraph g).noticeId = s.noticeId := by
  unfold State.focusGraph; dsimp only; split <;> [skip; split] <;> simp
@[simp] theorem focusGraph_migrations (s : State) (g : Nat) : (s.focusGraph g).migrations = s.migrations := by
  unfold State.focusGraph; dsimp only; split <;> [skip; split] <;> simp
@[simp] theorem focusGraph_splits (s : State) (g : Nat) : (s.focusGraph g).splits = s.splits := by
  unfold State.focusGraph; dsimp only; split <;> [skip; split] <;> simp
@[simp] theorem focusGraph_hoops (s : State) (g : Nat) : (s.focusGraph g).hoops = s.hoops := by
  unfold State.focusGraph; dsimp only; split <;> [skip; split] <;> simp
@[simp] theorem focusGraph_keys (s : State) (g : Nat) : (s.focusGraph g).keys = s.keys := by
  unfold State.focusGraph; dsimp only; split <;> [skip; split] <;> simp
@[simp] theorem focusGraph_gates (s : State) (g : Nat) : (s.focusGraph g).gates = s.gates := by
  unfold State.focusGraph; dsimp only; split <;> [skip; split] <;> simp
@[simp] theorem focusGraph_time (s : State) (g : Nat) : (s.focusGraph g).time = s.time := by
  unfold State.focusGraph; dsimp only; split <;> [skip; split] <;> simp
@[simp] theorem focusGraph_cycle (s : State) (g : Nat) : (s.focusGraph g).cycle = s.cycle := by
  unfold State.focusGraph; dsimp only; split <;> [skip; split] <;> simp
@[simp] theorem focusGraph_mgmt (s : State) (g : Nat) : (s.focusGraph g).mgmt = s.mgmt := by
  unfold State.focusGraph; dsimp only; split <;> [skip; split] <;> simp
@[simp] theorem focusGraph_island (s : State) (g : Nat) : (s.focusGraph g).island = s.island := by
  unfold State.focusGraph; dsimp only; split <;> [skip; split] <;> simp
@[simp] theorem focusGraph_agenda (s : State) (g : Nat) : (s.focusGraph g).agenda = s.agenda := by
  unfold State.focusGraph; dsimp only; split <;> [skip; split] <;> simp
@[simp] theorem focusGraph_turns (s : State) (g : Nat) : (s.focusGraph g).turns = s.turns := by
  unfold State.focusGraph; dsimp only; split <;> [skip; split] <;> simp
@[simp] theorem focusGraph_free (s : State) (g : Nat) : (s.focusGraph g).free = s.free := by
  unfold State.focusGraph; dsimp only; split <;> [skip; split] <;> simp
@[simp] theorem focusRegion_mem (s : State) (r : Nat) : (s.focusRegion r).mem = s.mem := by
  unfold State.focusRegion; dsimp only; split <;> simp
@[simp] theorem focusRegion_tileIdx (s : State) (r : Nat) : (s.focusRegion r).tileIdx = s.tileIdx := by
  unfold State.focusRegion; dsimp only; split <;> simp
@[simp] theorem focusRegion_tile (s : State) (r : Nat) : (s.focusRegion r).tile = s.tile := by
  unfold State.focusRegion; dsimp only; split <;> simp
@[simp] theorem focusRegion_tiles (s : State) (r : Nat) : (s.focusRegion r).tiles = s.tiles := by
  unfold State.focusRegion; dsimp only; split <;> simp
@[simp] theorem focusRegion_cells (s : State) (r : Nat) : (s.focusRegion r).cells = s.cells := by
  unfold State.focusRegion; dsimp only; split <;> simp
@[simp] theorem focusRegion_graphs (s : State) (r : Nat) : (s.focusRegion r).graphs = s.graphs := by
  unfold State.focusRegion; dsimp only; split <;> simp
@[simp] theorem focusRegion_netIdx (s : State) (r : Nat) : (s.focusRegion r).netIdx = s.netIdx := by
  unfold State.focusRegion; dsimp only; split <;> simp
@[simp] theorem focusRegion_stream (s : State) (r : Nat) : (s.focusRegion r).stream = s.stream := by
  unfold State.focusRegion; dsimp only; split <;> simp
@[simp] theorem focusRegion_nets (s : State) (r : Nat) : (s.focusRegion r).nets = s.nets := by
  unfold State.focusRegion; dsimp only; split <;> simp
@[simp] theorem focusRegion_linePoison (s : State) (r : Nat) : (s.focusRegion r).linePoison = s.linePoison := by
  unfold State.focusRegion; dsimp only; split <;> simp
@[simp] theorem focusRegion_ptes (s : State) (r : Nat) : (s.focusRegion r).ptes = s.ptes := by
  unfold State.focusRegion; dsimp only; split <;> simp
@[simp] theorem focusRegion_hubs (s : State) (r : Nat) : (s.focusRegion r).hubs = s.hubs := by
  unfold State.focusRegion; dsimp only; split <;> simp
@[simp] theorem focusRegion_hubq (s : State) (r : Nat) : (s.focusRegion r).hubq = s.hubq := by
  unfold State.focusRegion; dsimp only; split <;> simp
@[simp] theorem focusRegion_notices (s : State) (r : Nat) : (s.focusRegion r).notices = s.notices := by
  unfold State.focusRegion; dsimp only; split <;> simp
@[simp] theorem focusRegion_noticeId (s : State) (r : Nat) : (s.focusRegion r).noticeId = s.noticeId := by
  unfold State.focusRegion; dsimp only; split <;> simp
@[simp] theorem focusRegion_migrations (s : State) (r : Nat) : (s.focusRegion r).migrations = s.migrations := by
  unfold State.focusRegion; dsimp only; split <;> simp
@[simp] theorem focusRegion_splits (s : State) (r : Nat) : (s.focusRegion r).splits = s.splits := by
  unfold State.focusRegion; dsimp only; split <;> simp
@[simp] theorem focusRegion_hoops (s : State) (r : Nat) : (s.focusRegion r).hoops = s.hoops := by
  unfold State.focusRegion; dsimp only; split <;> simp
@[simp] theorem focusRegion_keys (s : State) (r : Nat) : (s.focusRegion r).keys = s.keys := by
  unfold State.focusRegion; dsimp only; split <;> simp
@[simp] theorem focusRegion_gates (s : State) (r : Nat) : (s.focusRegion r).gates = s.gates := by
  unfold State.focusRegion; dsimp only; split <;> simp
@[simp] theorem focusRegion_time (s : State) (r : Nat) : (s.focusRegion r).time = s.time := by
  unfold State.focusRegion; dsimp only; split <;> simp
@[simp] theorem focusRegion_cycle (s : State) (r : Nat) : (s.focusRegion r).cycle = s.cycle := by
  unfold State.focusRegion; dsimp only; split <;> simp
@[simp] theorem focusRegion_mgmt (s : State) (r : Nat) : (s.focusRegion r).mgmt = s.mgmt := by
  unfold State.focusRegion; dsimp only; split <;> simp
@[simp] theorem focusRegion_island (s : State) (r : Nat) : (s.focusRegion r).island = s.island := by
  unfold State.focusRegion; dsimp only; split <;> simp
@[simp] theorem focusRegion_agenda (s : State) (r : Nat) : (s.focusRegion r).agenda = s.agenda := by
  unfold State.focusRegion; dsimp only; split <;> simp
@[simp] theorem focusRegion_turns (s : State) (r : Nat) : (s.focusRegion r).turns = s.turns := by
  unfold State.focusRegion; dsimp only; split <;> simp
@[simp] theorem focusRegion_free (s : State) (r : Nat) : (s.focusRegion r).free = s.free := by
  unfold State.focusRegion; dsimp only; split <;> simp
@[simp] theorem focusNet_mem (s : State) (n : Nat) : (s.focusNet n).mem = s.mem := by
  unfold State.focusNet; split <;> rfl
@[simp] theorem focusNet_tileIdx (s : State) (n : Nat) : (s.focusNet n).tileIdx = s.tileIdx := by
  unfold State.focusNet; split <;> rfl
@[simp] theorem focusNet_tile (s : State) (n : Nat) : (s.focusNet n).tile = s.tile := by
  unfold State.focusNet; split <;> rfl
@[simp] theorem focusNet_tiles (s : State) (n : Nat) : (s.focusNet n).tiles = s.tiles := by
  unfold State.focusNet; split <;> rfl
@[simp] theorem focusNet_cells (s : State) (n : Nat) : (s.focusNet n).cells = s.cells := by
  unfold State.focusNet; split <;> rfl
@[simp] theorem focusNet_graph (s : State) (n : Nat) : (s.focusNet n).graph = s.graph := by
  unfold State.focusNet; split <;> rfl
@[simp] theorem focusNet_graphs (s : State) (n : Nat) : (s.focusNet n).graphs = s.graphs := by
  unfold State.focusNet; split <;> rfl
@[simp] theorem focusNet_region (s : State) (n : Nat) : (s.focusNet n).region = s.region := by
  unfold State.focusNet; split <;> rfl
@[simp] theorem focusNet_linePoison (s : State) (n : Nat) : (s.focusNet n).linePoison = s.linePoison := by
  unfold State.focusNet; split <;> rfl
@[simp] theorem focusNet_ptes (s : State) (n : Nat) : (s.focusNet n).ptes = s.ptes := by
  unfold State.focusNet; split <;> rfl
@[simp] theorem focusNet_hubs (s : State) (n : Nat) : (s.focusNet n).hubs = s.hubs := by
  unfold State.focusNet; split <;> rfl
@[simp] theorem focusNet_hubq (s : State) (n : Nat) : (s.focusNet n).hubq = s.hubq := by
  unfold State.focusNet; split <;> rfl
@[simp] theorem focusNet_notices (s : State) (n : Nat) : (s.focusNet n).notices = s.notices := by
  unfold State.focusNet; split <;> rfl
@[simp] theorem focusNet_noticeId (s : State) (n : Nat) : (s.focusNet n).noticeId = s.noticeId := by
  unfold State.focusNet; split <;> rfl
@[simp] theorem focusNet_migrations (s : State) (n : Nat) : (s.focusNet n).migrations = s.migrations := by
  unfold State.focusNet; split <;> rfl
@[simp] theorem focusNet_splits (s : State) (n : Nat) : (s.focusNet n).splits = s.splits := by
  unfold State.focusNet; split <;> rfl
@[simp] theorem focusNet_hoops (s : State) (n : Nat) : (s.focusNet n).hoops = s.hoops := by
  unfold State.focusNet; split <;> rfl
@[simp] theorem focusNet_keys (s : State) (n : Nat) : (s.focusNet n).keys = s.keys := by
  unfold State.focusNet; split <;> rfl
@[simp] theorem focusNet_gates (s : State) (n : Nat) : (s.focusNet n).gates = s.gates := by
  unfold State.focusNet; split <;> rfl
@[simp] theorem focusNet_time (s : State) (n : Nat) : (s.focusNet n).time = s.time := by
  unfold State.focusNet; split <;> rfl
@[simp] theorem focusNet_cycle (s : State) (n : Nat) : (s.focusNet n).cycle = s.cycle := by
  unfold State.focusNet; split <;> rfl
@[simp] theorem focusNet_mgmt (s : State) (n : Nat) : (s.focusNet n).mgmt = s.mgmt := by
  unfold State.focusNet; split <;> rfl
@[simp] theorem focusNet_island (s : State) (n : Nat) : (s.focusNet n).island = s.island := by
  unfold State.focusNet; split <;> rfl
@[simp] theorem focusNet_agenda (s : State) (n : Nat) : (s.focusNet n).agenda = s.agenda := by
  unfold State.focusNet; split <;> rfl
@[simp] theorem focusNet_turns (s : State) (n : Nat) : (s.focusNet n).turns = s.turns := by
  unfold State.focusNet; split <;> rfl
@[simp] theorem focusNet_free (s : State) (n : Nat) : (s.focusNet n).free = s.free := by
  unfold State.focusNet; split <;> rfl

theorem focusTile_idx (s : State) (t : Nat) : (s.focusTile t).tileIdx = t := by
  unfold State.focusTile; split <;> simp_all

theorem focusTile_tile (s : State) (t : Nat) : (s.focusTile t).tile = s.getTile t := by
  unfold State.focusTile State.getTile; split <;> simp_all

end Sys2Proof.Laws
end

