-- ==== Sys2Proof/Laws/Canonical.lean ====
section
/-! SUPPORT. What the shared operations over memory do to the list of bytes: the hub's answers leave it as it is, and every operation
that writes keeps its canonical form. -/

namespace Sys2Proof.Laws

open Sys2Proof.Machine

/-! ### Joining lists -/

theorem sparseWfFrom_append (d : Byte) (t u : Sparse Byte) (lo mid : Nat) (ht : sparseWfFrom d lo t = true) (hlo : lo ≤ mid)
    (hb : ∀ p ∈ t, p.1 < mid) (hu : sparseWfFrom d mid u = true) : sparseWfFrom d lo (t ++ u) = true := by
  induction t generalizing lo with
  | nil => exact sparseWfFrom_mono d u mid lo hlo hu
  | cons p r ih =>
    obtain ⟨a, v⟩ := p
    simp only [sparseWfFrom, List.cons_append, Bool.and_eq_true] at ht ⊢
    exact ⟨ht.1, ih (a + 1) ht.2 (hb (a, v) (.head _)) (fun p hp => hb p (.tail _ hp))⟩

theorem sparseWfFrom_shift (d : Byte) (t : Sparse Byte) (lo base to' : Nat) (ht : sparseWfFrom d lo t = true) (hb : base ≤ lo) :
    sparseWfFrom d (lo - base + to') (t.map fun c => (c.1 - base + to', c.2)) = true := by
  induction t generalizing lo with
  | nil => rfl
  | cons p r ih =>
    obtain ⟨a, v⟩ := p
    simp only [sparseWfFrom, List.map_cons, Bool.and_eq_true, decide_eq_true_eq] at ht ⊢
    refine ⟨⟨by omega, ht.1.2⟩, ?_⟩
    have h := ih (a + 1) ht.2 (by omega)
    rwa [show a + 1 - base + to' = a - base + to' + 1 by omega] at h

theorem sparseWfFrom_raise (d : Byte) (t : Sparse Byte) (lo hi : Nat) (ht : sparseWfFrom d lo t = true) (h : ∀ p ∈ t, hi ≤ p.1) :
    sparseWfFrom d hi t = true := by
  cases t with
  | nil => rfl
  | cons p r =>
    obtain ⟨a, v⟩ := p
    simp only [sparseWfFrom, Bool.and_eq_true, decide_eq_true_eq] at ht ⊢
    exact ⟨⟨h (a, v) (.head _), ht.1.2⟩, ht.2⟩

/-! ### The hub -/

@[simp] theorem cachePte_mem (s : State) (p : Nat) (e : BitVec 128) : (cachePte s p e).mem = s.mem := rfl

@[simp] theorem walkerUpdate_mem (s : State) (p : Nat) (e : BitVec 128) (w : Bool) : (walkerUpdate s p e w).mem = s.mem := by
  unfold walkerUpdate
  dsimp only
  repeat' split
  all_goals rfl

@[simp] theorem noteWrite_mem (s : State) (p : Nat) : (noteWrite s p).mem = s.mem := by
  unfold noteWrite
  dsimp only
  split <;> rfl

@[simp] theorem clearPoison_mem (s : State) (loc : Nat) : (clearPoison s loc).mem = s.mem := by
  unfold clearPoison
  dsimp only
  split <;> rfl

@[simp] theorem noteDirty_mem (s : State) (p loc : Nat) : (noteDirty s p loc).mem = s.mem := by
  unfold noteDirty
  dsimp only
  split <;> rfl

@[simp] theorem noteLine_mem (s : State) (ia loc : Nat) (a : Access) : (noteLine s ia loc a).mem = s.mem := by
  unfold noteLine
  dsimp only
  split <;> simp

@[simp] theorem noteOverlay_mem (s : State) (line : Nat) (mask : BitVec 64) : (noteOverlay s line mask).mem = s.mem := by
  unfold noteOverlay
  split <;> rfl

@[simp] theorem discardStale_mem (s : State) (ia : Nat) (a : Access) : (discardStale s ia a).mem = s.mem := by
  unfold discardStale
  dsimp only
  split <;> rfl

@[simp] theorem notifyTails_mem (s : State) (ia : Nat) : (notifyTails s ia).mem = s.mem := rfl

@[simp] theorem addNotice_mem (s : State) (page : Nat) (who : Issuer) (ctx : BitVec 16) (kind : BitVec 2) (ia : Nat) :
    (addNotice s page who ctx kind ia).mem = s.mem := by
  unfold addNotice
  repeat' split
  all_goals rfl

/-- The memory of the state in an answer of the hub. -/
def HubKeeps (m : List Host.Cell) (x : HubAnswer) : Prop :=
  match x with
  | .at _ _ s => s.mem = m
  | .value _ _ s => s.mem = m
  | .unmapped _ => True
  | .refused _ => True
  | .poisoned => True

theorem pteCheck_keeps (m : List Host.Cell) (e : BitVec 128) (a : Access) (x : HubAnswer) (h : pteCheck e a = some x) : HubKeeps m x := by
  unfold pteCheck at h
  repeat' split at h
  all_goals first
    | (cases h; trivial)
    | cases h

theorem pageAccess_keeps (s : State) (ia : Nat) (a : Access) : HubKeeps s.mem (pageAccess s ia a) := by
  unfold pageAccess
  dsimp only
  split
  · trivial
  · split
    · exact pteCheck_keeps _ _ _ _ ‹_›
    · split
      · trivial
      · split
        · trivial
        · simp [HubKeeps]

theorem scratchAccess_keeps (s : State) (ia : Nat) : HubKeeps s.mem (scratchAccess s ia) := by
  unfold scratchAccess
  dsimp only
  split
  · trivial
  · split
    · trivial
    · rfl

theorem packedAccess_keeps (s : State) (ia len : Nat) (a : Access) : HubKeeps s.mem (packedAccess s ia len a) := by
  unfold packedAccess
  dsimp only
  have h := pageAccess_keeps s ia a
  split
  · rename_i hx
    rw [hx] at h
    split
    · trivial
    · split
      · exact h
      · have k := pageAccess_keeps (by assumption) ((ia + len - 1) / 65536 * 65536) a
        split
        · rename_i hy
          rw [hy] at k
          split
          · trivial
          · exact k.trans h
        · rename_i hy
          rw [hy] at k
          exact k.trans h
        · trivial
        · trivial
        · trivial
  · rename_i hx
    rw [hx] at h
    exact h
  · trivial
  · trivial
  · trivial

/-- The value an answer carries says nothing about memory. -/
theorem HubKeeps.value_change {m : List Host.Cell} {v attr : _} {s : State} (w : Nat) (h : HubKeeps m (.value v attr s)) :
    HubKeeps m (.value w attr s) := h

theorem decodedAccess_keeps (s : State) (r : FormatRange) (ia : Nat) (a : Access) : HubKeeps s.mem (decodedAccess s r ia a) := by
  unfold decodedAccess
  dsimp only
  split
  · trivial
  · have h := packedAccess_keeps s (r.pbase + (ia - r.dbase) / 64 * r.blockBytes) r.blockBytes a
    split
    · rename_i hx
      rw [hx] at h
      exact h.value_change _
    · exact h

theorem hubKeeps_ite {m : List Host.Cell} {c : Prop} [Decidable c] {x y : HubAnswer} (hx : HubKeeps m x) (hy : HubKeeps m y) :
    HubKeeps m (if c then x else y) := by
  by_cases h : c
  · rwa [if_pos h]
  · rwa [if_neg h]

theorem hubValue_keeps (s : State) (v : Nat) (attr : BitVec 2) : HubKeeps s.mem (.value v attr s) := rfl

/-- An access at the home hub leaves memory as it is: its answer says where the bytes stand. -/
theorem hubAccess_keeps (s : State) (ia : Nat) (a : Access) : HubKeeps s.mem (hubAccess s ia a) := by
  unfold hubAccess
  refine hubKeeps_ite (hubKeeps_ite True.intro (scratchAccess_keeps s ia)) (hubKeeps_ite (hubKeeps_ite True.intro (hubValue_keeps ..)) ?_)
  split
  · exact hubKeeps_ite (decodedAccess_keeps ..) (pageAccess_keeps ..)
  · exact pageAccess_keeps ..

theorem hubAccess_at_mem {s h : State} {ia loc : Nat} {a : Access} {attr : BitVec 2} (e : hubAccess s ia a = .at loc attr h) :
    h.mem = s.mem := by
  have k := hubAccess_keeps s ia a
  rw [e] at k
  exact k

theorem hubAccess_value_mem {s h : State} {ia v : Nat} {a : Access} {attr : BitVec 2} (e : hubAccess s ia a = .value v attr h) :
    h.mem = s.mem := by
  have k := hubAccess_keeps s ia a
  rw [e] at k
  exact k

/-- A load leaves memory as it is. -/
theorem hubLoad_value_mem {s t : State} {ia n v : Nat} {a : Access} {attr : BitVec 2} (e : hubLoad s ia n a = .value v attr t) :
    t.mem = s.mem := by
  unfold hubLoad at e
  split at e
  · rename_i hx
    split at e
    · cases e
    · cases e
      exact hubAccess_at_mem hx
  · rename_i hx
    cases e
    exact hubAccess_value_mem hx
  · cases e
  · cases e
  · cases e

theorem hubLoad_poisoned_mem {s t : State} {ia n : Nat} {a : Access} (e : hubLoad s ia n a = .poisoned t) : t.mem = s.mem := by
  unfold hubLoad at e
  split at e
  · rename_i hx
    split at e
    · cases e
      exact hubAccess_at_mem hx
    · cases e
  · cases e
  · cases e
  · cases e
  · cases e
    rfl

/-! ### Writes at the hub -/

/-- The memory of the state in the outcome of a store keeps its canonical form. -/
def StoreWf (x : StoreOut) : Prop :=
  match x with
  | .done _ s => Memory.wf s.mem = true
  | .unmapped _ => True
  | .refused _ => True
  | .poisoned s => Memory.wf s.mem = true

theorem hubStore_wf (s : State) (ia : Nat) (mask : BitVec 64) (full : Bool) (a : Access) (f : Nat → Nat)
    (h : Memory.wf s.mem = true) : StoreWf (hubStore s ia mask full a f) := by
  unfold hubStore
  split
  · rename_i hx
    have k := hubAccess_at_mem hx
    split
    · simpa [StoreWf, k] using h
    · dsimp only [StoreWf]
      have w : Memory.wf (applyLine (clearPoison (by assumption) (by assumption)) (by assumption) mask f).mem = true :=
        applyLine_wf _ _ _ _ (by rw [clearPoison_mem, k]; exact h)
      split
      · exact w
      · simpa using w
  · trivial
  · trivial
  · trivial
  · exact h

theorem performWrite_wf (s : State) (ia : Nat) (mask : BitVec 64) (full : Bool) (a : Access) (f : Nat → Nat)
    (h : Memory.wf s.mem = true) : StoreWf (performWrite s ia mask full a f) := by
  unfold performWrite
  have k := hubStore_wf s ia mask full a f h
  split
  all_goals
    rename_i hx
    rw [hx] at k
    simpa [StoreWf] using k

/-- The memory of the state in the outcome of a load or an atomic keeps its canonical form. -/
def LoadWf (x : LoadOut) : Prop :=
  match x with
  | .value _ _ s => Memory.wf s.mem = true
  | .unmapped _ => True
  | .refused _ => True
  | .poisoned s => Memory.wf s.mem = true

theorem hubAtomic_wf (s : State) (ia size : Nat) (a : Access) (f : Nat → Option Nat) (h : Memory.wf s.mem = true) :
    LoadWf (hubAtomic s ia size a f) := by
  unfold hubAtomic
  split
  · rename_i hx
    have k := hubAccess_at_mem hx
    split
    · simpa [LoadWf, k] using h
    · dsimp only
      split
      · simpa [LoadWf, k] using h
      · dsimp only [LoadWf]
        have w : ∀ n v, Memory.wf (writeBytes s.mem n size v) = true := fun n v => writeBytes_wf _ _ _ _ h
        split <;> simp [k, w]
  · trivial
  · trivial
  · trivial
  · exact h

/-! ### Operand memory, copies of frames, slots -/

@[simp] theorem omTouch_mem (s : State) (tile x : Nat) (mask : BitVec 64) : (s.omTouch tile x mask).mem = s.mem := by
  unfold State.omTouch
  dsimp only
  split <;> simp

theorem omWrite_wf (s : State) (tile x : Nat) (data : Line) (exp : BitVec 8) (h : Memory.wf s.mem = true) :
    Memory.wf (s.omWrite tile x data exp).mem = true := by
  unfold State.omWrite
  simpa using writeByte_wf _ (sideLoc tile x) exp (writeBytes_wf _ (omLoc tile x) 64 data.toNat h)

theorem omWriteMasked_wf (s : State) (tile x : Nat) (mask : BitVec 64) (data : Line) (h : Memory.wf s.mem = true) :
    Memory.wf (s.omWriteMasked tile x mask data).mem = true := by
  unfold State.omWriteMasked
  split
  · exact omWrite_wf _ _ _ _ _ h
  · simpa using writeByte_wf _ (sideLoc tile x) 0 (writeMasked_wf _ (omLoc tile x) (fun k => mask.getLsbD k) 64 data.toNat h)

theorem omZero_wf (s : State) (tile slot : Nat) (h : Memory.wf s.mem = true) : Memory.wf (s.omZero tile slot).mem = true := by
  unfold State.omZero
  simpa using filter_wf _ _ h

theorem mergeCells_wf (m l : List Host.Cell) (h : Memory.wf m = true) : Memory.wf (mergeCells m l) = true := by
  unfold mergeCells
  induction l generalizing m with
  | nil => exact h
  | cons c r ih => exact ih _ (writeByte_wf _ _ _ h)

theorem restoreSlot_wf (s : State) (t slot : Nat) (h : Memory.wf s.mem = true) : Memory.wf (restoreSlot s t slot).mem = true := by
  unfold restoreSlot
  split
  · exact h
  · exact mergeCells_wf _ _ (filter_wf _ _ h)

@[simp] theorem cleanSlice_mem (s : State) (slice : Nat) (size : BitVec 4) : (cleanSlice s slice size).mem = s.mem := by
  unfold cleanSlice
  split <;> rfl

theorem installSplit_wf (s : State) (slice : Nat) (size : BitVec 4) (h : Memory.wf s.mem = true) :
    Memory.wf (installSplit s slice size).mem = true := by
  unfold installSplit
  exact filter_wf _ _ (by simpa using h)

theorem copyFrame_wf (s : State) (src dst : Nat) (h : Memory.wf s.mem = true) : Memory.wf (copyFrame s src dst).mem = true := by
  have e : (copyFrame s src dst).mem = (s.mem.filter fun c => decide (c.1 < frameLoc dst 0)) ++
      ((s.mem.filter fun c => decide (frameLoc src 0 ≤ c.1 ∧ c.1 < frameLoc src 0 + 65536)).map fun c =>
        (c.1 - frameLoc src 0 + frameLoc dst 0, c.2)) ++ s.mem.filter fun c => decide (frameLoc dst 0 + 65536 ≤ c.1) := by
    unfold copyFrame
    dsimp only
    split <;> rfl
  rw [e, List.append_assoc]
  have f : ∀ p : Host.Cell → Bool, sparseWfFrom 0 0 (s.mem.filter p) = true := fun p => filter_wf _ _ h
  refine sparseWfFrom_append 0 _ _ 0 (frameLoc dst 0) (f _) (Nat.zero_le _) (fun p hp => by simpa using (List.mem_filter.1 hp).2) ?_
  refine sparseWfFrom_append 0 _ _ _ (frameLoc dst 0 + 65536) ?_ (Nat.le_add_right _ _) ?_ ?_
  · have k := sparseWfFrom_shift 0 _ _ (frameLoc src 0) (frameLoc dst 0)
      (sparseWfFrom_raise 0 _ 0 (frameLoc src 0) (f _) fun p hp => by
        have q : frameLoc src 0 ≤ p.1 ∧ p.1 < frameLoc src 0 + 65536 := of_decide_eq_true (List.mem_filter.1 hp).2
        exact q.1) (Nat.le_refl _)
    rwa [Nat.sub_self, Nat.zero_add] at k
  · intro p hp
    obtain ⟨c, hc, rfl⟩ := List.mem_map.1 hp
    have := of_decide_eq_true (List.mem_filter.1 hc).2
    simp only
    omega
  · exact sparseWfFrom_raise 0 _ 0 _ (f _) fun p hp => of_decide_eq_true (List.mem_filter.1 hp).2

/-! ### Resets, companion memory -/

theorem resetCompute_wf (s : State) (h : Memory.wf s.mem = true) : Memory.wf (resetCompute s).mem = true := filter_wf _ _ h

theorem powerOff_wf (s : State) (h : Memory.wf s.mem = true) : Memory.wf (powerOff s).mem = true := filter_wf _ _ (filter_wf _ _ h)

theorem writeCompanion_wf (s : State) (ia n v : Nat) (h : Memory.wf s.mem = true) : Memory.wf (writeCompanion s ia n v).mem = true :=
  writeBytes_wf _ _ _ _ h

theorem writeReport_wf (s : State) (l : List Byte) (ia : Nat) (h : Memory.wf s.mem = true) : Memory.wf (writeReport s l ia).mem = true := by
  induction l generalizing s ia with
  | nil => exact h
  | cons b r ih => exact ih _ _ (writeByte_wf _ _ _ h)

end Sys2Proof.Laws
end

