-- ==== Sys2Proof/Laws/Dispatch.lean ====
section
/-! SUPPORT. What `exec` is for each constructor, so that no proof unfolds its match. -/

namespace Sys2Proof.Laws

open Sys2Proof.Machine

@[simp] theorem exec_tcrWrite v s : exec (.tcrWrite v) s = execTcrWrite v s := rfl
@[simp] theorem exec_tcrReseed v s : exec (.tcrReseed v) s = execTcrReseed v s := rfl
@[simp] theorem exec_fstatClear v s : exec (.fstatClear v) s = execFstatClear v s := rfl
@[simp] theorem exec_rndWrite l v s : exec (.rndWrite l v) s = execRndWrite l v s := rfl
@[simp] theorem exec_statusWrite v s : exec (.statusWrite v) s = execStatusWrite v s := rfl
@[simp] theorem exec_lcsWrite v s : exec (.lcsWrite v) s = execLcsWrite v s := rfl
@[simp] theorem exec_lcWrite l v s : exec (.lcWrite l v) s = execLcWrite l v s := rfl
@[simp] theorem exec_thdrWrite v s : exec (.thdrWrite v) s = execThdrWrite v s := rfl
@[simp] theorem exec_mailstClear v s : exec (.mailstClear v) s = execMailstClear v s := rfl
@[simp] theorem exec_nxcurWrite v s : exec (.nxcurWrite v) s = execNxcurWrite v s := rfl
@[simp] theorem exec_energyWrite v s : exec (.energyWrite v) s = execEnergyWrite v s := rfl
@[simp] theorem exec_registerWrite n v s : exec (.registerWrite n v) s = execRegisterWrite n v s := rfl
@[simp] theorem exec_frWrite hub n w v s : exec (.frWrite hub n w v) s = execFrWrite hub n w v s := rfl
@[simp] theorem exec_bankcmdGo hub n s : exec (.bankcmdGo hub n) s = execBankcmdGo hub n s := rfl
@[simp] theorem exec_bankrtClear hub n v s : exec (.bankrtClear hub n v) s = execBankrtClear hub n v s := rfl
@[simp] theorem exec_preempt t s : exec (.preempt t) s = execPreempt t s := rfl
@[simp] theorem exec_mgmtreq t s : exec (.mgmtreq t) s = execMgmtreq t s := rfl
@[simp] theorem exec_msgArrive src dst s : exec (.msgArrive src dst) s = execMsgArrive src dst s := rfl
@[simp] theorem exec_loadReturn t s : exec (.loadReturn t) s = execLoadReturn t s := rfl
@[simp] theorem exec_waitRelease t s : exec (.waitRelease t) s = execWaitRelease t s := rfl
@[simp] theorem exec_fenceComplete t s : exec (.fenceComplete t) s = execFenceComplete t s := rfl
@[simp] theorem exec_haltComplete t s : exec (.haltComplete t) s = execHaltComplete t s := rfl
@[simp] theorem exec_commandStart t n s : exec (.commandStart t n) s = execCommandStart t n s := rfl
@[simp] theorem exec_cfgStreamRead net s : exec (.cfgStreamRead net) s = execCfgStreamRead net s := rfl
@[simp] theorem exec_regionStart g s : exec (.regionStart g) s = execRegionStart g s := rfl
@[simp] theorem exec_regionRunOut g r s : exec (.regionRunOut g r) s = execRegionRunOut g r s := rfl
@[simp] theorem exec_regionDrainPoint g r s : exec (.regionDrainPoint g r) s = execRegionDrainPoint g r s := rfl
@[simp] theorem exec_regionSwitch g r s : exec (.regionSwitch g r) s = execRegionSwitch g r s := rfl
@[simp] theorem exec_holdRaise g src s : exec (.holdRaise g src) s = execHoldRaise g src s := rfl
@[simp] theorem exec_holdDrop g src s : exec (.holdDrop g src) s = execHoldDrop g src s := rfl
@[simp] theorem exec_windowCheck g r w s : exec (.windowCheck g r w) s = execWindowCheck g r w s := rfl
@[simp] theorem exec_windowReplyArrive n s : exec (.windowReplyArrive n) s = execWindowReplyArrive n s := rfl
@[simp] theorem exec_feedDeliver g r s : exec (.feedDeliver g r) s = execFeedDeliver g r s := rfl
@[simp] theorem exec_omReadDeviation t slot tok fails s : exec (.omReadDeviation t slot tok fails) s = execOmReadDeviation t slot tok fails s := rfl
@[simp] theorem exec_drainSample t n s : exec (.drainSample t n) s = execDrainSample t n s := rfl
@[simp] theorem exec_gateBeatArrive n s : exec (.gateBeatArrive n) s = execGateBeatArrive n s := rfl
@[simp] theorem exec_droopStretch t s : exec (.droopStretch t) s = execDroopStretch t s := rfl
@[simp] theorem exec_spineSourceLoss t both s : exec (.spineSourceLoss t both) s = execSpineSourceLoss t both s := rfl
@[simp] theorem exec_spineAltLocked t s : exec (.spineAltLocked t) s = execSpineAltLocked t s := rfl
@[simp] theorem exec_spineFreqChange k freq s : exec (.spineFreqChange k freq) s = execSpineFreqChange k freq s := rfl
@[simp] theorem exec_referenceTick s : exec .referenceTick s = execReferenceTick s := rfl
@[simp] theorem exec_hubRequest s : exec .hubRequest s = execHubRequest s := rfl
@[simp] theorem exec_noticeMapped n s : exec (.noticeMapped n) s = execNoticeMapped n s := rfl
@[simp] theorem exec_noticeAbort n s : exec (.noticeAbort n) s = execNoticeAbort n s := rfl
@[simp] theorem exec_creelReplay who s : exec (.creelReplay who) s = execCreelReplay who s := rfl
@[simp] theorem exec_creelOutcomeReport t s : exec (.creelOutcomeReport t) s = execCreelOutcomeReport t s := rfl
@[simp] theorem exec_keyFlip k s : exec (.keyFlip k) s = execKeyFlip k s := rfl
@[simp] theorem exec_hoopOpen h s : exec (.hoopOpen h) s = execHoopOpen h s := rfl
@[simp] theorem exec_hoopAbandon h s : exec (.hoopAbandon h) s = execHoopAbandon h s := rfl
@[simp] theorem exec_oclGrant t n s : exec (.oclGrant t n) s = execOclGrant t n s := rfl
@[simp] theorem exec_copyComplete hub eng s : exec (.copyComplete hub eng) s = execCopyComplete hub eng s := rfl
@[simp] theorem exec_encodeComplete hub s : exec (.encodeComplete hub) s = execEncodeComplete hub s := rfl
@[simp] theorem exec_migTryEnd n s : exec (.migTryEnd n) s = execMigTryEnd n s := rfl
@[simp] theorem exec_migSpSwitch n s : exec (.migSpSwitch n) s = execMigSpSwitch n s := rfl
@[simp] theorem exec_hsplitSliceDone n slice s : exec (.hsplitSliceDone n slice) s = execHsplitSliceDone n slice s := rfl
@[simp] theorem exec_pinvDone t n s : exec (.pinvDone t n) s = execPinvDone t n s := rfl
@[simp] theorem exec_bankRetireMark hub ch bank s : exec (.bankRetireMark hub ch bank) s = execBankRetireMark hub ch bank s := rfl
@[simp] theorem exec_restripeDone hub n s : exec (.restripeDone hub n) s = execRestripeDone hub n s := rfl
@[simp] theorem exec_cacheDieEarlyStop hub s : exec (.cacheDieEarlyStop hub) s = execCacheDieEarlyStop hub s := rfl
@[simp] theorem exec_cacheDiePowerLoss hub s : exec (.cacheDiePowerLoss hub) s = execCacheDiePowerLoss hub s := rfl
@[simp] theorem exec_queueTailNotify q s : exec (.queueTailNotify q) s = execQueueTailNotify q s := rfl
@[simp] theorem exec_launchRecord q s : exec (.launchRecord q) s = execLaunchRecord q s := rfl
@[simp] theorem exec_launchPriorityAge s : exec .launchPriorityAge s = execLaunchPriorityAge s := rfl
@[simp] theorem exec_bindDispatch slot record s : exec (.bindDispatch slot record) s = execBindDispatch slot record s := rfl
@[simp] theorem exec_graphPreempt g s : exec (.graphPreempt g) s = execGraphPreempt g s := rfl
@[simp] theorem exec_graphRestore slot record s : exec (.graphRestore slot record) s = execGraphRestore slot record s := rfl
@[simp] theorem exec_drainRequest g s : exec (.drainRequest g) s = execDrainRequest g s := rfl
@[simp] theorem exec_graphDrained g s : exec (.graphDrained g) s = execGraphDrained g s := rfl
@[simp] theorem exec_drainTimeout g s : exec (.drainTimeout g) s = execDrainTimeout g s := rfl
@[simp] theorem exec_graphComplete g s : exec (.graphComplete g) s = execGraphComplete g s := rfl
@[simp] theorem exec_thermalEmergency s : exec .thermalEmergency s = execThermalEmergency s := rfl
@[simp] theorem exec_thermalClear s : exec .thermalClear s = execThermalClear s := rfl
@[simp] theorem exec_mbxComputeReset seq s : exec (.mbxComputeReset seq) s = execMbxComputeReset seq s := rfl
@[simp] theorem exec_mbxIslandReset seq s : exec (.mbxIslandReset seq) s = execMbxIslandReset seq s := rfl
@[simp] theorem exec_mbxReadJournal seq first count ia s : exec (.mbxReadJournal seq first count ia) s = execMbxReadJournal seq first count ia s := rfl
@[simp] theorem exec_mbxAttestation seq nonce ia s : exec (.mbxAttestation seq nonce ia) s = execMbxAttestation seq nonce ia s := rfl
@[simp] theorem exec_mbxLoadFirmware seq ia len s : exec (.mbxLoadFirmware seq ia len) s = execMbxLoadFirmware seq ia len s := rfl
@[simp] theorem exec_mbxInstallQueue seq q descr s : exec (.mbxInstallQueue seq q descr) s = execMbxInstallQueue seq q descr s := rfl
@[simp] theorem exec_mbxSetPowerBudget seq watts s : exec (.mbxSetPowerBudget seq watts) s = execMbxSetPowerBudget seq watts s := rfl
@[simp] theorem exec_computeWatchdog s : exec .computeWatchdog s = execComputeWatchdog s := rfl
@[simp] theorem exec_orphanTimeout s : exec .orphanTimeout s = execOrphanTimeout s := rfl
@[simp] theorem exec_islandWatchdog s : exec .islandWatchdog s = execIslandWatchdog s := rfl
@[simp] theorem exec_hingelinkHotReset s : exec .hingelinkHotReset s = execHingelinkHotReset s := rfl
@[simp] theorem exec_islandFirmwareStart s : exec .islandFirmwareStart s = execIslandFirmwareStart s := rfl
@[simp] theorem exec_mainSupplyLoss s : exec .mainSupplyLoss s = execMainSupplyLoss s := rfl
@[simp] theorem exec_powerUp s : exec .powerUp s = execPowerUp s := rfl
@[simp] theorem exec_hingelinkLinkDown s : exec .hingelinkLinkDown s = execHingelinkLinkDown s := rfl
@[simp] theorem exec_flitReceive port crcOk pkt s : exec (.flitReceive port crcOk pkt) s = execFlitReceive port crcOk pkt s := rfl
@[simp] theorem exec_packetHop n s : exec (.packetHop n) s = execPacketHop n s := rfl
@[simp] theorem exec_escapeTimeout n s : exec (.escapeTimeout n) s = execEscapeTimeout n s := rfl
@[simp] theorem exec_linkDown port s : exec (.linkDown port) s = execLinkDown port s := rfl
@[simp] theorem exec_remoteRequestTimeout n s : exec (.remoteRequestTimeout n) s = execRemoteRequestTimeout n s := rfl
@[simp] theorem exec_routeTableLoad gen table crc rsa slh s : exec (.routeTableLoad gen table crc rsa slh) s = execRouteTableLoad gen table crc rsa slh s := rfl
@[simp] theorem exec_routeTableRetire gen s : exec (.routeTableRetire gen) s = execRouteTableRetire gen s := rfl
@[simp] theorem exec_illegalRimWord word s : exec (.illegalRimWord word) s = execIllegalRimWord word s := rfl
@[simp] theorem exec_writeAcknowledgement who s : exec (.writeAcknowledgement who) s = execWriteAcknowledgement who s := rfl
@[simp] theorem exec_companionInvalidateAck line s : exec (.companionInvalidateAck line) s = execCompanionInvalidateAck line s := rfl
@[simp] theorem exec_throttleByBudget s : exec .throttleByBudget s = execThrottleByBudget s := rfl
@[simp] theorem exec_cacheDieReturn hub s : exec (.cacheDieReturn hub) s = execCacheDieReturn hub s := rfl
@[simp] theorem exec_standbySupplyLoss s : exec .standbySupplyLoss s = execStandbySupplyLoss s := rfl
@[simp] theorem exec_slotEviction t slot out s : exec (.slotEviction t slot out) s = execSlotEviction t slot out s := rfl
@[simp] theorem exec_poisonBitClear frame s : exec (.poisonBitClear frame) s = execPoisonBitClear frame s := rfl
@[simp] theorem exec_nopc s : exec .nopc s = execNopc s := rfl
@[simp] theorem exec_tgt r c l s : exec (.tgt r c l) s = execTgt r c l s := rfl
@[simp] theorem exec_ext r c s : exec (.ext r c) s = execExt r c s := rfl
@[simp] theorem exec_tgtr r c h w l s : exec (.tgtr r c h w l) s = execTgtr r c h w l s := rfl
@[simp] theorem exec_fld f v s : exec (.fld f v) s = execFld f v s := rfl
@[simp] theorem exec_fldh v s : exec (.fldh v) s = execFldh v s := rfl
@[simp] theorem exec_row n s : exec (.row n) s = execRow n s := rfl
@[simp] theorem exec_typeWord t im sv p m s : exec (.typeWord t im sv p m) s = execTypeWord t im sv p m s := rfl
@[simp] theorem exec_img c sv s : exec (.img c sv) s = execImg c sv s := rfl
@[simp] theorem exec_commit im s : exec (.commit im) s = execCommit im s := rfl
@[simp] theorem exec_sealWord c s : exec (.sealWord c) s = execSealWord c s := rfl
@[simp] theorem exec_clrt s : exec .clrt s = execClrt s := rfl
@[simp] theorem exec_add d a b g s : exec (.add d a b g) s = execAdd d a b g s := rfl
@[simp] theorem exec_sub d a b g s : exec (.sub d a b g) s = execSub d a b g s := rfl
@[simp] theorem exec_and d a b g s : exec (.and d a b g) s = execAnd d a b g s := rfl
@[simp] theorem exec_or d a b g s : exec (.or d a b g) s = execOr d a b g s := rfl
@[simp] theorem exec_xor d a b g s : exec (.xor d a b g) s = execXor d a b g s := rfl
@[simp] theorem exec_andn d a b g s : exec (.andn d a b g) s = execAndn d a b g s := rfl
@[simp] theorem exec_sll d a b g s : exec (.sll d a b g) s = execSll d a b g s := rfl
@[simp] theorem exec_srl d a b g s : exec (.srl d a b g) s = execSrl d a b g s := rfl
@[simp] theorem exec_sra d a b g s : exec (.sra d a b g) s = execSra d a b g s := rfl
@[simp] theorem exec_rol d a b g s : exec (.rol d a b g) s = execRol d a b g s := rfl
@[simp] theorem exec_mul d a b g s : exec (.mul d a b g) s = execMul d a b g s := rfl
@[simp] theorem exec_mulh d a b g s : exec (.mulh d a b g) s = execMulh d a b g s := rfl
@[simp] theorem exec_mulhu d a b g s : exec (.mulhu d a b g) s = execMulhu d a b g s := rfl
@[simp] theorem exec_div d a b g s : exec (.div d a b g) s = execDiv d a b g s := rfl
@[simp] theorem exec_divu d a b g s : exec (.divu d a b g) s = execDivu d a b g s := rfl
@[simp] theorem exec_rem d a b g s : exec (.rem d a b g) s = execRem d a b g s := rfl
@[simp] theorem exec_remu d a b g s : exec (.remu d a b g) s = execRemu d a b g s := rfl
@[simp] theorem exec_min d a b g s : exec (.min d a b g) s = execMin d a b g s := rfl
@[simp] theorem exec_max d a b g s : exec (.max d a b g) s = execMax d a b g s := rfl
@[simp] theorem exec_minu d a b g s : exec (.minu d a b g) s = execMinu d a b g s := rfl
@[simp] theorem exec_maxu d a b g s : exec (.maxu d a b g) s = execMaxu d a b g s := rfl
@[simp] theorem exec_clz d a g s : exec (.clz d a g) s = execClz d a g s := rfl
@[simp] theorem exec_ctz d a g s : exec (.ctz d a g) s = execCtz d a g s := rfl
@[simp] theorem exec_popc d a g s : exec (.popc d a g) s = execPopc d a g s := rfl
@[simp] theorem exec_bswap d a g s : exec (.bswap d a g) s = execBswap d a g s := rfl
@[simp] theorem exec_sextB d a g s : exec (.sextB d a g) s = execSextB d a g s := rfl
@[simp] theorem exec_sextH d a g s : exec (.sextH d a g) s = execSextH d a g s := rfl
@[simp] theorem exec_sextW d a g s : exec (.sextW d a g) s = execSextW d a g s := rfl
@[simp] theorem exec_zextB d a g s : exec (.zextB d a g) s = execZextB d a g s := rfl
@[simp] theorem exec_zextH d a g s : exec (.zextH d a g) s = execZextH d a g s := rfl
@[simp] theorem exec_zextW d a g s : exec (.zextW d a g) s = execZextW d a g s := rfl
@[simp] theorem exec_bfx d a b g s : exec (.bfx d a b g) s = execBfx d a b g s := rfl
@[simp] theorem exec_bfi d a b g s : exec (.bfi d a b g) s = execBfi d a b g s := rfl
@[simp] theorem exec_lea1 d a b g s : exec (.lea1 d a b g) s = execLea1 d a b g s := rfl
@[simp] theorem exec_lea2 d a b g s : exec (.lea2 d a b g) s = execLea2 d a b g s := rfl
@[simp] theorem exec_lea4 d a b g s : exec (.lea4 d a b g) s = execLea4 d a b g s := rfl
@[simp] theorem exec_lea8 d a b g s : exec (.lea8 d a b g) s = execLea8 d a b g s := rfl
@[simp] theorem exec_sel d a b p s : exec (.sel d a b p) s = execSel d a b p s := rfl
@[simp] theorem exec_addi d a g im s : exec (.addi d a g im) s = execAddi d a g im s := rfl
@[simp] theorem exec_andi d a g im s : exec (.andi d a g im) s = execAndi d a g im s := rfl
@[simp] theorem exec_ori d a g im s : exec (.ori d a g im) s = execOri d a g im s := rfl
@[simp] theorem exec_xori d a g im s : exec (.xori d a g im) s = execXori d a g im s := rfl
@[simp] theorem exec_slli d a g sv s : exec (.slli d a g sv) s = execSlli d a g sv s := rfl
@[simp] theorem exec_srli d a g sv s : exec (.srli d a g sv) s = execSrli d a g sv s := rfl
@[simp] theorem exec_srai d a g sv s : exec (.srai d a g sv) s = execSrai d a g sv s := rfl
@[simp] theorem exec_muli d a g im s : exec (.muli d a g im) s = execMuli d a g im s := rfl
@[simp] theorem exec_addpc d g im s : exec (.addpc d g im) s = execAddpc d g im s := rfl
@[simp] theorem exec_lil d im s : exec (.lil d im) s = execLil d im s := rfl
@[simp] theorem exec_lih d im s : exec (.lih d im) s = execLih d im s := rfl
@[simp] theorem exec_ldb d a g im s : exec (.ldb d a g im) s = execLdb d a g im s := rfl
@[simp] theorem exec_ldbu d a g im s : exec (.ldbu d a g im) s = execLdbu d a g im s := rfl
@[simp] theorem exec_ldh d a g im s : exec (.ldh d a g im) s = execLdh d a g im s := rfl
@[simp] theorem exec_ldhu d a g im s : exec (.ldhu d a g im) s = execLdhu d a g im s := rfl
@[simp] theorem exec_ldw d a g im s : exec (.ldw d a g im) s = execLdw d a g im s := rfl
@[simp] theorem exec_ldwu d a g im s : exec (.ldwu d a g im) s = execLdwu d a g im s := rfl
@[simp] theorem exec_ldd d a g im s : exec (.ldd d a g im) s = execLdd d a g im s := rfl
@[simp] theorem exec_stb d a g im s : exec (.stb d a g im) s = execStb d a g im s := rfl
@[simp] theorem exec_sth d a g im s : exec (.sth d a g im) s = execSth d a g im s := rfl
@[simp] theorem exec_stw d a g im s : exec (.stw d a g im) s = execStw d a g im s := rfl
@[simp] theorem exec_std d a g im s : exec (.std d a g im) s = execStd d a g im s := rfl
@[simp] theorem exec_ldt d a g im s : exec (.ldt d a g im) s = execLdt d a g im s := rfl
@[simp] theorem exec_stt d a g im s : exec (.stt d a g im) s = execStt d a g im s := rfl
@[simp] theorem exec_amoAdd d a b g o z s : exec (.amoAdd d a b g o z) s = execAmoAdd d a b g o z s := rfl
@[simp] theorem exec_amoAnd d a b g o z s : exec (.amoAnd d a b g o z) s = execAmoAnd d a b g o z s := rfl
@[simp] theorem exec_amoOr d a b g o z s : exec (.amoOr d a b g o z) s = execAmoOr d a b g o z s := rfl
@[simp] theorem exec_amoXor d a b g o z s : exec (.amoXor d a b g o z) s = execAmoXor d a b g o z s := rfl
@[simp] theorem exec_amoMin d a b g o z s : exec (.amoMin d a b g o z) s = execAmoMin d a b g o z s := rfl
@[simp] theorem exec_amoMax d a b g o z s : exec (.amoMax d a b g o z) s = execAmoMax d a b g o z s := rfl
@[simp] theorem exec_amoMinu d a b g o z s : exec (.amoMinu d a b g o z) s = execAmoMinu d a b g o z s := rfl
@[simp] theorem exec_amoMaxu d a b g o z s : exec (.amoMaxu d a b g o z) s = execAmoMaxu d a b g o z s := rfl
@[simp] theorem exec_amoSwp d a b g o z s : exec (.amoSwp d a b g o z) s = execAmoSwp d a b g o z s := rfl
@[simp] theorem exec_amoFadd d a b g o s : exec (.amoFadd d a b g o) s = execAmoFadd d a b g o s := rfl
@[simp] theorem exec_amoBfadd d a b g o s : exec (.amoBfadd d a b g o) s = execAmoBfadd d a b g o s := rfl
@[simp] theorem exec_amocas d a b g o z s : exec (.amocas d a b g o z) s = execAmocas d a b g o z s := rfl
@[simp] theorem exec_redtAdd a b g o s : exec (.redtAdd a b g o) s = execRedtAdd a b g o s := rfl
@[simp] theorem exec_redtFadd a b g o s : exec (.redtFadd a b g o) s = execRedtFadd a b g o s := rfl
@[simp] theorem exec_redtBfadd a b g o s : exec (.redtBfadd a b g o) s = execRedtBfadd a b g o s := rfl
@[simp] theorem exec_redtMin a b g o s : exec (.redtMin a b g o) s = execRedtMin a b g o s := rfl
@[simp] theorem exec_redtMax a b g o s : exec (.redtMax a b g o) s = execRedtMax a b g o s := rfl
@[simp] theorem exec_br g o s : exec (.br g o) s = execBr g o s := rfl
@[simp] theorem exec_jmp o s : exec (.jmp o) s = execJmp o s := rfl
@[simp] theorem exec_call d im s : exec (.call d im) s = execCall d im s := rfl
@[simp] theorem exec_loopImm l c n s : exec (.loopImm l c n) s = execLoopImm l c n s := rfl
@[simp] theorem exec_loopReg l sv n s : exec (.loopReg l sv n) s = execLoopReg l sv n s := rfl
@[simp] theorem exec_cmpi d a c im s : exec (.cmpi d a c im) s = execCmpi d a c im s := rfl
@[simp] theorem exec_cmp d a b g c s : exec (.cmp d a b g c) s = execCmp d a b g c s := rfl
@[simp] theorem exec_plogAnd d a b g s : exec (.plogAnd d a b g) s = execPlogAnd d a b g s := rfl
@[simp] theorem exec_plogOr d a b g s : exec (.plogOr d a b g) s = execPlogOr d a b g s := rfl
@[simp] theorem exec_plogXor d a b g s : exec (.plogXor d a b g) s = execPlogXor d a b g s := rfl
@[simp] theorem exec_plogNot d a g s : exec (.plogNot d a g) s = execPlogNot d a g s := rfl
@[simp] theorem exec_s2p d a g s : exec (.s2p d a g) s = execS2p d a g s := rfl
@[simp] theorem exec_p2s d a g s : exec (.p2s d a g) s = execP2s d a g s := rfl
@[simp] theorem exec_jr d a g s : exec (.jr d a g) s = execJr d a g s := rfl
@[simp] theorem exec_lbrk l g s : exec (.lbrk l g) s = execLbrk l g s := rfl
@[simp] theorem exec_wait a g s : exec (.wait a g) s = execWait a g s := rfl
@[simp] theorem exec_halt g s : exec (.halt g) s = execHalt g s := rfl
@[simp] theorem exec_srd d n s : exec (.srd d n) s = execSrd d n s := rfl
@[simp] theorem exec_swr a n s : exec (.swr a n) s = execSwr a n s := rfl
@[simp] theorem exec_srs d a n s : exec (.srs d a n) s = execSrs d a n s := rfl
@[simp] theorem exec_src d a n s : exec (.src d a n) s = execSrc d a n s := rfl
@[simp] theorem exec_trap n s : exec (.trap n) s = execTrap n s := rfl
@[simp] theorem exec_eret s : exec .eret s = execEret s := rfl
@[simp] theorem exec_fence d w sv s : exec (.fence d w sv) s = execFence d w sv s := rfl
@[simp] theorem exec_wsync s : exec .wsync s = execWsync s := rfl
@[simp] theorem exec_msg d a m s : exec (.msg d a m) s = execMsg d a m s := rfl
@[simp] theorem exec_nextp d s : exec (.nextp d) s = execNextp d s := rfl
@[simp] theorem exec_vfma d a b c m im o k s : exec (.vfma d a b c m im o k) s = execVfma d a b c m im o k s := rfl
@[simp] theorem exec_vfms d a b c m im o k s : exec (.vfms d a b c m im o k) s = execVfms d a b c m im o k s := rfl
@[simp] theorem exec_vfnma d a b c m im o k s : exec (.vfnma d a b c m im o k) s = execVfnma d a b c m im o k s := rfl
@[simp] theorem exec_vsel d a b c m k s : exec (.vsel d a b c m k) s = execVsel d a b c m k s := rfl
@[simp] theorem exec_vimac d a b c m k s : exec (.vimac d a b c m k) s = execVimac d a b c m k s := rfl
@[simp] theorem exec_vadd d a b m im o k s : exec (.vadd d a b m im o k) s = execVadd d a b m im o k s := rfl
@[simp] theorem exec_vsub d a b m im o k s : exec (.vsub d a b m im o k) s = execVsub d a b m im o k s := rfl
@[simp] theorem exec_vmul d a b m im o k s : exec (.vmul d a b m im o k) s = execVmul d a b m im o k s := rfl
@[simp] theorem exec_vmax d a b m im o k s : exec (.vmax d a b m im o k) s = execVmax d a b m im o k s := rfl
@[simp] theorem exec_vmin d a b m im o k s : exec (.vmin d a b m im o k) s = execVmin d a b m im o k s := rfl
@[simp] theorem exec_vabs d a m im o k s : exec (.vabs d a m im o k) s = execVabs d a m im o k s := rfl
@[simp] theorem exec_vneg d a m im o k s : exec (.vneg d a m im o k) s = execVneg d a m im o k s := rfl
@[simp] theorem exec_vcps d a b m im o k s : exec (.vcps d a b m im o k) s = execVcps d a b m im o k s := rfl
@[simp] theorem exec_vcls d a m im k s : exec (.vcls d a m im k) s = execVcls d a m im k s := rfl
@[simp] theorem exec_vdot d a b m im o k s : exec (.vdot d a b m im o k) s = execVdot d a b m im o k s := rfl
@[simp] theorem exec_vexpf d a m im o k s : exec (.vexpf d a m im o k) s = execVexpf d a m im o k s := rfl
@[simp] theorem exec_vlogf d a m im o k s : exec (.vlogf d a m im o k) s = execVlogf d a m im o k s := rfl
@[simp] theorem exec_vscale d a b m im o k s : exec (.vscale d a b m im o k) s = execVscale d a b m im o k s := rfl
@[simp] theorem exec_vgetx d a m im o k s : exec (.vgetx d a m im o k) s = execVgetx d a m im o k s := rfl
@[simp] theorem exec_vrcp d a m im o k s : exec (.vrcp d a m im o k) s = execVrcp d a m im o k s := rfl
@[simp] theorem exec_vrsq d a m im o k s : exec (.vrsq d a m im o k) s = execVrsq d a m im o k s := rfl
@[simp] theorem exec_vcmp d a b c m im k s : exec (.vcmp d a b c m im k) s = execVcmp d a b c m im k s := rfl
@[simp] theorem exec_viadd d a b m k s : exec (.viadd d a b m k) s = execViadd d a b m k s := rfl
@[simp] theorem exec_visub d a b m k s : exec (.visub d a b m k) s = execVisub d a b m k s := rfl
@[simp] theorem exec_vimul d a b m k s : exec (.vimul d a b m k) s = execVimul d a b m k s := rfl
@[simp] theorem exec_vand d a b m k s : exec (.vand d a b m k) s = execVand d a b m k s := rfl
@[simp] theorem exec_vor d a b m k s : exec (.vor d a b m k) s = execVor d a b m k s := rfl
@[simp] theorem exec_vxor d a b m k s : exec (.vxor d a b m k) s = execVxor d a b m k s := rfl
@[simp] theorem exec_vshl d a b m k s : exec (.vshl d a b m k) s = execVshl d a b m k s := rfl
@[simp] theorem exec_vshr d a b m k s : exec (.vshr d a b m k) s = execVshr d a b m k s := rfl
@[simp] theorem exec_vsar d a b m k s : exec (.vsar d a b m k) s = execVsar d a b m k s := rfl
@[simp] theorem exec_vimin d a b m k s : exec (.vimin d a b m k) s = execVimin d a b m k s := rfl
@[simp] theorem exec_vimax d a b m k s : exec (.vimax d a b m k) s = execVimax d a b m k s := rfl
@[simp] theorem exec_vcnt d a m k s : exec (.vcnt d a m k) s = execVcnt d a m k s := rfl
@[simp] theorem exec_vsumt d a m im o k s : exec (.vsumt d a m im o k) s = execVsumt d a m im o k s := rfl
@[simp] theorem exec_vmaxt d a m im o k s : exec (.vmaxt d a m im o k) s = execVmaxt d a m im o k s := rfl
@[simp] theorem exec_vscan d a m im o k s : exec (.vscan d a m im o k) s = execVscan d a m im o k s := rfl
@[simp] theorem exec_vperm d a b m k s : exec (.vperm d a b m k) s = execVperm d a b m k s := rfl
@[simp] theorem exec_vshuf d a b m k s : exec (.vshuf d a b m k) s = execVshuf d a b m k s := rfl
@[simp] theorem exec_vbcst d a b m k s : exec (.vbcst d a b m k) s = execVbcst d a b m k s := rfl
@[simp] theorem exec_vins d a b s : exec (.vins d a b) s = execVins d a b s := rfl
@[simp] theorem exec_vext d a b s : exec (.vext d a b) s = execVext d a b s := rfl
@[simp] theorem exec_vhist d a b m s : exec (.vhist d a b m) s = execVhist d a b m s := rfl
@[simp] theorem exec_vhmrg d a b m k s : exec (.vhmrg d a b m k) s = execVhmrg d a b m k s := rfl
@[simp] theorem exec_vmsk d a b m k s : exec (.vmsk d a b m k) s = execVmsk d a b m k s := rfl
@[simp] theorem exec_vcvt d a t f r v im o k s : exec (.vcvt d a t f r v im o k) s = execVcvt d a t f r v im o k s := rfl
@[simp] theorem exec_vrndi d a t f r v im o k s : exec (.vrndi d a t f r v im o k) s = execVrndi d a t f r v im o k s := rfl
@[simp] theorem exec_vftoi d a t f r v im o k s : exec (.vftoi d a t f r v im o k) s = execVftoi d a t f r v im o k s := rfl
@[simp] theorem exec_vitof d a t f r v im o k s : exec (.vitof d a t f r v im o k) s = execVitof d a t f r v im o k s := rfl
@[simp] theorem exec_vpack d a t f r v im o k s : exec (.vpack d a t f r v im o k) s = execVpack d a t f r v im o k s := rfl
@[simp] theorem exec_vunpk d a t f r v im o k s : exec (.vunpk d a t f r v im o k) s = execVunpk d a t f r v im o k s := rfl
@[simp] theorem exec_vbfp d a b m im s : exec (.vbfp d a b m im) s = execVbfp d a b m im s := rfl
@[simp] theorem exec_vpld d a b m k s : exec (.vpld d a b m k) s = execVpld d a b m k s := rfl
@[simp] theorem exec_ldts d a b m k s : exec (.ldts d a b m k) s = execLdts d a b m k s := rfl
@[simp] theorem exec_stts d a b m k s : exec (.stts d a b m k) s = execStts d a b m k s := rfl
@[simp] theorem exec_ldtg d a b m k s : exec (.ldtg d a b m k) s = execLdtg d a b m k s := rfl
@[simp] theorem exec_sttg d a b m k s : exec (.sttg d a b m k) s = execSttg d a b m k s := rfl
@[simp] theorem exec_cfg d a b g s : exec (.cfg d a b g) s = execCfg d a b g s := rfl
@[simp] theorem exec_cfgw d g s : exec (.cfgw d g) s = execCfgw d g s := rfl
@[simp] theorem exec_pusht a b g s : exec (.pusht a b g) s = execPusht a b g s := rfl
@[simp] theorem exec_popt d a g s : exec (.popt d a g) s = execPopt d a g s := rfl
@[simp] theorem exec_drn d a b g s : exec (.drn d a b g) s = execDrn d a b g s := rfl
@[simp] theorem exec_cpy d a g s : exec (.cpy d a g) s = execCpy d a g s := rfl
@[simp] theorem exec_cpySlice d a g s : exec (.cpySlice d a g) s = execCpySlice d a g s := rfl
@[simp] theorem exec_cpyw d g s : exec (.cpyw d g) s = execCpyw d g s := rfl
@[simp] theorem exec_ocl d a g s : exec (.ocl d a g) s = execOcl d a g s := rfl
@[simp] theorem exec_orl a g s : exec (.orl a g) s = execOrl a g s := rfl
@[simp] theorem exec_old d a b g s : exec (.old d a b g) s = execOld d a b g s := rfl
@[simp] theorem exec_ost d a b g s : exec (.ost d a b g) s = execOst d a b g s := rfl
@[simp] theorem exec_hoopArrive d a b g s : exec (.hoopArrive d a b g) s = execHoopArrive d a b g s := rfl
@[simp] theorem exec_hoopArm d a b g s : exec (.hoopArm d a b g) s = execHoopArm d a b g s := rfl
@[simp] theorem exec_hoopQuery d a b g s : exec (.hoopQuery d a b g) s = execHoopQuery d a b g s := rfl
@[simp] theorem exec_pub d a g s : exec (.pub d a g) s = execPub d a g s := rfl
@[simp] theorem exec_ple d a g s : exec (.ple d a g) s = execPle d a g s := rfl
@[simp] theorem exec_mig d a g s : exec (.mig d a g) s = execMig d a g s := rfl
@[simp] theorem exec_migSp d a g s : exec (.migSp d a g) s = execMigSp d a g s := rfl
@[simp] theorem exec_hsplit d a b g s : exec (.hsplit d a b g) s = execHsplit d a b g s := rfl
@[simp] theorem exec_ptew d a b g s : exec (.ptew d a b g) s = execPtew d a b g s := rfl
@[simp] theorem exec_ptecas d a b g s : exec (.ptecas d a b g) s = execPtecas d a b g s := rfl
@[simp] theorem exec_pinv d a g s : exec (.pinv d a g) s = execPinv d a g s := rfl
@[simp] theorem exec_wardw a b g s : exec (.wardw a b g) s = execWardw a b g s := rfl
@[simp] theorem exec_cellMacf q im o f x s : exec (.cellMacf q im o f x) s = execCellMacf q im o f x s := rfl
@[simp] theorem exec_cellMacb q im o f x s : exec (.cellMacb q im o f x) s = execCellMacb q im o f x s := rfl
@[simp] theorem exec_cellMacp q im o f x s : exec (.cellMacp q im o f x) s = execCellMacp q im o f x s := rfl
@[simp] theorem exec_cellWload d a q im o x s : exec (.cellWload d a q im o x) s = execCellWload d a q im o x s := rfl
@[simp] theorem exec_cellWplt d a q im o x s : exec (.cellWplt d a q im o x) s = execCellWplt d a q im o x s := rfl
@[simp] theorem exec_cellPsum d a b q im o x s : exec (.cellPsum d a b q im o x) s = execCellPsum d a b q im o x s := rfl
@[simp] theorem exec_cellPass d a q im o x s : exec (.cellPass d a q im o x) s = execCellPass d a q im o x s := rfl
@[simp] theorem exec_cellBubl d q im o x s : exec (.cellBubl d q im o x) s = execCellBubl d q im o x s := rfl
@[simp] theorem exec_cellSelr d a b q im o x s : exec (.cellSelr d a b q im o x) s = execCellSelr d a b q im o x s := rfl
@[simp] theorem exec_cellRsum d a b q im o f x s : exec (.cellRsum d a b q im o f x) s = execCellRsum d a b q im o f x s := rfl
@[simp] theorem exec_cellRmax d a b q im o f x s : exec (.cellRmax d a b q im o f x) s = execCellRmax d a b q im o f x s := rfl
@[simp] theorem exec_cellRmin d a b q im o f x s : exec (.cellRmin d a b q im o f x) s = execCellRmin d a b q im o f x s := rfl
@[simp] theorem exec_cellRfold d a b q im o f x s : exec (.cellRfold d a b q im o f x) s = execCellRfold d a b q im o f x s := rfl
@[simp] theorem exec_cellAgen q im o sv s : exec (.cellAgen q im o sv) s = execCellAgen q im o sv s := rfl
@[simp] theorem exec_cellAreq q im o sv s : exec (.cellAreq q im o sv) s = execCellAreq q im o sv s := rfl
@[simp] theorem exec_cellAstq a q im o sv s : exec (.cellAstq a q im o sv) s = execCellAstq a q im o sv s := rfl
@[simp] theorem exec_cellAred a q im o sv s : exec (.cellAred a q im o sv) s = execCellAred a q im o sv s := rfl
@[simp] theorem exec_cellAwin d q im o w s : exec (.cellAwin d q im o w) s = execCellAwin d q im o w s := rfl
@[simp] theorem exec_cellFeedr q im o f e s : exec (.cellFeedr q im o f e) s = execCellFeedr q im o f e s := rfl
@[simp] theorem exec_cellOutr q im o e s : exec (.cellOutr q im o e) s = execCellOutr q im o e s := rfl
@[simp] theorem exec_cellVadd d a b c q im o f x s : exec (.cellVadd d a b c q im o f x) s = execCellVadd d a b c q im o f x s := rfl
@[simp] theorem exec_cellVsub d a b c q im o f x s : exec (.cellVsub d a b c q im o f x) s = execCellVsub d a b c q im o f x s := rfl
@[simp] theorem exec_cellVmul d a b c q im o f x s : exec (.cellVmul d a b c q im o f x) s = execCellVmul d a b c q im o f x s := rfl
@[simp] theorem exec_cellVfma d a b c q im o f x s : exec (.cellVfma d a b c q im o f x) s = execCellVfma d a b c q im o f x s := rfl
@[simp] theorem exec_cellVfms d a b c q im o f x s : exec (.cellVfms d a b c q im o f x) s = execCellVfms d a b c q im o f x s := rfl
@[simp] theorem exec_cellVfnma d a b c q im o f x s : exec (.cellVfnma d a b c q im o f x) s = execCellVfnma d a b c q im o f x s := rfl
@[simp] theorem exec_cellVmax d a b c q im o f x s : exec (.cellVmax d a b c q im o f x) s = execCellVmax d a b c q im o f x s := rfl
@[simp] theorem exec_cellVmin d a b c q im o f x s : exec (.cellVmin d a b c q im o f x) s = execCellVmin d a b c q im o f x s := rfl
@[simp] theorem exec_cellVabs d a b c q im o f x s : exec (.cellVabs d a b c q im o f x) s = execCellVabs d a b c q im o f x s := rfl
@[simp] theorem exec_cellVneg d a b c q im o f x s : exec (.cellVneg d a b c q im o f x) s = execCellVneg d a b c q im o f x s := rfl
@[simp] theorem exec_cellVcps d a b c q im o f x s : exec (.cellVcps d a b c q im o f x) s = execCellVcps d a b c q im o f x s := rfl
@[simp] theorem exec_cellVcmp d a b c q im o f n s : exec (.cellVcmp d a b c q im o f n) s = execCellVcmp d a b c q im o f n s := rfl
@[simp] theorem exec_cellVsel d a b c q im o f x s : exec (.cellVsel d a b c q im o f x) s = execCellVsel d a b c q im o f x s := rfl
@[simp] theorem exec_cellVcls d a b c q im o f x s : exec (.cellVcls d a b c q im o f x) s = execCellVcls d a b c q im o f x s := rfl
@[simp] theorem exec_cellVcvt d a b c q im o f x s : exec (.cellVcvt d a b c q im o f x) s = execCellVcvt d a b c q im o f x s := rfl
@[simp] theorem exec_cellVrndi d a b c q im o f x s : exec (.cellVrndi d a b c q im o f x) s = execCellVrndi d a b c q im o f x s := rfl
@[simp] theorem exec_cellVftoi d a b c q im o f x s : exec (.cellVftoi d a b c q im o f x) s = execCellVftoi d a b c q im o f x s := rfl
@[simp] theorem exec_cellVitof d a b c q im o f x s : exec (.cellVitof d a b c q im o f x) s = execCellVitof d a b c q im o f x s := rfl
@[simp] theorem exec_cellVexpf d a b c q im o f x s : exec (.cellVexpf d a b c q im o f x) s = execCellVexpf d a b c q im o f x s := rfl
@[simp] theorem exec_cellVlogf d a b c q im o f x s : exec (.cellVlogf d a b c q im o f x) s = execCellVlogf d a b c q im o f x s := rfl
@[simp] theorem exec_cellVscale d a b c q im o f x s : exec (.cellVscale d a b c q im o f x) s = execCellVscale d a b c q im o f x s := rfl
@[simp] theorem exec_cellVgetx d a b c q im o f x s : exec (.cellVgetx d a b c q im o f x) s = execCellVgetx d a b c q im o f x s := rfl
@[simp] theorem exec_cellVrcp d a b c q im o f x s : exec (.cellVrcp d a b c q im o f x) s = execCellVrcp d a b c q im o f x s := rfl
@[simp] theorem exec_cellVrsq d a b c q im o f x s : exec (.cellVrsq d a b c q im o f x) s = execCellVrsq d a b c q im o f x s := rfl
@[simp] theorem exec_cellVdot d a b c q im o f x s : exec (.cellVdot d a b c q im o f x) s = execCellVdot d a b c q im o f x s := rfl
@[simp] theorem exec_cellVsumt d a b c q im o f x s : exec (.cellVsumt d a b c q im o f x) s = execCellVsumt d a b c q im o f x s := rfl
@[simp] theorem exec_cellVmaxt d a b c q im o f x s : exec (.cellVmaxt d a b c q im o f x) s = execCellVmaxt d a b c q im o f x s := rfl
@[simp] theorem exec_cellVscan d a b c q im o f x s : exec (.cellVscan d a b c q im o f x) s = execCellVscan d a b c q im o f x s := rfl
@[simp] theorem exec_cellVperm d a b c q im o f x s : exec (.cellVperm d a b c q im o f x) s = execCellVperm d a b c q im o f x s := rfl
@[simp] theorem exec_cellVshuf d a c q im o f x s : exec (.cellVshuf d a c q im o f x) s = execCellVshuf d a c q im o f x s := rfl
@[simp] theorem exec_cellVbcst d a c q im o f x s : exec (.cellVbcst d a c q im o f x) s = execCellVbcst d a c q im o f x s := rfl
@[simp] theorem exec_cellVhist d a b c q im o f x s : exec (.cellVhist d a b c q im o f x) s = execCellVhist d a b c q im o f x s := rfl
@[simp] theorem exec_cellVhmrg d a b c q im o f x s : exec (.cellVhmrg d a b c q im o f x) s = execCellVhmrg d a b c q im o f x s := rfl
@[simp] theorem exec_cellVpack d a b c q im o f x s : exec (.cellVpack d a b c q im o f x) s = execCellVpack d a b c q im o f x s := rfl
@[simp] theorem exec_cellVunpk d a b c q im o f x s : exec (.cellVunpk d a b c q im o f x) s = execCellVunpk d a b c q im o f x s := rfl
@[simp] theorem exec_cellVbfp d a b c q im o f x s : exec (.cellVbfp d a b c q im o f x) s = execCellVbfp d a b c q im o f x s := rfl
@[simp] theorem exec_cellVpld d a q im o f x s : exec (.cellVpld d a q im o f x) s = execCellVpld d a q im o f x s := rfl
@[simp] theorem exec_cellVmsk d a b c q im o f x s : exec (.cellVmsk d a b c q im o f x) s = execCellVmsk d a b c q im o f x s := rfl
@[simp] theorem exec_cellViadd d a b c q f s : exec (.cellViadd d a b c q f) s = execCellViadd d a b c q f s := rfl
@[simp] theorem exec_cellVisub d a b c q f s : exec (.cellVisub d a b c q f) s = execCellVisub d a b c q f s := rfl
@[simp] theorem exec_cellVimul d a b c q f s : exec (.cellVimul d a b c q f) s = execCellVimul d a b c q f s := rfl
@[simp] theorem exec_cellVand d a b c q f s : exec (.cellVand d a b c q f) s = execCellVand d a b c q f s := rfl
@[simp] theorem exec_cellVor d a b c q f s : exec (.cellVor d a b c q f) s = execCellVor d a b c q f s := rfl
@[simp] theorem exec_cellVxor d a b c q f s : exec (.cellVxor d a b c q f) s = execCellVxor d a b c q f s := rfl
@[simp] theorem exec_cellVshl d a b c q f s : exec (.cellVshl d a b c q f) s = execCellVshl d a b c q f s := rfl
@[simp] theorem exec_cellVshr d a b c q f s : exec (.cellVshr d a b c q f) s = execCellVshr d a b c q f s := rfl
@[simp] theorem exec_cellVsar d a b c q f s : exec (.cellVsar d a b c q f) s = execCellVsar d a b c q f s := rfl
@[simp] theorem exec_cellVimin d a b c q f s : exec (.cellVimin d a b c q f) s = execCellVimin d a b c q f s := rfl
@[simp] theorem exec_cellVimax d a b c q f s : exec (.cellVimax d a b c q f) s = execCellVimax d a b c q f s := rfl
@[simp] theorem exec_cellVcnt d a b c q f s : exec (.cellVcnt d a b c q f) s = execCellVcnt d a b c q f s := rfl
@[simp] theorem exec_cellVimac d a b c q f s : exec (.cellVimac d a b c q f) s = execCellVimac d a b c q f s := rfl

end Sys2Proof.Laws
end

