-- ==== Sys2Proof/Laws/Retire.lean ====
section
/-! SUPPORT. What the shared course of an instruction (`seqWith`, `coreInstr` and the shapes over them) can do: retire with its
effect, retire without it where the guard is false, trap, or stall. -/

namespace Sys2Proof.Laws

open Sys2Proof.Machine

/-! ### Charging -/

theorem charge_lc (c : Core) (k : Fin 8) (m : Bool) : (c.charge k m).lc = c.lc := by
  unfold Core.charge Core.addEnergy; split <;> [rfl; (split <;> rfl)]

theorem charge_lcsAct (c : Core) (k : Fin 8) (m : Bool) : (c.charge k m).lcsAct = c.lcsAct := by
  unfold Core.charge Core.addEnergy; split <;> [rfl; (split <;> rfl)]

theorem charge_retiredAs (c x : Core) (k : Fin 8) (m : Bool) : (c.charge k m).retiredAs x = c.retiredAs x := by
  unfold Core.charge Core.addEnergy; split <;> [rfl; (split <;> rfl)]

/-- R357, R359: what a charge adds. -/
theorem charge_energy (c x : Core) (he : x.energy = c.energy) (hw : x.ew = c.ew) (k : Fin 8) :
    (x.charge k c.mode).energy.toNat = energyAfter c k := by
  unfold Core.charge energyAfter Core.addEnergy
  rw [hw, he]
  split
  · rw [he]
  · split
    · simp; omega
    · have := c.energy.isLt
      simp; omega

/-! ### Retirement -/

/-- What a late result leaves in the core besides itself. -/
theorem noteLate_retiredAs (c x : Core) (w : Word) : (c.noteLate w).retiredAs x = c.retiredAs x := rfl

/-- A late result noted after a retirement changes nothing that the retirement's effect speaks of. -/
theorem lateIn_effectAt {k : Fin 8} {r : Nat × Core} {f : Core → Core} {s t : State} (w : Word) (h : CoreEffectAt k r f s t) :
    CoreEffectAt k r f s (lateIn w t) := by
  obtain ⟨⟨h1, h2, h3, h4, h5⟩, h6, h7⟩ := h
  exact ⟨⟨h1, h2, h3, h4, h5⟩, by rw [OnlyCore] at h6 ⊢; rw [h6]; rfl, by rw [← h7]; rfl⟩

/-- Retirement with an effect on the core alone, at a given next address and loop state. -/
theorem retireTo_effectAt (k : Fin 8) (r : Nat × Core) (s : State) (f : Core → Core)
    (hf : (f s.tile.core).retiredAs s.tile.core = f s.tile.core) (hw : (f s.tile.core).ew = s.tile.core.ew) :
    CoreEffectAt k r f s (retireTo s (s.setCore (f s.tile.core)) k r) := by
  have he : (f s.tile.core).energy = s.tile.core.energy := by rw [← hf]; rfl
  refine ⟨⟨rfl, charge_lc .., charge_lcsAct .., ?_, rfl⟩, rfl, ?_⟩
  · exact charge_energy s.tile.core ((f s.tile.core).withLoops r.2) he hw _
  · have h : (((f s.tile.core).withLoops r.2).charge k s.tile.core.mode).retiredAs s.tile.core =
        f s.tile.core := by rw [charge_retiredAs]; exact hf
    exact h

/-- The same with the loop end of the pc. -/
theorem retireTo_effect (k : Fin 8) (s : State) (f : Core → Core)
    (hf : (f s.tile.core).retiredAs s.tile.core = f s.tile.core) (hw : (f s.tile.core).ew = s.tile.core.ew) :
    CoreEffect k f s (retireTo s (s.setCore (f s.tile.core)) k (nextOf s)) := retireTo_effectAt k (nextOf s) s f hf hw

/-- A sequential instruction whose guard holds and whose effect is done retires with it. -/
theorem seqInstr_done (k : Fin 8) (w : Word) (body : State → Act) (s s' : State) (hc : CanRetire s)
    (hb : body s = .done s') : seqInstr k w true body s = .next (lateIn w (retireTo s s' k (nextOf s))) := by
  unfold seqInstr seqWith
  simp only [CanRetire, nextOf] at hc
  simp [hc, hb, nextOf]

/-- R21: a sequential instruction whose guard is false retires without an effect. -/
theorem seqInstr_skip (k : Fin 8) (w : Word) (body : State → Act) (s : State) (hc : CanRetire s) :
    seqInstr k w false body s = .next (retireTo s s k (nextOf s)) := by
  unfold seqInstr seqWith
  simp only [CanRetire, nextOf] at hc
  simp [hc, nextOf]

/-- R23: at word 1,023 a sequential instruction traps BADTGT. -/
theorem seqInstr_last (k : Fin 8) (w : Word) (g : Bool) (body : State → Act) (s : State) (hc : ¬ CanRetire s) :
    seqInstr k w g body s = .next (trapAt s causeBadTgt 1024 w) := by
  unfold seqInstr seqWith
  simp only [CanRetire, nextOf, Decidable.not_not] at hc
  simp [hc]

/-- R107: a sequential instruction whose effect is a trap. -/
theorem seqInstr_trap (k : Fin 8) (w : Word) (body : State → Act) (s : State) (hc : CanRetire s) (cause : BitVec 8)
    (detail : BitVec 64) (hb : body s = .trap cause detail) :
    seqInstr k w true body s = .next (trapAt s cause detail w) := by
  unfold seqInstr seqWith
  simp only [CanRetire, nextOf] at hc
  simp [hc, hb]

/-- R170: a sequential instruction that waits. -/
theorem seqInstr_stall (k : Fin 8) (w : Word) (body : State → Act) (s s' : State) (hc : CanRetire s) (st : Stall)
    (hb : body s = .stall st s') : seqInstr k w true body s = .next (stallCore st w s') := by
  unfold seqInstr seqWith
  simp only [CanRetire, nextOf] at hc
  simp [hc, hb]

/-- An instruction that only changes its core. -/
theorem coreInstr_effect (k : Fin 8) (w : Word) (g : Bool) (f : Core → Core) (s : State) (hc : CanRetire s) (hg : g = true)
    (hf : (f s.tile.core).retiredAs s.tile.core = f s.tile.core) (hw : (f s.tile.core).ew = s.tile.core.ew) :
    ∃ t, coreInstr k w g f s = .next t ∧ CoreEffect k f s t := by
  subst hg
  exact ⟨_, seqInstr_done k w _ s _ hc rfl, lateIn_effectAt w (retireTo_effect k s f hf hw)⟩

/-! ### Register writes -/

theorem setS_retiredAs (c : Core) (d : BitVec 5) (v : BitVec 64) : (c.setS d v).retiredAs c = c.setS d v := by
  unfold Core.setS; split <;> rfl

theorem setP_retiredAs (c : Core) (d : BitVec 3) (v : Bool) : (c.setP d v).retiredAs c = c.setP d v := by
  unfold Core.setP; split <;> rfl

/-! ### Shapes of the scalar instructions -/

/-- What `scalar2` does where its guard holds: `v` is the value as the spec states it. -/
theorem scalar2_effect (w : Word) (f : BitVec 64 → BitVec 64 → BitVec 64) (d a b : BitVec 5) (g : BitVec 4) (s : State)
    (v : Core → BitVec 64) (hv : f (s.tile.core.s a) (s.tile.core.s b) = v s.tile.core) (hc : CanRetire s)
    (hg : s.tile.core.guard g = true) :
    ∃ t, scalar2 w f d a b g s = .next t ∧ CoreEffect 0 (fun c => c.setS d (v c)) s t := by
  obtain ⟨t, h, e1, e2, e3⟩ := coreInstr_effect 0 w _ (fun c => c.setS d (f (c.s a) (c.s b))) s hc hg (setS_retiredAs ..) (setS_ew ..)
  exact ⟨t, h, e1, e2, by rw [e3]; simp only [hv]⟩

/-- The same of `scalar1`. -/
theorem scalar1_effect (w : Word) (f : BitVec 64 → BitVec 64) (d a : BitVec 5) (g : BitVec 4) (s : State)
    (v : Core → BitVec 64) (hv : f (s.tile.core.s a) = v s.tile.core) (hc : CanRetire s)
    (hg : s.tile.core.guard g = true) :
    ∃ t, scalar1 w f d a g s = .next t ∧ CoreEffect 0 (fun c => c.setS d (v c)) s t := by
  obtain ⟨t, h, e1, e2, e3⟩ := coreInstr_effect 0 w _ (fun c => c.setS d (f (c.s a))) s hc hg (setS_retiredAs ..) (setS_ew ..)
  exact ⟨t, h, e1, e2, by rw [e3]; simp only [hv]⟩

/-- The same of an instruction that writes one scalar register. -/
theorem setS_effect (k : Fin 8) (w : Word) (gd : Bool) (d : BitVec 5) (f : Core → BitVec 64) (s : State)
    (v : Core → BitVec 64) (hv : f s.tile.core = v s.tile.core) (hc : CanRetire s) (hg : gd = true) :
    ∃ t, coreInstr k w gd (fun c => c.setS d (f c)) s = .next t ∧ CoreEffect k (fun c => c.setS d (v c)) s t := by
  obtain ⟨t, h, e1, e2, e3⟩ := coreInstr_effect k w _ (fun c => c.setS d (f c)) s hc hg (setS_retiredAs ..) (setS_ew ..)
  exact ⟨t, h, e1, e2, by rw [e3]; simp only [hv]⟩

/-- The same of an instruction that writes one predicate register. -/
theorem predInstr_effect (w : Word) (gd : Bool) (f : Core → Bool) (d : BitVec 3) (s : State) (v : Core → Bool)
    (hv : f s.tile.core = v s.tile.core) (hc : CanRetire s) (hg : gd = true) :
    ∃ t, predInstr w gd f d s = .next t ∧ CoreEffect 0 (fun c => c.setP d (v c)) s t := by
  obtain ⟨t, h, e1, e2, e3⟩ := coreInstr_effect 0 w _ (fun c => c.setP d (f c)) s hc hg (setP_retiredAs ..) (setP_ew ..)
  exact ⟨t, h, e1, e2, by rw [e3]; simp only [hv]⟩

/-! ### Traps, transfers and token instructions -/

/-- R107: a trap of a core whose handler is ready enters the handler. -/
theorem trapAt_with (s : State) (c : BitVec 8) (d : BitVec 64) (w : Word) (h : HandlerReady s.tile.core) :
    TrapsWith c d w s (trapAt s c d w) := by
  obtain ⟨h1, h2⟩ := h
  unfold TrapsWith trapAt enterTrap
  simp only [h1, h2, trapped]
  rfl

/-- R91: a transfer whose target lies in the code store. -/
theorem transfer_effect (w : Word) (x : Int) (l : BitVec 5) (s : State) (h0 : 0 ≤ x) (h1 : x ≤ 1023) :
    ∃ t, transfer w x l s = .next t ∧
      CoreEffectAt 1 (x.toNat, s.tile.core) (fun c => c.setS l (BitVec.ofNat 64 (c.pc.toNat + 1))) s t := by
  unfold transfer
  rw [if_pos (by simp [inStore, h0, h1])]
  refine ⟨_, rfl, ⟨?_, ?_, ?_, ?_, rfl⟩, rfl, ?_⟩
  · show BitVec.ofInt 10 x = _
    obtain ⟨n, rfl⟩ := Int.eq_ofNat_of_zero_le h0
    simp [BitVec.ofInt_natCast]
  · show (Core.charge _ _ _).lc = _
    rw [charge_lc]; exact setS_lc ..
  · show (Core.charge _ _ _).lcsAct = _
    rw [charge_lcsAct]; exact setS_lcsAct ..
  · exact charge_energy s.tile.core (s.tile.core.setS l _) (setS_energy ..) (setS_ew ..) 1
  · show (Core.charge _ _ _).retiredAs _ = _
    rw [charge_retiredAs]; exact setS_retiredAs ..

/-- R92: a transfer whose target lies outside the code store. -/
theorem transfer_trap (w : Word) (x : Int) (l : BitVec 5) (s : State) (h : x < 0 ∨ 1023 < x) :
    transfer w x l s = .next (trapAt s causeBadTgt (detailInt x) w) := by
  unfold transfer
  rw [if_neg (by simp [inStore]; omega)]

/-- A token instruction retires with its result in td, its generators and its flags. -/
theorem tokInstr_effect (k : Fin 8) (w : Word) (d : BitVec 5) (op : Core → TokOut) (s : State) (hc : CanRetire s) :
    ∃ t, tokInstr k w d op s = .next t ∧
      CoreEffect k (fun c => { c.setT d (op c).tok with rnd := (op c).gens, fstat := c.fstat ||| (op c).flags }) s t := by
  unfold tokInstr
  exact coreInstr_effect k w _ _ s hc rfl rfl rfl

end Sys2Proof.Laws
end

