-- ==== Sys2Proof/Tests/Slice0.lean ====
section
/-! SUPPORT. Tests: ill-formed terms that WellFormed refuses, words written out from the spec's encodings, single steps on small
states, and for every statement with hypotheses a state and operands that meet them together. -/

namespace Sys2Proof.Tests

open Sys2Proof Sys2Proof.Machine

set_option Elab.async false

/-! ### Ill-formed terms -/

/-- R23: BR without a guard is JMP's place. -/
theorem ill_br : (Instr.br 0 5).wellFormed = false := by decide
theorem ill_loop_level : (Instr.loopImm 3 1 0).wellFormed = false := by decide
theorem ill_loop_count : (Instr.loopImm 0 0 0).wellFormed = false := by decide
theorem ill_loop_reg : (Instr.loopReg 3 1 0).wellFormed = false := by decide
theorem ill_cmp : (Instr.cmp 1 2 3 0 12).wellFormed = false := by decide
theorem ill_cmpi : (Instr.cmpi 1 2 12 0).wellFormed = false := by decide
theorem ill_lbrk : (Instr.lbrk 3 0).wellFormed = false := by decide
/-- R26: a reduction is plain or release. -/
theorem ill_redt : (Instr.redtAdd 1 2 0 1).wellFormed = false := by decide
/-- R129: a conversion between two BFP tags of one width has no pair. -/
theorem ill_vcvt_pair : (Instr.vcvt 1 2 0 0 0 0 0 0 0).wellFormed = false := by decide
theorem ill_vcvt_rounding : (Instr.vcvt 1 2 1 0 7 0 0 0 0).wellFormed = false := by decide
theorem ill_vrndi : (Instr.vrndi 1 2 5 5 0 0 0 0 0).wellFormed = false := by decide
theorem ill_vftoi : (Instr.vftoi 1 2 0 0 0 0 0 0 0).wellFormed = false := by decide
theorem ill_vitof : (Instr.vitof 1 2 9 9 0 0 0 0 0).wellFormed = false := by decide
theorem ill_vpack : (Instr.vpack 1 2 0 0 0 0 0 0 0).wellFormed = false := by decide
theorem ill_vunpk_same : (Instr.vunpk 1 1 0 1 0 0 0 0 1).wellFormed = false := by decide
theorem ill_vhmrg : (Instr.vhmrg 1 4 3 0 0).wellFormed = false := by decide
theorem ill_vhmrg_range : (Instr.vhmrg 1 4 20 0 0).wellFormed = false := by decide
theorem ill_vbfp : (Instr.vbfp 1 2 2 0 0).wellFormed = false := by decide
theorem ill_fence : (Instr.fence 0 0 6).wellFormed = false := by decide
theorem ill_tgt : (Instr.tgt 768 0 0).wellFormed = false := by decide
theorem ill_tgtr : (Instr.tgtr 0 40 0 4 0).wellFormed = false := by decide
theorem ill_img : (Instr.img 0 5).wellFormed = false := by decide
theorem ill_img_end : (Instr.img 2 1023).wellFormed = false := by decide
theorem ill_cell_guard : (Instr.cellPass 0 0 7 0 0 0).wellFormed = false := by decide
theorem ill_cell_format : (Instr.cellMacf 0 0 0 5 0).wellFormed = false := by decide
theorem ill_cell_index : (Instr.cellPass 0 0 0 0 0 1).wellFormed = false := by decide
theorem ill_cell_source : (Instr.cellPsum 0 6 0 0 0 0 0).wellFormed = false := by decide
theorem ill_cell_bins : (Instr.cellVhmrg 0 2 1 0 0 0 0 0 0).wellFormed = false := by decide
theorem ill_cell_flush : (Instr.cellAgen 0 1 0 0).wellFormed = false := by decide

/-! ### Words written out from the encodings -/

theorem word_04a63d80_add : decodeRim 0x04A63D80 = .ok (.add 5 6 7 0b1011) := by decide
theorem word_08210001_addi : decodeRim 0x08210001 = .ok (.addi 1 1 0 1) := by decide
theorem word_49090006_ldw : decodeRim 0x49090006 = .ok (.ldw 8 9 0 6) := by decide
theorem word_54640ffe_std : decodeRim 0x54640FFE = .ok (.std 3 4 0 0x3FE) := by decide
theorem word_6abfffed_br : decodeRim 0x6ABFFFED = .ok (.br 0b1010 0x3FFFED) := by decide
theorem word_700640b0_loopImm : decodeRim 0x700640B0 = .ok (.loopImm 0 100 11) := by decide
theorem word_70003020_loopImm : decodeRim 0x70003020 = .ok (.loopImm 0 3 2) := by decide
theorem word_71002010_loopImm : decodeRim 0x71002010 = .ok (.loopImm 1 2 1) := by decide
theorem word_7cc00046_fence : decodeRim 0x7CC00046 = .ok (.fence 6 0 4) := by decide
theorem word_7c850028_msg : decodeRim 0x7C850028 = .ok (.msg 4 5 2) := by decide
theorem word_808110d4_vfma : decodeRim 0x808110D4 = .ok (.vfma 4 1 2 3 2 1 0 0) := by decide
theorem word_a0c53000_vcvt : decodeRim 0xA0C53000 = .ok (.vcvt 6 5 3 0 0 0 0 0 0) := by decide
theorem word_a4200000_vrndi : decodeRim 0xA4200000 = .ok (.vrndi 1 0 0 0 0 0 0 0 0) := by decide
theorem word_a8209000_vftoi : decodeRim 0xA8209000 = .ok (.vftoi 1 0 9 0 0 0 0 0 0) := by decide
theorem word_94410280_vexpf : decodeRim 0x94410280 = .ok (.vexpf 2 1 0 0 0 0) := by decide
theorem word_94a43302_vscale : decodeRim 0x94A43302 = .ok (.vscale 5 4 6 0 0 1 0) := by decide
theorem word_b1033001_vpack : decodeRim 0xB1033001 = .ok (.vpack 8 3 3 0 0 0 0 0 1) := by decide
theorem word_9c045a40_vhmrg : decodeRim 0x9C045A40 = .ok (.vhmrg 0 4 11 0 0) := by decide
theorem word_9c670000_vsumt : decodeRim 0x9C670000 = .ok (.vsumt 3 7 0 0 0 0) := by decide
theorem word_b9221840_vpld : decodeRim 0xB9221840 = .ok (.vpld 9 2 3 0 0) := by decide
theorem word_c0642800_cfg : decodeRim 0xC0642800 = .ok (.cfg 3 4 5 0) := by decide
theorem word_c0600001_cfgw : decodeRim 0xC0600001 = .ok (.cfgw 3 0) := by decide
theorem word_c4053000_pusht : decodeRim 0xC4053000 = .ok (.pusht 5 6 0) := by decide
theorem word_c4e50001_popt : decodeRim 0xC4E50001 = .ok (.popt 7 5 0) := by decide
theorem word_c5095002_drn : decodeRim 0xC5095002 = .ok (.drn 8 9 10 0) := by decide
theorem word_c8640000_cpy : decodeRim 0xC8640000 = .ok (.cpy 3 4 0) := by decide
theorem word_c8640100_cpy : decodeRim 0xC8640100 = .ok (.cpy 3 4 2) := by decide
theorem word_c8600001_cpyw : decodeRim 0xC8600001 = .ok (.cpyw 3 0) := by decide
theorem word_cc640000_ocl : decodeRim 0xCC640000 = .ok (.ocl 3 4 0) := by decide
theorem word_cc040001_orl : decodeRim 0xCC040001 = .ok (.orl 4 0) := by decide
theorem word_cc221802_old : decodeRim 0xCC221802 = .ok (.old 1 2 3 0) := by decide
theorem word_cc221803_ost : decodeRim 0xCC221803 = .ok (.ost 1 2 3 0) := by decide
theorem word_d0642800_hoopArrive : decodeRim 0xD0642800 = .ok (.hoopArrive 3 4 5 0) := by decide
theorem word_d0640001_pub : decodeRim 0xD0640001 = .ok (.pub 3 4 0) := by decide
theorem word_d4640000_ple : decodeRim 0xD4640000 = .ok (.ple 3 4 0) := by decide
theorem word_d4640002_migSp : decodeRim 0xD4640002 = .ok (.migSp 3 4 0) := by decide
theorem word_d4642803_hsplit : decodeRim 0xD4642803 = .ok (.hsplit 3 4 5 0) := by decide
theorem word_d8642801_ptecas : decodeRim 0xD8642801 = .ok (.ptecas 3 4 5 0) := by decide
theorem word_d8640002_pinv : decodeRim 0xD8640002 = .ok (.pinv 3 4 0) := by decide
theorem word_dc042800_wardw : decodeRim 0xDC042800 = .ok (.wardw 4 5 0) := by decide
theorem word_00000000_nopc : decodeCword 0x00000000 = .ok (.nopc) := by decide
theorem word_1000a400_tgt : decodeCword 0x1000A400 = .ok (.tgt 0 164 0) := by decide
theorem word_20081700_ext : decodeCword 0x20081700 = .ok (.ext 2 23) := by decide
theorem word_300a0000_tgtr : decodeCword 0x300A0000 = .ok (.tgtr 0 10 0 0 0) := by decide
theorem word_80020000_img : decodeCword 0x80020000 = .ok (.img 2 0) := by decide
theorem word_a00023d9_sealWord : decodeCword 0xA00023D9 = .ok (.sealWord 0x23D9) := by decide
theorem word_b0000000_clrt : decodeCword 0xB0000000 = .ok (.clrt) := by decide
theorem word_06dd0060_cellMacf : decodeCell 0x06DD0060 = .ok (.cellMacf 0 0 0 3 0) := by decide

/-- R24: the all-zero rim word is illegal. -/
theorem word_rim_zero : decodeRim 0 = .error (.illegalRim 0) := by decide
/-- R12: a reserved bit that is set makes a C-word illegal. -/
theorem word_cword_reserved : decodeCword 0xB0000001 = .error (.badWord 0xB0000001) := by decide
/-- R36: an operation that R38 does not list is a bad row. -/
theorem word_cell_reserved : decodeCell 0 = .error (.badRow 0) := by decide

/-! ### States for the witnesses -/

/-- A core that runs in user mode, with a handler at word 100 and 2 in s1, 5 in s2, 0x10040 in s3, and the address of a page without
a ward in s4. -/
def core1 : Core := { Core.reset 0 0 with
  run := .running, ctx := 7, tvecValid := true, tvecEntry := 100
  sregs := #v[0, 2, 5, 0x10040, 0xF0000, 0, 0, 0, 0, 0, 0, 0, 0, 0, 0, 0, 0, 0, 0, 0, 0, 0, 0, 0, 0, 0, 0, 0, 0, 0, 0, 0]
  wards := #v[⟨true, true, true, true, 3, 1, 4, 1, 0, false⟩, ⟨true, true, false, false, 3, 8, 9, 1, 0, false⟩, Ward.reset, Ward.reset,
    Ward.reset, Ward.reset, Ward.reset, Ward.reset] }

/-- An entry of the page table: frame 5, attribute 1, readable and writable. -/
def pte5 : BitVec 128 := 0x500000027

/-- That core, pages 1 and 2 mapped to frames 5 and 6, and a few bytes in frame 5. -/
def st1 : State := { State.reset with
  tile := { Tile.reset 0 with core := core1, code := [(0, 0x04A63D80), (1, 0x49090006)] }
  ptes := [(1, 0x5000000027), (2, 0x6000000027)]
  mem := [(5 * 65536 + 0x40, 0x11), (5 * 65536 + 0x41, 0x22), (5 * 65536 + 0x47, 0x80)] }

/-- The same with a change of the core. -/
def with1 (f : Core → Core) : State := st1.setCore (f core1)

/-- The same in supervisor mode. -/
def sup1 : State := with1 fun c => { c with mode := true }

theorem retires {s : State} (h : (nextOf s).1 ≠ 1024 := by decide) : CanRetire s := h
theorem notRetires {s : State} (h : (nextOf s).1 = 1024 := by decide) : ¬ CanRetire s := fun x => x h
theorem ready {c : Core} (h : c.mode = false ∧ c.tvecValid = true := by decide) : HandlerReady c := h
theorem fits {c : Core} {l n : Nat} (h : ∀ k : Fin 3, c.lcsAct.getLsbD k = true →
    k.val < l ∧ (c.lcsStart.get k).toNat ≤ c.pc.toNat ∧ n ≤ (c.lcsEnd.get k).toNat := by decide) : LoopFits c l n := h
theorem endsFence {c : Core} {nw : Bool} {sc : BitVec 3} (h : c.sent = [] ∧ c.aloft = [] := by decide)
    (h2 : nw = true ∨ c.creel = [] := by decide) (h3 : c.owedLines = [] ∧ c.owedRemote = [] := by decide) : MayEndFence c nw sc :=
  ⟨by simp [h.1], by simp [h.2], fun hn => by rcases h2 with h2 | h2 <;> simp_all, fun _ => ⟨h3.1, by simp [h3.2]⟩⟩

/-! ### Witnesses: a step, scalar instructions, registers -/

theorem witness_StepRunsEvent : ({ st1 with agenda := [.powerUp, .thermalClear] } : State).agenda = .powerUp :: [.thermalClear] := rfl

theorem witness_StepRunsWords_rim : let s : State := { st1 with turns := [.rim 0, .tick] }
    s.agenda = [] ∧ s.island.st = .serve ∧ s.mgmt.thermal = false ∧ s.turns = .rim 0 :: [.tick] ∧
    (s.focusTile 0).tile.core.stall = .none ∧ (s.focusTile 0).tile.core.run = .running ∧
    (s.focusTile 0).mayIssue 0 = true ∧ (s.focusTile 0).tile.core.pendPreempt = false ∧
    (s.focusTile 0).tile.core.pendMgmt = false ∧
    (∀ x ∈ (s.focusTile 0).tile.core.cmds, (s.focusTile 0).cmdReady 0 x = false) ∧
    (s.focusTile 0).tile.core.fetchesSuper = false ∧
    (s.focusTile 0).tile.fetchWord (s.focusTile 0).tile.core.pc = (0x04A63D80, .clean) ∧ CodeMark.clean ≠ .uncorrectable ∧
    decodeRim 0x04A63D80 = .ok (.add 5 6 7 0b1011) := by decide

/-- A word that has been fetched and could not issue. -/
theorem witness_StepRunsWords_again : let h : Held := ⟨0x04A63D80, core1.sregs⟩
    let s : State := { with1 fun c => { c with stall := .again, held := some h } with turns := [.rim 0, .tick] }
    let u := s.focusTile 0
    s.agenda = [] ∧ s.turns = .rim 0 :: [.tick] ∧ u.tile.core.stall = .again ∧ u.tile.core.held = some h ∧ u.tile.core.run = .running ∧
    u.mayIssue 0 = true ∧ u.tile.core.pendPreempt = false ∧ u.tile.core.pendMgmt = false ∧
    (∀ x ∈ u.tile.core.cmds, u.cmdReady 0 x = false) ∧ decodeRim h.word = .ok (.add 5 6 7 0b1011) := by decide

theorem witness_ScalarResults : scalarSpec (.add 5 1 2 0) = some (5, 0, fun c => c.s 1 + c.s 2) ∧ CanRetire st1 ∧
    st1.tile.core.guard 0 = true := ⟨rfl, retires, by decide⟩

/-- The last word from which an instruction retires. -/
theorem witness_ScalarResults_last : CanRetire (with1 fun c => { c with pc := 1022 }) := retires

theorem witness_PredicateResults : predSpec (.plogNot 1 2 0) = some (1, 0, fun c => !c.p 2) ∧ CanRetire st1 ∧
    st1.tile.core.guard 0 = true := ⟨rfl, retires, by decide⟩

theorem witness_GuardsAndLastWord_false : guardSpec (.add 5 1 2 8) = some (0, 8) ∧ CanRetire st1 ∧ st1.tile.core.guard 8 = false := ⟨rfl, retires, by decide⟩

theorem witness_GuardsAndLastWord_last : let s := with1 fun c => { c with pc := 1023 }
    guardSpec (.add 5 1 2 8) = some (0, 8) ∧ ((scalarSpec (.add 5 1 2 8)).isSome = true ∨ (predSpec (.add 5 1 2 8)).isSome = true) ∧
    ¬ CanRetire s ∧ HandlerReady s.tile.core := ⟨rfl, by decide, notRetires, ready⟩

/-! ### Witnesses: transfers and loops -/

theorem witness_Transfers_taken : transferSpec (.jmp 1023) = some (0, 0, fun c => c.pc.toNat + (1023 : BitVec 26).toInt) ∧
    st1.tile.core.guard 0 = true ∧ (0 : Int) ≤ st1.tile.core.pc.toNat + (1023 : BitVec 26).toInt ∧
    st1.tile.core.pc.toNat + (1023 : BitVec 26).toInt ≤ 1023 := ⟨rfl, by decide, by decide, by decide⟩

theorem witness_Transfers_first : let s := with1 fun c => { c with pc := 5 }
    (0 : Int) ≤ s.tile.core.pc.toNat + (-5 : BitVec 26).toInt ∧ s.tile.core.pc.toNat + (-5 : BitVec 26).toInt ≤ 1023 := by decide

theorem witness_Transfers_trap : transferSpec (.jmp (-1)) = some (0, 0, fun c => c.pc.toNat + (-1 : BitVec 26).toInt) ∧
    st1.tile.core.guard 0 = true ∧ st1.tile.core.pc.toNat + (-1 : BitVec 26).toInt < 0 ∧ HandlerReady st1.tile.core := ⟨rfl, by decide, by decide, ready⟩

theorem witness_Transfers_trap_above : 1023 < st1.tile.core.pc.toNat + (1024 : BitVec 26).toInt := by decide

/-- R93: an outer loop over words 0 to 9, so that a LOOP at level 1 fits up to word 9. -/
def loop1 : State := with1 fun c => { c with
  pc := 3, lcsAct := 1, lc := #v[4, 0, 0], lcsStart := #v[0, 0, 0], lcsEnd := #v[9, 0, 0] }

theorem witness_Loops_start : loopSpec (.loopImm 1 2 5) = some (1, fun _ => 2, 6) ∧ (1 : BitVec 2).toNat = (1 : Fin 3).val ∧
    loop1.tile.core.pc.toNat + 6 ≤ 1023 ∧ 2 ≤ 0xFFFFFFFF ∧ LoopFits loop1.tile.core 1 (loop1.tile.core.pc.toNat + 6) ∧
    2 ≠ 0 := ⟨rfl, rfl, by decide, by decide, fits, by decide⟩

theorem witness_Loops_skip : loopSpec (.loopReg 1 5 5) = some (1, fun c => (c.s 5).toNat, 6) ∧ (loop1.tile.core.s 5).toNat = 0 ∧
    LoopFits loop1.tile.core 1 (loop1.tile.core.pc.toNat + 6) ∧ (loop1.tile.core.loopEnd (loop1.tile.core.pc.toNat + 6)).1 ≠ 1024 := ⟨rfl, by decide, fits, by decide⟩

theorem witness_Loops_far : let s := with1 fun c => { c with pc := 1020 }
    HandlerReady s.tile.core ∧ loopSpec (.loopImm 0 2 3) = some (0, fun _ => 2, 4) ∧ 1023 < s.tile.core.pc.toNat + 4 := ⟨ready, rfl, by decide⟩

theorem witness_Loops_edge : let s := with1 fun c => { c with pc := 1020 }
    loopSpec (.loopImm 0 2 2) = some (0, fun _ => 2, 3) ∧ s.tile.core.pc.toNat + 3 ≤ 1023 ∧ LoopFits s.tile.core 0 1023 := ⟨rfl, by decide, fits⟩

theorem witness_Loops_count : let s := with1 fun c => c.setS 5 0x100000000
    HandlerReady s.tile.core ∧ loopSpec (.loopReg 1 5 5) = some (1, fun c => (c.s 5).toNat, 6) ∧ s.tile.core.pc.toNat + 6 ≤ 1023 ∧
    0xFFFFFFFF < (s.tile.core.s 5).toNat := ⟨ready, rfl, by decide, by decide⟩

theorem witness_Loops_unfit : HandlerReady loop1.tile.core ∧ loopSpec (.loopImm 1 2 6) = some (1, fun _ => 2, 7) ∧
    loop1.tile.core.pc.toNat + 7 ≤ 1023 ∧ ¬ LoopFits loop1.tile.core 1 (loop1.tile.core.pc.toNat + 7) := ⟨ready, rfl, by decide, fun h => absurd (h 0) (by decide)⟩

theorem witness_Loops_break : let c := { loop1.tile.core with lc := #v[0, 0, 0], lcsAct := 0 }
    loop1.tile.core.guard 0 = true ∧ c = { loop1.tile.core with lc := c.lc, lcsAct := c.lcsAct } ∧
    (∀ k : Fin 3, c.lc.get k = if (0 : BitVec 5).toNat ≤ k.val then 0 else loop1.tile.core.lc.get k) ∧
    (∀ k : Fin 3, c.lcsAct.getLsbD k = (decide (k.val < (0 : BitVec 5).toNat) && loop1.tile.core.lcsAct.getLsbD k)) ∧
    (c.loopEnd c.pc.toNat).1 ≠ 1024 := ⟨by decide, rfl, by decide, by decide, by decide⟩

/-- Two loops that end at word 9: the inner one branches while its counter is above 1. -/
def loop2 : Core := { core1 with lcsAct := 3, lc := #v[4, 2, 0], lcsStart := #v[0, 5, 0], lcsEnd := #v[9, 9, 0] }

theorem witness_LoopEndRule : loop2.le = true ∧ (loop2.lcsAct.getLsbD 1 && (loop2.lcsEnd.get 1).toNat == 9) = true ∧
    1 < (loop2.lc.get 1).toNat ∧ loop2.lcsAct.getLsbD 2 = false := by decide

/-- Both ends are passed, the outer loop's last: neither branches. -/
theorem witness_LoopEndRule_through : let c := { loop2 with lc := #v[1, 1, 0] }
    (c.lcsAct.getLsbD 0 && (c.lcsEnd.get 0).toNat == 9) = true ∧ ¬ 1 < (c.lc.get 0).toNat ∧ ¬ 1 < (c.lc.get 1).toNat := by decide

theorem witness_LoopEndRule_off : ({ loop2 with le := false } : Core).le = false := rfl

/-! ### Witnesses: waits and special registers -/

/-- A status command outstanding on s5. -/
def cmd5 : Cmd := ⟨0, .cpy, 5, 0, 0, 7, true, Ward.reset, 0, .started, none, none⟩

theorem witness_WaitsAndHalts_wait : CanRetire st1 ∧ st1.tile.core.guard 0 = true ∧ MayEndWait st1.tile.core 27 :=
  ⟨retires, by decide, .inr (by decide), .inl (by decide)⟩

theorem witness_WaitsAndHalts_mail : MayEndWait { core1 with mailFull := 1 } 28 := ⟨.inr (by decide), .inr (by decide)⟩

theorem witness_WaitsAndHalts_stays : let s := with1 fun c => { c with cmds := [cmd5] }
    CanRetire s ∧ s.tile.core.guard 0 = true ∧ ¬ MayEndWait s.tile.core 5 := by
  refine ⟨retires, by decide, ?_⟩
  rintro ⟨h | h, -⟩
  · exact absurd h (by decide)
  · exact h cmd5 (.head _) rfl

theorem witness_WaitsAndHalts_release : let s := with1 fun c => { c with stall := .wait 31, mailFull := 8 }
    (s.focusTile 0).tile.core.stall = .wait 31 ∧ MayEndWait (s.focusTile 0).tile.core 31 :=
  ⟨rfl, .inr (by decide), .inr (by decide)⟩

theorem witness_WaitsAndHalts_halt : st1.tile.core.guard 0 = true ∧ MayEndHalt st1.tile.core :=
  ⟨by decide, endsFence, by decide⟩

theorem witness_WaitsAndHalts_halt_waits : let s := with1 fun c => { c with cmds := [cmd5] }
    s.tile.core.guard 0 = true ∧ ¬ MayEndHalt s.tile.core :=
  ⟨by decide, fun h => absurd (h.2 cmd5 (.head _)) (by decide)⟩

theorem witness_WaitsAndHalts_halt_ends : let s := with1 fun c => { c with stall := .halt }
    (s.focusTile 0).tile.core.stall = .halt ∧ MayEndHalt (s.focusTile 0).tile.core :=
  ⟨rfl, endsFence, by decide⟩

/-- A creel entry of the resident context for page 3, of scope `sc`. -/
def entry3 (sc : BitVec 3) : CreelEntry :=
  ⟨0x30000, 0, sc, 1, false, .pending, 0xFF, 7, 0, 0, 0x1234, none, none, none, none⟩

theorem witness_FenceRetires_left : let left := fun (c : Core) => c.creel.any fun e => e.ctx == c.ctx && decide (e.scope.toNat ≤ 4)
    (∀ c : Core, left c = true ↔ (1 : BitVec 1) = 1 ∧ ∃ e ∈ c.creel, e.ctx = c.ctx ∧ InScope e.scope 4) ∧
    CanRetire (with1 fun c => { c with creel := [entry3 4] }) ∧
    MayEndFence ({ core1 with creel := [entry3 4] } : Core) true 4 ∧ left { core1 with creel := [entry3 4] } = true := by
  refine ⟨fun c => ?_, retires, endsFence, by decide⟩
  simp only [List.any_eq_true, Bool.and_eq_true, beq_iff_eq, decide_eq_true_eq, true_and, InScope]
  refine exists_congr fun e => and_congr Iff.rfl (and_congr Iff.rfl ?_)
  simp

theorem witness_FenceRetires_waits : CanRetire (with1 fun c => { c with creel := [entry3 4] }) ∧
    ¬ MayEndFence ({ core1 with creel := [entry3 4] } : Core) false 5 :=
  ⟨retires, fun h => h.2.2.1 rfl (entry3 4) (.head _) rfl (.inl (by decide))⟩

theorem witness_FenceRetires_event : let s := with1 fun c => { c with stall := .fence 6 0 5 }
    (s.focusTile 0).tile.core.stall = .fence 6 0 5 ∧ MayEndFence (s.focusTile 0).tile.core false 5 :=
  ⟨rfl, endsFence⟩

theorem witness_SpecialRegisters : CanRetire st1 ∧ SrOpen st1.tile.core 0x000 false ∧ SrOpen st1.tile.core 0x010 true ∧
    SrOpen sup1.tile.core 0x100 true := by
  refine ⟨retires, ⟨by decide, .inr (by decide)⟩, ⟨by decide, .inr (by decide)⟩, by decide, .inl rfl⟩

theorem witness_SpecialRegisters_traps : srAccess (.swr 1 0x000) = some (0x000, true) ∧ srAccess (.srd 1 0xF00) = some (0xF00, false) ∧
    srAccess (.srd 1 0x600) = some (0x600, false) ∧ srAccess (.srd 1 0x005) = some (0x005, false) ∧ HandlerReady st1.tile.core ∧
    ¬ SrOpen st1.tile.core 0x000 true ∧ ¬ SrOpen st1.tile.core 0xF00 false ∧ ¬ SrOpen st1.tile.core 0x600 false ∧
    ¬ SrOpen st1.tile.core 0x005 false := by
  refine ⟨rfl, rfl, rfl, rfl, ready, ?_, ?_, ?_, ?_⟩ <;> unfold SrOpen <;> decide

theorem witness_RegisterWriteReadsBack : srPlain (0x002 : BitVec 12).toNat = some (0x7FFFFFFFFFFFFFFF, 0) ∧
    srPlain (0x210 : BitVec 12).toNat = some (0xFFFF, 0) ∧ srNamed 0x000 = true := by decide

theorem witness_RegisterWriteSteps : (2 : BitVec 2).toNat < 3 := by decide

/-! ### Witnesses: traps, events, messages -/

theorem witness_Traps_handler : HandlerReady st1.tile.core ∧ CanRetire st1 := ⟨ready, retires⟩

theorem witness_Traps_none : ¬ HandlerReady (with1 fun c => { c with tvecValid := false }).tile.core ∧ ¬ HandlerReady sup1.tile.core := by
  unfold HandlerReady; decide

theorem witness_Traps_return : sup1.tile.core.mode = true := rfl

theorem witness_AsynchronousEvents : let u := st1.focusTile 0
    u.tile.core.tvecValid = true ∧ u.takesEvent = true ∧ u.tile.core.pendPreempt = false := by decide

theorem witness_AsynchronousEvents_no_handler : let u := (with1 fun c => { c with tvecValid := false }).focusTile 0
    u.tile.core.tvecValid = false ∧ u.tile.core.pendPreempt = false := by decide

/-- A load on its way to another module: no event is taken. -/
theorem witness_AsynchronousEvents_away : ((with1 fun c => { c with stall := .away 3 }).focusTile 0).takesEvent = false := by decide

theorem witness_AsynchronousEvents_pends : let u := sup1.focusTile 0
    u.tile.core.tvecValid = true ∧ u.takesEvent = false := by decide

/-- A graph bound to tiles (0, 0) and (0, 1), whose tile 0 has a RIM section. -/
def graph1 : Graph := { Graph.empty with
  slot := 0, trows := 1, tcols := 2, ctx := 7, rims := [0]
  record := 0x2000001000000000000000000000007 }

/-- The core of `st1` in that graph. -/
def bound1 : State := { st1 with graph := graph1, turns := [.tick, .rim 0, .graph 0] }

theorem witness_Messages_sent : let s := bound1.setCore (core1.setS 9 0x10001)
    CanRetire s ∧ s.graphOfTile s.tileIdx = some graph1 ∧ (s.tile.core.s 9).extractLsb' 6 2 = 0 ∧
    (s.tile.core.s 9).extractLsb' 14 2 = 0 ∧ (s.tile.core.s 9).extractLsb' 17 47 = 0 ∧ (s.tile.core.s 9).getLsbD 16 = true ∧
    ((s.tile.core.s 9).extractLsb' 8 6).toNat + graph1.trow0 < graph1.trow0 + graph1.trows ∧
    ((s.tile.core.s 9).extractLsb' 0 6).toNat + graph1.tcol0 < graph1.tcol0 + graph1.tcols ∧ s.tile.core.outbox.length < 4 :=
  ⟨retires, rfl, by decide⟩

theorem witness_Messages_full : (4 : Nat) ≤ ({ core1 with outbox := List.replicate 4 ⟨0, 1, 0, 5⟩ } : Core).outbox.length := by decide

/-- Tile column 2 lies outside the rectangle. -/
theorem witness_Messages_outside : let s := bound1.setCore (core1.setS 9 0x00002)
    HandlerReady s.tile.core ∧ s.graphOfTile s.tileIdx = some graph1 ∧
    ¬ ((s.tile.core.s 9).extractLsb' 0 6).toNat < graph1.tcol0 + graph1.tcols := ⟨ready, rfl, by decide⟩

theorem witness_Messages_arrive : let m : Msg := ⟨0, 1, 3, 99⟩
    let s := bound1.setCore { core1 with outbox := [m] }
    (s.getTile 0).core.outbox = [] ++ m :: [] ∧ (∀ x ∈ ([] : List Msg), x.dst ≠ 1) ∧ m.dst = 1 ∧ (s.graphOfTile 1).isSome = true ∧
    (∀ g, s.graphOfTile 1 = some g → g.stopped = false) ∧ (s.getTile 1).core.run ≠ .halted ∧ (s.getTile 1).core.run ≠ .stopped :=
  ⟨rfl, by simp, rfl, by decide, by decide, by decide, by decide⟩

/-- A result of s31 that is on its way still. -/
theorem witness_Messages_late : ∃ x ∈ ({ core1 with late := [(31, 2)] } : Core).late, x.1 = 28 + (3 : BitVec 2).setWidth 5 := by decide

theorem witness_ParcelsAndWardSync : let s : State := { bound1 with tile := { bound1.tile with parcels := [3, 4] } }
    CanRetire s ∧ (∀ g, s.graphOfTile s.tileIdx = some g → g.drain = false) ∧
    s.tile.core.nxcur.toNat < s.tile.parcels.length ∧ s.graphOfTile s.tileIdx = some graph1 := by
  refine ⟨retires, ?_, by decide, rfl⟩
  intro g h
  have e : graph1 = g := Option.some.inj h
  subst e
  rfl

theorem witness_ParcelsAndWardSync_end : CanRetire bound1 ∧ bound1.tile.parcels.length ≤ bound1.tile.core.nxcur.toNat := ⟨retires, by decide⟩

theorem witness_ParcelsAndWardSync_drain : let s : State := { bound1 with graph := { graph1 with drain := true } }
    CanRetire s ∧ s.graphOfTile s.tileIdx = some { graph1 with drain := true } := ⟨retires, rfl⟩


/-! ### Witnesses: memory -/

theorem loadUnmapped {x : LoadOut} {p : Nat} (h : (match x with | .unmapped q => q == p | _ => false) = true := by decide) :
    x = .unmapped p := by cases x <;> simp_all
theorem loadRefused {x : LoadOut} {r : BitVec 8} (h : (match x with | .refused q => q == r | _ => false) = true := by decide) :
    x = .refused r := by cases x <;> simp_all
theorem loadPoisoned {x : LoadOut} (h : (match x with | .poisoned _ => true | _ => false) = true := by decide) :
    ∃ u, x = .poisoned u := by cases x <;> simp_all
theorem loadValue {x : LoadOut} {v : Nat} (h : (match x with | .value w _ _ => w == v | _ => false) = true := by decide) :
    ∃ a u, x = .value v a u := by cases x <;> simp_all
theorem hubAt {x : HubAnswer} {loc : Nat} (h : (match x with | .at l _ _ => l == loc | _ => false) = true := by decide) :
    ∃ a u, x = .at loc a u := by cases x <;> simp_all
theorem hubUnmapped {x : HubAnswer} {p : Nat} (h : (match x with | .unmapped q => q == p | _ => false) = true := by decide) :
    x = .unmapped p := by cases x <;> simp_all

theorem witness_HubAccess_page : let e : BitVec 128 := 0x5000000027
    0x10040 < 0x80000000000 ∧ rangeOf (getHub st1 (homeHub (0x10040 / 65536))) 0x10040 = none ∧
    cachedPte st1 (0x10040 / 65536) = e ∧ getPte st1 (0x10040 / 65536) = e ∧ (Access.loads false).key = none ∧ e.getLsbD 0 = true ∧
    e.getLsbD 10 = false ∧ e.getLsbD 1 = true ∧ frameExists st1 5 = true ∧ restriping st1 5 = false := by decide

theorem witness_HubAccess_unmapped : (cachedPte st1 3).getLsbD 0 = false := by decide

/-- The first byte past scratch, and the last address before the page-table window. -/
theorem witness_HubAccess_bounds : (0x8FFFFFFFFFF < 0x90000000000) ∧ 0xEFFFFFFFFFF < 0xF0000000000 ∧ 0xF00FFFFFFFF < 0xF0100000000 := by
  decide

theorem witness_HubAccess_scratch : cacheMiB st1 767 = 8 ∧ st1.splits = [] ∧ (getHub st1 (767 / 64)).cacheDie ≠ 2 ∧
    (0 : Nat) < 2 ^ 23 ∧ 767 < 1024 := by decide

theorem ward1_holds : WardHolds (core1.wards.get 0) 0x10040 := by unfold WardHolds; decide

theorem ward1_of : WardOf core1 0x10040 (core1.wards.get 0) := ⟨[], _, rfl, by simp, ward1_holds⟩

theorem reaches1 (n : Nat) (rd wr : Bool) (h : (0x10040 : BitVec 64).toNat % n = 0) :
    Reaches core1 0x10040 n rd wr (core1.wards.get 0) := ⟨h, ward1_of, fun _ => rfl, fun _ => rfl, rfl⟩

theorem orderClear {c : Core} {ia : Nat} (h : c.aloft = [] ∧ c.owedRemote = [] := by decide) : OrderClear c ia := by
  simp [OrderClear, onTheWay, h.1, h.2]

theorem loadClear {c : Core} {ia : Nat} {lines : List Nat} (h : c.creel = [] := by decide)
    (h2 : c.aloft = [] ∧ c.owedRemote = [] := by decide) : LoadClear c ia lines :=
  ⟨by simp [h], by simp [onTheWay, h2.1, h2.2], orderClear h2⟩

theorem storeClear {c : Core} {ia : Nat} (h : c.creel = [] := by decide) (h2 : c.aloft = [] ∧ c.owedRemote = [] := by decide) :
    StoreClear c ia := ⟨by simp [h], orderClear h2⟩

theorem released {c : Core} {p : CreelEntry → Prop} {sc : BitVec 3} (h : c.creel = [] := by decide)
    (h2 : c.aloft = [] := by decide) (h3 : c.owedLines = [] ∧ c.owedRemote = [] := by decide) : MayRelease c p sc :=
  ⟨by simp [h], h2, fun _ => h3⟩

theorem noDirty (l : List Nat) (s : State) (h : s.island.dirtyLines = [] := by decide) : ∀ x ∈ l, x ∉ s.island.dirtyLines := by simp [h]

theorem hub1_load : ∃ attr u, hubLoad st1 0x10040 8 (Access.loads false) = .value 0x8000000000002211 attr u := loadValue

theorem hub1_store : ∃ attr u, hubAccess st1 0x10040 Access.stores = .at (5 * 65536 + 0x40) attr u := hubAt

theorem witness_HubAccess_value : (∃ attr u, hubAccess st1 0x10040 (Access.loads false) = .at (5 * 65536 + 0x40) attr u) ∧
    linePoisoned st1 (5 * 65536 + 0x40) = false := ⟨hubAt, by decide⟩

theorem witness_HubAccess_poisoned : linePoisoned { st1 with linePoison := [5 * 1024 + 1] } (5 * 65536 + 0x40) = true := by decide

theorem witness_LoadResults : ∃ f u, loadSpec (.ldd 8 3 0 0) = some (0, fun c => c.s 3 + (0 : BitVec 12).signExtend 64 * 8, 8, f) ∧
    CanRetire st1 ∧ st1.tile.core.guard 0 = true ∧
    ReadOne 8 (st1.tile.core.s 3 + (0 : BitVec 12).signExtend 64 * 8) st1 0x8000000000002211 u := by
  obtain ⟨attr, u, h⟩ := hub1_load
  exact ⟨_, _, rfl, retires, by decide, _, attr, u, reaches1 8 true false rfl, loadClear, noDirty _ _, h, rfl⟩

/-- s3 + 0x20000 lies in page 3 of the ward, which is not mapped. -/
theorem witness_LoadWaits_unmapped : let s := with1 fun c => c.setS 3 0x30000
    Reaches s.tile.core 0x30000 8 true false (core1.wards.get 0) ∧
    LoadClear s.tile.core 0x30000 [0x30000 / 64] ∧
    hubLoad s (iaOf (core1.wards.get 0) 0x30000) 8 (Access.loads false) = .unmapped 3 ∧
    ∀ l ∈ loadLines s (iaOf (core1.wards.get 0) 0x30000), l ∉ s.island.dirtyLines :=
  ⟨⟨rfl, ⟨[], _, rfl, by simp, by unfold WardHolds; decide⟩, fun _ => rfl, fun _ => rfl, rfl⟩,
    loadClear, loadUnmapped, noDirty _ _⟩

/-- The same with page 3 mapped without permission to read, and with its line poisoned. -/
theorem witness_LoadWaits_refused : let s : State := { st1 with ptes := [(1, 0x5000000025)] }
    HandlerReady s.tile.core ∧ hubLoad s 0x10040 8 (Access.loads false) = .refused 1 := ⟨ready, loadRefused⟩

theorem witness_LoadWaits_poisoned : let s : State := { st1 with linePoison := [5 * 1024 + 1] }
    ∃ u, hubLoad s 0x10040 8 (Access.loads false) = .poisoned u := loadPoisoned

/-- LDD s8, [s3] that was held when it issued. -/
def again1 : State := with1 fun c => { c with stall := .load 0x10040 1, held := some ⟨encode (.ldd 8 3 0 0), core1.sregs⟩, pc := 1 }

theorem witness_LoadWaits_again : let r := again1.setCore { again1.tile.core with stall := .none }
    (∃ va p, (again1.focusTile 0).tile.core.stall = .load va p) ∧ again1.tile.core.held = some ⟨encode (.ldd 8 3 0 0), core1.sregs⟩ ∧
    decodeRim (encode (.ldd 8 3 0 0)) = .ok (.ldd 8 3 0 0) ∧ CanRetire r ∧ r.tile.core.guard 0 = true ∧ r.tile.core.run = .running ∧
    ∃ v u, ReadOne 8 (r.tile.core.s 3 + (0 : BitVec 12).signExtend 64 * 8) r v u := by
  obtain ⟨attr, u, h⟩ : ∃ attr u, hubLoad (again1.setCore { again1.tile.core with stall := .none }) 0x10040 8 (Access.loads false) =
    .value 0x8000000000002211 attr u := loadValue
  exact ⟨⟨_, _, rfl⟩, rfl, by decide, retires, by decide, rfl, _, _, core1.wards.get 0, attr, u,
    ⟨rfl, ⟨[], _, rfl, by simp, by unfold WardHolds; decide⟩, fun _ => rfl, fun _ => rfl, rfl⟩,
    loadClear, noDirty _ _, h, rfl⟩

theorem has1 {c : Core} {n : Nat}
    (h : c.creel.length + c.sent.length + c.aloft.length + c.owedRemote.length + n ≤ 64 := by decide) : CreelHas c n := h

theorem witness_StoreResults : ∃ v, storeSpec (.std 1 3 0 0) = some (0, fun c => c.s 3 + (0 : BitVec 10).signExtend 64 * 8, 8, v) ∧
    CanRetire st1 ∧ st1.tile.core.guard 0 = true ∧ Reaches core1 0x10040 8 false true (core1.wards.get 0) ∧
    StoreClear core1 (iaOf (core1.wards.get 0) 0x10040) ∧ CreelHas core1 1 ∧
    LandsAt st1 8 (iaOf (core1.wards.get 0) 0x10040) (5 * 65536 + 0x40) := by
  obtain ⟨a, u, h⟩ := hub1_store
  exact ⟨_, rfl, retires, by decide, reaches1 8 false true rfl, storeClear, has1, _, a, u, h, .inl (by decide), rfl⟩

/-- A store to a page that a pending entry of the creel waits for, and one to a page that is not mapped. -/
theorem witness_StoreEntersCreel : let s := with1 fun c => { c with creel := [entry3 1] }
    Reaches s.tile.core 0x30000 8 false true (core1.wards.get 0) ∧ CreelHas s.tile.core 1 ∧ OrderClear s.tile.core 0x30000 ∧
    (∃ e ∈ s.tile.core.creel, e.state = .pending ∧ e.pageKey = iaOf (core1.wards.get 0) 0x30000 / 65536) ∧
    hubAccess st1 (iaOf (core1.wards.get 0) 0x30000 / 64 * 64) Access.stores = .unmapped 3 :=
  ⟨⟨rfl, ⟨[], _, rfl, by simp, by unfold WardHolds; decide⟩, fun _ => rfl, fun _ => rfl, rfl⟩, has1, orderClear,
    ⟨entry3 1, .head _, by decide, by decide⟩, hubUnmapped⟩

/-- An entry of an SO page ahead of a store to an SO page. -/
theorem witness_StoreEntersCreel_ordered : let s := with1 fun c => { c with creel := [{ entry3 1 with attr := 0 }] }
    attrOf s.tile.core.attrs (iaOf (core1.wards.get 0) 0x10040 / 65536) = 0 ∧
    ∃ e ∈ s.tile.core.creel, e.state = .pending ∧ e.attr = 0 := ⟨by decide, _, .head _, by decide, by decide⟩

theorem witness_StoreEntersCreel_full : ¬ CreelHas { core1 with creel := List.replicate 64 (entry3 1) } 1 := by
  unfold CreelHas; decide

/-- An SO write on its way, before a store to an SO page. -/
theorem witness_StoreEntersCreel_aloft : ¬ OrderClear { core1 with aloft := [{ entry3 1 with attr := 0 }] } 0x10040 :=
  fun h => h (by decide) _ (.head _) rfl

theorem witness_AccessTraps_align : ∃ f, accessSpec (.ldd 8 1 0 0) = some (0, f, 8, true, false) ∧ HandlerReady st1.tile.core ∧
    (f st1.tile.core).toNat % 8 = 2 := ⟨_, rfl, ready, by decide⟩

theorem witness_AccessTraps_miss : ∃ f, accessSpec (.ldd 8 4 0 0) = some (0, f, 8, true, false) ∧ (f st1.tile.core).toNat % 8 = 0 ∧
    ∀ x ∈ st1.tile.core.wards.toList, ¬ WardHolds x (f st1.tile.core) := by
  refine ⟨_, rfl, by decide, ?_⟩
  unfold WardHolds
  decide

/-- Page 8 lies in a ward that grants reads only. -/
theorem witness_AccessTraps_permission : let s := with1 fun c => c.setS 3 0x80000
    ∃ f, accessSpec (.std 8 3 0 0) = some (0, f, 8, false, true) ∧ (f s.tile.core).toNat % 8 = 0 ∧
    WardOf s.tile.core 0x80000 (core1.wards.get 1) ∧ (core1.wards.get 1).pw = false := by
  refine ⟨_, rfl, by decide, ⟨[core1.wards.get 0], _, rfl, ?_, ?_⟩, rfl⟩ <;> unfold WardHolds <;> decide

theorem witness_AccessTraps_reduction : ∃ f, accessSpec (.redtAdd 3 0 0 0) = some (0, f, 64, false, true) := ⟨_, rfl⟩

/-- m1 has lane 0 alone: the lane at 0x10040. -/
def lane1 : State := with1 fun c => c.setM 1 1

theorem hub1_word : ∃ attr u, hubLoad lane1 0x10040 4 (Access.loads false) = .value 0x2211 attr u := loadValue

theorem lane1_reaches (rd wr : Bool) : Reaches lane1.tile.core 0x10040 4 rd wr (core1.wards.get 0) :=
  ⟨rfl, ⟨[], _, rfl, by simp, by unfold WardHolds; decide⟩, fun _ => rfl, fun _ => rfl, rfl⟩

theorem witness_LaneLoads : ∃ f u, laneSpec (.ldts 5 3 5 1 0) = some (true, 5, 1, 0, f) ∧ CanRetire lane1 ∧
    ReadAll 4 ((activeOf (lane1.tile.core.m 1)).map (f lane1.tile.core)) lane1 [0x2211] u := by
  obtain ⟨attr, u, h⟩ := hub1_word
  exact ⟨_, _, rfl, retires, _, ⟨_, attr, u, lane1_reaches true false, loadClear, noDirty _ _, h, rfl⟩, rfl, rfl⟩

theorem witness_LaneStores : ∃ f, laneSpec (.stts 5 3 5 1 0) = some (false, 5, 1, 0, f) ∧ CanRetire lane1 ∧
    ((activeOf (lane1.tile.core.m 1)).map fun l =>
      (f lane1.tile.core l, ((lane1.tile.core.t 5).data.extractLsb' (32 * l) 32).toNat)) = [(0x10040, 0)] ∧ CreelHas lane1.tile.core 1 ∧
    ∀ x ∈ [((0x10040 : BitVec 64), 0)], ∃ w, Reaches lane1.tile.core x.1 4 false true w ∧ OrderClear lane1.tile.core (iaOf w x.1) := by
  refine ⟨_, rfl, retires, ?_, has1, fun x hx => ?_⟩
  · decide +kernel
  rw [List.mem_singleton.1 hx]
  exact ⟨_, lane1_reaches false true, orderClear⟩

theorem witness_AtomicResults : ∃ x loc attr h, amoSpec (.amoAdd 5 3 1 0 3 1) = some x ∧ CanRetire st1 ∧
    st1.tile.core.guard x.guard = true ∧ Reaches st1.tile.core (st1.tile.core.s x.a) x.size true true (core1.wards.get 0) ∧
    LoadClear st1.tile.core (iaOf (core1.wards.get 0) (st1.tile.core.s x.a)) [iaOf (core1.wards.get 0) (st1.tile.core.s x.a) / 64] ∧
    (x.order.getLsbD 1 = true ∧ MayRelease st1.tile.core (fun e => InScope e.scope 5) 5) ∧
    iaOf (core1.wards.get 0) (st1.tile.core.s x.a) / 64 ∉ st1.island.dirtyLines ∧
    hubAccess st1 (iaOf (core1.wards.get 0) (st1.tile.core.s x.a)) (Access.atomic false) = .at loc attr h ∧
    linePoisoned st1 loc = false := by
  obtain ⟨a, u, h⟩ : ∃ a u, hubAccess st1 0x10040 (Access.atomic false) = .at (5 * 65536 + 0x40) a u := hubAt
  exact ⟨_, _, a, u, rfl, retires, by decide, reaches1 8 true true rfl, loadClear, ⟨by decide, released⟩,
    by decide, h, by decide⟩

theorem witness_ReductionResults : ∃ x loc attr h, redtSpec (.redtAdd 3 0 0 2) = some x ∧ CanRetire st1 ∧
    st1.tile.core.guard x.guard = true ∧ Reaches st1.tile.core (st1.tile.core.s x.a) 64 false true (core1.wards.get 0) ∧
    StoreClear st1.tile.core (iaOf (core1.wards.get 0) (st1.tile.core.s x.a)) ∧ CreelHas st1.tile.core 1 ∧
    (x.order.getLsbD 1 = true ∧ MayRelease st1.tile.core (fun _ => True) (core1.wards.get 0).scope) ∧
    hubAccess st1 (iaOf (core1.wards.get 0) (st1.tile.core.s x.a)) Access.stores = .at loc attr h ∧ linePoisoned st1 loc = false := by
  obtain ⟨a, u, h⟩ := hub1_store
  exact ⟨_, _, a, u, rfl, retires, by decide, reaches1 64 false true rfl, storeClear, has1,
    ⟨by decide, released⟩, h, by decide⟩
/-- A state in which a read of page 1 changes nothing: its entry is cached and its attribute seen. Bytes 0 to 15 of the page are a
good plait header, of 48 weights. -/
def fix1 : State := { State.reset with
  tile := { Tile.reset 0 with core := { core1 with
    attrs := [(1, 1)], sregs := core1.sregs.set 3 0x10000, masks := Vector.replicate 8 1 } }
  ptes := [(1, 0x50000000A7)]
  hubs := (Vector.replicate 12 Hub.reset).set 0 { Hub.reset with tlb := [(1, 0x50000000A7)] }
  mem := [(5 * 65536, 0x30), (5 * 65536 + 4, 1)] }

/-- The read of byte k of the page. -/
def fixReads (k v : Nat) : Bool :=
  match hubLoad fix1 (65536 + k) 1 (Access.loads false) with
  | .value w a u => w == v && u.sawAttr (65536 + k) a == fix1
  | _ => false

theorem fixRead (k v : Nat) (hk : k < 65536) (h : fixReads k v = true) : ReadOne 1 (BitVec.ofNat 64 (65536 + k)) fix1 v fix1 := by
  have hn : (BitVec.ofNat 64 (65536 + k)).toNat = 65536 + k := by simp; omega
  have hi : iaOf (core1.wards.get 0) (BitVec.ofNat 64 (65536 + k)) = 65536 + k := by
    unfold iaOf
    have h1 : (core1.wards.get 0).iabase.toNat = 1 := by decide
    have h2 : (core1.wards.get 0).vbase.toNat = 1 := by decide
    rw [hn, h1, h2]; omega
  unfold fixReads at h
  split at h
  · next w a u hu =>
    simp only [Bool.and_eq_true, beq_iff_eq] at h
    obtain ⟨rfl, h2⟩ := h
    refine ⟨core1.wards.get 0, a, u, ⟨Nat.mod_one _, ⟨[], _, rfl, by simp, rfl, ?_, ?_, ?_⟩, fun _ => rfl, fun _ => rfl, rfl⟩,
      loadClear, noDirty _ _, ?_, ?_⟩
    · rw [hn]; omega
    · have h2 : (core1.wards.get 0).vbase.toNat = 1 := by decide
      show (core1.wards.get 0).vbase.toNat ≤ _
      rw [hn, h2]; omega
    · have h2 : (core1.wards.get 0).vlimit.toNat = 4 := by decide
      show _ < (core1.wards.get 0).vlimit.toNat
      rw [hn, h2]; omega
    · rw [hi]; exact hu
    · rw [hi]; exact h2.symm
  · cases h

theorem fixReadAll (l : List (Nat × Nat)) (h : (l.all fun x => decide (x.1 < 65536) && fixReads x.1 x.2) = true) :
    ReadAll 1 (l.map fun x => BitVec.ofNat 64 (65536 + x.1)) fix1 (l.map Prod.snd) fix1 := by
  induction l with
  | nil => exact ⟨rfl, rfl⟩
  | cons x r ih =>
    simp only [List.all_cons, Bool.and_eq_true, decide_eq_true_eq] at h
    exact ⟨fix1, fixRead _ _ h.1.1 h.1.2, ih h.2⟩

/-- The header of `fix1`. -/
def head1 : BitVec 128 := 0x00000000000000000000000100000030

theorem witness_PlaitLoads : CanRetire fix1 ∧ (fix1.tile.core.s 3).toNat % 16 = 0 ∧
    ReadAll 1 ((List.range 16).map fun j => fix1.tile.core.s 3 + BitVec.ofNat 64 j) fix1
      [0x30, 0, 0, 0, 1, 0, 0, 0, 0, 0, 0, 0, 0, 0, 0, 0] fix1 ∧
    BitVec.ofNat 128 (natOfBytes ([0x30, 0, 0, 0, 1, 0, 0, 0, 0, 0, 0, 0, 0, 0, 0, 0].map (BitVec.ofNat 8))) = head1 ∧
    plaitHeader head1 = some ⟨48, 1, 1, 1, 0, 0⟩ ∧
    (activeOf (fix1.tile.core.m 1)).filter (fun l => decide (0 + l < 48)) = [0] ∧
    insertRising (0 + 0 / 48) (plaitBytes ⟨48, 1, 1, 1, 0, 0⟩ 16 ([0].map fun l => PlaitHeader.pos ⟨48, 1, 1, 1, 0, 0⟩ (0 + l))) =
      [0, 16, 17] ∧
    ReadAll 1 ([0, 16, 17].map fun o => fix1.tile.core.s 3 + BitVec.ofNat 64 o) fix1 [0x30, 0, 0] fix1 := by
  have e : ∀ l : List Nat, (∀ k ∈ l, k < 100) → (l.map fun o => fix1.tile.core.s 3 + BitVec.ofNat 64 o) =
      l.map fun o => BitVec.ofNat 64 (65536 + o) := by
    intro l _
    refine List.map_congr_left fun k _ => ?_
    rw [show fix1.tile.core.s 3 = BitVec.ofNat 64 65536 from by decide, BitVec.ofNat_add]
  rw [e _ (by decide), e _ (by decide)]
  refine ⟨retires, by decide, ?_, by decide, by decide, by decide, by decide, ?_⟩
  · exact fixReadAll [(0, 0x30), (1, 0), (2, 0), (3, 0), (4, 1), (5, 0), (6, 0), (7, 0), (8, 0), (9, 0), (10, 0), (11, 0), (12, 0), (13, 0),
      (14, 0), (15, 0)] (by decide +kernel)
  · exact fixReadAll [(0, 0x30), (16, 0), (17, 0)] (by decide +kernel)

/-- A header with no weights: memory all zero. -/
theorem witness_PlaitLoads_bad : plaitHeader 0 = none := by decide


/-! ### Witnesses: token instructions -/

/-- t1 a bubble, t2 with lane 0 the largest FP32 number, t3 INT8 with lane 0 = 1. -/
def tok1 : State := with1 fun c =>
  ((c.setT 1 (Token.bubble 0)).setT 2 { Token.reset with data := 0x7F7FFFFF }).setT 3 { Token.reset with data := 1, tag := 6 }

theorem witness_TokenResults : (tokSpec (.vdot 5 2 2 0 0 0 0)).isSome = true ∧ CanRetire tok1 := ⟨rfl, retires⟩

theorem witness_TokenArithmetic : ∃ x, arithSpec (.vfma 5 2 2 2 0 0 0 0) = some x ∧ CanRetire tok1 ∧
    ∀ r ∈ x.srcs, (tok1.tile.core.t r).bub = false := ⟨_, rfl, retires, by decide⟩

theorem witness_TokenArithmetic_bubble : ∃ x, arithSpec (.vfma 5 2 1 2 0 0 0 1) = some x ∧ ∃ r ∈ x.srcs, (tok1.tile.core.t r).bub = true :=
  ⟨_, rfl, 1, by decide, by decide⟩

theorem witness_TokenIntegers : ∃ x, intSpec (.vimac 5 3 3 3 0 0) = some x ∧ CanRetire tok1 ∧
    ∀ r ∈ x.a :: x.rest, (tok1.tile.core.t r).bub = false := ⟨_, rfl, retires, by decide⟩

theorem witness_TokenIntegers_bubble : ∃ x, intSpec (.viadd 5 3 1 0 0) = some x ∧ ∃ r ∈ x.a :: x.rest, (tok1.tile.core.t r).bub = true :=
  ⟨_, rfl, 1, by decide, by decide⟩

theorem witness_TokenMoves : ∃ x, moveSpec (.vperm 5 2 3 0 0) = some x ∧ CanRetire tok1 ∧ (tok1.tile.core.t x.a).bub = false ∧
    (tok1.tile.core.t x.b).bub = false := ⟨_, rfl, retires, by decide, by decide⟩

theorem witness_TokenMoves_bubble : ∃ x, moveSpec (.vshuf 5 1 3 0 0) = some x ∧ (tok1.tile.core.t x.a).bub = true := ⟨_, rfl, by decide⟩

theorem witness_TokenConversions : ∃ op, convSpec (.vcvt 5 2 1 0 0 3 0 0 0) = some (3, 5, op) ∧ CanRetire tok1 ∧ HandlerReady tok1.tile.core ∧
    (op tok1.tile.core).ovf ≠ 0 := ⟨_, rfl, retires, ready, by decide +kernel⟩

theorem witness_TokenConversions_fits : ∃ op, convSpec (.vcvt 5 4 1 0 0 3 0 0 0) = some (3, 5, op) ∧ (op tok1.tile.core).ovf = 0 :=
  ⟨_, rfl, by decide +kernel⟩

theorem witness_TokenConversions_unpack :
    (tokUnpack tok1.tile.core.env tok1.tile.core.rnd 0 1 (tok1.tile.core.env.mode 0) (Overflow.ofCode 3) (tok1.tile.core.t 2) false false
      false).1.ovf = 0 := by decide +kernel

theorem witness_BlocksAndHistograms : CanRetire tok1 ∧ (tok1.tile.core.t 3).bub = false ∧ (3 : BitVec 5) ≠ 4 ∧ (5 : BitVec 5) ≠ 3 ∧
    (5 : BitVec 5) ≠ 4 := ⟨retires, by decide⟩

/-! ### Witnesses: commands -/

theorem record1 (n size : Nat) (h : (0x10040 : BitVec 64).toNat % n = 0) (hs : 0x10040 + size ≤ 4 * 65536) :
    RecordOk core1 0x10040 n size := ⟨h, _, ward1_of, rfl, hs⟩

theorem witness_CommandIssue : ∃ x f, cmdSpec (.cpy 5 3 0) = some x ∧ CanRetire st1 ∧ st1.tile.core.guard x.g = true ∧ x.priv = false ∧
    x.record = some (f, 64, 128) ∧ RecordOk st1.tile.core (f st1.tile.core) 64 128 ∧ st1.tile.core.cmds.length < 16 :=
  ⟨_, _, rfl, retires, by decide, rfl, rfl, record1 64 128 rfl (by decide), by decide⟩

theorem witness_CommandIssue_full : 16 ≤ ({ core1 with cmds := List.replicate 16 cmd5 } : Core).cmds.length := by decide

theorem witness_CommandIssue_privileged : ∃ x, cmdSpec (.mig 5 3 0) = some x ∧ x.priv = true ∧ HandlerReady st1.tile.core ∧
    sup1.tile.core.mode = true := ⟨_, rfl, rfl, ready, rfl⟩

theorem witness_CommandIssue_align : ∃ x f, cmdSpec (.cpy 5 1 0) = some x ∧ x.record = some (f, 64, 128) ∧ x.priv = false ∧
    (f st1.tile.core).toNat % 64 ≠ 0 := ⟨_, _, rfl, rfl, rfl, by decide⟩

theorem witness_ConfigurationIssue : let s := with1 fun c => c.setS 5 0xBFF0
    CanRetire s ∧ s.tile.core.guard 0 = true ∧ (s.tile.core.s 5).toNat = 0xBFF0 ∧ RecordOk s.tile.core 0x10040 4 (4 * 0xBFF0) ∧
    s.tile.core.cmds.length < 16 ∧ (s.tile.core.cmds.filter fun x => x.kind == .cfg).length < 8 :=
  ⟨retires, by decide, by decide, ⟨rfl, _, ⟨[], _, rfl, by simp, by unfold WardHolds; decide⟩, rfl, by decide⟩, by decide, by decide⟩

theorem witness_ConfigurationIssue_length : let s := with1 fun c => c.setS 5 0x100001
    (s.tile.core.s 3).toNat % 4 = 0 ∧ 2 ^ 20 < (s.tile.core.s 5).toNat ∧ s.tile.core.run ≠ .idle ∧ s.tile.core.cmds = [] ∧
    (st1.tile.core.s 5).toNat = 0 := by decide

theorem witness_ConfigurationIssue_align : (st1.tile.core.s 1).toNat % 4 ≠ 0 ∧ HandlerReady st1.tile.core := ⟨by decide, ready⟩

theorem witness_ConfigurationIssue_past : let s := with1 fun c => c.setS 5 0xBFF1
    WardOf s.tile.core 0x10040 (core1.wards.get 0) ∧ (core1.wards.get 0).pr = true ∧
    (core1.wards.get 0).vlimit.toNat * 65536 < 0x10040 + 4 * (s.tile.core.s 5).toNat :=
  ⟨⟨[], _, rfl, by simp, by unfold WardHolds; decide⟩, rfl, by decide⟩

/-- The context owns operand memory slot 3. -/
def om1 : State := { st1 with tile := { st1.tile with owners := [(3, 7)] } }

/-- Its token at 0x3FFC0, of zeros, with its line's condition. -/
theorem om1_sees (f : Core → Core) (l : List Nat) :
    OmSees { om1.setCore (f core1) with tile := { (om1.setCore (f core1)).tile with omPoison := l } } 0 0x3FFC0
      ⟨0x3FFC0 / 64, 0, 0, l.contains (0x3FFC0 / 64)⟩ := by
  refine ⟨rfl, .inr ⟨fun _ h => (nomatch h), rfl, ?_, fun k hk => ?_⟩⟩
  · show (0 : BitVec 8) = readByte om1.mem (sideLoc 0 0x3FFC0)
    decide
  · have h : ∀ k : Fin 64, (0 : Line).extractLsb' (8 * k.val) 8 = readByte om1.mem (omLoc 0 0x3FFC0 + k.val) := by decide +kernel
    exact h ⟨k, hk⟩

theorem witness_OperandMemory : let s := om1.setCore (core1.setS 5 0x3FFC0)
    CanRetire s ∧ s.tile.core.guard 0 = true ∧ OmReaches s (s.tile.core.s 5 + s.tile.core.s 0) ∧
    OmSees s s.tileIdx (s.tile.core.s 5 + s.tile.core.s 0).toNat ⟨0x3FFC0 / 64, 0, 0, false⟩ ∧ s.tileIdx < 2112 :=
  ⟨retires, by decide, ⟨by decide, by decide, by decide⟩, om1_sees (fun c => c.setS 5 0x3FFC0) [], by decide⟩

theorem witness_OperandMemory_poison : ∃ y, y.poison = true ∧
    OmSees { om1 with tile := { om1.tile with omPoison := [0x3FFC0 / 64] } } 0 0x3FFC0 y := ⟨_, rfl, om1_sees id _⟩

/-- A token that this port slot has written: reads of the slot find what it held. -/
theorem witness_OperandMemory_before : let y : OmImage := ⟨0x3FFC0 / 64, 9, 0, false⟩
    OmSees { om1 with tile := { om1.tile with omBefore := [y] } } 0 0x3FFC0 y := ⟨rfl, .inl ⟨[], [], rfl, by simp⟩⟩

theorem witness_OperandMemory_traps : HandlerReady om1.tile.core ∧ (om1.tile.core.s 1 + om1.tile.core.s 0).toNat % 64 ≠ 0 ∧
    (0x1000000 : BitVec 64).toNat % 64 = 0 ∧ 2 ^ 24 ≤ (0x1000000 : BitVec 64).toNat ∧
    assocGet om1.tile.owners ((0x40000 : BitVec 64).toNat / 65536) ≠ some om1.tile.core.ctx := ⟨ready, by decide⟩

/-- Staged words of ward 2: its limit is page 9, its IA base page 4. -/
def staged2 : Core := { core1 with mode := true, staged := core1.staged.set 2 ⟨0x90000, 0x40000, 0⟩ }

theorem witness_WardWrites : CanRetire (st1.setCore staged2) ∧ (2 : BitVec 64) = BitVec.ofNat 64 ((2 : Fin 8).val + 16 * (0 : BitVec 2).toNat) ∧
    staged2.mode = true ∧ (0x8000F : BitVec 64) &&& wardZero 0 = 0 ∧ WardFits (wardOfWords 0x8000F 0x90000 0x40000 0) := by
  refine ⟨retires, rfl, rfl, by decide, ?_⟩
  unfold WardFits
  decide

theorem witness_WardWrites_stage : (0x12 : BitVec 64) = BitVec.ofNat 64 ((2 : Fin 8).val + 16 * (1 : BitVec 2).toNat) ∧
    (0x90000 : BitVec 64) &&& wardZero 1 = 0 := by decide

theorem witness_WardWrites_refused : (0x90001 : BitVec 64) &&& wardZero 1 ≠ 0 ∧
    ¬ WardFits (wardOfWords 0x9000F 0x90000 0x40000 0) := by
  refine ⟨by decide, ?_⟩
  unfold WardFits
  decide

/-! ### Witnesses: tile ports -/

/-- Region 2 of `graph1`: cell rows 0 to 15 and columns 0 to 15, window 4 defined with W = 1. -/
def reg2 : Region := { Region.empty with
  id := 2, cfg := { RegionCfg.empty with rows := 16, cols := 16, fields := [(0x44, 0x20000)] } }

/-- `graph1` with that region, and a captured beat at position 3 of its south edge. -/
def ports1 : State := { bound1 with
  graph := { graph1 with regions := [reg2] }
  tile := { bound1.tile with capture := [(2 * 32 + 3, [Beat.bubble])], owners := [(3, 7)] } }

theorem witness_TilePorts : let s := ports1.setCore (core1.setS 9 0x20083)
    CanRetire s ∧ s.tile.core.guard 0 = true ∧ s.settle.graphOfTile s.settle.tileIdx = some { graph1 with regions := [reg2] } ∧
    ({ graph1 with regions := [reg2] } : Graph).getRegion ((s.tile.core.s 9).extractLsb' 16 10).toNat = some reg2 ∧
    reg2.cfg.localPos .w 0 3 = some 3 ∧ s.tile.core.s 9 &&& 0xFFFFFFFFFC00E000 = 0 ∧ reg2.cfg.winDef 4 = true ∧
    ((s.tile.core.s 9).extractLsb' 10 2).toNat < tokensOf (s.tile.core.t 5).tag.toNat ∧ (s.tile.core.s 9).getLsbD 12 = false ∧
    reg2.cfg.localPos .s 0 3 = some 3 ∧ sparseGet [] ports1.tile.capture (2 * 32 + 3) = [Beat.bubble] :=
  ⟨retires, by decide, rfl, rfl, by decide, by decide, by decide, by decide, by decide, by decide, rfl⟩

theorem witness_TilePorts_send : (0x21083 : BitVec 64).getLsbD 12 = true ∧ reg2.heldReplies 4 .w 3 < reg2.cfg.winLen 4 ∧
    ({ reg2 with latches := [⟨0, 4, .w, 3, 0, some Beat.bubble⟩] } : Region).heldReplies 4 .w 3 = reg2.cfg.winLen 4 := by decide

/-- Position 3 of the west edge lies in no tile of column 1; the east edge has captured nothing. -/
theorem witness_TilePorts_none : reg2.cfg.localPos .w 1 3 = none ∧ sparseGet [] ports1.tile.capture (2 * 32 + 16 + 3) = [] := by
  decide

theorem witness_TilePorts_release : let sa : BitVec 64 := 0x00FD
    (sa.extractLsb' 16 48 = 0 ∧ (sa.extractLsb' 0 8).toNat + ((sa.extractLsb' 8 8).toNat + 1) ≤ 256) ∧
    (∀ x ∈ ports1.allGraphs, ∀ y ∈ x.regions, y.cfg.feedsSlot 0 0xFD 1 = false ∧ y.next = none) ∧
    slotBusy ports1 0 7 0xFD 1 = false := by
  decide

/-! ### Witnesses: configuration streams -/

/-- A stream of `graph1` in the middle: region 5 open, one rectangle of cells, row 1 selected. -/
def stream1 : Stream := { Stream.empty with
  graph := 0, ctx := 7, va := 0x10000, len := 9, offset := 4, started := true, sum := 0xFFFE
  wards := core1.wards.toList
  targets := [⟨false, 0, 0, 16, 16⟩], rowSel := some 1
  region := some (5, { RegionCfg.empty with rows := 16, cols := 16, words := [(0, 0x1C800000)] }) }

/-- That stream runs on net 0. -/
def net1 (f : Stream → Stream) : State := { bound1 with stream := f stream1 }

theorem witness_StepRunsWords_net : let s : State := { net1 id with
      turns := [.net 0], mem := [(5 * 65536 + 19, 0xB0)] }
    (s.agenda = [] ∧ s.island.st = .serve ∧ s.mgmt.thermal = false ∧ s.turns = .net 0 :: [] ∧
    (s.focusNet 0).stream.len ≠ 0 ∧ (s.focusNet 0).stream.result = none ∧ (s.focusNet 0).stream.started = true ∧
    (s.focusNet 0).stream.paused = false) ∧ (∃ u, nextWord (s.focusNet 0) = .word 0xB0000000 u ∧ u.stream.raw = 0) ∧
    decodeCword 0xB0000000 = .ok .clrt := by
  have h : ∀ x : NextWord, (match x with | .word w u => w == 0xB0000000 && u.stream.raw == 0 | _ => false) = true →
      ∃ u, x = .word 0xB0000000 u ∧ u.stream.raw = 0 := by intro x; cases x <;> simp_all
  exact ⟨by decide, h _ (by decide), by decide⟩

theorem witness_StreamWords_high : let s := net1 fun x => { x with high := some 0x12 }
    (Instr.fldh 3).kind = 1 ∧ Instr.fldh 3 ≠ .nopc ∧ s.settle.stream.high.isSome = true := ⟨rfl, by decide, rfl⟩

theorem witness_StreamWords_field : fieldMask (0x044 : BitVec 12).toNat = some 0x303FF ∧ stream1.region.isSome = true ∧
    ((0 : BitVec 16) ++ (0x3FF : BitVec 16)) &&& ~~~(0x303FF : BitVec 32) = 0 ∧ fieldMask (0x1FF : BitVec 12).toNat = some 0x7FF ∧
    fieldMask (0x200 : BitVec 12).toNat = some 0xFFFFFFFF ∧ stream1.rowSel = some 1 ∧ (fieldMask (0x300 : BitVec 12).toNat).isSome = true ∧
    ∀ y ∈ stream1.targets, y.tiles = false ∧
      ∀ p ∈ y.cells, ({ RegionCfg.empty with rows := 16, cols := 16 } : RegionCfg).holds p.1 p.2 = true := by decide +kernel

theorem witness_StreamWords_reserved : ((1 : BitVec 16) ++ (0 : BitVec 16) : BitVec 32) &&& ~~~(0x7F : BitVec 32) ≠ 0 ∧
    fieldMask (0 : BitVec 12).toNat = some 0x7F := by decide

theorem witness_StreamWords_targets : stream1.high = none ∧ stream1.targets.length < 64 ∧ InRectangle ⟨false, 15, 31, 1, 1⟩ graph1 ∧
    ¬ InRectangle ⟨false, 16, 0, 1, 1⟩ graph1 ∧ InRectangle ⟨true, 0, 1, 1, 1⟩ graph1 := by unfold InRectangle; decide

theorem witness_StreamWords_full : 64 ≤ (List.replicate 64 (⟨false, 0, 0, 1, 1⟩ : Target)).length := by decide

theorem witness_StreamWords_extend : let x := { stream1 with targets := [⟨false, 0, 0, 1, 1⟩], extOpen := true }
    x.targets = [] ++ [⟨false, 0, 0, 1, 1⟩] ∧ x.extOpen = true ∧ InRectangle ⟨false, 0, 0, 16, 32⟩ graph1 := by
  unfold InRectangle; decide

/-- A rectangle of 16 rows from the last row but 15 of the cells: the next size passes the package. -/
theorem witness_StreamWords_too_big : let x := { stream1 with targets := [⟨false, 752, 0, 1, 1⟩], extOpen := true }
    x.targets = [] ++ [⟨false, 752, 0, 1, 1⟩] ∧ x.extOpen = true ∧ 768 < 752 + ((16 : BitVec 10).toNat + 1) ∧
    x.extTooBig ((15 : BitVec 10).toNat + 1) ((0 : BitVec 10).toNat + 1) = false ∧ ({ x with high := some 1 } : Stream).high.isSome = true := by
  decide

theorem witness_StreamWords_type : let x := { stream1 with region := none }
    x.region = none ∧ x.targets = [⟨false, 0, 0, 16, 16⟩] ∧ ∀ r, graph1.getRegion (6 : BitVec 10).toNat = some r → r.next = none :=
  ⟨rfl, rfl, fun r h => by cases h⟩

theorem witness_StreamWords_image : let x := { stream1 with region := none, targets := [⟨true, 0, 0, 1, 1⟩] }
    x.targets ≠ [] ∧ (∀ y ∈ x.targets, y.tiles = true) ∧ targetTiles x.targets = [0] ∧
    (98 : Nat) + 2 ≤ ((net1 id).getTile 0).core.tvecEntry.toNat := by decide

theorem witness_CommitAndSeal : let s := net1 id
    s.settle.stream.high = none ∧ s.settle.streamGraph.slot = s.settle.stream.graph ∧ s.settle.graph.slot = s.settle.stream.graph ∧
    (∀ c, s.settle.stream.region = some (5, c) → c.badRow = none ∧ s.settle.badRegion graph1 5 c = none) ∧ s.settle.gates = [] ∧
    graph1.getRegion 5 = none := by
  refine ⟨rfl, rfl, rfl, fun c h => ?_, rfl, rfl⟩
  have e : ({ RegionCfg.empty with rows := 16, cols := 16, words := [(0, 0x1C800000)] } : RegionCfg) = c := (Prod.mk.inj (Option.some.inj h)).2
  subst e
  exact ⟨by decide +kernel, by decide +kernel⟩

/-- A gate of region 5 that carries its stage, and a region of that number that waits to run. -/
theorem witness_CommitAndSeal_gate : let r : Region := { Region.empty with id := 5 }
    let g : Graph := { graph1 with regions := [r] }
    g.getRegion 5 = some r ∧ r.loop = .idle ∧
    ∀ y ∈ [{ num := 0, port := 0, count := 16, fromGraph := 0, fromRegion := 5, fromEdge := .s, fromFirst := 0, fromStage := 0
             toGraph := 1, toRegion := 2, toEdge := .n, toFirst := 0, toStage := 1, win := 0, depth := 16, transit := 1
             beats := [], closed := false : Gate }], (y.fromGraph = 0 → y.fromRegion = 5 → y.fromStage = 0) ∧
      (y.toGraph = 0 → y.toRegion = 5 → y.toStage = 0) := by decide

theorem witness_CommitAndSeal_row : ({ RegionCfg.empty with rows := 16, cols := 16, words := [(0, 0)] } : RegionCfg).badRow = some 0 := by
  decide +kernel

/-- Its spine is not the one that the tile has selected. -/
theorem witness_CommitAndSeal_region : let c : RegionCfg := { RegionCfg.empty with rows := 16, cols := 16, spine := 3, words := [(0, 0x1C800000)] }
    c.badRow = none ∧ (net1 id).badRegion graph1 5 c = some 2 := by decide +kernel

theorem witness_CommitAndSeal_seal : let x := { stream1 with region := none, offset := 8 }
    x.region = none ∧ x.sum + 2 = 0 ∧ x.offset + 1 = x.len ∧ x.sum + 3 ≠ 0 ∧ stream1.offset + 1 ≠ stream1.len ∧
    stream1.region.isSome = true := by decide

theorem witness_CommitAndSeal_start : let s : State := { bound1 with graph := { graph1 with starts := [(0, [5])] } }
    s.getGraph 0 = some { graph1 with starts := [(0, [5])] } := rfl


/-! ### Witnesses: rows of cells -/

/-- Region 2 in focus, one cell of which holds in c0 a beat of the largest FP32 number. -/
def cells1 : State := { bound1 with
  graph := { graph1 with regions := [reg2], phase := .rows, todo := [2] }
  region := { reg2 with loop := .running, cfg := { reg2.cfg with rows := 1, cols := 2, words := [(0, 0x1C800000)] } }
  cells := [(0, { Cell.bound with c := Vector.replicate 4 ⟨0x7F7FFFFF, 0, 0, false, 1, 0⟩ })] }

/-- The same under the overflow policy TRAP. -/
def cells2 : State := { cells1 with region := { cells1.region with cfg := { cells1.region.cfg with mode := 3 } } }

theorem witness_StepRunsWords_graph : let s : State := { cells1 with turns := [.graph 0], region := Region.empty
                                                                     graph := { cells1.graph with regions := [cells1.region] } }
    (s.agenda = [] ∧ s.island.st = .serve ∧ s.mgmt.thermal = false ∧ s.turns = .graph 0 :: []) ∧
    (s.focusGraph 0).graph.slot = 0 ∧ (s.focusGraph 0).graph.phase = .rows ∧ (s.focusGraph 0).graph.todo = 2 :: [] ∧
    ∃ u, u = ((s.focusGraph 0).setTodo []).focusRegion 2 ∧ u.region.id = 2 ∧ u.graph.faulted.contains 2 = false ∧
      0x1C800000 = sparseGet 0 u.region.cfg.words u.region.rowNo ∧ u.region.gateOpen (fld (0x1C800000 : Word) 26 6).toNat = true ∧
      decodeCell 0x1C800000 = .ok (.cellPass 1 0 0 0 0 0) :=
  ⟨by decide, rfl, rfl, rfl, _, rfl, rfl, by decide, by decide, by decide, by decide⟩

theorem witness_CellTokenRows : (rowForm (.cellVadd 0 0 1 0 0 0 0 0 0)).isSome = true := rfl

theorem witness_CellTokenRows_conversion : ∃ f, rowConv (.cellVcvt 0 0 0 0 0 0 0 1 0) = some (.vcvt, ⟨0, 0, 0, 0, 0, 1, 0⟩, 0, 0, f) ∧
    (∀ v, ∃ r, convSpec (f 0 v) = some r) ∧ cells1.region.cfg.mode.extractLsb' 0 2 ≠ 3 ∧
    (0 : BitVec 3) ≠ 6 ∧ ((cells1.cellIn (0, 0)).ownOperand ⟨0, 0, 0, 0, 0, 1, 0⟩ 0).bub = false ∧ convPair .vcvt 1 0 = true :=
  ⟨_, rfl, fun _ => ⟨_, rfl⟩, by decide, by decide, by decide, by decide⟩

/-- The same of a weight entry. -/
theorem witness_CellTokenRows_entry : ∃ k u fi fo f, rowConv (.cellVcvt 0 6 0 0 0 0 0 1 5) = some (k, u, fi, fo, f) ∧ u.a = 6 :=
  ⟨_, _, _, _, _, rfl, rfl⟩

/-- The first cell overflows at position 0. -/
theorem witness_CellTokenRows_trap : cells2.region.cfg.cells = [] ++ (0, 0) :: [(0, 1)] ∧ cells2.graph.fault = none ∧
    ∃ q lanes, (overTokens (tokensOf 1) (cells2.cellIn (0, 0)).gens (convertPos (cells2.cellIn (0, 0)) .vcvt false false 1
      ((cells2.cellIn (0, 0)).ownOperand ⟨0, 0, 0, 0, 0, 1, 0⟩ 0))).ovf = some (q, lanes) :=
  ⟨by decide, rfl, 0, 1, by decide +kernel⟩

/-- An INT32 beat has no pair with FP16 under VCVT. -/
theorem witness_CellTokenRows_noPair : convPair .vcvt 1 9 = false := by decide

theorem witness_CellMoves : (rowRed (.cellRfold 0 0 1 0 0 0 0 0)).isSome = true ∧ cells1.region.cfg.col0 + cells1.region.cfg.cols ≤ 704 ∧
    cells1.region.cfg.holds 0 2 = false := by decide

theorem witness_CellMoves_select : let n := cells1.cellIn (0, 0)
    (n.operand ⟨0, 0, 1, 0, 0, 0, 0⟩ 0).bub = false ∧ (n.operand ⟨0, 5, 1, 0, 0, 0, 0⟩ 5).bub = true := by decide

/-- A WPLT whose token is no slice, and a WLOAD. -/
theorem witness_CellMoves_slice : sliceOk { Token.reset with data := 0x7F7FFFFF } = false := by decide +kernel

theorem witness_CellSums : let n := cells1.cellIn (0, 0)
    n.west.bub = true ∧ ({ n with west := ⟨0, 0, 0, false, 0, 0⟩ } : CellIn).west.bub = false ∧ (10 : BitVec 4) = 10 ∧ n.i % 3 = 0 ∧
    ({ n with i := 2 } : CellIn).i % 3 = 2 := by decide +kernel

theorem witness_CellStreams : let s := cells1.settle
    s.graph.getRegion 2 = some cells1.region ∧ (∀ z, findWard cells1.region.wards.toList 0 = some z → z.pr = false ∧ z.pw = false) := by
  refine ⟨rfl, fun z h => ?_⟩
  have e : findWard cells1.region.wards.toList 0 = none := by decide
  rw [e] at h
  cases h

/-- The region's wards are those of the core: a stream whose base is 0x10000 reads and writes page 1. -/
def agnReg : Region := { cells1.region with
  wards := core1.wards, cfg := { cells1.region.cfg with fields := [(0x100, 0x10000)] } }

/-- That region in its graph. -/
def agn1 : State := { cells1 with graph := { cells1.graph with regions := [agnReg] }, region := Region.empty }

theorem witness_CellStreams_reads : ∃ y z v, agn1.graph.getRegion 2 = some y ∧ findWard y.wards.toList (y.streamVa 0 0 0) = some z ∧
    z.pr = true ∧ z.pw = true ∧ z.isRemote = false ∧ (∃ a u, hubLoad agn1 (z.ia (y.streamVa 0 0 0)) 64 (Access.loads false) = .value v a u) ∧
    (∃ a u, hubAccess agn1 (z.ia (y.streamVa 0 0 0) / 64 * 64) Access.stores = .at (5 * 65536) a u) ∧ y.creel = [] ∧ y.sent = [] ∧
    y.owedRemote = [] ∧ y.heldWrites = [] ∧ (∀ x ∈ agn1.graph.requests, x.agn ≠ 2) ∧
    (∀ l ∈ loadLines agn1 (z.ia (y.streamVa 0 0 0)), l ∉ agn1.island.dirtyLines) ∧ 5 * 65536 % 64 = 0 ∧
    linePoisoned agn1 (5 * 65536) = false :=
  ⟨agnReg, core1.wards.get 0, 0, rfl, by decide, rfl, rfl, rfl, loadValue, hubAt, rfl, rfl, rfl, rfl, by decide, noDirty _ _, rfl, by decide⟩

/-- That stream with a write of its line in the creel. -/
theorem witness_CellStreams_pending : let e : CreelEntry := ⟨0x10000, 0, 1, 1, false, .pending, 0xFF, 7, 0, 0, 0x1234, none, none, none, none⟩
    let y : Region := { agnReg with creel := [e], creelSeq := 1 }
    ∃ e ∈ y.creel, e.state = .pending ∧ e.seq < y.creelSeq ∧ e.dest = none ∧
      e.ia.toNat / 64 ∈ loadLines agn1 ((core1.wards.get 0).ia (agnReg.streamVa 0 0 0)) := ⟨_, .head _, rfl, by decide, rfl, by decide⟩

/-- A stream whose page is not mapped. -/
theorem witness_CellStreams_unmapped : hubLoad agn1 0x30000 64 (Access.loads false) = .unmapped 3 := loadUnmapped

/-- Feed 1 of the north edge of region 2: slot 3, position 0 enabled. -/
def feed1 : State := { cells1 with
  tile := { cells1.tile with omPoison := [3 * 1024 + 2] }
  region := { cells1.region with cfg := { cells1.region.cfg with
    rows := 16, cols := 16, fields := [(0x82, 0x0103), (0x83, 0x300000)] } } }

theorem witness_CellFeeds : let c := feed1.region.cfg
    let b := c.field 0x83
    (0 ∈ c.edgeTiles (edgeOfCode (b.extractLsb' 10 2)) ∧ b.getLsbD 20 = true ∧
      c.localPos (edgeOfCode (b.extractLsb' 10 2)) 0 (b.extractLsb' 12 4).toNat = some 0) ∧
    (c.field 0x82).extractLsb' 0 8 = 3 ∧ (0 : Nat) < 2 := by decide

/-- What operand memory holds there, of a token that is poisoned and of one that this port slot has written. -/
theorem witness_CellFeeds_sees (f : Bool) : ∃ z, z.poison = f ∧
    OmSees { feed1 with tile := { feed1.tile with omBefore := [⟨3 * 1024 + 2, 9, 0, f⟩] } } 0 (3 * 65536 + 128) z :=
  ⟨_, rfl, rfl, .inl ⟨[], [], rfl, by simp⟩⟩

/-- No request of window 4 is due in a cell: the window gives a bubble. -/
theorem witness_CellFeeds_windows : ∀ p ∈ cells1.region.cfg.cells, cells1.windowDue 4 p = .nothing := by
  have h : ∀ x : Due, (match x with | .nothing => true | _ => false) = true → x = .nothing := by intro x; cases x <;> simp
  have k : ∀ p ∈ cells1.region.cfg.cells, (match cells1.windowDue 4 p with | .nothing => true | _ => false) = true := by decide
  exact fun p hp => h _ (k p hp)

/-- A request that is due and has no reply: with HOLD and W = 8, and without. -/
def due1 (v : BitVec 32) : State := { cells1 with
  graph := { cells1.graph with slotNo := 9 }
  region := { cells1.region with
    cfg := { cells1.region.cfg with fields := [(0x44, v)] }
    latches := [⟨6, 4, .w, 0, 0, none⟩] } }

theorem witness_CellFeeds_absent : (due1 0x30007).region.cfg.cells = [] ++ (0, 0) :: [(0, 1)] ∧
    (due1 0x30007).windowDue 4 (0, 0) = .absent .w 0 (some 6) ∧ ((due1 0x30007).region.cfg.field 0x44).getLsbD 16 = true ∧
    (due1 0x20007).windowDue 4 (0, 0) = .absent .w 0 (some 6) ∧ ((due1 0x20007).region.cfg.field 0x44).getLsbD 16 = false ∧
    (due1 0x20007).graph.fault = none ∧ (∀ e ∈ [(Edge.w, 0), (Edge.n, 0)], (due1 0x30007).gateAt 4 e = none) := by
  have h : ∀ x : Due, (match x with | .absent e p i => e == .w && p == 0 && i == some 6 | _ => false) = true → x = .absent .w 0 (some 6) := by
    intro x; cases x <;> simp_all
  exact ⟨by decide, h _ (by decide), by decide, h _ (by decide), by decide, rfl, by decide⟩

/-! ### Witnesses: events of slots and clocks -/

/-- The same region waiting to switch, at a pass whose stages are empty after it. -/
def switch1 (l : LoopState) : State := { cells1 with
  region := Region.empty
  graph := { cells1.graph with
    regions := [{ cells1.region with loop := l, next := some RegionCfg.empty }]
    requests := [⟨6, 3, 2, 0, none, false, 0, 0, none, none, some Beat.bubble⟩] } }

theorem witness_SlotEvents : (switch1 .paused).getGraph 0 = some (switch1 .paused).graph := rfl

theorem witness_SlotEvents_switch : let u := switch1 .paused
    ∃ y, u.graph.getRegion 2 = some y ∧ y.next = some RegionCfg.empty ∧ y.loop = .paused ∧ y.landings = [] ∧ y.feeds = [] ∧
      u.streamEnded u.graph 2 = true := ⟨_, rfl, rfl, rfl, rfl, rfl, by decide⟩

theorem witness_SlotEvents_runs : ∃ y, (switch1 .running).graph.getRegion 2 = some y ∧ y.next = some RegionCfg.empty ∧ y.loop = .running :=
  ⟨_, rfl, rfl, rfl⟩

theorem witness_SlotEvents_reply : ∃ q, ((switch1 .running).graph.requests.find? fun y => y.id == 6 && y.answer.isSome) = some q ∧ (0 : Nat) < 64 :=
  ⟨_, rfl, by decide⟩

theorem witness_SlotEvents_tile : (switch1 .running).graphOfTile 0 = some (switch1 .running).graph ∧ (switch1 .running).graph.slot = 0 :=
  ⟨rfl, rfl⟩

theorem witness_ClockEvents_running : bound1.mgmt.thermal = false ∧ bound1.island.st ≠ .ireset ∧ bound1.island.st ≠ .off ∧
    bound1.getGraph 0 = some graph1 ∧ (bound1.getTile 0).spine.aLost = false ∧ bound1.graphOfTile 43 = none ∧ bound1.graphOfTile 1 = some graph1 :=
  ⟨rfl, by decide, by decide, rfl, rfl, rfl, rfl⟩

theorem witness_ClockEvents_gated : ({ bound1 with mgmt := { bound1.mgmt with thermal := true } } : State).mgmt.thermal = true := rfl

theorem witness_ClockEvents_throttle : ∃ x ∈ bound1.allGraphs, x.drain = false := ⟨graph1, .head _, rfl⟩

theorem witness_ClockEvents_throttled : ∀ x ∈ st1.allGraphs, x.drain = true := by decide

/-- A tile that has lost its alternate source. -/
theorem witness_ClockEvents_lost : ({ Spine.reset with aLost := true } : Spine).aLost = true := rfl

/-- The reference goes on in OFF and IRESET. -/
theorem witness_ClockEvents_off : ({ st1 with island := { st1.island with st := .off } } : State).island.st = .off := rfl

theorem witness_ClockEvents_spines : (1 : BitVec 3) ≠ 0 ∧ (44 : BitVec 6).toNat ≤ 44 ∧ 44 < (45 : BitVec 6).toNat := by decide

/-- A phase debt of exactly two cycles, and one above. -/
theorem witness_ClockEvents_droop : (bound1.getTile 0).spine.debt.toNat < 4 ∧ 4 ≤ ({ Spine.reset with debt := 4 } : Spine).debt.toNat := by
  decide

/-- A key whose flip is due. -/
theorem witness_ClockEvents_key : ∃ v, (3, v) ∈ ({ st1 with keys := [(3, ⟨false, some ⟨0, 0⟩, [], some 5⟩)] } : State).keys ∧
    v.flip = some 5 ∧ (5 : BitVec 64).toNat ≤ (st1.time + 10).toNat := ⟨_, .head _, rfl, by decide⟩


/-! ### Witnesses: ends of commands -/

/-- Command 0 of tile 0, in a graph that holds hoop 5, with a region of typ 0, one row and one accumulator over tile 0. -/
def cmd1 (k : CmdKind) (st : CmdState) (sa sb : BitVec 64) : State := { bound1 with
  graph := { graph1 with
    record := graph1.record ||| 1 <<< 133
    regions := [{ reg2 with cfg := { reg2.cfg with fields := [(7, 1)] } }] }
  tile := { bound1.tile with core := { core1 with cmds := [⟨0, k, 5, sa, sb, 7, true, core1.wards.get 0, 0, st, none, none⟩] } } }

/-- Hoop 5 of that graph. -/
def hoop1 (sa sb : BitVec 64) (h : Hoop) : State :=
  { cmd1 .hoop .queued sa sb with hoops := (Vector.replicate 64 Hoop.reset).set 5 h }

theorem witness_CommandEvents_none : ((st1.getTile 0).core.cmds.find? fun y => y.serial == 0) = none ∧ st1.settle.mgmt.saved = [] := ⟨rfl, rfl⟩

theorem witness_CommandEvents_started : ∃ x, (((cmd1 .drn .started 0 0).getTile 0).core.cmds.find? fun y => y.serial == 0) = some x ∧
    x.state ≠ .queued := ⟨_, rfl, by decide⟩

theorem witness_CommandEvents_hoop : ∀ sa sb h, ∃ x, (((hoop1 sa sb h).getTile 0).core.cmds.find? fun y => y.serial == 0) = some x ∧
    x.kind = .hoop ∧ (hoop1 sa sb h).cmdReady 0 x = true ∧ x.sa = sa ∧ x.sb = sb ∧
    ∃ g, (hoop1 sa sb h).graphOfTile 0 = some g ∧ g.record.getLsbD (128 + 5) = true :=
  fun _ _ _ => ⟨_, rfl, rfl, rfl, rfl, rfl, _, rfl, (by decide +kernel : (graph1.record ||| 1 <<< 133).getLsbD 133 = true)⟩

/-- The operations of HOOP at hoop 5: ARRIVE (the last of one and the first of two), arm with 1 and 4,096 arrivals, query; the
reserved bits and values, and a hoop that the graph does not hold. -/
theorem witness_CommandEvents_operations : let ok := fun sa : BitVec 64 => (sa.extractLsb' 0 6).toNat = 5 ∧ sa.extractLsb' 6 2 = 0 ∧ sa.extractLsb' 10 54 = 0
    let op := fun sa : BitVec 64 => (sa.extractLsb' 8 2).toNat
    (ok 5 ∧ op 5 = 0 ∧ ok 0x105 ∧ op 0x105 = 1 ∧ ok 0x205 ∧ op 0x205 = 2) ∧ (0x45 : BitVec 64).extractLsb' 6 2 ≠ 0 ∧ op 0x305 = 3 ∧
    (4096 : BitVec 64).toNat ≤ 4096 ∧ 4096 < (4097 : BitVec 64).toNat ∧ (cmd1 .hoop .queued 6 0).graph.record.getLsbD (128 + 6) = false := by
  decide +kernel

/-- A hoop whose last arrival is in, one that still waits for it, and one in which another program arrived early. -/
theorem witness_CommandEvents_open : let x : Hoop := ⟨1, 0, 0, [.cmd ⟨0, 0⟩], []⟩
    (hoop1 5 0 x).hoops.toList[5]? = some x ∧ x.p ≠ 0 ∧ x.arrivals.length = x.p.toNat ∧ x.bytes = 0 ∧
    (⟨2, 0, 0, [.engine], []⟩ : Hoop).arrivals.length ≠ (⟨2, 0, 0, [.engine], []⟩ : Hoop).p.toNat := by decide

/-- A hoop at which another module has arrived, and a hoop that one arrival of the next superstep waits at. -/
theorem witness_CommandEvents_remote : let q : Packet := ⟨0, 3, 1, 0, false, .orphan 2⟩
    (⟨1, 0, 0, [.remote q], []⟩ : Hoop).arrivals = [.remote q] ∧
    (⟨0, 0, 0, [], [.cmd ⟨0, 0⟩]⟩ : Hoop).arrivals ++ (⟨0, 0, 0, [], [.cmd ⟨0, 0⟩]⟩ : Hoop).early = [.cmd ⟨0, 0⟩] := ⟨rfl, rfl⟩

theorem witness_CommandEvents_key : let s : State := { st1 with time := 5, keys := [(3, ⟨false, some ⟨0, 0⟩, [], some 5⟩)] }
    ∃ x, x = sparseGet Key.reset s.keys 3 ∧ x.pending = some ⟨0, 0⟩ ∧ x.flip = some 5 ∧ (5 : BitVec 64).toNat ≤ s.time.toNat ∧
    st1.time.toNat < (5 : BitVec 64).toNat := ⟨_, rfl, rfl, rfl, by decide, by decide⟩

/-- A DRN of one accumulator of region 2 to the last beat of slot 0, with the bit that clears. -/
theorem witness_CommandEvents_drain : let s := cmd1 .drn .started 0x800002 0xFFC0
    ∃ x g y, Started s ⟨0, 0⟩ .drn x ∧ s.graphOfTile 0 = some g ∧ s.getGraph g.slot = some g ∧ drainRegion s 0 x = some y ∧
      (x.sb.extractLsb' 0 24).toNat % 64 = 0 ∧ x.sa.getLsbD 23 = true := ⟨_, _, _, rfl, rfl, rfl, rfl, by decide, by decide⟩

/-- A claim of slot 255, which is free, and one of a slot that another context owns. -/
theorem witness_CommandEvents_claim : let s := cmd1 .ocl .started 0xFF 0
    let o := { s with tile := { s.tile with owners := [(255, 9)] } }
    ∃ x, Started s ⟨0, 0⟩ .ocl x ∧ (x.sa.extractLsb' 0 8).toNat = 255 ∧ assocGet (s.getTile 0).owners 255 = none ∧
      assocGet (o.getTile 0).owners 255 = some 9 ∧ x.ctx ≠ 9 := ⟨_, rfl, by decide, rfl, rfl, by decide⟩

theorem witness_CommandEvents_invalidate : ∃ x, Started (cmd1 .pinv .started 0 0) ⟨0, 0⟩ .pinv x := ⟨_, rfl⟩

/-- A migration of page 1 to frame 9 under its first of two tries; and one in which the entry was written, at its last try. -/
def mig1 (tries : Nat) (seen : Bool) : State := { cmd1 .mig .started 0 0 with
  migrations := [⟨⟨0, 0⟩, 1, 9, none, 0x5000000027, tries, 1, seen, false⟩] }

theorem witness_CommandEvents_migration : ∃ m, ((mig1 2 false).migrations.find? fun y => y.page == 1 && y.splice == false) = some m ∧
    m.seen = false ∧ getPte (mig1 2 false) 1 = m.entry ∧ m.entry.getLsbD 11 = false ∧ m.shadow = none ∧ m.attempt < m.tries :=
  ⟨_, rfl, rfl, by decide, by decide, rfl, by decide⟩

theorem witness_CommandEvents_migration_last : ∃ m, ((mig1 1 true).migrations.find? fun y => y.page == 1 && y.splice == false) = some m ∧
    m.seen = true ∧ m.tries ≤ m.attempt := ⟨_, rfl, rfl, by decide⟩

theorem witness_CommandEvents_splice : let s : State := { mig1 1 false with migrations := [⟨⟨0, 0⟩, 1, 9, none, 0x5000000027, 1, 1, false, true⟩] }
    ∃ m, (s.migrations.find? fun y => y.page == 1 && y.splice == true) = some m ∧ (getPte s 1).getLsbD 11 = false ∧ m.shadow = none :=
  ⟨_, rfl, by decide, rfl⟩

/-- A split of slices 766 and 767, and one whose last slice is 767. -/
theorem witness_CommandEvents_split : let s : List Nat → State := fun l => { cmd1 .hsplit .started 0 0 with splits := [⟨⟨0, 0⟩, 12, l⟩] }
    (∃ x, ((s [766, 767]).splits.find? fun y => splitNum y.ref == 0 && y.todo.contains 767) = some x ∧ ∃ j ∈ x.todo, j ≠ 767) ∧
    ∃ x, ((s [767]).splits.find? fun y => splitNum y.ref == 0 && y.todo.contains 767) = some x ∧ x.todo = [767] ∧
      ∀ m j, HubReq.split m j ∈ (s [767]).hubq → m ≠ 0 := ⟨⟨_, rfl, 766, by decide, by decide⟩, _, rfl, rfl, fun _ _ h => nomatch h⟩

/-- A copy that is done at the head of engine 0 of hub 0, with one behind it, and its writes on the way to other modules. -/
def copy1 (r : BitVec 1024) (owed : List RemoteWrite) : Engine :=
  ⟨[⟨⟨0, 0⟩, r, [], 7, 0, 0, 0, 0, 0, [], none, none, some ⟨0, 0, 0⟩, false⟩, ⟨⟨0, 1⟩, 0, [], 7, 0, 0, 0, 0, 0, [], none, none, none, false⟩],
    [], 0, owed, []⟩

/-- That engine in place. -/
def copySt (e : Engine) : State := { cmd1 .cpy .started 0 0 with
  hubs := (Vector.replicate 12 Hub.reset).set 0 { Hub.reset with engines := Hub.reset.engines.set 0 e } }

theorem witness_CommandEvents_copy : ∀ r, copyCmpl r = 0 → ∃ x c rest st, x = (copySt (copy1 r [])).engine 0 0 ∧ x.queue = c :: rest ∧
    c.status = some st ∧ (copyCmpl c.record = 0 ∨ c.cmplDone = true) ∧ (∀ y ∈ x.owedRemote, y.entry.ref ≠ some c.ref) ∧
    (∀ y ∈ x.creel, y.ref ≠ some c.ref) ∧ rest ≠ [] ∧ c.record = r :=
  fun _ h => ⟨_, _, _, _, rfl, rfl, rfl, .inl h, (fun _ h => nomatch h), (fun _ h => nomatch h), (fun h => nomatch h), rfl⟩

/-- A record with ARRIVE at hoop 5, and one with neither. -/
theorem witness_CommandEvents_copy_records : let r : BitVec 1024 := 0x54000
    (copyCmpl r = 0 ∧ copyArrive r = true ∧ copyHoopen r = false ∧ copyHoop r = 5) ∧ copyCmpl 0 = 0 ∧ copyArrive 0 = false ∧ copyHoopen 0 = false := by
  decide +kernel

theorem witness_CommandEvents_copy_owed : let w : RemoteWrite := ⟨9, { entry3 1 with ref := some ⟨0, 0⟩, dest := some 3 }, false⟩
    ∃ c rest, ((copySt (copy1 0 [w])).engine 0 0).queue = c :: rest ∧
    ∃ y ∈ ((copySt (copy1 0 [w])).engine 0 0).owedRemote, y.entry.ref = some c.ref := ⟨_, _, rfl, _, .head _, rfl⟩

/-- An encoding whose targets are read, one whose segment is stored, in hub 0. -/
theorem witness_CommandEvents_encoding : let e : Option Status → Encoding := fun st => ⟨⟨0, 0⟩, 0, [], 7, 0, [], none, 0, none, st, false⟩
    let s : Option Status → State := fun st => { st1 with hubs := (Vector.replicate 12 Hub.reset).set 0 { Hub.reset with encodings := [e st] } }
    (getHub (s none) 0).encodings = e none :: [] ∧ (e none).segment = none ∧ pleCount (e none).record ≤ (e none).targets.length ∧
    (getHub (s (some ⟨0, 0, 0⟩)) 0).encodings = e (some ⟨0, 0, 0⟩) :: [] ∧ pleCmpl 0 = 0 ∧
    (∀ y ∈ ((s (some ⟨0, 0, 0⟩)).engine 0 0).creel, y.ref ≠ some ⟨0, 0⟩) ∧
    ∀ y ∈ ((s (some ⟨0, 0, 0⟩)).engine 0 0).owedRemote, y.entry.ref ≠ some ⟨0, 0⟩ :=
  ⟨rfl, rfl, by decide +kernel, rfl, by decide +kernel, (fun _ h => nomatch h), fun _ h => nomatch h⟩

/-! ### Witnesses: hubs -/

/-- Hub 0 in place of the one of the machine. -/
def hubSt (h : Hub) : State := { st1 with hubs := (Vector.replicate 12 Hub.reset).set 0 h }

theorem hubSt_get (h : Hub) : getHub (hubSt h) 0 = h := rfl

/-- Sets 0 in the states LIVE, DRAIN and RESTRIPE, and set 15 in DRAIN. -/
theorem witness_HubMaintenance_sets : (0 : Nat) < 12 ∧ (getHub (hubSt Hub.reset) 0).setState 0 ≠ 1 ∧
    ({ Hub.reset with setSt := 1 } : Hub).setState (0 : BitVec 4).toNat = 1 ∧ ({ Hub.reset with setSt := 2 } : Hub).setState (16 % 16) = 2 ∧
    ({ Hub.reset with setSt := 1 <<< 30 } : Hub).setState (15 : BitVec 4).toNat = 1 := by decide

/-- KIND 9 is the last that is not reserved. -/
theorem witness_HubMaintenance_kinds : ((0x12 : BitVec 64).extractLsb' 1 4).toNat < 10 ∧ ¬ ((0x14 : BitVec 64).extractLsb' 1 4).toNat < 10 := by
  decide

theorem witness_HubMaintenance_dies : (getHub (hubSt Hub.reset) 0).cacheDie = 0 ∧ (getHub (hubSt { Hub.reset with cacheDie := 1 }) 0).cacheDie = 1 ∧
    (getHub (hubSt { Hub.reset with cacheDie := 2 }) 0).cacheDie = 2 := ⟨rfl, rfl, rfl⟩

/-- Frame 5 is named by the entry of page 1 and no line of it is clear; frame 7 is named by no entry; of frame 0 every line is clear. -/
theorem witness_HubMaintenance_frames : (∃ e ∈ st1.ptes, 5 ∈ pteFrames e.2) ∧ ¬ (1024 * 5 ∈ (getHub st1 0).cleared) ∧
    ¬ (∃ e ∈ st1.ptes, 7 ∈ pteFrames e.2) ∧ ∀ l, l < 1024 → 1024 * 0 + l ∈ (getHub (hubSt { Hub.reset with cleared := List.range 1024 }) 0).cleared :=
  ⟨by decide, by decide, by decide, by simp only [hubSt_get, Nat.mul_zero, Nat.zero_add, List.mem_range, imp_self, implies_true]⟩

/-- Slot 255 of tile 0, owned by a context that is bound to no graph: in place, and evicted with one byte that is not 0. -/
theorem witness_HubMaintenance_eviction : let s : State := { st1 with tile := { st1.tile with owners := [(255, 9)] } }
    assocGet (s.settle.getTile 0).owners 255 = some 9 ∧ (∀ y ∈ s.settle.mgmt.evicted, ¬ (y.1 = 0 ∧ y.2.1 = 255)) ∧ (∀ g ∈ s.settle.allGraphs, g.ctx ≠ 9) ∧
    assocGet (s.settle.getTile 0).owners 254 = none := ⟨rfl, by decide, by decide, rfl⟩

theorem witness_HubMaintenance_return : let y : Nat × Nat × Sparse Byte := (0, 255, [(omLoc 0 (255 * 65536) + 65535, 1)])
    let s : State := { st1 with mgmt := { st1.mgmt with evicted := [y] } }
    (s.settle.mgmt.evicted.find? fun y => y.1 == 0 && y.2.1 == 255) = some y ∧ sparseWf 0 y.2.2 = true ∧
    (∀ x ∈ y.2.2, omLoc 0 (255 * 65536) ≤ x.1 ∧ x.1 < omLoc 0 (255 * 65536) + 65536) ∧
    st1.settle.mgmt.evicted = [] := ⟨rfl, by decide +kernel, by decide +kernel, rfl⟩

/-- A write to a line that the companion holds modified, which waits in the creel. -/
theorem witness_HubMaintenance_line : let e := entry3 1
    let s := with1 fun c => { c with creel := [e] }
    e ∈ (s.getTile 0).core.creel ∧ e.state = .pending ∧ e.dest = none ∧ e.ia.toNat / 64 = 0xC00 := ⟨.head _, by decide⟩

/-! ### Witnesses: notices and replay -/

theorem witness_NoticesAndReplay_requests : st1.hubq = [] ∧ ({ st1 with hubq := [.rimLoad 0] } : State).hubq = .rimLoad 0 :: [] := ⟨rfl, rfl⟩

/-- A write of the core to `ia` on its way to its hub. -/
def aloft1 (ia : BitVec 44) (op : BitVec 3) (mask : BitVec 64) : CreelEntry :=
  ⟨ia, op, 1, 1, false, .pending, mask, 7, 0, 0, 0, none, none, none, none⟩

/-- That write, next at the hubs, with a creel behind it. -/
def aloftSt (e : CreelEntry) (l : List CreelEntry) : State :=
  { (with1 fun c => { c with aloft := [e], creel := l }) with hubq := [.rimStore 0] }

theorem witness_NoticesAndReplay_aloft : let e := aloft1 0x10040 0 0xF0
    (aloftSt e []).hubq = .rimStore 0 :: [] ∧ ((aloftSt e []).getTile 0).core.aloft = e :: [] ∧
    ¬ (e.op ≠ 0 ∧ e.ia.toNat / 64 ∈ (aloftSt e []).island.dirtyLines) ∧ (∀ y ∈ ((aloftSt e []).getTile 0).core.creel, y.state ≠ .pending) ∧
    (∃ attr h, hubAccess { aloftSt e [] with hubq := [] } e.ia.toNat Access.stores = .at (5 * 65536 + 64) attr h) ∧
    (5 * 65536 + 64) % 64 = 0 ∧ linePoisoned (aloftSt e []) (5 * 65536 + 64) = false :=
  ⟨rfl, rfl, fun h => h.1 rfl, (fun _ h => nomatch h), hubAt, rfl, by decide⟩

/-- No write on its way. -/
theorem witness_NoticesAndReplay_aloft_none : ((({ st1 with hubq := [.rimStore 0] } : State).getTile 0).core.aloft) = [] := rfl

/-- A reduction to a line that the companion holds modified. -/
theorem witness_NoticesAndReplay_aloft_recalled : let e := aloft1 0x10040 1 0xF0
    let s := { aloftSt e [] with island := { Island.reset with dirtyLines := [0x401] } }
    e.op ≠ 0 ∧ e.ia.toNat / 64 ∈ s.island.dirtyLines := by decide

/-- A write behind an SO entry, one behind an entry of its page, and one that is neither. -/
theorem witness_NoticesAndReplay_aloft_behind : let e := aloft1 0x10040 0 0xF0
    let so := { entry3 1 with attr := 0 }
    (so.state = .pending ∧ so.attr = 0 ∧ ({ e with attr := 0 } : CreelEntry).attr = 0) ∧
    (aloft1 0x10000 0 1).pageKey = e.pageKey ∧ (entry3 1).pageKey ≠ e.pageKey := by decide

/-- The hub's other answers: a page that is not mapped, one that may not be written, and a write of a whole line over a poisoned one. -/
theorem witness_NoticesAndReplay_aloft_unmapped :
    hubAccess { aloftSt (aloft1 0x30000 0 1) [] with hubq := [] } 0x30000 Access.stores = .unmapped 3 := hubUnmapped

theorem hubRefused {x : HubAnswer} {r : BitVec 8} (h : (match x with | .refused q => q == r | _ => false) = true := by decide) :
    x = .refused r := by cases x <;> simp_all

theorem witness_NoticesAndReplay_aloft_refused :
    hubAccess { aloftSt (aloft1 0x10000 0 1) [] with hubq := [], ptes := [(1, 0x5000000003)] } 0x10000 Access.stores = .refused 1 := hubRefused

theorem witness_NoticesAndReplay_aloft_poisoned : let s := { aloftSt (aloft1 0x10000 0 1) [] with linePoison := [5 * 1024] }
    linePoisoned s (5 * 65536) = true ∧ (aloft1 0x10000 0 1).mask ≠ BitVec.allOnes 64 ∧
    (aloft1 0x10000 0 (BitVec.allOnes 64)).op = 0 := by decide

/-- Writes whose report is on its way: one that was performed, one that was refused, and one refused of another context. -/
theorem witness_NoticesAndReplay_sent : let x : BitVec 16 → BitVec 6 → SentWrite := fun ctx out => ⟨0x10000, ctx, 1, out⟩
    ((with1 fun c => { c with sent := [x 7 0] }).getTile 0).core.sent = x 7 0 :: [] ∧ (x 7 0).out = 0 ∧
    (x 7 2).out ≠ 0 ∧ (x 7 2).ctx = core1.ctx ∧ (x 9 2).ctx ≠ core1.ctx := ⟨rfl, by decide⟩

theorem witness_NoticesAndReplay_sent_cells : let x : SentWrite := ⟨0x10000, 7, 1, 2⟩
    let s := { agn1 with graph := { agn1.graph with regions := [{ agnReg with sent := [x] }] } }
    ∃ g y, s.settle.getGraph 0 = some g ∧ g.getRegion 2 = some y ∧ y.sent = x :: [] ∧ x.out ≠ 0 := ⟨_, _, rfl, rfl, rfl, by decide⟩

theorem witness_NoticesAndReplay_sent_other : (∀ k, Issuer.companion ≠ .rim k) ∧ ∀ g r, Issuer.companion ≠ .agn g r :=
  ⟨(fun _ h => nomatch h), fun _ _ h => nomatch h⟩

/-- Notice 4 about page 9. -/
def notice1 (who : Issuer) (kind : BitVec 2) (s : State) : State := { s with notices := [⟨4, 9, who, 7, kind, 9 * 65536, 0⟩] }

/-- A creel of two entries: one pending store to page 9, and one that ended REFUSED. -/
def entry1 (st : EntryState) (seq : Nat) (out : BitVec 6) : CreelEntry :=
  { ia := 0x90000, op := 0, scope := 1, attr := 1, ord := false, state := st, mask := 0xF0, ctx := 7, out, seq, data := 0, key := none
    hoop := none, ref := none, dest := none }

/-- That creel in the core, whose load of page 9 is held. -/
def creel1 : State := with1 fun c => { c with stall := .load 0x30000 9, creel := [entry1 .pending 0 0, entry1 .ended 1 2] }

theorem witness_NoticesAndReplay_none : ∀ x ∈ st1.notices, x.id ≠ 4 := fun _ h => nomatch h

theorem witness_NoticesAndReplay_core : let s := notice1 (.rim 0) 1 creel1
    ∃ x, (s.notices.find? fun y => y.id == 4) = some x ∧ x.who = .rim 0 ∧ s.mgmt.saved = [] ∧
      (∃ va, (s.getTile 0).core.stall = .load va x.page) ∧ (s.getTile 0).core.ctx = x.ctx ∧
      ((s.getTile 0).core.creel.map fun e => e.seq).Nodup ∧ (s.getTile 0).core.cmds = [] := ⟨_, rfl, rfl, rfl, ⟨_, rfl⟩, rfl, by decide, rfl⟩

/-- A core whose load is held at another page. -/
theorem witness_NoticesAndReplay_other : ∀ va, (with1 fun c => { c with stall := .load 0x30000 8 }).tile.core.stall ≠ .load va 9 :=
  fun _ h => by injection h with _ e; exact absurd e (by decide)

/-- A copy whose record lies on the page of the notice. -/
theorem witness_NoticesAndReplay_command : (cmd1 .cpy .recordWait 0x60000 0).tile.core.cmds.filter (fun y =>
    y.state == .recordWait && y.ctx == 7 && !y.ward.isRemote &&
      (y.ward.ia y.recordVa / 65536 == 6 || y.ward.ia (y.recordVa + 127) / 65536 == 6)) =
    [⟨0, .cpy, 5, 0x60000, 0, 7, true, core1.wards.get 0, 0, .recordWait, none, none⟩] := by decide +kernel

/-- A region, one request of which waits for page 9. -/
def cells9 : State := notice1 (.agn 0 2) 1 { agn1 with graph := { agn1.graph with requests :=
  [⟨6, 2, 2, 9 * 65536, none, false, 0, 0, none, some 9, none⟩] } }

theorem witness_NoticesAndReplay_cells : let s := cells9
    let u : State := { s with notices := [] }
    ∃ x y q, (s.notices.find? fun y => y.id == 4) = some x ∧ x.who = .agn 0 2 ∧ u.settle.getGraph 0 = some y ∧ u.settle.graph.slot = 0 ∧
      (u.settle.graph.requests.map fun q => q.id).Nodup ∧ q ∈ u.settle.graph.requests ∧ q.agn = 2 ∧ q.held = some x.page :=
  ⟨_, _, _, rfl, rfl, rfl, rfl, by decide, .head _, rfl, rfl⟩

/-- A copy at the head of an engine, which waits for a page. -/
def waits9 (w : Option Nat) : State := notice1 (.eng 0 0) 2 (copySt { copy1 0 [] with
  queue := [⟨⟨0, 0⟩, 0, [], 7, 0, 0, 0, 0, 0, [], w, none, none, false⟩] })

theorem witness_NoticesAndReplay_engine : ∀ w, ∃ x c q, ((waits9 w).notices.find? fun y => y.id == 4) = some x ∧ x.who = .eng 0 0 ∧
    (∀ y ∈ ((waits9 w).engine 0 0).creel, y.state ≠ .pending) ∧ ((waits9 w).engine 0 0).queue = c :: q ∧ c.status = none ∧ c.waits = w ∧
    x.page = 9 := fun _ => ⟨_, _, _, rfl, rfl, (fun _ h => nomatch h), rfl, rfl, rfl, rfl⟩

theorem witness_NoticesAndReplay_encoder : ∃ x, ((notice1 (.enc 0) 1 st1).notices.find? fun y => y.id == 4) = some x ∧ x.who = .enc 0 := ⟨_, rfl, rfl⟩

/-- The other issuers: management, the companion, another module's request. -/
theorem witness_NoticesAndReplay_others : ∀ who, ∃ x, ((notice1 who 1 st1).notices.find? fun y => y.id == 4) = some x ∧ x.who = who ∧
    (notice1 who 1 st1).mgmt.writes = [] ∧ (notice1 who 1 st1).hubq = [] := fun _ => ⟨_, rfl, rfl, rfl, rfl⟩

theorem witness_NoticesAndReplay_stream : let s := notice1 (.root 0) 1 { st1 with stream := { st1.stream with len := 8, paused := true } }
    ∃ x, (s.notices.find? fun y => y.id == 4) = some x ∧ x.who = .root s.netIdx ∧ s.stream.len ≠ 0 ∧ s.stream.result = none :=
  ⟨_, rfl, rfl, by decide, rfl⟩

theorem notHeld {s : State} {who : Issuer} {e : CreelEntry} (h : s.notices = [] := by decide) (h2 : s.island.farPages = [] := by decide) :
    ¬ EntryHeld s who [] e := by simp [EntryHeld, h, h2]

/-- The pending store of `creel1` may be performed once no notice is out for its page; behind it an ended entry. -/
theorem witness_NoticesAndReplay_replay : let c := (creel1.getTile 0).core
    c.creel = [] ++ entry1 .pending 0 0 :: [entry1 .ended 1 2] ∧ c.owedRemote = [] ∧
    MayReplay (EntryHeld creel1 (.rim 0) []) c.creel (entry1 .pending 0 0) ∧
    (∀ y ∈ c.creel, ¬ (y.op ≠ 0 ∧ y.dest = none ∧ y.ia.toNat / 64 ∈ creel1.island.dirtyLines)) ∧ (entry1 .pending 0 0).dest = none ∧
    hubAccess creel1 (entry1 .pending 0 0).ia.toNat { Access.stores with key := none } = .unmapped 9 := by
  refine ⟨rfl, rfl, ⟨rfl, notHeld, ?_⟩, by decide, rfl, hubUnmapped⟩
  intro x hx hp hs
  exact absurd hs (Nat.not_lt_zero _)

/-- The same store where page 9 is mapped to frame 5. -/
theorem witness_NoticesAndReplay_performed : let s := { creel1 with ptes := [(9, 0x5000000027)] }
    (∃ attr h, hubAccess s (entry1 .pending 0 0).ia.toNat { Access.stores with key := none } = .at (5 * 65536) attr h) ∧ (5 * 65536) % 64 = 0 :=
  ⟨hubAt, by decide⟩

/-- An entry for another module, and a reduction to a line that the companion holds modified. -/
theorem witness_NoticesAndReplay_away : let e : CreelEntry := { entry1 .pending 0 0 with dest := some 3 }
    let s := with1 fun c => { c with creel := [e] }
    (s.getTile 0).core.creel = [] ++ e :: [] ∧ e.dest = some 3 ∧ MayReplay (EntryHeld s (.rim 0) []) (s.getTile 0).core.creel e := by
  refine ⟨rfl, rfl, rfl, notHeld, ?_⟩
  intro x _ _ hs
  exact absurd hs (Nat.not_lt_zero _)

theorem witness_NoticesAndReplay_kept : let e : CreelEntry := { entry1 .pending 0 0 with op := 1 }
    let s := { (with1 fun c => { c with creel := [e] }) with island := { Island.reset with dirtyLines := [0x90000 / 64] } }
    ∀ y ∈ (s.getTile 0).core.creel, y.op ≠ 0 ∧ y.dest = none ∧ y.ia.toNat / 64 ∈ s.island.dirtyLines := by decide

/-- With the notice of `notice1` out for the page, no entry may be performed. -/
theorem witness_NoticesAndReplay_held : let s := notice1 (.rim 0) 1 creel1
    ∀ e ∈ (s.getTile 0).core.creel, ¬ MayReplay (EntryHeld s (.rim 0) []) (s.getTile 0).core.creel e := by
  intro s e he h
  exact h.2.1 (.inl ⟨by fin_cases he <;> rfl, _, .head _, by fin_cases he <;> rfl, rfl, by fin_cases he <;> rfl⟩)

theorem witness_NoticesAndReplay_report : let c := (creel1.getTile 0).core
    c.creel = [entry1 .pending 0 0] ++ entry1 .ended 1 2 :: [] ∧ (entry1 .ended 1 2).ctx = c.ctx ∧
    (∀ y ∈ [entry1 .pending 0 0], y.state = .pending ∨ y.ctx ≠ c.ctx) ∧ (entry1 .ended 1 2).op = 0 ∧ (entry1 .ended 1 2).mask.getLsbD 4 = true ∧
    (∀ j, j < 4 → (entry1 .ended 1 2).mask.getLsbD j = false) ∧ c.run ≠ .stopped := by
  refine ⟨rfl, rfl, ?_, rfl, by decide, by decide, by decide⟩
  intro y h
  cases h with
  | head => exact .inl rfl
  | tail _ h => cases h

theorem witness_NoticesAndReplay_nothing : ∀ e ∈ (st1.getTile 0).core.creel, e.state = .pending ∨ e.ctx ≠ (st1.getTile 0).core.ctx :=
  fun _ h => nomatch h

/-! ### Witnesses: strand ports -/

/-- A store of tile 0 on its way to module 5. -/
def far1 (again : Bool) : RemoteWrite := ⟨8, { entry3 5 with dest := some 5 }, again⟩

/-- An island in SERVE with port 0 up, one routing table, and packet 3 in the crossbar. -/
def isl1 (st : IslandState) (up esc : Bool) (pkt : Packet) : State := { (with1 fun c => { c with owedRemote := [far1 false] }) with
  island := { st1.island with
    st, ports := st1.island.ports.set 0 ⟨up, 0, false, 0, [], []⟩, gens := [⟨1, []⟩]
    transit := [⟨3, pkt, some 0, esc⟩], remotes := [⟨8, .rim 0, 7, 5, 0x40, true, []⟩, ⟨9, .rim 0, 7, 5, 0x80, false, []⟩] } }

/-- A packet of generation 1 to a module, from module 5. -/
def pkt1 (dest : BitVec 14) (body : PacketBody) : Packet := ⟨dest, 5, 1, 0, true, body⟩

theorem witness_StrandPorts_flits : let s := isl1 .serve true false (pkt1 0 (.read 1 64 64))
    (s.port 0).up = true ∧ (s.island.st = .serve ∨ s.island.st = .transit) ∧
    ((isl1 .serve false false (pkt1 0 (.ack 1 1))).port 0).up = false := ⟨rfl, .inl rfl, rfl⟩

theorem witness_StrandPorts_absent : ∀ x ∈ st1.island.transit, x.id ≠ 3 := fun _ h => nomatch h

theorem witness_StrandPorts_here : let s := fun st => isl1 st true false (pkt1 0 (.read 1 64 64))
    ∃ x, (((s .serve).island.transit.find? fun y => y.id == 3) = some x ∧ ((s .transit).island.transit.find? fun y => y.id == 3) = some x) ∧
      x.pkt.dest = (s .serve).island.moduleNum ∧ isRequest x.pkt.body = true ∧ x.escape = false ∧ (s .off).island.st = .off :=
  ⟨_, ⟨rfl, rfl⟩, rfl, rfl, rfl, rfl⟩

/-- The word that a page is mapped for which nothing waits. -/
theorem witness_StrandPorts_mapped : let s := isl1 .serve true false (pkt1 0 (.mapped 9))
    ∀ y ∈ s.island.farPages, y.key ≠ pageKey (some 5) (9 * 65536) := fun _ h => nomatch h

/-- The answers of a store: those that end it, and the one that makes it an entry. -/
theorem witness_StrandPorts_answers : ∀ b, bodyId b = 8 → let s := isl1 .serve true false (pkt1 0 b)
    ∃ r y, (s.island.remotes.find? fun y => y.id == bodyId b) = some r ∧ r.who = .rim 0 ∧ r.store = true ∧ r.id = 8 ∧
      ((s.getTile 0).core.owedRemote.find? fun z => z.id == r.id) = some y ∧ y.again = false := by
  intro b h
  rw [h]
  exact ⟨_, _, rfl, rfl, rfl, rfl, rfl, rfl⟩

theorem witness_StrandPorts_bodies : (isRequest (.ack 8 1) = false ∧ isRequest (.refused 8 1) = false ∧ isRequest (.poisoned 8) = false ∧
    isRequest (.orphan 8) = false ∧ isRequest (.aborted 8) = false ∧ isRequest (.unmapped 8) = false ∧ isRequest (.data 9 1 5) = false) ∧
    (∀ page, PacketBody.ack 8 1 ≠ .mapped page ∧ PacketBody.ack 8 1 ≠ .cancelled page) ∧
    ∀ r ∈ (isl1 .serve true false (pkt1 0 (.ack 7 1))).island.remotes, r.id ≠ bodyId (.ack 7 1) :=
  ⟨by decide, (fun _ => ⟨(fun h => nomatch h), fun h => nomatch h⟩), by decide⟩

theorem witness_StrandPorts_data : let s := (isl1 .serve true false (pkt1 0 (.data 9 1 5))).setCore { core1 with stall := .away 9 }
    ∃ r, (s.island.remotes.find? fun y => y.id == 9) = some r ∧ r.who = .rim 0 ∧ r.store = false ∧ (s.getTile 0).core.stall = .away r.id :=
  ⟨_, rfl, rfl, rfl, rfl⟩

/-- A packet of another module whose table names port 0, with the port up and down; one of a generation that no table has. -/
theorem witness_StrandPorts_leaves : let s := isl1 .serve true false (pkt1 2 (.ack 1 1))
    ∃ x g, (s.island.transit.find? fun y => y.id == 3) = some x ∧ x.pkt.dest ≠ s.island.moduleNum ∧
      (s.island.gens.find? fun y => y.gen == x.pkt.gen) = some g ∧ 0 = (g.table.getD x.pkt.dest.toNat 0).toNat ∧ (s.port 0).up = true ∧
      (0, x.pkt.gen) ∉ s.island.lags ∧ (s.port 0).replay.length ≤ 256 ∧
      ((isl1 .serve false false (pkt1 2 (.ack 1 1))).port 0).up = false :=
  ⟨_, _, rfl, by decide, rfl, rfl, rfl, (fun h => nomatch h), by decide, rfl⟩

theorem witness_StrandPorts_escapes : let s := isl1 .serve true true (pkt1 2 (.ack 1 1))
    ∃ x, (s.island.transit.find? fun y => y.id == 3) = some x ∧ x.escape = true ∧ x.pkt.dest ≠ s.island.moduleNum := ⟨_, rfl, rfl, by decide⟩

/-- Of 2 × 2 × 2 modules: 1 differs from 0 along x, 2 along y, 4 along z. -/
theorem witness_StrandPorts_dimensions : let along := fun d (m : Nat) => if d = 0 then m % 2 else if d = 1 then m / 2 % 2 else m / 2 / 2
    (along 0 0 ≠ along 0 1) ∧ (along 0 0 = along 0 2 ∧ along 1 0 ≠ along 1 2) ∧ along 0 0 = along 0 4 ∧ along 1 0 = along 1 4 := by decide

/-- Whichever port the escape channel takes here, all are up, or all down. -/
theorem witness_StrandPorts_escape_up : ∀ up, let s : State := { st1 with
      island := { st1.island with dims := (2, 2, 2), ports := Vector.replicate 16 ⟨up, 0, false, 0, [], []⟩ } }
    ∀ port, port < 16 → (s.port port).up = up ∧ (s.port port).replay.length ≤ 256 := by decide

theorem witness_StrandPorts_timeout : let s := (isl1 .serve true false (pkt1 0 (.ack 1 1))).setCore { core1 with stall := .away 9 }
    (∃ r y, (s.island.remotes.find? fun y => y.id == 8) = some r ∧ r.who = .rim 0 ∧ r.store = true ∧
      (((isl1 .serve true false (pkt1 0 (.ack 1 1))).getTile 0).core.owedRemote.find? fun z => z.id == r.id) = some y) ∧
    (∃ r, (s.island.remotes.find? fun y => y.id == 9) = some r ∧ r.who = .rim 0 ∧ r.store = false ∧ (s.getTile 0).core.stall = .away r.id) ∧
    ∀ r ∈ s.island.remotes, r.id ≠ 7 := ⟨⟨_, _, rfl, rfl, rfl, rfl⟩, ⟨_, rfl, rfl, rfl, rfl⟩, by decide⟩

/-- Generation 2 follows generation 1, and generation 3 does not. -/
theorem witness_StrandPorts_tables : let s := isl1 .serve true false (pkt1 0 (.ack 1 1))
    (∀ g older, s.island.gens = g :: older → (2 : BitVec 16) = g.gen + 1) ∧
    ¬ ∀ g older, s.island.gens = g :: older → (3 : BitVec 16) = g.gen + 1 := by
  refine ⟨fun g older h => ?_, fun h => absurd (h _ _ rfl) (by decide)⟩
  cases h
  decide

/-- Two modules, both of which hold generation 2; the same where module 1 has not reported it. -/
theorem witness_StrandPorts_retires : ∀ g : BitVec 16, let s : State := { st1 with
      island := { st1.island with dims := (2, 1, 1), gens := [⟨2, []⟩, ⟨1, []⟩], reports := [(1, g)] } }
    ((∃ y ∈ s.island.gens, y.gen = (1 : BitVec 16) + 1) ∧ ∃ x older, s.island.gens = x :: older) ∧
    ∀ m : Nat, m < 2 * 1 * 1 → m ≠ 0 → assocGet s.island.reports m = some g := by
  intro g
  refine ⟨⟨⟨_, .head _, rfl⟩, _, _, rfl⟩, fun m h h0 => ?_⟩
  have e : m = 1 := by omega
  subst e
  rfl

/-- A request from module 5 at the head of the hubs' list. -/
def remote1 (b : PacketBody) (e : BitVec 128) : State := { st1 with
  ptes := [(1, e)], hubq := [.remote 0 (pkt1 0 b)] }

/-- No notice of module 5 is open, and one is. -/
theorem witness_StrandPorts_asked : let s := { remote1 (.read 1 0x20040 64) 0x500000002F with hubq := [] }
    requestPage s (.read 1 0x20040 64) = some 2 ∧ (∀ page, ¬ ∃ x ∈ s.notices, x.page = page ∧ x.who = .remote 5) ∧
    ∃ x ∈ ({ s with notices := [⟨4, 2, .remote 5, 7, 0, 2 * 65536, 0⟩] } : State).notices, x.page = 2 ∧ x.who = .remote 5 :=
  ⟨rfl, (fun _ ⟨_, h, _⟩ => nomatch h), _, .head _, rfl, rfl⟩

/-- A read of page 1, shared with other modules; the same page not shared, or poisoned; a page that is not mapped; a line that the
companion holds modified. -/
theorem witness_StrandPorts_reads : let s := { remote1 (.read 1 0x10040 64) 0x500000002F with hubq := [] }
    (∃ attr w, hubLoad s 0x10040 64 { Access.loads false with remote := true } = .value (readBytes st1.mem (5 * 65536 + 0x40) 64) attr w) ∧
    hubLoad s 0x20040 64 { Access.loads false with remote := true } = .unmapped 2 ∧
    (∃ q, hubLoad { s with ptes := [(1, 0x5000000027)] } 0x10040 64 { Access.loads false with remote := true } = .refused q) ∧
    (∃ u, hubLoad { s with linePoison := [5 * 1024 + 1] } 0x10040 64 { Access.loads false with remote := true } = .poisoned u) ∧
    (∀ line ∈ loadLines s 0x10040, line ∉ s.island.dirtyLines) ∧
    ∀ line ∈ loadLines s 0x10040, line ∈ ({ s with island := { s.island with dirtyLines := [0x10040 / 64] } } : State).island.dirtyLines :=
  ⟨loadValue, loadUnmapped, ⟨5, loadRefused⟩, loadPoisoned, by decide, by decide⟩

theorem witness_StrandPorts_writes : let s := { remote1 (.write 1 0x10040 0 1 5 false) 0x500000002F with hubq := [] }
    (∃ attr h, hubAccess s (0x10040 / 64 * 64) { Access.stores with remote := true, plait := false } = .at (5 * 65536 + 0x40) attr h) ∧
    (∃ attr h, hubAccess s 0x10040 { Access.atomic false with remote := true } = .at (5 * 65536 + 0x40) attr h) ∧
    linePoisoned s (5 * 65536 + 0x40) = false ∧ (5 * 65536 + 0x40) % 64 = 0 ∧ 0x10040 / 64 ∉ s.island.dirtyLines ∧
    0x10040 / 64 ∉ s.island.heldLines ∧ (0x10040 / 64 ∈ ({ s.island with heldLines := [0x401] } : Island).heldLines) ∧
    (∃ x, amoNew 0 8 (readBytes s.mem (5 * 65536 + 0x40) 8) 5 0 = some x) := ⟨hubAt, hubAt, by decide, by decide, by decide, by decide, by decide, _, rfl⟩

/-- A write of another module that is refused, one that meets a poisoned line, one whose page is not mapped, and a reduction whose
line the companion holds modified. -/
theorem witness_StrandPorts_writes_other : let s := { remote1 (.write 1 0x10040 1 1 5 false) 0x5000000027 with hubq := [] }
    hubAccess s (0x10040 / 64 * 64) { Access.stores with remote := true, plait := false } = .refused 5 ∧
    linePoisoned { s with linePoison := [5 * 1024 + 1] } (5 * 65536 + 0x40) = true ∧
    hubAccess s (0x20040 / 64 * 64) { Access.stores with remote := true, plait := false } = .unmapped 2 ∧
    (1 : BitVec 3) ≠ 0 ∧ 0x10040 / 64 ∈ ({ s.island with dirtyLines := [0x401] } : Island).dirtyLines :=
  ⟨hubRefused, by decide, hubUnmapped, by decide, by decide⟩

/-! ### Witnesses: launches and graphs -/

/-- The state a read of the harts leaves. -/
def after {α : Type} (x : HartRead α) (d : State) : State := match x with | .ok _ s => s | .bad s => s | .hold _ _ => d

theorem hartOk {x : HartRead Nat} {v : Nat} {d : State} (h : (match x with | .ok w _ => w == v | _ => false) = true := by decide +kernel) :
    x = .ok v (after x d) := by cases x <;> simp_all [after]
theorem imageOk {x : HartRead (Option ImageInfo)} {v : Option ImageInfo} {d : State}
    (h : (match x with | .ok w _ => w == v | _ => false) = true := by decide +kernel) : x = .ok v (after x d) := by cases x <;> simp_all [after]

/-- Management's harts do not run while the island is reset. -/
theorem witness_LaunchesAndGraphs_harts : st1.hartsRun = true ∧ ({ st1 with island := { st1.island with st := .ireset } } : State).hartsRun = false := by
  decide

/-- A queue of 16 entries at page 1, its tail at 0x12000 and its head at 0x12008. -/
def queue1 (head : BitVec 64) : Queue := ⟨0x1200800000000000120000000400000010000, head, [], []⟩

/-- A launch of the image at 0x11000 with SEQ 7 and its completion record at 0x10080. -/
def launchRec : BitVec 512 := 0x10080000000000000000000000000000110000000000000000007

/-- Queue 15 with that record at entry 0, its tail at 1; the image has one mapping, which has no section. -/
def launch1 (head : BitVec 64) : State := { st1 with
  mem := [(5 * 65536, 7), (5 * 65536 + 9, 0x10), (5 * 65536 + 10, 1), (5 * 65536 + 24, 0x80), (5 * 65536 + 26, 1),
    (5 * 65536 + 0x1000, 0x43), (5 * 65536 + 0x1001, 0x4F), (5 * 65536 + 0x1002, 0x4C), (5 * 65536 + 0x1003, 0x49),
    (5 * 65536 + 0x1004, 1), (5 * 65536 + 0x1005, 1), (5 * 65536 + 0x2000, 1)]
  mgmt := { st1.mgmt with queues := [(15, queue1 head)] } }

/-- After the tail has been read. -/
def launch2 (head : BitVec 64) : State := after (hartNum (queue1 head).tailw 8 (launch1 head)) st1

theorem witness_LaunchesAndGraphs_tail : (launch1 0).queue 15 = some (queue1 0) ∧ st1.queue 15 = none ∧
    hartNum (queue1 0).tailw 8 (launch1 0) = .ok 1 (launch2 0) ∧ ((queue1 0).head.toNat ≤ 1 ∧ 1 ≤ (queue1 0).head.toNat + (queue1 0).size) ∧
    (queue1 0).head.toNat < 1 ∧ (launch1 0).mgmt.launches = [] := ⟨rfl, rfl, hartOk, by decide +kernel, by decide, rfl⟩

/-- The queue is empty where its head is 1, and its tail is out of range where its head is 2. -/
theorem witness_LaunchesAndGraphs_range : hartNum (queue1 1).tailw 8 (launch1 1) = .ok 1 (launch2 1) ∧ (queue1 1).head.toNat = 1 ∧
    hartNum (queue1 2).tailw 8 (launch1 2) = .ok 1 (launch2 2) ∧ ¬ (queue1 2).head.toNat ≤ 1 ∧
    ∃ r w, hartNum ((queue1 2).entry 2) 64 { launch2 2 with mgmt := { (launch2 2).mgmt with
      queues := assocDrop (launch2 2).mgmt.queues 15, closed := assocPut (launch2 2).mgmt.closed 15 (queue1 2) } } = .ok r w :=
  ⟨hartOk, by decide, hartOk, by decide, _, after _ st1, hartOk (v := readBytes (launch1 2).mem (5 * 65536 + 128) 64)⟩

/-- After the record has been read. -/
def launch3 : State := after (hartNum ((queue1 0).entry 0) 64 (launch2 0)) st1

theorem witness_LaunchesAndGraphs_record : hartNum ((queue1 0).entry 0) 64 (launch2 0) = .ok launchRec.toNat launch3 ∧ recordOk launchRec = true ∧
    recordOk (launchRec ||| 1 <<< 511) = false ∧ launchRec.getLsbD 34 = false ∧
    (checkImage (launchRec.extractLsb' 64 44).toNat (launchRec.extractLsb' 35 2).toNat launch3 = .ok (some ⟨[(1, 1)], 0, 0⟩)
      (after (checkImage (launchRec.extractLsb' 64 44).toNat (launchRec.extractLsb' 35 2).toNat launch3) st1)) ∧
    checkImage 0x12000 0 launch3 = .ok none (after (checkImage 0x12000 0 launch3) st1) :=
  ⟨hartOk, by decide +kernel, by decide +kernel, by decide +kernel, imageOk, imageOk⟩

/-- A closed queue's record that waited for its page, which can be read now. -/
theorem witness_LaunchesAndGraphs_rejects : let s : State := { launch1 0 with mgmt := { (launch1 0).mgmt with rejects := [(3, 0x10000, 5)] } }
    s.queue 0 = none ∧ s.mgmt.launches = [] ∧ s.mgmt.rejects = [(3, 0x10000, 5)] ∧
    ∃ v w, hartNum 0x10000 64 { s with mgmt := { s.mgmt with rejects := [] } } = .ok v w :=
  ⟨rfl, rfl, rfl, _, after _ st1, hartOk (v := launchRec.toNat)⟩

/-- Launch 7 of queue 15 depends on launch 6: of which the queue has not heard, and which ended with FAULT. -/
def depends1 (q : Queue) : State := { st1 with
  mgmt := { st1.mgmt with queues := [(15, q)], launches := [⟨15, launchRec ||| 1 <<< 34 ||| 6 <<< 128, 0, 0, ⟨[], 0, 0⟩⟩] } }

theorem witness_LaunchesAndGraphs_depends : let q : Queue := { queue1 1 with seen := [7] }
    let q2 : Queue := { queue1 2 with seen := [6, 7], ended := [(6, 1)] }
    let r := launchRec ||| 1 <<< 34 ||| 6 <<< 128
    (depends1 q).queue 0 = none ∧ (depends1 q).mgmt.launches = [⟨15, r, 0, 0, ⟨[], 0, 0⟩⟩] ∧ (depends1 q).mgmt.rejects = [] ∧
    (((depends1 q).queue 15).or (assocGet (depends1 q).mgmt.closed 15)) = some q ∧ r.getLsbD 34 = true ∧
    q.seen = [] ++ r.extractLsb' 0 32 :: [] ∧ r.extractLsb' 128 32 ∉ ([] : List (BitVec 32)) ∧
    (depends1 q2).queue 15 = some q2 ∧ q2.seen = [6] ++ r.extractLsb' 0 32 :: [] ∧ r.extractLsb' 0 32 ∉ [(6 : BitVec 32)] ∧
    ∃ y, (q2.ended.find? fun x => x.1 == r.extractLsb' 128 32) = some y ∧ y.2 ≠ 0 :=
  ⟨rfl, rfl, rfl, rfl, by decide +kernel, by decide +kernel, (fun h => nomatch h), rfl, by decide +kernel, by decide +kernel, (6, 1), by decide +kernel, by decide⟩

/-- A bind record: context 9, one tile at the origin, the image of `launch1`. -/
def bind1 : BitVec 1024 := 0x1008000000000000000070000000000000000000000000000000000000000000110000000000001000009

theorem witness_LaunchesAndGraphs_open : let u := (launch1 0).settle
    (u.island.st = .serve ∧ bind1.getLsbD 24 = true ∧ bindClean bind1 = true ∧ bind1.getLsbD 25 = false ∧ u.getGraph 63 = none ∧
      (sparseGet 0 u.mgmt.slots 63).getLsbD 24 = false ∧ u.mgmt.writes = []) ∧ u.mgmt.launches = [] ∧ u.mgmt.drained = [] ∧
    u.mgmt.evicted = [] ∧ (0 : BitVec 1024).getLsbD 24 = false := by decide +kernel

/-- The state with the slot entry written, the contents of the image, and the state after the harts have read it. -/
def bind2 : State := let u := (launch1 0).settle
  { u with mgmt := { u.mgmt with slots := sparsePut 0 u.mgmt.slots 63 bind1 } }

/-- Dispatch accepts it, and refuses the same record with columns that leave the package; with two rows it has not the footprint. -/
theorem witness_LaunchesAndGraphs_bind : ∃ e x, readImage bind1 bind2 = .ok (e, x) (after (readImage bind1 bind2) st1) ∧ x.slots = [] ∧ x.cfg = none ∧
    let w := after (readImage bind1 bind2) st1
    (e.trows = bindRows bind1 ∧ e.tcols = bindCols bind1 ∧ w.budgetAllows bind1 e.power = true) ∧
    bindRefusal w w.island.absent 63 bind1 x [] (w.newGates 63 x []) = none ∧
    bindRefusal w w.island.absent 63 (bind1 ||| 44 <<< 32) x [] (w.newGates 63 x []) = some 1 ∧
    44 < bindCol0 (bind1 ||| 44 <<< 32) + bindCols (bind1 ||| 44 <<< 32) ∧ e.trows ≠ bindRows (bind1 ||| 1 <<< 56) ∧
    w.mgmt.drained = [] ∧ w.mgmt.evicted = [] := by
  have k : (match readImage bind1 bind2 with
    | .ok y w => decide (y.2.slots = [] ∧ y.2.cfg = none ∧
      (y.1.trows = bindRows bind1 ∧ y.1.tcols = bindCols bind1 ∧ w.budgetAllows bind1 y.1.power = true) ∧
      bindRefusal w w.island.absent 63 bind1 y.2 [] (w.newGates 63 y.2 []) = none ∧
      bindRefusal w w.island.absent 63 (bind1 ||| 44 <<< 32) y.2 [] (w.newGates 63 y.2 []) = some 1 ∧
      44 < bindCol0 (bind1 ||| 44 <<< 32) + bindCols (bind1 ||| 44 <<< 32) ∧ y.1.trows ≠ bindRows (bind1 ||| 1 <<< 56) ∧
      w.mgmt.drained = [] ∧ w.mgmt.evicted = [])
    | _ => false) = true := by decide +kernel
  cases h : readImage bind1 bind2 with
  | bad s => rw [h] at k; exact absurd k Bool.false_ne_true
  | hold p i => rw [h] at k; exact absurd k Bool.false_ne_true
  | ok y u =>
    rw [h] at k
    exact ⟨y.1, y.2, rfl, of_decide_eq_true k⟩

/-- A launch whose record the bind record carries: it may start, and the record is what it allows. -/
theorem witness_LaunchesAndGraphs_starts : let l : Launch := ⟨0, launchRec, 0, 0, ⟨[(1, 1)], 0, 0⟩⟩
    let s : State := { launch1 0 with mgmt := { (launch1 0).mgmt with launches := [l] } }
    s.settle.mgmt.launches = [l] ∧ l.queue = (bind1.extractLsb' 288 4).toNat ∧ recSeq l.record = bind1.extractLsb' 256 32 ∧
    s.settle.mayStart l = true ∧ l.allows bind1 = true ∧ l.allows (bind1 ||| 1 <<< 16) = false := by decide +kernel

/-- A launch that waits behind another of its queue. -/
theorem witness_LaunchesAndGraphs_waits : let l : Launch := ⟨0, launchRec, 0, 0, ⟨[], 0, 0⟩⟩
    let p : Launch := ⟨0, launchRec + 1, 0, 0, ⟨[], 0, 0⟩⟩
    l.queue = (bind1.extractLsb' 288 4).toNat ∧ recSeq l.record = bind1.extractLsb' 256 32 ∧ (∃ y ∈ [p], y.queue = l.queue) ∧
    ∀ y ∈ [p], ¬ (y.queue = (bind1.extractLsb' 288 4).toNat ∧ recSeq y.record = bind1.extractLsb' 256 32) := by decide +kernel

/-- A graph saved with tile 0, and its record. -/
def saved1 : State := { launch1 0 with mgmt := { (launch1 0).mgmt with saved := [⟨bind1, { graph1 with record := bind1, trows := 1, tcols := 1, ctx := 9 }, [(0, Tile.reset 0)], []⟩] } }

theorem witness_LaunchesAndGraphs_restore : ∃ v, saved1.settle.mgmt.saved = [v] ∧ saved1.settle.mgmt.evicted = [] ∧
    v.record.extractLsb' 0 16 = bind1.extractLsb' 0 16 ∧ fld v.record 32 32 = fld bind1 32 32 ∧ fld v.record 20 3 = fld bind1 20 3 ∧
    fld v.record 18 2 = fld bind1 18 2 ∧ (v.tiles.map Prod.fst).Nodup ∧ saved1.settle.rectFree saved1.settle.island.absent 63 bind1 = true ∧
    saved1.settle.grantsFree 63 bind1 = true ∧ (bind1 ||| 1 <<< 25).getLsbD 25 = true :=
  ⟨_, rfl, rfl, rfl, rfl, rfl, rfl, by decide, by decide +kernel, by decide +kernel, by decide +kernel⟩

/-- The same while another record of the slot table holds its tile. -/
theorem witness_LaunchesAndGraphs_restore_waits : ({ saved1 with mgmt := { saved1.mgmt with slots := [(5, bind1)] } } : State).settle.rectFree
    saved1.settle.island.absent 63 bind1 = false := by decide +kernel

theorem witness_LaunchesAndGraphs_notSaved : ∀ y ∈ (launch1 0).settle.mgmt.saved, ¬ (y.record.extractLsb' 0 16 = bind1.extractLsb' 0 16 ∧ fld y.record 32 32 = fld bind1 32 32) :=
  fun _ h => nomatch h

/-- The graph of `bind1` over tile 0, whose core is `c`. -/
def only1 (c : Core) (d stop : Bool) : State := { launch1 0 with
  graph := { graph1 with record := bind1, trows := 1, tcols := 1, ctx := 9, drain := d, stopped := stop }
  tile := { st1.tile with core := c } }

theorem notBinding {n : Nat} {u : State} (h : u.stream.len = 0) (k : (u.nets.toList.all fun n => n.running.len == 0 && n.queue.isEmpty) = true) :
    NotBinding n u := by
  intro x hx _
  rcases hx with rfl | ⟨y, hy, hx⟩
  · exact .inl h
  · have z := List.all_eq_true.1 k y hy
    simp only [Bool.and_eq_true, beq_iff_eq, List.isEmpty_iff] at z
    rcases hx with rfl | hx
    · exact .inl z.1
    · rw [z.2] at hx
      cases hx

theorem witness_LaunchesAndGraphs_only : ∀ c d stop, let u := only1 c d stop
    OnlyGraph 0 { graph1 with record := bind1, trows := 1, tcols := 1, ctx := 9, drain := d, stopped := stop } u ∧
    u.settle = u ∧ NotBinding 0 u ∧ AgnQuiet u.graph ∧ u.mgmt.launches = [] ∧ u.graph.rims = [u.tileIdx] ∧ u.hartsRun = true ∧
    u.graph.requests = [] ∧ u.graph.regions = [] :=
  fun _ _ _ => ⟨⟨rfl, by decide, rfl⟩, rfl, notBinding rfl rfl, ⟨rfl, fun _ h => nomatch h⟩, rfl, rfl, rfl, rfl, rfl⟩

/-- The graph of `only1` as management saves it: at rest, held for eight cycles and more, and before. -/
theorem witness_LaunchesAndGraphs_saves : let g : Graph := { graph1 with record := bind1, trows := 1, tcols := 1, ctx := 9, saving := true, hist := 0xFF }
    let u : State := { only1 core1 false false with graph := g }
    OnlyGraph 0 g u ∧ u.hartsRun = true ∧ g.saving = true ∧ u.mayBeSaved g = true ∧ g.requests = [] ∧
    (∀ c ∈ (bindTiles g.record).map (fun k => (u.getTile k).core), c.outbox = []) ∧ u.mayBeSaved { g with hist := 0 } = false :=
  ⟨⟨rfl, by decide, rfl⟩, rfl, rfl, by decide +kernel, rfl, by decide +kernel, by decide +kernel⟩

/-- Its core is away, waits in NEXTP of a drained graph, has halted, or has stopped by fault. -/
theorem witness_LaunchesAndGraphs_cores : let t := fun c => (only1 c true false).getTile 0
    (t { core1 with stall := .away 4 }).core.stall = .away 4 ∧ (t { core1 with stall := .nextp }).core.stall = .nextp ∧
    (t core1).core.stall = .none ∧ (t core1).core.cmds = [] ∧ (t core1).core.outbox = [] ∧ (t core1).core.pend = 0 ∧
    (t { core1 with run := .halted }).core.run = .halted ∧
    ∃ f, (t { core1 with run := .stopped, fault := some f }).core.run = .stopped ∧ (t { core1 with run := .stopped, fault := some f }).core.fault = some f :=
  ⟨rfl, rfl, rfl, rfl, rfl, by decide +kernel, rfl, ⟨0, 0, 0, 0, false, false, 0, 0, 0, 0, 0, 0⟩, rfl, rfl⟩

/-- A core that waits in NEXTP s5. -/
theorem witness_LaunchesAndGraphs_nextp : let h : Held := ⟨0x7ca00009, core1.sregs⟩
    let u := only1 { core1 with stall := .nextp, held := some h } true false
    u.graph.drain = true ∧ u.tile.core.stall = .nextp ∧ u.tile.core.held = some h ∧ decodeRim h.word = .ok (.nextp 5) := ⟨rfl, rfl, rfl, by decide⟩

/-! ### Witnesses: the island, the whole machine, encodings -/

/-- The island in a state, in safe-talk or not, the link up. -/
def isl2 (st : IslandState) (safe : Bool) : State := { st1 with island := { st1.island with st, safeTalk := safe, linkUp := true } }

theorem witness_IslandAndMailbox_states : (isl2 .serve false).island.st = .serve ∧ (isl2 .transit false).island.st = .transit ∧
    (isl2 .transit false).island.safeTalk = false ∧ (isl2 .ireset false).island.st = .ireset ∧ (isl2 .off false).island.st = .off ∧
    (isl2 .serve false).settle.allGraphs = [] ∧ (isl2 .serve false).settle.mgmt.saved = [] := ⟨rfl, rfl, rfl, rfl, rfl, rfl, rfl⟩

/-- Both slots hold the image shipped, which boots. -/
theorem witness_IslandAndMailbox_boots : bootSlot (isl2 .ireset false).island = some false ∧ bootSlot (isl2 .off false).island = some false := by
  decide

/-- A pending request of another module, in the list of the hubs as compute reset begins. -/
theorem witness_IslandAndMailbox_orphan : ({ isl2 .transit false with hubq := [.remote 0 (pkt1 0 (.read 1 64 64))] } : State).hubq =
    [.remote 0 (pkt1 0 (.read 1 64 64))] := rfl

/-- A slot that holds an image of one byte: bootSlot takes it where it is sound, and boots nothing where neither is. -/
theorem witness_IslandAndMailbox_images : let x := { st1.island with fwSlots := #v[[], [1]] }
    x.image (!x.fwActive) = [1] ∧ x.image x.fwActive = [] ∧ x.image (!x.fwActive) ≠ [] ∧
    ({ st1.island with fwSlots := #v[[1], []] } : Island).image (!st1.island.fwActive) = [] ∧
    ({ st1.island with fwSlots := #v[[1], []] } : Island).image st1.island.fwActive ≠ [] := ⟨rfl, rfl, by decide, rfl, by decide⟩

theorem witness_IslandAndMailbox_unsound : ∀ i : List Byte, Config.rsaOk (bytesOf 48 (Config.sha384 i).toNat) (Config.firmwareSigs i).1 = false →
    i ≠ [] → bootSlot { st1.island with fwSlots := #v[i, i] } = none := by
  intro i h hi
  cases i with
  | nil => exact absurd rfl hi
  | cons a l =>
    have e : ∀ k, ({ st1.island with fwSlots := #v[a :: l, a :: l] } : Island).image k = a :: l := by intro k; cases k <;> rfl
    simp [bootSlot, firmwareOk, e, h]

/-- An image that has just been written is tried first. -/
theorem witness_IslandAndMailbox_fresh : ({ st1.island with fwFresh := true, fwSlots := #v[[], [1]] } : Island).fwFresh = true ∧
    ({ st1.island with fwFresh := true, fwSlots := #v[[], [1]] } : Island).image (!st1.island.fwActive) = [1] := ⟨rfl, rfl⟩

/-- Parts that pass every test, in a compute reset and at a power-up; and nothing that management still has to write. -/
theorem witness_IslandAndMailbox_parts : let x := fun st => (isl2 st false).island
    ((x .off).wear = [] ∧ (x .off).found = [] ∧ (x .off).cuts = []) ∧ (∀ step unit, (x .transit).failures step unit = []) ∧
    (∀ step unit, ({ x .off with bootCount := (x .off).bootCount + 1 } : Island).failures step unit = []) ∧
    (isl2 .off false).mgmt.writes = [] ∧ (isl2 .off false).mgmt.rejects = [] ∧
    ∀ h ∈ (isl2 .off false).hoops.toList, h.arrivals = [] ∧ h.early = [] :=
  ⟨⟨rfl, rfl, rfl⟩, (fun _ _ => rfl), (fun _ _ => rfl), rfl, rfl, by decide⟩

theorem witness_IslandAndMailbox_reaches : let x := (isl2 .serve false).island
    ((x.st = .serve ∨ x.st = .transit) ∧ x.linkUp = true) ∧ x.safeTalk = false ∧
    (((isl2 .transit true).island.st = .serve ∨ (isl2 .transit true).island.st = .transit) ∧ (isl2 .transit true).island.linkUp = true) ∧
    (isl2 .transit true).island.safeTalk = true ∧ ¬ (((isl2 .off false).island.st = .serve ∨ (isl2 .off false).island.st = .transit)) ∧
    (4096 : Nat) ≤ 4096 := ⟨⟨.inl rfl, rfl⟩, rfl, ⟨.inr rfl, rfl⟩, rfl, by decide, by decide⟩

/-- One byte of companion memory is an image. -/
theorem witness_IslandAndMailbox_firmware : let s := isl2 .serve false
    (List.range 1).map (fun k => readByte s.mem (companionLoc 0 + k)) ≠ [] := by decide

/-- Descriptors with the smallest and the largest ring, and one below. -/
theorem witness_IslandAndMailbox_queues : let ok := (fun d : BitVec 256 => d.extractLsb' 0 12 = 0 ∧ 4 ≤ (d.extractLsb' 44 4).toNat ∧
      (d.extractLsb' 44 4).toNat ≤ 12 ∧ d.extractLsb' 48 16 = 0 ∧ d.extractLsb' 64 3 = 0 ∧ d.extractLsb' 108 20 = 0 ∧
      d.extractLsb' 128 3 = 0 ∧ d.extractLsb' 172 20 = 0 ∧ d.extractLsb' 192 64 = 0)
    ok (queue1 0).descr ∧ ok (12 <<< 44) ∧ ¬ ok (3 <<< 44) ∧ ¬ ok (13 <<< 44) := by decide +kernel

/-- Its TAILW lies on a page with HC = 1. -/
theorem witness_IslandAndMailbox_queues_page : let s : State := { isl2 .serve false with ptes := [(1, 0x5000000037)] }
    let p := ((queue1 0).descr.extractLsb' 64 44).toNat / 65536
    p = 1 ∧ pteV (getPte s p) = true ∧ pteHc (getPte s p) = true := by decide +kernel

/-- A budget below that in force, and a graph whose power is above it. -/
theorem witness_IslandAndMailbox_budget : (2000 : Nat) ≤ 2000 ∧ (7000 : Nat) ≤ 7000 ∧ (1999 : Nat) < 2000 ∧ 7000 < (7001 : Nat) ∧
    ∃ g ∈ bound1.settle.allGraphs, g.drain = false := ⟨by decide, by decide, by decide, by decide, graph1, .head _, rfl⟩

theorem witness_MemoryStaysCanonical : let s : State := { st1 with agenda := [.hingelinkLinkDown] }
    Memory.wf s.mem = true ∧ Machine.step s = .next { st1 with island := { st1.island with linkUp := false } } := ⟨by decide, rfl⟩

theorem witness_MemoryStaysCanonical_reset : Memory.wf State.reset.mem = true := by decide

theorem witness_ResetState : (0 : Nat) < 2112 ∧ (2111 : Nat) < 2112 := by decide

theorem witness_RimRoundTrip : (Instr.add 31 31 31 15).kind = 0 ∧ (Instr.add 31 31 31 15).wellFormed = true ∧ (Instr.add 31 31 31 15).isSecondName = false := by
  decide

theorem witness_WordRoundTrip : ((Instr.tgt 767 703 1).kind = 1 ∧ (Instr.tgt 767 703 1).wellFormed = true) ∧
    (Instr.cellMacf 0 0 0 3 0).kind = 2 ∧ (Instr.cellMacf 0 0 0 3 0).wellFormed = true := by decide

/-! ### Worked examples of the spec, one instruction each -/

/-- The core after one instruction, or the core as it was where there is no next state. -/
def after1 (i : Instr) (s : State) : Core := match exec i s with | .next t => t.tile.core | _ => core1

/-- Core 1 with tokens 0 and 1 given by their data and tags. -/
def tokens1 (a : BitVec 512) (ta : BitVec 4) (b : BitVec 512) (tb : BitVec 4) : State := with1 fun c => { c with
  toks := (c.toks.set 0 { Token.reset with data := a, tag := ta }).set 1 { Token.reset with data := b, tag := tb }, masks := c.masks.set 1 1 }

theorem test_add_wraps : (after1 (.add 5 1 2 0) (with1 fun c => (c.setS 1 0xFFFFFFFFFFFFFFFF).setS 2 5)).s 5 = 4 := by decide +kernel

/-- The worked example of BFI (R89). -/
theorem test_bfi : (after1 (.bfi 5 1 2 0) (with1 fun c => ((c.setS 5 0xFFFFFFFFFFFFFFFF).setS 1 5).setS 2 0x33E)).s 5 = 0x7FFFFFFFFFFFFFFF := by
  decide +kernel

/-- R57 and R54: a register that reads as zero discards what is written to it. -/
theorem test_zero_register : (after1 (.add 0 2 2 0) st1).s 0 = 0 := by decide +kernel

/-- R93, the worked example of two loops that end at word 13: the inner one branches back to 12, the outer one to 11. -/
theorem test_loops_share_an_end : let c : Core := { core1 with pc := 13, lcsAct := 3, lc := #v[3, 2, 0], lcsStart := #v[11, 12, 0], lcsEnd := #v[13, 13, 0] }
    (after1 (.addi 2 2 0 1) (with1 fun _ => c)).pc = 12 ∧ (after1 (.addi 2 2 0 1) (with1 fun _ => { c with lc := #v[3, 1, 0] })).pc = 11 ∧
    (after1 (.addi 2 2 0 1) (with1 fun _ => { c with lc := #v[1, 1, 0] })).pc = 14 := by decide +kernel

/-- R60, the worked example: 470 to E4M3 under RNE, with SAT and with INF; and under RTZ. -/
theorem test_convert_saturates :
    ((after1 (.vcvt 2 0 3 0 0 0 1 0 0) (tokens1 0x43EB0000 0 0 0)).t 2).data.extractLsb' 0 32 = 0x7E ∧
    ((after1 (.vcvt 2 0 3 0 0 1 1 0 0) (tokens1 0x43EB0000 0 0 0)).t 2).data.extractLsb' 0 32 = 0x7F ∧
    ((after1 (.vcvt 2 0 3 0 1 0 1 0 0) (tokens1 0x43EB0000 0 0 0)).t 2).data.extractLsb' 0 32 = 0x7E := by decide +kernel

/-- The worked example of R64: a signalling NaN of E5M2 to FP32. -/
theorem test_convert_nan : ((after1 (.vcvt 2 0 0 4 0 0 1 0 0) (tokens1 0xFD 4 0 0)).t 2).data.extractLsb' 0 32 = 0xFFE00000 := by decide +kernel

/-- The worked examples of R58: FP32 to BF16 under RNE, from an even and from an odd kept part. -/
theorem test_convert_ties :
    ((after1 (.vcvt 2 0 2 0 0 0 1 0 0) (tokens1 0x3F818000 0 0 0)).t 2).data.extractLsb' 0 32 = 0x3F82 ∧
    ((after1 (.vcvt 2 0 2 0 0 0 1 0 0) (tokens1 0x3F808000 0 0 0)).t 2).data.extractLsb' 0 32 = 0x3F80 := by decide +kernel

/-- The worked example of VCMP: 1.0 is not less than a quiet NaN, and the comparison raises NV. -/
theorem test_vcmp_nan : let c := after1 (.vcmp 2 0 1 2 0 0 0) (tokens1 0x3F800000 0 0x7FC00000 0)
    (c.t 2).data.extractLsb' 0 32 = 0x3F800000 ∧ (c.t 2).pred.getLsbD 0 = false ∧ c.fstat ≠ 0 := by decide +kernel

/-- The worked example of VSCALE under RNE, and with .fo. -/
theorem test_vscale_subnormal :
    ((after1 (.vscale 2 0 1 0 0 0 0) (tokens1 0x3FC00000 0 0xFFFFFF6B 9)).t 2).data.extractLsb' 0 32 = 2 ∧
    ((after1 (.vscale 2 0 1 0 0 1 0) (tokens1 0x3FC00000 0 0xFFFFFF6B 9)).t 2).data.extractLsb' 0 32 = 0 := by decide +kernel

/-- 2^24 in lane 0 and 1.0 in the others. -/
def ramp : BitVec 512 := 0x3F8000003F8000003F8000003F8000003F8000003F8000003F8000003F8000003F8000003F8000003F8000003F8000003F8000003F8000003F8000004B800000

/-- The worked example of VSUMT. -/
theorem test_vsumt : ((after1 (.vsumt 2 0 0 0 0 0) (tokens1 ramp 0 0 0)).t 2).data.extractLsb' 0 32 = 0x4B800007 := by decide +kernel

/-- The worked example of VSCAN: lane 15. -/
theorem test_vscan : ((after1 (.vscan 2 0 0 0 0 0) (tokens1 ramp 0 0 0)).t 2).data.extractLsb' 480 32 = 0x4B800000 := by decide +kernel

/-- R304 by hand: page 0x4000001 lives in slice 48 of hub 0. -/
theorem test_home : homeSlice 0x4000001 = 48 ∧ homeHub 0x4000001 = 0 := by decide

/-- The values of the worked example 2x + 2 in one lane: 1.5 × 2.0, then + 2.0. -/
theorem test_vmul_vadd :
    ((after1 (.vmul 2 0 1 0 0 0 0) (tokens1 0x3FC00000 0 0x40000000 0)).t 2).data.extractLsb' 0 32 = 0x40400000 ∧
    ((after1 (.vadd 2 0 1 0 0 0 0) (tokens1 0x40400000 0 0x40000000 0)).t 2).data.extractLsb' 0 32 = 0x40A00000 := by decide +kernel

/-- R99: LDW reads four bytes, low byte first, of the line at VA 0x10040. -/
theorem test_ldw : (after1 (.ldw 5 3 0 0) st1).s 5 = 0x2211 := by decide +kernel

/-- R107, R110: TRAP enters the handler in supervisor mode, and resumes behind itself. -/
theorem test_trap : let c := after1 (.trap 5) st1
    c.pc = 100 ∧ c.mode = true ∧ c.pmode = false ∧ c.epc = 1 ∧ c.le = false ∧ c.ple = true := by decide +kernel

end Sys2Proof.Tests
end

section
/-! PROOFS. Encoding and decoding: the map of each kind of word reads the word of an instruction back as that instruction
(O1, O2), and the words that the spec writes out (O60). -/

namespace Sys2Proof.Laws

open Sys2Proof Sys2Proof.Machine

/-! ### The fields of a word laid out from its parts -/

/-- A field that lies within the low part of a word. -/
@[simp] theorem fld_append_low {n m lo len : Nat} (x : BitVec n) (y : BitVec m) (h : lo + len ≤ m) :
    fld (no_index (x ++ y)) lo len = fld y lo len := BitVec.extractLsb'_append_eq_of_add_le h

/-- A field that lies above the low part of a word. -/
@[simp] theorem fld_append_high {n m lo len : Nat} (x : BitVec n) (y : BitVec m) (h : m ≤ lo) :
    fld (no_index (x ++ y)) lo len = fld x (lo - m) len := BitVec.extractLsb'_append_eq_of_le h

@[simp] theorem fld_all {n : Nat} (x : BitVec n) : fld x 0 n = x := BitVec.extractLsb'_eq_self

@[simp] theorem fld_ofNat {n lo len : Nat} (v : Nat) :
    fld (BitVec.ofNat n v) lo len = BitVec.ofNat len (v % 2 ^ n / 2 ^ lo) := by
  apply BitVec.eq_of_toNat_eq
  simp [fld, BitVec.extractLsb'_toNat, Nat.shiftRight_eq_div_pow]

theorem fld_toNat {n lo len : Nat} (w : BitVec n) : (fld w lo len).toNat = w.toNat / 2 ^ lo % 2 ^ len := by
  simp [fld, BitVec.extractLsb'_toNat, Nat.shiftRight_eq_div_pow]

/-! ### Rim words -/

/-- R27: VCMP holds its condition in the low three bits of the function field. -/
theorem decodeOp25_vcmp {w : Word} (h : (fld w 9 2).toNat = 2) (h0 : fld w 1 1 = 0) :
    decodeOp25 w = some (.vcmp (fld w 21 5) (fld w 16 5) (fld w 11 5) (fld w 6 3) (fld w 3 3) (fld w 2 1) (fld w 0 1)) := by
  have hf : 16 ≤ (fld w 6 5).toNat ∧ (fld w 6 5).toNat < 24 := by
    rw [fld_toNat] at h ⊢
    omega
  obtain e | e | e | e | e | e | e | e : (fld w 6 5).toNat = 16 ∨ (fld w 6 5).toNat = 17 ∨ (fld w 6 5).toNat = 18 ∨
      (fld w 6 5).toNat = 19 ∨ (fld w 6 5).toNat = 20 ∨ (fld w 6 5).toNat = 21 ∨ (fld w 6 5).toNat = 22 ∨
      (fld w 6 5).toNat = 23 := by omega
  all_goals simp only [decodeOp25, e, h0, if_true]

/-! One lemma for each table of the specification: the words of a family share the major opcodes of R25 to R32, so only the
decoders of these opcodes open, and an instruction that the table does not hold contradicts the hypothesis. -/

-- Not elaborated beside the others: the case lemmas of the decoder are then made once, and no other proof waits for them.
set_option Elab.async false in
theorem rawRim_encode_of_scalarSpec {i : Instr} {x} (h : scalarSpec i = some x) : rawRim (encode i) = some i := by
  cases i
  case add | sub | and | or | xor | andn | sll | srl | sra | rol | mul | mulh | mulhu | div | divu | rem | remu | min | max
    | minu | maxu | clz | ctz | popc | bswap | sextB | sextH | sextW | zextB | zextH | zextW | bfx | bfi | lea1 | lea2 | lea4
    | lea8 | sel | addi | andi | ori | xori | slli | srli | srai | muli | addpc | lil | lih | p2s =>
    simp [rawRim, decodeOp01, decodeOp1E, encode]
  all_goals contradiction

theorem rawRim_encode_of_predSpec {i : Instr} {x} (h : predSpec i = some x) : rawRim (encode i) = some i := by
  cases i
  case cmp | cmpi | plogAnd | plogOr | plogXor | plogNot | s2p => simp [rawRim, decodeOp1E, encode]
  all_goals contradiction

theorem rawRim_encode_of_loadSpec {i : Instr} {x} (h : loadSpec i = some x) : rawRim (encode i) = some i := by
  cases i
  case ldb | ldbu | ldh | ldhu | ldw | ldwu | ldd | ldt => simp [rawRim, encode]
  all_goals contradiction

theorem rawRim_encode_of_storeSpec {i : Instr} {x} (h : storeSpec i = some x) : rawRim (encode i) = some i := by
  cases i
  case stb | sth | stw | std | stt => simp [rawRim, decodeOp15, encode]
  all_goals contradiction

theorem rawRim_encode_of_amoSpec {i : Instr} {x} (h : amoSpec i = some x) : rawRim (encode i) = some i := by
  cases i
  case amoAdd | amoAnd | amoOr | amoXor | amoMin | amoMax | amoMinu | amoMaxu | amoSwp | amoFadd | amoBfadd | amocas =>
    simp [rawRim, decodeOp18, decodeOp19, encode]
  all_goals contradiction

theorem rawRim_encode_of_redtSpec {i : Instr} {x} (h : redtSpec i = some x) : rawRim (encode i) = some i := by
  cases i
  case redtAdd | redtFadd | redtBfadd | redtMin | redtMax => simp [rawRim, decodeOp19, encode]
  all_goals contradiction

theorem rawRim_encode_of_laneSpec {i : Instr} {x} (h : laneSpec i = some x) : rawRim (encode i) = some i := by
  cases i
  case ldts | ldtg | stts | sttg => simp [rawRim, decodeOp2F, encode]
  all_goals contradiction

theorem rawRim_encode_of_intSpec {i : Instr} {x} (h : intSpec i = some x) : rawRim (encode i) = some i := by
  cases i
  case viadd | visub | vimul | vand | vor | vxor | vshl | vshr | vsar | vimin | vimax | vcnt | vimac =>
    simp [rawRim, decodeOp26, encode]
  all_goals contradiction

theorem rawRim_encode_of_arithSpec {i : Instr} {x} (h : arithSpec i = some x) : rawRim (encode i) = some i := by
  cases i
  case vadd | vsub | vmul | vfma | vfms | vfnma => simp [rawRim, decodeOp25, encode]
  all_goals contradiction

theorem rawRim_encode_of_moveSpec {i : Instr} {x} (h : moveSpec i = some x) : rawRim (encode i) = some i := by
  cases i
  case vperm | vshuf | vbcst => simp [rawRim, decodeOp27, encode]
  all_goals contradiction

theorem rawRim_encode_of_tokSpec {i : Instr} {x} (h : tokSpec i = some x) : rawRim (encode i) = some i := by
  cases i
  case viadd | visub | vimul | vand | vor | vxor | vshl | vshr | vsar | vimin | vimax | vcnt | vimac =>
    exact rawRim_encode_of_intSpec rfl
  case vfma | vfms | vfnma | vadd | vsub | vmul => exact rawRim_encode_of_arithSpec rfl
  case vperm | vshuf | vbcst => exact rawRim_encode_of_moveSpec rfl
  case vsel | vmax | vmin | vabs | vneg | vcps | vcls | vdot | vexpf | vlogf | vgetx | vrcp | vrsq | vscale | vsumt | vmaxt
    | vscan | vmsk | vhmrg =>
    simp only [rawRim, decodeOp25, decodeOp27, encode, fld_append_low, fld_append_high, fld_all, fld_ofNat, Nat.reduceAdd,
      Nat.reduceSub, Nat.reduceLeDiff, Nat.le_refl, Nat.reducePow, Nat.reduceMod, Nat.reduceDiv, BitVec.reduceToNat,
      BitVec.ofNat_eq_ofNat, and_self, if_true]
  case vcmp d a b c m i k =>
    have h := decodeOp25_vcmp (w := encode (.vcmp d a b c m i k)) (by simp [encode]) (by simp [encode])
    simpa [rawRim, encode] using h
  all_goals contradiction

theorem rawRim_encode_of_convSpec {i : Instr} {x} (h : convSpec i = some x) : rawRim (encode i) = some i := by
  cases i
  case vcvt | vrndi | vftoi | vitof | vpack => simp [rawRim, encode]
  all_goals contradiction

theorem rawRim_encode_of_cmdSpec {i : Instr} {x} (h : cmdSpec i = some x) (hn : i.isSecondName = false) :
    rawRim (encode i) = some i := by
  cases i
  case cfgw | drn | cpy | cpyw | ocl | hoopArrive | pub | ple | mig | migSp | hsplit | ptew | ptecas | pinv =>
    simp [rawRim, decodeOp30, decodeOp31, decodeOp32, decodeOp33, decodeOp34, decodeOp35, decodeOp36, encode]
  all_goals contradiction

theorem rawRim_encode_of_loopSpec {i : Instr} {x} (h : loopSpec i = some x) : rawRim (encode i) = some i := by
  cases i
  case loopImm | loopReg => simp [rawRim, decodeOp1C, encode]
  all_goals contradiction

theorem rawRim_encode_of_srAccess {i : Instr} {x} (h : srAccess i = some x) : rawRim (encode i) = some i := by
  cases i
  case srd | swr | srs | src => simp [rawRim, decodeOp1F, encode]
  all_goals contradiction

/-- The rim words that stand in one of the tables of what the spec makes an instruction do. -/
def tabled (i : Instr) : Bool :=
  (scalarSpec i).isSome || (predSpec i).isSome || (loadSpec i).isSome || (storeSpec i).isSome ||
  (amoSpec i).isSome || (redtSpec i).isSome || (laneSpec i).isSome || (tokSpec i).isSome ||
  (convSpec i).isSome || (cmdSpec i).isSome || (loopSpec i).isSome || (srAccess i).isSome

theorem rawRim_encode_of_tabled {i : Instr} (h : tabled i = true) (hn : i.isSecondName = false) :
    rawRim (encode i) = some i := by
  simp only [tabled, Bool.or_eq_true, Option.isSome_iff_exists, or_assoc] at h
  obtain ⟨x, h⟩ | ⟨x, h⟩ | ⟨x, h⟩ | ⟨x, h⟩ | ⟨x, h⟩ | ⟨x, h⟩ | ⟨x, h⟩ | ⟨x, h⟩ | ⟨x, h⟩ | ⟨x, h⟩ | ⟨x, h⟩ | ⟨x, h⟩ := h
  · exact rawRim_encode_of_scalarSpec h
  · exact rawRim_encode_of_predSpec h
  · exact rawRim_encode_of_loadSpec h
  · exact rawRim_encode_of_storeSpec h
  · exact rawRim_encode_of_amoSpec h
  · exact rawRim_encode_of_redtSpec h
  · exact rawRim_encode_of_laneSpec h
  · exact rawRim_encode_of_tokSpec h
  · exact rawRim_encode_of_convSpec h
  · exact rawRim_encode_of_cmdSpec h hn
  · exact rawRim_encode_of_loopSpec h
  · exact rawRim_encode_of_srAccess h

/-- R25 to R32: the opcode map reads the word of a rim instruction back as that instruction. -/
theorem rawRim_encode {i : Instr} (hk : i.kind = 0) (hw : legalOperands i = true) (hn : i.isSecondName = false) :
    rawRim (encode i) = some i := by
  cases ht : tabled i
  case true => exact rawRim_encode_of_tabled ht hn
  cases i
  case call | vunpk => simp [rawRim, encode]
  case jr | lbrk | wait | halt => simp [rawRim, decodeOp1E, encode]
  case trap | eret | fence | wsync | msg | nextp => simp [rawRim, decodeOp1F, encode]
  case vins | vext | vhist => simp [rawRim, decodeOp27, encode]
  case vbfp | vpld => simp [rawRim, decodeOp2E, encode]
  case cfg => simp [rawRim, decodeOp30, encode]
  case pusht | popt => simp [rawRim, decodeOp31, encode]
  case orl | old | ost => simp [rawRim, decodeOp33, encode]
  case wardw => simp [rawRim, decodeOp37, encode]
  case jmp => simp [rawRim, decodeBranch, encode]
  case br g o =>
    have hg : ¬ g = 0#4 := by simpa [legalOperands] using hw
    simp [rawRim, decodeBranch, encode, hg]
  all_goals contradiction

/-! ### C-words -/

/-- R16: the map of C-words reads the word of a C-word back as that C-word. -/
theorem rawCword_encode {i : Instr} (hk : i.kind = 1) : rawCword (encode i) = some i := by
  cases i
  case nopc | tgt | ext | tgtr | fld | fldh | row | typeWord | img | commit | sealWord | clrt => simp [rawCword, encode]
  all_goals exact absurd hk (Nat.ne_of_beq_eq_false rfl)

/-! ### Cell words -/

/-- The cell words whose operation number (R38; 64 plus the function for the integer group) lies in a range. -/
def cellOpIn (lo hi : Nat) (i : Instr) : Bool := i.cellRow.any fun r => decide (lo ≤ r.op ∧ r.op < hi)

-- As above, for the case lemmas of the cell decoder.
set_option Elab.async false in
theorem rawCell_encode_of_op_lt_24 {i : Instr} (h : cellOpIn 0 24 i = true) : rawCell (encode i) = some i := by
  cases i
  case cellMacf | cellMacb | cellMacp | cellWload | cellWplt | cellPsum | cellPass | cellBubl | cellSelr | cellRsum
    | cellRmax | cellRmin | cellRfold | cellAgen | cellAreq | cellAstq | cellAred | cellAwin | cellFeedr | cellOutr =>
    simp [rawCell, encode]
  all_goals contradiction

theorem rawCell_encode_of_op_lt_36 {i : Instr} (h : cellOpIn 24 36 i = true) : rawCell (encode i) = some i := by
  cases i
  case cellVadd | cellVsub | cellVmul | cellVfma | cellVfms | cellVfnma | cellVmax | cellVmin | cellVabs | cellVneg
    | cellVcps | cellVcmp => simp [rawCell, encode]
  all_goals contradiction

theorem rawCell_encode_of_op_lt_48 {i : Instr} (h : cellOpIn 36 48 i = true) : rawCell (encode i) = some i := by
  cases i
  case cellVsel | cellVcls | cellVcvt | cellVrndi | cellVftoi | cellVitof | cellVexpf | cellVlogf | cellVscale | cellVgetx
    | cellVrcp | cellVrsq => simp [rawCell, encode]
  all_goals contradiction

theorem rawCell_encode_of_op_lt_64 {i : Instr} (h : cellOpIn 48 64 i = true) : rawCell (encode i) = some i := by
  cases i
  case cellVdot | cellVsumt | cellVmaxt | cellVscan | cellVperm | cellVshuf | cellVbcst | cellVhist | cellVhmrg | cellVpack
    | cellVunpk | cellVbfp | cellVpld | cellVmsk => simp [rawCell, encode]
  all_goals contradiction

theorem rawCell_encode_of_intGroup {i : Instr} (h : cellOpIn 64 77 i = true) : rawCell (encode i) = some i := by
  cases i
  case cellViadd | cellVisub | cellVimul | cellVand | cellVor | cellVxor | cellVshl | cellVshr | cellVsar | cellVimin
    | cellVimax | cellVcnt | cellVimac => simp [rawCell, decodeCell3E, encode]
  all_goals contradiction

/-- The cell words are those that have a row, and R38 and R39 number their operations below 77. -/
theorem kind_beq_two (i : Instr) : (i.kind == 2) = cellOpIn 0 77 i := by
  cases i
  all_goals rfl

theorem cellOpIn_iff {lo hi : Nat} {i : Instr} :
    cellOpIn lo hi i = true ↔ ∃ r, i.cellRow = some r ∧ lo ≤ r.op ∧ r.op < hi := by
  simp [cellOpIn, Option.any_eq_true]

/-- R38, R39: the map of cell words reads the word of a cell word back as that cell word. -/
theorem rawCell_encode {i : Instr} (hk : i.kind = 2) : rawCell (encode i) = some i := by
  have h : cellOpIn 0 77 i = true := by rw [← kind_beq_two, hk]; rfl
  obtain ⟨r, hr, -, hop⟩ := cellOpIn_iff.1 h
  have band {lo hi : Nat} (h1 : lo ≤ r.op) (h2 : r.op < hi) : cellOpIn lo hi i = true := cellOpIn_iff.2 ⟨r, hr, h1, h2⟩
  by_cases h24 : r.op < 24
  · exact rawCell_encode_of_op_lt_24 (band (Nat.zero_le _) h24)
  by_cases h36 : r.op < 36
  · exact rawCell_encode_of_op_lt_36 (band (Nat.le_of_not_lt h24) h36)
  by_cases h48 : r.op < 48
  · exact rawCell_encode_of_op_lt_48 (band (Nat.le_of_not_lt h36) h48)
  by_cases h64 : r.op < 64
  · exact rawCell_encode_of_op_lt_64 (band (Nat.le_of_not_lt h48) h64)
  · exact rawCell_encode_of_intGroup (band (Nat.le_of_not_lt h64) hop)

/-! ### Decoding -/

/-- R10: what a map reads is decoded where it is well-formed. -/
theorem wellFormedOnly_some {r : Reject} {i : Instr} (hw : i.wellFormed = true) : wellFormedOnly r (some i) = .ok i := by
  simp only [wellFormedOnly, hw, if_true]

theorem legalOperands_of_wellFormed {i : Instr} (hw : i.wellFormed = true) : legalOperands i = true := by
  simp only [Instr.wellFormed, Bool.and_eq_true] at hw
  exact hw.1

/-- Settles O1: `rawRim` reads the word back, and the instruction is well-formed. -/
theorem rimRoundTrip : Obligations.RimRoundTrip := by
  intro i hk hw hn
  rw [decodeRim, rawRim_encode hk (legalOperands_of_wellFormed hw) hn, wellFormedOnly_some hw]

/-- Settles O2: `rawCword` and `rawCell` read the word back, and the instruction is well-formed. -/
theorem wordRoundTrip : Obligations.WordRoundTrip := by
  refine ⟨fun i hk hw => ?_, fun i hk hw => ?_⟩
  · rw [decodeCword, rawCword_encode hk, wellFormedOnly_some hw]
  · rw [decodeCell, rawCell_encode hk, wellFormedOnly_some hw]

/-- Settles O60: each word that the spec writes out is the word that its instruction encodes as, so that the round trips
decode it. -/
theorem wordsOfTheSpec : Obligations.WordsOfTheSpec := by
  have rim (i : Instr) (w : Word) (he : encode i = w) (hk : i.kind = 0) (hw : i.wellFormed = true)
      (hn : i.isSecondName = false) : decodeRim w = .ok i := he ▸ rimRoundTrip i hk hw hn
  have cword (i : Instr) (w : Word) (he : encode i = w) (hk : i.kind = 1) (hw : i.wellFormed = true) :
      decodeCword w = .ok i := he ▸ wordRoundTrip.1 i hk hw
  have cell (i : Instr) (w : Word) (he : encode i = w) (hk : i.kind = 2) (hw : i.wellFormed = true) :
      decodeCell w = .ok i := he ▸ wordRoundTrip.2 i hk hw
  refine ⟨rim _ _ rfl rfl rfl rfl, rim _ _ rfl rfl rfl rfl, rim _ _ rfl rfl rfl rfl, rim _ _ rfl rfl rfl rfl,
    rim _ _ rfl rfl rfl rfl, rim _ _ rfl rfl rfl rfl, rim _ _ rfl rfl rfl rfl, rim _ _ rfl rfl rfl rfl,
    rim _ _ rfl rfl rfl rfl, rim _ _ rfl rfl rfl rfl, rim _ _ rfl rfl rfl rfl, rim _ _ rfl rfl rfl rfl,
    rim _ _ rfl rfl rfl rfl, cword _ _ rfl rfl rfl, cword _ _ rfl rfl rfl, cword _ _ rfl rfl rfl,
    cword _ _ rfl rfl rfl, cword _ _ rfl rfl rfl, cword _ _ rfl rfl rfl, cell _ _ rfl rfl rfl⟩

end Sys2Proof.Laws
end

section
/-! PROOFS. The turn of an agent: the word that stands next runs as the instruction it decodes to (O4). -/

namespace Sys2Proof.Laws

open Sys2Proof Sys2Proof.Machine

/-- Where nothing is on the agenda, the first agent that moves takes its turn. -/
theorem step_eq_agentTurn {s : State} {a : Agent} {rest : List Agent} (ha : s.agenda = []) (ht : s.turns = a :: rest)
    (hm : s.moves a = true) : step s = agentTurn a s := by
  simp [step, advance, ha, ht, hm]

/-- Rim cores, nets and graphs move while the island serves and is not too hot (R381, R398). -/
theorem moves_of_serving {s : State} {a : Agent} (hs : s.island.st = .serve) (hh : s.mgmt.thermal = false) :
    s.moves a = true := by
  cases a <;> simp [State.moves, hs, hh]

theorem readyCmds_eq_nil {s : State} {t : Nat} (ht : s.tileIdx = t) (h : ∀ x ∈ s.tile.core.cmds, s.cmdReady t x = false) :
    s.readyCmds t = [] := by
  have hg : s.getTile t = s.tile := by simp [State.getTile, ht]
  rw [State.readyCmds, hg, List.filter_eq_nil_iff.2 (by simpa using h), List.map_nil]

/-- A running core with no event to take and no command to start goes on with its instructions. -/
theorem rimTurn_eq_coreTurn {s : State} {t : Nat} (ha : s.agenda = []) (hr : (s.focusTile t).tile.core.run = .running)
    (hp : (s.focusTile t).tile.core.pendPreempt = false) (hq : (s.focusTile t).tile.core.pendMgmt = false)
    (hc : ∀ x ∈ (s.focusTile t).tile.core.cmds, (s.focusTile t).cmdReady t x = false) :
    rimTurn t s = coreTurn (s.focusTile t) := by
  have hf : { s.focusTile t with agenda := (s.focusTile t).agenda ++ (s.focusTile t).readyCmds t } = s.focusTile t := by
    rw [readyCmds_eq_nil (focusTile_idx s t) hc, focusTile_agenda, ha, List.nil_append, ← ha, ← focusTile_agenda s t]
  simp only [rimTurn, hf, hp, hq, hr, Bool.false_and, Bool.false_eq_true, if_false, beq_self_eq_true, if_true]

theorem runRimWord_of_decodeRim {w : Word} {i : Instr} (h : decodeRim w = .ok i) (s : State) : runRimWord w s = exec i s := by
  rw [runRimWord, rimInstr, h]

theorem runCellWord_of_decodeCell {w : Word} {i : Instr} (h : decodeCell w = .ok i) (s : State) :
    runCellWord w s = exec i s := by
  rw [runCellWord, h]

@[simp] theorem countFetch_core (s : State) (m : CodeMark) : (s.countFetch m).tile.core = s.tile.core := by
  unfold State.countFetch
  split <;> rfl

/-- R109, R162: a fetched word that is not corrupt and not the supervisor's runs. -/
theorem fetchAndRun_of_decodeRim {s : State} {w : Word} {m : CodeMark} {i : Instr} (hw : s.tile.fetchWord s.tile.core.pc = (w, m))
    (hm : m ≠ .uncorrectable) (hf : s.tile.core.fetchesSuper = false) (hd : decodeRim w = .ok i) :
    fetchAndRun s = exec i (s.countFetch m) := by
  simp only [fetchAndRun, hw, hm, hf, if_false, Bool.false_eq_true, runRimWord_of_decodeRim hd]

/-- R157: an instruction that is held runs from its word. -/
theorem reissue_of_held {s : State} {h : Held} {i : Instr} (hh : s.tile.core.held = some h) (hd : decodeRim h.word = .ok i) :
    reissue s = exec i (s.setCore { s.tile.core with stall := .none }) := by
  simp only [reissue, hh, runRimWord_of_decodeRim hd]

/-- R177: a stream that has begun and is not held reads its next word and acts on it. -/
theorem netTurn_of_word {s u : State} {n : Nat} {w : Word} {i : Instr} (hl : (s.focusNet n).stream.len ≠ 0)
    (hr : (s.focusNet n).stream.result = none) (hs : (s.focusNet n).stream.started = true)
    (hp : (s.focusNet n).stream.paused = false) (hw : nextWord (s.focusNet n) = .word w u) (h0 : u.stream.raw = 0)
    (hd : decodeCword w = .ok i) : netTurn n s = exec i u := by
  simp [netTurn, runStreamWord, hl, hr, hs, hp, hw, h0, hd]

/-- R187, R251: a region that has not faulted and whose row SV does not hold back runs its row. -/
theorem rowTurn_of_decodeCell {s u v : State} {r : Nat} {i : Instr} (hu : u = s.focusRegion r) (hi : u.region.id = r)
    (hf : u.graph.faulted.contains r = false)
    (hg : u.region.gateOpen (fld (sparseGet 0 u.region.cfg.words u.region.rowNo) 26 6).toNat = true)
    (hd : decodeCell (sparseGet 0 u.region.cfg.words u.region.rowNo) = .ok i) (he : exec i u = .next v) :
    rowTurn r s = .next (if v.graph.todo.contains r then v.settle.yieldTurn else v.settle) := by
  simp only [rowTurn, ← hu, hi, hf, hg, runCellWord_of_decodeCell hd, he, ne_eq, not_true_eq_false, Bool.false_eq_true,
    Bool.true_eq_false, or_self, if_false]

/-- Settles O4: the turn of each kind of agent, taken apart. -/
theorem stepRunsWords : Obligations.StepRunsWords := by
  refine ⟨?fetched, ?held, ?stream, ?row⟩
  case fetched =>
    intro s t rest w m i ha hs hh ht hst hr hi hp hq hc hf hw hm hd
    rw [step_eq_agentTurn ha ht (moves_of_serving hs hh), agentTurn, rimTurn_eq_coreTurn ha hr hp hq hc]
    simp only [coreTurn, hst, focusTile_idx, hi, if_true, fetchAndRun_of_decodeRim hw hm hf hd]
  case held =>
    intro s u t rest h i ha hs hh ht hu hst hl hr hi hp hq hc hd
    subst hu
    rw [step_eq_agentTurn ha ht (moves_of_serving hs hh), agentTurn, rimTurn_eq_coreTurn ha hr hp hq hc]
    obtain hst | hst := hst <;>
      simp only [coreTurn, hst, focusTile_idx, hi, if_true, reissue_of_held hl hd]
  case stream =>
    intro s u n rest w i ha hs hh ht hl hr hst hp hw h0 hd
    rw [step_eq_agentTurn ha ht (moves_of_serving hs hh), agentTurn, netTurn_of_word hl hr hst hp hw h0 hd]
  case row =>
    intro s u g r rest todo w i ha hs hh ht hg hp htd hu hi hf hw hgate hd v he
    subst hw
    rw [step_eq_agentTurn ha ht (moves_of_serving hs hh)]
    simp only [agentTurn, graphTurn, hg, hp, htd, ne_eq, not_true_eq_false, if_false]
    exact rowTurn_of_decodeCell hu hi hf hgate hd he

end Sys2Proof.Laws
end

section
/-! PROOFS. The guard (R21) and the last word of the code store (R23), for every guarded word (O7). -/

namespace Sys2Proof.Laws

open Sys2Proof Sys2Proof.Machine

/-! ### The course of the guarded words -/

/-- R21, R86 to R90: a scalar instruction changes its core alone, under its guard. -/
theorem exec_of_scalarSpec {i : Instr} {d g v} (h : scalarSpec i = some (d, g, v)) (s : State) :
    ∃ f, exec i s = coreInstr 0 (encode i) (s.tile.core.guard g) f s := by
  cases i
  case add | sub | and | or | xor | andn | sll | srl | sra | rol | mul | mulh | mulhu | div | divu | rem | remu | min |
    max | minu | maxu | clz | ctz | popc | bswap | sextB | sextH | sextW | zextB | zextH | zextW | bfx | bfi |
    lea1 | lea2 | lea4 | lea8 | sel | addi | andi | ori | xori | slli | srli | srai | muli | addpc | lil | lih |
    p2s =>
    cases h
    simp only [exec_add, exec_sub, exec_and, exec_or, exec_xor, exec_andn, exec_sll, exec_srl, exec_sra, exec_rol, exec_mul,
      exec_mulh, exec_mulhu, exec_div, exec_divu, exec_rem, exec_remu, exec_min, exec_max, exec_minu, exec_maxu,
      exec_clz, exec_ctz, exec_popc, exec_bswap, exec_sextB, exec_sextH, exec_sextW, exec_zextB, exec_zextH,
      exec_zextW, exec_bfx, exec_bfi, exec_lea1, exec_lea2, exec_lea4, exec_lea8, exec_sel, exec_addi,
      exec_andi, exec_ori, exec_xori, exec_slli, exec_srli, exec_srai, exec_muli, exec_addpc, exec_lil,
      exec_lih, exec_p2s, execAdd, execSub, execAnd, execOr, execXor, execAndn, execSll, execSrl, execSra,
      execRol, execMul, execMulh, execMulhu, execDiv, execDivu, execRem, execRemu, execMin, execMax, execMinu,
      execMaxu, execClz, execCtz, execPopc, execBswap, execSextB, execSextH, execSextW, execZextB, execZextH,
      execZextW, execBfx, execBfi, execLea1, execLea2, execLea4, execLea8, execSel, execAddi, execAndi, execOri,
      execXori, execSlli, execSrli, execSrai, execMuli, execAddpc, execLil, execLih, execP2s, scalar2, scalar1]
    exact ⟨_, rfl⟩
  all_goals contradiction

/-- The same of the instructions that write a predicate. -/
theorem exec_of_predSpec {i : Instr} {d g v} (h : predSpec i = some (d, g, v)) (s : State) :
    ∃ f, exec i s = coreInstr 0 (encode i) (s.tile.core.guard g) f s := by
  cases i
  case cmp | cmpi | plogAnd | plogOr | plogXor | plogNot | s2p =>
    cases h
    simp only [exec_cmp, exec_cmpi, exec_plogAnd, exec_plogOr, exec_plogXor, exec_plogNot, exec_s2p, execCmp, execCmpi,
      execPlogAnd, execPlogOr, execPlogXor, execPlogNot, execS2p, predInstr]
    exact ⟨_, rfl⟩
  all_goals contradiction

/-- R21: a scalar instruction whose guard is false does no more than retire. -/
theorem exec_of_scalar_guard_false {i : Instr} {k g}
    (h : (scalarSpec i).map (fun x => ((0 : Fin 8), x.2.1)) = some (k, g)) {s : State} (hc : CanRetire s)
    (hg : s.tile.core.guard g = false) : exec i s = .next (retireTo s s k (nextOf s)) := by
  obtain ⟨⟨d, g, v⟩, hv, e⟩ := Option.map_eq_some_iff.1 h
  cases e
  obtain ⟨f, hf⟩ := exec_of_scalarSpec hv s
  rw [hf, hg, coreInstr, seqInstr_skip _ _ _ s hc]

/-- R21: a word whose guard is false does no more than retire. -/
theorem exec_of_guard_false {i : Instr} {k g} (h : guardSpec i = some (k, g)) {s : State} (hc : CanRetire s)
    (hg : s.tile.core.guard g = false) : exec i s = .next (retireTo s s k (nextOf s)) := by
  cases i
  case br | jr | lbrk | wait | halt =>
    cases h
    simp only [exec_br, exec_jr, exec_lbrk, exec_wait, exec_halt, execBr, execJr, execLbrk, execWait, execHalt, hg,
      Bool.false_eq_true, if_false, seqInstr_skip _ _ _ s hc]
  case cmp | plogAnd | plogOr | plogXor | plogNot | s2p =>
    cases h
    simp only [exec_cmp, exec_plogAnd, exec_plogOr, exec_plogXor, exec_plogNot, exec_s2p, execCmp, execPlogAnd, execPlogOr,
      execPlogXor, execPlogNot, execS2p, predInstr, coreInstr, hg, seqInstr_skip _ _ _ s hc]
  case ldb | ldbu | ldh | ldhu | ldw | ldwu | ldd | ldt =>
    cases h
    simp only [exec_ldb, exec_ldbu, exec_ldh, exec_ldhu, exec_ldw, exec_ldwu, exec_ldd, exec_ldt, execLdb, execLdbu, execLdh,
      execLdhu, execLdw, execLdwu, execLdd, execLdt, scalarLoad, hg, seqInstr_skip _ _ _ s hc]
  case stb | sth | stw | std | stt =>
    cases h
    simp only [exec_stb, exec_sth, exec_stw, exec_std, exec_stt, execStb, execSth, execStw, execStd, execStt, scalarStore, hg,
      seqInstr_skip _ _ _ s hc]
  case amoAdd | amoAnd | amoOr | amoXor | amoMin | amoMax | amoMinu | amoMaxu | amoSwp | amoFadd | amoBfadd | amocas =>
    cases h
    simp only [exec_amoAdd, exec_amoAnd, exec_amoOr, exec_amoXor, exec_amoMin, exec_amoMax, exec_amoMinu, exec_amoMaxu,
      exec_amoSwp, exec_amoFadd, exec_amoBfadd, exec_amocas, execAmoAdd, execAmoAnd, execAmoOr, execAmoXor,
      execAmoMin, execAmoMax, execAmoMinu, execAmoMaxu, execAmoSwp, execAmoFadd, execAmoBfadd, execAmocas,
      amoInstr, hg, seqInstr_skip _ _ _ s hc]
  case redtAdd | redtFadd | redtBfadd | redtMin | redtMax =>
    cases h
    simp only [exec_redtAdd, exec_redtFadd, exec_redtBfadd, exec_redtMin, exec_redtMax, execRedtAdd, execRedtFadd,
      execRedtBfadd, execRedtMin, execRedtMax, redtInstr, hg, seqInstr_skip _ _ _ s hc]
  case pusht | popt | orl | old | ost =>
    cases h
    simp only [exec_pusht, exec_popt, exec_orl, exec_old, exec_ost, execPusht, execPopt, execOrl, execOld, execOst, tileInstr,
      hg, seqInstr_skip _ _ _ s hc]
  case cfg | cfgw | drn | cpy | cpySlice | cpyw | ocl | hoopArrive | hoopArm | hoopQuery | pub | ple =>
    cases h
    simp only [exec_cfg, exec_cfgw, exec_drn, exec_cpy, exec_cpySlice, exec_cpyw, exec_ocl, exec_hoopArrive, exec_hoopArm,
      exec_hoopQuery, exec_pub, exec_ple, execCfg, execCfgw, execDrn, execCpy, execCpySlice, execCpyw, execOcl,
      execHoopArrive, execHoopArm, execHoopQuery, execPub, execPle, cpyInstr, hoopInstr, statusInstr, hg,
      seqInstr_skip _ _ _ s hc]
  all_goals
    refine exec_of_scalar_guard_false ?_ hc hg
    exact h

/-- R23: an instruction that changes its core alone traps at the last word of the code store. -/
theorem coreInstr_last {s : State} (hc : ¬ CanRetire s) (hr : HandlerReady s.tile.core) (k : Fin 8) (w : Word) (g : Bool)
    (f : Core → Core) : ∃ t, coreInstr k w g f s = .next t ∧ TrapsWith causeBadTgt 1024 w s t :=
  ⟨_, seqInstr_last k w g _ s hc, trapAt_with s causeBadTgt 1024 w hr⟩

/-- Settles O7: the course of a guarded word where its guard is false, and of a scalar or predicate instruction at the last
word. -/
theorem guardsAndLastWord : Obligations.GuardsAndLastWord := by
  refine ⟨?skip, ?last⟩
  case skip =>
    intro i k g s h hc hg
    exact ⟨_, exec_of_guard_false h hc hg, retireTo_effect k s id rfl rfl⟩
  case last =>
    intro i k g s _ h hc hr
    obtain h | h := h <;> obtain ⟨⟨d, g', v⟩, hx⟩ := Option.isSome_iff_exists.1 h
    · obtain ⟨f, hf⟩ := exec_of_scalarSpec hx s
      exact hf ▸ coreInstr_last hc hr 0 (encode i) (s.tile.core.guard g') f
    · obtain ⟨f, hf⟩ := exec_of_predSpec hx s
      exact hf ▸ coreInstr_last hc hr 0 (encode i) (s.tile.core.guard g') f

end Sys2Proof.Laws
end

section
/-! PROOFS. Traps, a trap without a handler, TRAP and ERET (O17). -/

namespace Sys2Proof.Laws

open Sys2Proof Sys2Proof.Machine

/-- R107: a trap, synchronous or not, of a core whose handler is ready. -/
theorem enterTrap_of_ready (s : State) (cause : BitVec 8) (detail : BitVec 64) (resume : BitVec 10) (async : Bool) (word : Word)
    (h : HandlerReady s.tile.core) :
    enterTrap s cause detail resume async word = s.setCore (trapped s.tile.core cause detail resume async word) := by
  obtain ⟨hm, hv⟩ := h
  simp only [enterTrap, hm, hv, trapped]
  rfl

/-- R107, R294: a trap of a core without a ready handler stops its context. -/
theorem enterTrap_of_not_ready (s : State) (cause : BitVec 8) (detail : BitVec 64) (resume : BitVec 10) (async : Bool)
    (word : Word) (h : ¬ HandlerReady s.tile.core) :
    enterTrap s cause detail resume async word = stopContext (s.setCore { s.tile.core with
      epc := resume, ecause := cause, easync := async, eaddr := detail, estat := if async then 0 else word
      stall := .none, resident := false, answers := [], held := none }) := by
  have hc : (s.tile.core.mode || !s.tile.core.tvecValid) = true := by
    cases hm : s.tile.core.mode <;> cases hv : s.tile.core.tvecValid <;> simp_all [HandlerReady]
  simp only [enterTrap, hc, if_true]

/-- Retirement leaves the mode and the handler as they were. -/
theorem handlerReady_of_coreEffect {k : Fin 8} {s t : State} (h : CoreEffect k id s t) (hr : HandlerReady s.tile.core) :
    HandlerReady t.tile.core := by
  obtain ⟨hm, hv⟩ := hr
  obtain ⟨-, -, he⟩ := h
  exact ⟨(congrArg Core.mode he).trans hm, (congrArg Core.tvecValid he).trans hv⟩

theorem exec_trap_of_canRetire (n : BitVec 12) (s : State) (h : CanRetire s) :
    exec (.trap n) s = .next (enterTrap (retireTo s s 7 (nextOf s)) causeSwTrap (n.setWidth 64)
      (BitVec.ofNat 10 (nextOf s).1) false (encode (.trap n))) := by
  rw [exec_trap]
  exact if_neg h

/-- Settles O17: EnterTrap by whether a handler is ready, for an illegal word, TRAP and ERET. -/
theorem traps : Obligations.Traps := by
  refine ⟨fun s hr => ⟨fun w => ?illegal, fun n hc => ?trap⟩, fun w s hr => ?stop, fun s => ⟨fun hm => ?eret, fun hr => ?priv⟩⟩
  case illegal => exact ⟨_, exec_illegalRimWord w s, trapAt_with s causeIllegal 0 w hr⟩
  case trap =>
    have he := retireTo_effect 7 s id rfl rfl
    exact ⟨_, he, (exec_trap_of_canRetire n s hc).trans
      (congrArg _ (enterTrap_of_ready _ _ _ _ _ _ (handlerReady_of_coreEffect he hr)))⟩
  case stop =>
    refine ⟨enterTrap s causeIllegal 0 s.tile.core.pc false w, exec_illegalRimWord w s, ?_⟩
    rw [enterTrap_of_not_ready s _ _ _ _ _ hr]
    exact ⟨rfl, rfl, _, rfl, rfl, rfl, rfl, rfl, rfl, rfl, rfl, rfl, rfl, rfl⟩
  case eret => rw [exec_eret, execEret, privInstr, if_pos hm, Core.returnFromTrap]
  case priv =>
    refine ⟨_, ?_, trapAt_with s causePriv 0 (encode .eret) hr⟩
    rw [exec_eret, execEret, privInstr, hr.1]
    exact if_neg Bool.false_ne_true

end Sys2Proof.Laws
end

section
/-! PROOFS. The issue of the status commands (O38). -/

namespace Sys2Proof.Laws

open Sys2Proof Sys2Proof.Machine

/-! ### Wards and records -/

theorem holds_iff_wardHolds {w : Ward} {va : BitVec 64} (h : va.toNat < 2 ^ 48) :
    w.holds va.toNat = true ↔ WardHolds w va := by
  simp only [Ward.holds, WardHolds, h, Bool.and_eq_true, decide_eq_true_eq, true_and]

/-- R306: the lowest-numbered ward that holds a VA is the one that the model finds. -/
theorem findWard_of_wardOf {c : Core} {va : BitVec 64} {w : Ward} (h : WardOf c va w) :
    findWard c.wards.toList va.toNat = some w := by
  obtain ⟨pre, post, hl, hpre, hw⟩ := h
  have hv : va.toNat < 2 ^ 48 := hw.2.1
  rw [findWard, if_pos hv, hl, List.find?_eq_some_iff_append]
  refine ⟨(holds_iff_wardHolds hv).2 hw, pre, post, rfl, fun x hx => ?_⟩
  rw [Bool.not_eq_true', ← Bool.not_eq_true, holds_iff_wardHolds hv]
  exact hpre x hx

/-- R207: a record that the spec accepts passes the model's checks. -/
theorem checkRecord_of_recordOk {c : Core} {va : BitVec 64} {al sz : Nat} (hs : 0 < sz) (h : RecordOk c va al sz) :
    checkRecord c va al sz = none := by
  obtain ⟨hal, w, hw, hr, hlim⟩ := h
  have hf := findWard_of_wardOf hw
  obtain ⟨pre, post, -, -, hv, -, hlo, -⟩ := hw
  have hh : w.holds (va.toNat + sz - 1) = true := by
    simp only [Ward.holds, hv, Bool.true_and, decide_eq_true_eq]
    omega
  simp [checkRecord, checkVas, hal, hf, hh, hr, Ward.grants]

/-- R207: a misaligned record is refused as such before anything else of it is looked at. -/
theorem checkRecord_of_misaligned {c : Core} {va : BitVec 64} {al : Nat} (h : va.toNat % al ≠ 0) (sz : Nat) :
    checkRecord c va al sz = some (causeAlign, va) := by
  simp [checkRecord, checkVas, h]

/-! ### Issue -/

/-- The record that a command names, from the registers of its core. -/
def recordOf (x : CmdForm) (c : Core) : Option (BitVec 64 × Nat × Nat) :=
  x.record.map fun r => (r.1 c, r.2)

/-- R31, R207: what a status command is at issue. -/
theorem exec_of_cmdSpec {i : Instr} {x : CmdForm} (h : cmdSpec i = some x) (s : State) :
    exec i s =
      if x.priv then privInstr (encode i) (statusInstr (encode i) x.kind x.d x.sa x.sb x.g (recordOf x)) s
      else statusInstr (encode i) x.kind x.d x.sa x.sb x.g (recordOf x) s := by
  cases i
  case cfgw | drn | cpy | cpySlice | cpyw | ocl | hoopArrive | hoopArm | hoopQuery | pub | ple | mig | migSp | hsplit |
    ptew | ptecas | pinv =>
    cases h
    simp only [exec_cfgw, exec_drn, exec_cpy, exec_cpySlice, exec_cpyw, exec_ocl, exec_hoopArrive, exec_hoopArm,
      exec_hoopQuery, exec_pub, exec_ple, exec_mig, exec_migSp, exec_hsplit, exec_ptew, exec_ptecas, exec_pinv,
      execCfgw, execDrn, execCpy, execCpySlice, execCpyw, execOcl, execHoopArrive, execHoopArm, execHoopQuery,
      execPub, execPle, execMig, execMigSp, execHsplit, execPtew, execPtecas, execPinv, privStatusInstr,
      cpyInstr, hoopInstr]
    rfl
  all_goals contradiction

theorem record_size_pos {i : Instr} {x : CmdForm} (h : cmdSpec i = some x) {va al sz} (hr : x.record = some (va, al, sz)) :
    0 < sz := by
  cases i
  case cpy | cpySlice | ple | ptew | ptecas =>
    cases h
    cases hr
    exact Nat.zero_lt_succ _
  case cfgw | drn | cpyw | ocl | hoopArrive | hoopArm | hoopQuery | pub | mig | migSp | hsplit | pinv =>
    cases h
    cases hr
  all_goals contradiction

/-- R31: outside the privilege check a status command takes the course of R207. -/
theorem exec_of_cmdSpec_permitted {i : Instr} {x : CmdForm} (h : cmdSpec i = some x) {s : State}
    (hp : x.priv = true → s.tile.core.mode = true) (hg : s.tile.core.guard x.g = true) :
    exec i s = seqInstr 6 (encode i) true
      (fun s => issueAct x.kind x.d (x.sa s.tile.core) (x.sb s.tile.core) (recordOf x s.tile.core) s) s := by
  rw [exec_of_cmdSpec h, statusInstr, hg]
  split
  · next hx => rw [privInstr, if_pos (hp hx), statusInstr, hg]
  · rfl

/-- R207 step 1: the record of a command, where it has one, passes. -/
def Passes (x : CmdForm) (c : Core) : Prop := ∀ va al sz, recordOf x c = some (va, al, sz) → checkRecord c va al sz = none

theorem passes_of_recordOk {i : Instr} {x : CmdForm} (h : cmdSpec i = some x) {c : Core}
    (hr : ∀ va al sz, x.record = some (va, al, sz) → RecordOk c (va c) al sz) : Passes x c := by
  intro va al sz hv
  obtain ⟨⟨f, al', sz'⟩, hx, e⟩ := Option.map_eq_some_iff.1 hv
  cases e
  exact checkRecord_of_recordOk (record_size_pos h hx) (hr _ _ _ hx)

/-- R207 step 2: a command that passes joins the queue while fewer than 16 are outstanding. -/
theorem issueAct_done {x : CmdForm} {s : State} (hp : Passes x s.tile.core) (hl : s.tile.core.cmds.length < 16)
    (k : CmdKind) (d : BitVec 5) (sa sb : BitVec 64) :
    ∃ w, issueAct k d sa sb (recordOf x s.tile.core) s = .done (s.setCore (s.tile.core.addCmd k d sa sb w)) := by
  unfold issueAct
  cases hr : recordOf x s.tile.core with
  | none => exact ⟨_, if_neg (by omega)⟩
  | some r =>
    obtain ⟨va, al, sz⟩ := r
    simp only [hp va al sz hr]
    exact ⟨_, if_neg (by omega)⟩

/-- R207 step 2: where 16 are outstanding, it waits. -/
theorem issueAct_full {x : CmdForm} {s : State} (hp : Passes x s.tile.core) (hl : 16 ≤ s.tile.core.cmds.length)
    (k : CmdKind) (d : BitVec 5) (sa sb : BitVec 64) :
    issueAct k d sa sb (recordOf x s.tile.core) s = .stall .again s := by
  unfold issueAct
  cases hr : recordOf x s.tile.core with
  | none => exact if_pos hl
  | some r =>
    obtain ⟨va, al, sz⟩ := r
    simp only [hp va al sz hr]
    exact if_pos hl

/-- R109: a misaligned record traps. -/
theorem issueAct_misaligned {x : CmdForm} {s : State} {va al sz} (hx : x.record = some (va, al, sz))
    (h : (va s.tile.core).toNat % al ≠ 0) (k : CmdKind) (d : BitVec 5) (sa sb : BitVec 64) :
    issueAct k d sa sb (recordOf x s.tile.core) s = .trap causeAlign (va s.tile.core) := by
  simp only [issueAct, recordOf, hx, Option.map_some, checkRecord_of_misaligned h]

/-- R84, R166: the register of an outstanding command is pending. -/
theorem pend_of_mem {c : Core} {q : Cmd} (hq : q ∈ c.cmds) (hd : q.d ≠ 0) : c.pend.getLsbD q.d.toNat = true := by
  have h0 : q.d.toNat ≠ 0 := fun h => hd (BitVec.eq_of_toNat_eq h)
  rw [Core.pend, maskOf_bit]
  simp only [q.d.isLt, decide_true, Bool.true_and, Bool.and_eq_true, bne_iff_ne, ne_eq, h0, not_false_eq_true, List.any_eq_true,
    beq_iff_eq, true_and]
  exact ⟨q, hq, rfl⟩

/-- R207: the command that a core queues next, with the ward of its record. -/
def newCmd (c : Core) (k : CmdKind) (d : BitVec 5) (sa sb : BitVec 64) (w : Ward) : Cmd :=
  ⟨c.cmdSerial, k, d, sa, sb, c.ctx, !c.mode, w, c.creelSeq, .queued, none, none⟩

theorem newCmd_queued (c : Core) (k : CmdKind) (d : BitVec 5) (sa sb : BitVec 64) (w : Ward) :
    Queued c k d sa sb (newCmd c k d sa sb w) := ⟨rfl, rfl, rfl, rfl, rfl, rfl, rfl, rfl, rfl⟩

/-- R84: once it is queued, its register is pending. -/
theorem pend_of_queued {k : Fin 8} {q : Cmd} {s t : State}
    (h : CoreEffect k (fun c => { c with cmds := c.cmds ++ [q], cmdSerial := c.cmdSerial + 1 }) s t) (hd : q.d ≠ 0) :
    t.tile.core.pend.getLsbD q.d.toNat = true := by
  obtain ⟨-, -, he⟩ := h
  have hc : t.tile.core.cmds = s.tile.core.cmds ++ [q] := congrArg Core.cmds he
  exact pend_of_mem (hc ▸ List.mem_append_right _ (List.mem_singleton_self q)) hd

/-- Settles O38: the issue of a command by its record and the number outstanding. -/
theorem commandIssue : Obligations.CommandIssue := by
  intro i x s h hc
  refine ⟨fun hg hp hr => ⟨fun hl => ?queued, fun hl => ?waits⟩, fun hx hh => ?priv, fun va al sz hg hp hh hx hm => ?align⟩
  case queued =>
    obtain ⟨w, hw⟩ := issueAct_done (passes_of_recordOk h hr) hl x.kind x.d (x.sa s.tile.core) (x.sb s.tile.core)
    have he := lateIn_effectAt (encode i) (retireTo_effect 6 s (fun c => { c with
      cmds := c.cmds ++ [newCmd s.tile.core x.kind x.d (x.sa s.tile.core) (x.sb s.tile.core) w]
      cmdSerial := c.cmdSerial + 1 }) rfl rfl)
    exact ⟨_, _, (exec_of_cmdSpec_permitted h hp hg).trans (seqInstr_done 6 _ _ s _ hc hw), newCmd_queued .., he,
      pend_of_queued he⟩
  case waits =>
    exact ⟨_, (exec_of_cmdSpec_permitted h hp hg).trans
      (seqInstr_stall 6 _ _ s _ hc _ (issueAct_full (passes_of_recordOk h hr) hl ..)), rfl, rfl⟩
  case priv =>
    refine ⟨_, ?_, trapAt_with s causePriv 0 (encode i) hh⟩
    rw [exec_of_cmdSpec h, if_pos hx, privInstr, if_neg (by simp [hh.1])]
  case align =>
    exact ⟨_, (exec_of_cmdSpec_permitted h hp hg).trans
      (seqInstr_trap 6 _ _ s hc _ _ (issueAct_misaligned hx hm ..)), trapAt_with s _ _ _ hh⟩

end Sys2Proof.Laws
end

section
/-! PROOFS. The C-words of a configuration stream: what each does where it is in order, and what refuses it (O43). -/

namespace Sys2Proof.Laws

open Sys2Proof Sys2Proof.Machine

/-! ### Refusals -/

theorem putTile_eq (s : State) (t : Nat) (x : Tile) :
    s.putTile t x = { s with tile := (s.putTile t x).tile, tiles := (s.putTile t x).tiles } := by
  unfold State.putTile
  split <;> rfl

/-- R207: a status that lands changes no more than the core that it lands in, or the save record that holds that core. -/
theorem landStatus_eq (s : State) (r : CmdRef) (st : Status) :
    landStatus s r st = { s with
      tile := (landStatus s r st).tile, tiles := (landStatus s r st).tiles, mgmt := (landStatus s r st).mgmt
      free := (landStatus s r st).free } := by
  unfold landStatus
  dsimp only
  split
  · rw [State.onCore, putTile_eq]
  · rfl

/-- R18: a stream that is refused for anything but its sum. -/
theorem refused_refuseStream {code : BitVec 8} (hc : code ≠ 7) (reason : BitVec 8) (off : Nat) (u : State) :
    Refused code reason off u (refuseStream u code reason off) := by
  simp only [Refused, refuseStream, if_neg hc]
  cases u.stream.ref with
  | none => rfl
  | some r => exact landStatus_eq _ r _

/-! ### The course of a C-word -/

/-- R17: between FLDH and its FLD a word that may not stand there. -/
theorem cword_blocked {s : State} (h : s.settle.stream.high.isSome = true) (w : Word) (body : State → Applied) :
    cword w false body s = .next (refuseStream s.settle 2 0 s.settle.stream.offset) := by
  simp only [cword, h, Bool.not_false, Bool.and_self, if_true]

/-- R17: a word that may stand where it does. -/
def Stands (s : State) (free : Bool) : Prop := s.settle.stream.high = none ∨ free = true

theorem Stands.blocked_eq_false {s : State} {free : Bool} (h : Stands s free) :
    (s.settle.stream.high.isSome && !free) = false := by
  obtain h | h := h <;> rw [h]
  · rfl
  · exact Bool.and_false _

/-- R18: a word that is in order. -/
theorem cword_ok {s t : State} {free : Bool} (h : Stands s free) {w : Word} {body : State → Applied}
    (hb : body s.settle = .ok t) : cword w free body s = .next (takeWord t w) := by
  simp only [cword, h.blocked_eq_false, hb, Bool.false_eq_true, if_false]

/-- A word that does no more than change the stream to `y`. -/
theorem cword_took {s : State} {free : Bool} (h : Stands s free) {w : Word} {body : State → Applied} {y : Stream}
    (hb : body s.settle = okStream s.settle y) (ho : y.offset = s.settle.stream.offset := by rfl)
    (hs : y.sum = s.settle.stream.sum := by rfl) : cword w free body s = .next (took s.settle w y) := by
  rw [cword_ok h hb]
  simp only [takeWord, State.setStream, took, ho, hs]
  rfl

/-- A word that refuses its stream. -/
theorem cword_refused {s : State} {free : Bool} (h : Stands s free) {w : Word} {body : State → Applied} {code reason : BitVec 8}
    (hb : body s.settle = .refuse code reason) (hc : code ≠ 7 := by decide) :
    ∃ t, cword w free body s = .next t ∧ Refused code reason s.settle.stream.offset s.settle t := by
  refine ⟨_, ?_, refused_refuseStream hc reason _ _⟩
  simp only [cword, h.blocked_eq_false, hb, Bool.false_eq_true, if_false]

/-- R17, R18: every word but NOPC and FLD between FLDH and its FLD. -/
theorem exec_of_high {i : Instr} (hk : i.kind = 1) (hn : i ≠ .nopc) (hf : ∀ f v, i ≠ .fld f v) {s : State}
    (he : ∀ r c, i = .ext r c → s.settle.stream.extTooBig (r.toNat + 1) (c.toNat + 1) = false)
    (h : s.settle.stream.high.isSome = true) :
    exec i s = .next (refuseStream s.settle 2 0 s.settle.stream.offset) := by
  cases i
  case nopc => exact absurd rfl hn
  case fld f v => exact absurd rfl (hf f v)
  case tgt => exact (exec_tgt ..).trans (cword_blocked h ..)
  case tgtr => exact (exec_tgtr ..).trans (cword_blocked h ..)
  case ext r c =>
    rw [exec_ext, execExt, he r c rfl]
    exact cword_blocked h ..
  case clrt => exact (exec_clrt ..).trans (cword_blocked h ..)
  case fldh => exact (exec_fldh ..).trans (cword_blocked h ..)
  case row => exact (exec_row ..).trans (cword_blocked h ..)
  case typeWord => exact (exec_typeWord ..).trans (cword_blocked h ..)
  case img => exact (exec_img ..).trans (cword_blocked h ..)
  case commit => exact (exec_commit ..).trans (cword_blocked h ..)
  case sealWord => exact (exec_sealWord ..).trans (if_pos h)
  all_goals exact absurd hk (Nat.ne_of_beq_eq_false rfl)

/-! ### Targets -/

theorem bound_iff_inRectangle (y : Target) (g : Graph) : y.bound g = true ↔ InRectangle y g := by
  simp only [Target.bound, InRectangle, decide_eq_true_eq]

theorem addTarget_of_inRectangle {s : State} {y : Target} (hl : s.stream.targets.length < 64)
    (hy : InRectangle y s.streamGraph) :
    addTarget y s = okStream s { s.stream with targets := s.stream.targets ++ [y], extOpen := true } := by
  rw [addTarget, (bound_iff_inRectangle y _).2 hy]
  exact if_neg (by simp; omega)

theorem addTarget_refused {s : State} {y : Target} (h : 64 ≤ s.stream.targets.length ∨ ¬ InRectangle y s.streamGraph) :
    addTarget y s = .refuse 3 0 := by
  rw [← bound_iff_inRectangle] at h
  exact if_pos (by simpa using h)

/-- R17: the rectangle that an EXT completes is the last one. -/
theorem openTarget_eq {x : Stream} {pre : List Target} {y : Target} (ht : x.targets = pre ++ [y]) (ho : x.extOpen = true) :
    x.openTarget = some y := by
  simp [Stream.openTarget, ht, ho]

/-- R16: the limits of an EXT that completes a rectangle. -/
theorem extTooBig_iff {x : Stream} {y : Target} (h : x.openTarget = some y) (rows cols : Nat) :
    x.extTooBig rows cols = true ↔
      (if y.tiles then 48 else 768) < y.row + rows ∨ (if y.tiles then 44 else 704) < y.col + cols := by
  simp only [Stream.extTooBig, h, Option.getD_some, decide_eq_true_eq]
  split <;> rfl

theorem extAct_of_inRectangle {s : State} {pre : List Target} {y : Target} {rows cols : Nat}
    (ht : s.stream.targets = pre ++ [y]) (ho : s.stream.extOpen = true)
    (hz : InRectangle { y with rows := rows, cols := cols } s.streamGraph) :
    extAct rows cols s =
      okStream s { s.stream with targets := pre ++ [{ y with rows := rows, cols := cols }], extOpen := false } := by
  simp only [extAct, openTarget_eq ht ho, (bound_iff_inRectangle _ _).2 hz, if_true, ht, List.dropLast_concat]

/-! ### Fields -/

/-- R183: a field that is written reads as its value, and no other changes. -/
theorem field_putFieldAt (c : RegionCfg) (n k : Nat) (v : BitVec 32) :
    ({ c with fields := putFieldAt c.fields n v } : RegionCfg).field k = if k = n then v else c.field k := by
  show (assocGet (putFieldAt c.fields n v) k).getD (fieldReset k) = if k = n then v else (assocGet c.fields k).getD (fieldReset k)
  unfold putFieldAt
  split
  · next hv =>
    rw [assocGet_drop]
    split
    · next hk => rw [hk, hv, Option.getD_none]
    · rfl
  · rw [assocGet_put]
    split <;> rfl

/-- R185: the delay of one cell. -/
theorem putCellField_dlyIn (c : RegionCfg) (row : Nat) (v : BitVec 32) (p : Nat × Nat) :
    c.putCellField 0x300 row v p =
      { c with dlyIn := sparsePut 0 c.dlyIn (cellKey (p.1 - c.row0) (p.2 - c.col0)) (fld v 0 14) } := rfl

/-- R183: the delays of the cells of a list: nothing else of the pending copy changes, a cell of the list has the value, and a cell that
had it keeps it. -/
theorem foldl_putCellField_dlyIn (row : Nat) (v : BitVec 32) (l : List (Nat × Nat)) (c : RegionCfg) :
    let c' := l.foldl (fun c p => c.putCellField 0x300 row v p) c
    c' = { c with dlyIn := c'.dlyIn } ∧
    (∀ k, sparseGet 0 c.dlyIn k = fld v 0 14 → sparseGet 0 c'.dlyIn k = fld v 0 14) ∧
    ∀ p ∈ l, sparseGet 0 c'.dlyIn (cellKey (p.1 - c.row0) (p.2 - c.col0)) = fld v 0 14 := by
  induction l generalizing c with
  | nil => exact ⟨rfl, fun _ h => h, fun _ h => absurd h List.not_mem_nil⟩
  | cons p l ih =>
    obtain ⟨h1, h2, h3⟩ := ih (c.putCellField 0x300 row v p)
    refine ⟨h1, fun k hk => h2 k ?_, fun q hq => ?_⟩
    · rw [putCellField_dlyIn, sparseGet_put, hk, ite_self]
    · obtain rfl | hq := List.mem_cons.1 hq
      · exact h2 _ (by rw [putCellField_dlyIn, sparseGet_put, if_pos rfl])
      · exact h3 q hq

section Fld

variable {s : State} {n : Nat} {v : BitVec 16} {m : BitVec 32} {id : Nat} {c : RegionCfg}
  (hm : fieldMask n = some m) (hv : (s.stream.high.getD 0 ++ v : BitVec 32) &&& ~~~ m = 0)
  (hr : s.stream.region = some (id, c))

include hm in
theorem fldAct_badWord (h : (s.stream.high.getD 0 ++ v : BitVec 32) &&& ~~~ m ≠ 0) : fldAct n v s = .refuse 1 0 := by
  simp only [fldAct, hm]
  exact if_pos h

include hm hv hr

/-- R184, R185: a region or stream field. -/
theorem fldAct_region (h : n < 0x200) :
    fldAct n v s = okStream s { s.stream with
      region := some (id, { c with fields := putFieldAt c.fields n (s.stream.high.getD 0 ++ v) })
      high := none, extOpen := false } := by
  simp only [fldAct, hm, hr]
  rw [if_neg (not_not_intro hv), if_pos h]

/-- R186: the row word of the selected row. -/
theorem fldAct_row (h : n = 0x200) {r : BitVec 6} (hs : s.stream.rowSel = some r) :
    fldAct n v s = okStream s { s.stream with
      region := some (id, { c with words := sparsePut 0 c.words r.toNat (s.stream.high.getD 0 ++ v) })
      high := none, extOpen := false } := by
  subst h
  simp only [fldAct, hm, hr, hs]
  exact if_neg (not_not_intro hv)

/-- R186: a cell field, for every cell of the target list. -/
theorem fldAct_cells (h : n = 0x300) (ht : ∀ y ∈ s.stream.targets, y.tiles = false ∧ ∀ p ∈ y.cells, c.holds p.1 p.2 = true) :
    fldAct n v s = okStream s { s.stream with
      region := some (id, (s.stream.targets.flatMap Target.cells).foldl
        (fun c p => c.putCellField n (s.stream.rowSel.getD 0).toNat (s.stream.high.getD 0 ++ v) p) c)
      high := none, extOpen := false } := by
  subst h
  have ha : (s.stream.targets.any fun t => t.tiles) = false := List.any_eq_false.2 fun y hy => by simp [(ht y hy).1]
  have hb : ((s.stream.targets.flatMap Target.cells).any fun p => !c.holds p.1 p.2) = false := by
    refine List.any_eq_false.2 fun p hp => ?_
    obtain ⟨y, hy, hp⟩ := List.mem_flatMap.1 hp
    simp [(ht y hy).2 p hp]
  simp only [fldAct, hm, hr]
  rw [if_neg (not_not_intro hv), if_neg (by decide), if_neg (by decide), ha, hb]
  rfl

end Fld

/-! ### TYPE and IMG -/

theorem typeAct_of_cells {s : State} {y : Target} (hr : s.stream.region = none) (ht : s.stream.targets = [y])
    (hy : y.tiles = false) (i : BitVec 10) (hn : ∀ r, s.streamGraph.getRegion i.toNat = some r → r.next = none)
    (t : BitVec 2) (st : BitVec 8) (p : BitVec 3) (m : BitVec 5) :
    typeAct t i st p m s = okStream s { s.stream with
      region := some (i.toNat, openRegion (s.streamGraph.getRegion i.toNat) y t st p m), rowSel := none, extOpen := false } := by
  have hw : ((s.streamGraph.getRegion i.toNat).any fun y => y.next.isSome) = false := by
    cases hg : s.streamGraph.getRegion i.toNat with
    | none => rfl
    | some r => simp [hn r hg]
  simp only [typeAct, hr, ht, hy, hw]
  rfl

theorem imgAct_of_tiles {s : State} {n start : Nat} (h0 : s.stream.targets ≠ []) (ht : ∀ y ∈ s.stream.targets, y.tiles = true)
    (hg : s.stream.user = true → ∀ t ∈ targetTiles s.stream.targets, (s.getTile t).core.tvecValid = true →
      start + n ≤ (s.getTile t).core.tvecEntry.toNat) (hn : 0 < n) :
    imgAct n start s = okStream s { s.stream with raw := n, rawAt := start, extOpen := false } := by
  have he : s.stream.targets.isEmpty = false := by simpa using h0
  have ha : (s.stream.targets.any fun t => !t.tiles) = false := List.any_eq_false.2 fun y hy => by simp [ht y hy]
  have hu : (s.stream.user && (targetTiles s.stream.targets).any fun t => s.guardsCode t (start + n - 1)) = false := by
    cases hs : s.stream.user with
    | false => rfl
    | true =>
      refine List.any_eq_false.2 fun t htt hc => ?_
      obtain ⟨hv, hle⟩ : _ ∧ _ := by simpa [State.guardsCode] using hc
      have := hg hs t htt hv
      omega
  simp only [imgAct, he, ha, hu]
  rfl

/-! ### The statement -/

/-- Settles O43: the course of a C-word, with what each word does to the stream. -/
theorem streamWords : Obligations.StreamWords := by
  intro s u hu
  subst hu
  refine ⟨?nopc, ?between, ?extLimit, ?fld, ?fldBad, fun hh => ?_⟩
  case nopc => exact (exec_nopc s).trans (cword_took (.inr rfl) rfl)
  case between =>
    intro i hk hn hf he hh
    exact ⟨_, exec_of_high hk hn hf he hh, refused_refuseStream (by decide) 0 _ _⟩
  case extLimit =>
    intro r c pre y ht ho hl
    refine ⟨_, ?_, refused_refuseStream (by decide) 0 _ _⟩
    rw [exec_ext, execExt]
    exact if_pos ((extTooBig_iff (openTarget_eq ht ho) _ _).2 hl)
  case fld =>
    intro f v val m id c hm hr hval hv
    subst hval
    refine ⟨fun h => ⟨_, (exec_fld f v s).trans (cword_took (.inr rfl) (fldAct_region hm hv hr h)), rfl, ?_, fun n hn => ?_⟩,
      fun r h hs => ⟨_, (exec_fld f v s).trans (cword_took (.inr rfl) (fldAct_row hm hv hr (congrArg _ h) hs)), rfl, ?_⟩,
      fun h ht => ⟨_, (exec_fld f v s).trans (cword_took (.inr rfl) (fldAct_cells hm hv hr (congrArg _ h) ht)), ?_⟩⟩
    · rw [field_putFieldAt, if_pos rfl]
    · rw [field_putFieldAt, if_neg hn]
    · intro n
      exact sparseGet_put ..
    · subst h
      obtain ⟨h1, -, h3⟩ := foldl_putCellField_dlyIn (s.settle.stream.rowSel.getD 0).toNat (s.settle.stream.high.getD 0 ++ v)
        (s.settle.stream.targets.flatMap Target.cells) c
      exact ⟨h1, fun y hy p hp => h3 p (List.mem_flatMap.2 ⟨y, hy, hp⟩)⟩
  case fldBad =>
    intro f v m hm hv
    exact (exec_fld f v s) ▸ cword_refused (.inr rfl) (fldAct_badWord hm hv)
  refine ⟨?clrt, ?fldh, ?row, ?rowBad, ?tgt, ?tgtr, ?ext, ?type, ?img⟩
  case clrt => exact (exec_clrt s).trans (cword_took (.inl hh) rfl)
  case fldh => exact fun v => (exec_fldh v s).trans (cword_took (.inl hh) rfl)
  case row =>
    intro n hr
    exact (exec_row n s).trans (cword_took (.inl hh) (if_neg (by rw [← Option.not_isSome, hr]; exact Bool.false_ne_true)))
  case rowBad =>
    intro n hr
    exact (exec_row n s) ▸ cword_refused (.inl hh) (if_pos (by rw [hr]; rfl))
  case tgt =>
    intro r c l y hy
    subst hy
    exact ⟨fun hl hg => (exec_tgt r c l s).trans (cword_took (.inl hh) (addTarget_of_inRectangle hl hg)),
      fun hb => (exec_tgt r c l s) ▸ cword_refused (.inl hh) (addTarget_refused hb)⟩
  case tgtr =>
    intro r c h w l y hy hr hl hg
    subst hy
    exact (exec_tgtr r c h w l s).trans (cword_took (.inl hh)
      ((if_neg (by rw [hr]; exact Bool.false_ne_true)).trans (addTarget_of_inRectangle hl hg)))
  case ext =>
    intro r c pre y z ht ho hz hrow hcol hg
    subst hz
    have hs : ¬ s.settle.stream.extTooBig (r.toNat + 1) (c.toNat + 1) = true := by
      rw [extTooBig_iff (openTarget_eq ht ho)]
      exact not_or.2 ⟨Nat.not_lt.2 hrow, Nat.not_lt.2 hcol⟩
    exact (exec_ext r c s).trans ((if_neg hs).trans (cword_took (.inl hh) (extAct_of_inRectangle ht ho hg)))
  case type =>
    intro t i st p m y hr ht hy hn
    refine ⟨_, (exec_typeWord t i st p m s).trans (cword_took (.inl hh) (typeAct_of_cells hr ht hy i hn t st p m)),
      rfl, rfl, rfl, rfl, rfl, rfl, rfl, rfl, ?_, ?_⟩ <;>
    · cases (State.streamGraph s.settle).getRegion i.toNat <;> rfl
  case img =>
    intro n st h0 ht hg hn
    exact (exec_img n st s).trans (cword_took (.inl hh) (imgAct_of_tiles h0 ht hg hn))

end Sys2Proof.Laws
end

section
/-! PROOFS. COMMIT, SEAL, the start of regions, and the start of a stream (O44). -/

namespace Sys2Proof.Laws

open Sys2Proof Sys2Proof.Machine

/-! ### Graphs and their regions -/

/-- An entry that replaces those of its key is the one found under it. -/
theorem find?_map_replace {α : Type} (key : α → Nat) (x : α) (l : List α) (h : ∃ y ∈ l, key y = key x) :
    (l.map fun y => if key y = key x then x else y).find? (fun y => key y == key x) = some x := by
  induction l with
  | nil => simp at h
  | cons a l ih =>
    rw [List.map_cons, List.find?_cons]
    by_cases ha : key a = key x
    · rw [if_pos ha, beq_self_eq_true]
    · have hb : (key a == key x) = false := beq_eq_false_iff_ne.2 ha
      rw [if_neg ha, hb]
      obtain ⟨y, hy, hk⟩ := h
      exact ih ⟨y, (List.mem_cons.1 hy).resolve_left fun e => ha (e ▸ hk), hk⟩

theorem putGraph_eq (s : State) (x : Graph) :
    s.putGraph x = { s with graph := (s.putGraph x).graph, graphs := (s.putGraph x).graphs } := by
  unfold State.putGraph
  split <;> rfl

/-- A bound graph reads back as it was put. -/
theorem getGraph_putGraph {s : State} {x : Graph} (h : s.graph.slot = x.slot ∨ ∃ y ∈ s.graphs, y.slot = x.slot) :
    (s.putGraph x).getGraph x.slot = some x := by
  by_cases hs : s.graph.slot = x.slot
  · simp only [State.putGraph, State.getGraph, if_pos hs, if_true]
  · simp only [State.putGraph, State.getGraph, if_neg hs]
    exact find?_map_replace Graph.slot x s.graphs (h.resolve_left hs)

theorem putRegion_slot (g : Graph) (r : Region) : (g.putRegion r).slot = g.slot := by
  unfold Graph.putRegion
  split <;> rfl

/-- A region reads back as it was put. -/
theorem getRegion_putRegion (g : Graph) (r : Region) : (g.putRegion r).getRegion r.id = some r := by
  unfold Graph.putRegion
  split
  · next h =>
    obtain ⟨y, hy, hk⟩ := List.any_eq_true.1 h
    exact find?_map_replace Region.id r g.regions ⟨y, hy, eq_of_beq hk⟩
  · next h =>
    have hn : g.regions.find? (fun x => x.id == r.id) = none := List.find?_eq_none.2 fun y hy hk =>
      h (List.any_eq_true.2 ⟨y, hy, hk⟩)
    simp only [Graph.getRegion, List.find?_append, hn, Option.none_or, List.find?_cons, beq_self_eq_true]

/-! ### COMMIT -/

theorem commitRegion_id (g : Graph) (id : Nat) (c : RegionCfg) : (commitRegion g id c).id = id := by
  unfold commitRegion
  cases h : g.getRegion id with
  | none => rfl
  | some r =>
    have hr : r.id = id := by simpa using List.find?_some h
    dsimp only
    split <;> exact hr

/-- R181: the configuration of a region that exists. -/
theorem commitRegion_of_some {g : Graph} {id : Nat} {old : Region} (h : g.getRegion id = some old) (c : RegionCfg) :
    (old.loop = .running ∨ old.loop = .paused → commitRegion g id c = { old with next := some c }) ∧
    (old.loop = .idle ∨ old.loop = .runOut →
      commitRegion g id c = { old with cfg := c, counters := [], cursors := (commitRegion g id c).cursors }) := by
  simp only [commitRegion, h]
  refine ⟨fun hl => if_pos hl, fun hl => ?_⟩
  have hn : ¬ (old.loop = .running ∨ old.loop = .paused) := by
    obtain hl | hl := hl <;> rw [hl] <;> decide
  rw [if_neg hn]

/-- R181: a region that a COMMIT makes. -/
theorem commitRegion_of_none {g : Graph} {id : Nat} (h : g.getRegion id = none) (c : RegionCfg) :
    commitRegion g id c = { Region.empty with
      id := id, cfg := c, cursors := c.cursors, seed := fld (c.field 5) 0 16, wards := g.wards } := by
  simp only [commitRegion, h]

/-- R263: no gate closes where each has recorded the stage that its region takes. -/
theorem closeStaged_eq_self {s : State} {g id : Nat} {st : BitVec 8}
    (h : ∀ y ∈ s.gates, (y.fromGraph = g → y.fromRegion = id → y.fromStage = st) ∧
      (y.toGraph = g → y.toRegion = id → y.toStage = st)) : closeStaged s g id st = s := by
  have hf : (s.gates.filter fun x => !x.closed && ((x.fromGraph == g && x.fromRegion == id && x.fromStage != st) ||
      (x.toGraph == g && x.toRegion == id && x.toStage != st))) = [] := by
    refine List.filter_eq_nil_iff.2 fun y hy hc => ?_
    obtain ⟨h1, h2⟩ := h y hy
    simp only [Bool.and_eq_true, Bool.or_eq_true, beq_iff_eq, bne_iff_ne, ne_eq] at hc
    obtain ⟨-, ⟨⟨e1, e2⟩, e3⟩ | ⟨⟨e1, e2⟩, e3⟩⟩ := hc
    · exact e3 (h1 e1 e2)
    · exact e3 (h2 e1 e2)
  rw [closeStaged, hf, List.foldl_nil]

section Commit

variable {s : State} {i : BitVec 10} {id : Nat} {c : RegionCfg}
  (hr : s.stream.region = some (id, c)) (hi : i.toNat = id)

include hr hi

theorem commitAct_badRow {r : Nat} (hb : c.badRow = some r) : commitAct i s = .refuse 5 (BitVec.ofNat 8 r) := by
  simp only [commitAct, hr, hi, hb, ne_eq, not_true_eq_false, if_false]

theorem commitAct_badRegion {r : Nat} (hb : c.badRow = none) (hg : s.badRegion s.streamGraph id c = some r) :
    commitAct i s = .refuse 6 (BitVec.ofNat 8 r) := by
  simp only [commitAct, hr, hi, hb, hg, ne_eq, not_true_eq_false, if_false]

/-- R181: a COMMIT whose checks pass, where no gate closes. -/
theorem commitAct_ok (hb : c.badRow = none) (hg : s.badRegion s.streamGraph id c = none)
    (hs : ∀ y ∈ s.gates, (y.fromGraph = s.streamGraph.slot → y.fromRegion = id → y.fromStage = c.stage) ∧
      (y.toGraph = s.streamGraph.slot → y.toRegion = id → y.toStage = c.stage)) :
    commitAct i s = okStream (s.putGraph (s.streamGraph.putRegion (commitRegion s.streamGraph id c))) { s.stream with
      undo := s.stream.undo ++ [(id, s.streamGraph.getRegion id)], targets := [], region := none, rowSel := none
      extOpen := false } := by
  simp only [commitAct, hr, hi, hb, hg, ne_eq, not_true_eq_false, if_false]
  rw [closeStaged_eq_self (by rw [State.setStream, putGraph_gates]; exact hs), ite_self, okStream]

end Commit

theorem commitAct_badOrder {s : State} {i : BitVec 10} (h : ∀ c, s.stream.region ≠ some (i.toNat, c)) :
    commitAct i s = .refuse 2 0 := by
  simp only [commitAct]
  cases hr : s.stream.region with
  | none => rfl
  | some x =>
    obtain ⟨id, c⟩ := x
    exact if_pos fun (e : id = i.toNat) => h c (e ▸ hr)

/-! ### SEAL -/

/-- R18: undoing COMMITs changes graphs alone. -/
theorem undoStream_eq (s : State) :
    undoStream s = { s with graph := (undoStream s).graph, graphs := (undoStream s).graphs } := by
  unfold undoStream State.onGraph
  split
  · exact putGraph_eq ..
  · rfl

theorem landStatus_stream (s : State) (r : CmdRef) (st : Status) : (landStatus s r st).stream = s.stream := by
  rw [landStatus_eq]

theorem landStatus_mem (s : State) (r : CmdRef) (st : Status) : (landStatus s r st).mem = s.mem := by
  rw [landStatus_eq]

/-- R18, R19: a stream of a wrong sum is undone and refused. -/
theorem refuseStream_badSum (s : State) (off : Nat) :
    (refuseStream s 7 0 off).stream.result = some ⟨7, 0, BitVec.ofNat 32 off⟩ ∧ (refuseStream s 7 0 off).mem = s.mem := by
  simp only [refuseStream, if_true]
  rw [undoStream_eq]
  cases s.stream.ref with
  | none => exact ⟨rfl, rfl⟩
  | some r => exact ⟨by rw [landStatus_stream]; rfl, by rw [landStatus_mem]; rfl⟩

theorem exec_sealWord_of_high_none {s : State} (h : s.settle.stream.high = none) (c : BitVec 16) :
    exec (.sealWord c) s = .next (sealAct c s.settle) := by
  rw [exec_sealWord, execSealWord, h]
  exact if_neg Bool.false_ne_true

/-- R252: the regions that a stream has committed and that did not run at their COMMIT. -/
def restingCommits (x : Stream) : List Nat :=
  (x.undo.filter fun p => !(p.2.any fun r => r.loop == .running || r.loop == .paused)).map Prod.fst

section Seal

variable {s : State} {c : BitVec 16} (hr : s.stream.region = none)

theorem sealAct_open (h : s.stream.region.isSome = true) : sealAct c s = refuseStream s 2 0 s.stream.offset := if_pos h

include hr

theorem sealAct_badSum (hc : s.stream.sum + c ≠ 0) : sealAct c s = refuseStream s 7 0 s.stream.offset := by
  rw [sealAct, hr]
  exact if_pos hc

theorem sealAct_badLength (hc : s.stream.sum + c = 0) (hl : s.stream.offset + 1 ≠ s.stream.len) :
    sealAct c s = refuseStream s 4 0 (s.stream.offset + 1) := by
  simp only [sealAct, hr, hc, hl, Option.isSome_none, Bool.false_eq_true, ne_eq, not_true_eq_false, not_false_eq_true, if_false,
    if_true]

/-- R19, R252: a stream of the right length and sum ends, and its regions are to start. -/
theorem sealAct_ok (hc : s.stream.sum + c = 0) (hl : s.stream.offset + 1 = s.stream.len) :
    sealAct c s = ({ s with stream := { s.stream with
        offset := s.stream.offset + 1, sealed := true, result := some ⟨0, 0, 0⟩, extOpen := false } }).onGraph s.stream.graph
      fun y => { y with starts := y.starts ++ [(64, restingCommits s.stream)] } := by
  simp only [sealAct, hr, hc, hl, Option.isSome_none, Bool.false_eq_true, ne_eq, not_true_eq_false, if_false]
  rfl

end Seal

/-! ### The start of regions -/

/-- R252: the regions of the oldest sealed stream start in one slot. -/
theorem startNext_of_cons {g : Graph} {n : Nat} {ids : List Nat} {rest : List (Nat × List Nat)}
    (h : g.starts = (n, ids) :: rest) :
    g.startNext = { g with
      starts := rest
      regions := g.regions.map fun r =>
        if r.id ∈ ids ∧ (r.loop = .idle ∨ r.loop = .runOut) then
          { r with cfg := r.next.getD r.cfg, next := none, loop := .running, slots := 0, pass := 0, sv := 0 }
        else r } := by
  simp only [Graph.startNext, h, List.contains_iff_mem, Region.start]

/-- Settles O44: COMMIT by its checks, SEAL by the sum and the length, and the starts. -/
theorem commitAndSeal : Obligations.CommitAndSeal := by
  intro s u hu
  subst hu
  refine ⟨fun i id c hh hr hi hs hg => ⟨fun hb hn hst => ?commits, fun r hb => ?row, fun r hb hn => ?region⟩,
    fun i hh hr => ?order, fun c hh => ⟨fun hr => ?isOpen, fun hr hc hl => ?length, fun hr hc => ?sum,
      fun hr hc hl ids hids => ?sealed⟩, fun k y n ids rest hy hst => ?starts, fun n => exec_cfgStreamRead n s⟩
  case commits =>
    have hg' := getGraph_putGraph (x := s.settle.streamGraph.putRegion (commitRegion s.settle.streamGraph id c))
      (by rwa [putRegion_slot, hs])
    have hr' := getRegion_putRegion s.settle.streamGraph (commitRegion s.settle.streamGraph id c)
    rw [putRegion_slot] at hg'
    rw [commitRegion_id] at hr'
    refine ⟨_, commitRegion s.settle.streamGraph id c,
      (exec_commit i s).trans (cword_ok (.inl hh) (commitAct_ok hr hi hb hn hst)), rfl, ?_, ?_, ?_, ?_⟩
    · rw [putGraph_eq]
      rfl
    · exact (congrArg (Option.bind · _) hg').trans hr'
    · exact fun old ho => commitRegion_of_some ho c
    · intro ho
      rw [commitRegion_of_none ho]
      exact ⟨rfl, rfl, rfl, rfl, rfl, rfl⟩
  case row => exact (exec_commit i s) ▸ cword_refused (.inl hh) (commitAct_badRow hr hi hb)
  case region => exact (exec_commit i s) ▸ cword_refused (.inl hh) (commitAct_badRegion hr hi hb hn)
  case order => exact (exec_commit i s) ▸ cword_refused (.inl hh) (commitAct_badOrder hr)
  case isOpen =>
    exact ⟨_, (exec_sealWord_of_high_none hh c).trans (congrArg _ (sealAct_open hr)), refused_refuseStream (by decide) ..⟩
  case length =>
    exact ⟨_, (exec_sealWord_of_high_none hh c).trans (congrArg _ (sealAct_badLength hr hc hl)),
      refused_refuseStream (by decide) ..⟩
  case sum =>
    exact ⟨_, (exec_sealWord_of_high_none hh c).trans (congrArg _ (sealAct_badSum hr hc)), refuseStream_badSum ..⟩
  case sealed =>
    subst hids
    exact (exec_sealWord_of_high_none hh c).trans (congrArg _ (sealAct_ok hr hc hl))
  case starts =>
    rw [exec_regionStart, execRegionStart, State.onGraph, hy]
    exact congrArg (fun x => Host.Outcome.next (s.settle.putGraph x)) (startNext_of_cons hst)

end Sys2Proof.Laws
end

section
/-! PROOFS. Token rows and conversion rows of cells (O45). -/

namespace Sys2Proof.Laws

open Sys2Proof Sys2Proof.Machine

/-! ### What a row leaves -/

theorem gensAt_takeCell_self (r : Region) (slot lat : Nat) (p : Nat × Nat) (o : CellOut) :
    (r.takeCell slot lat p o).gensAt p.1 p.2 = o.gens := by
  unfold Region.takeCell Region.gensAt
  dsimp only [Region.addFlags]
  split
  · next h => exact h.symm
  · rw [assocGet_put, if_pos rfl, Option.getD_some]

theorem gensAt_takeCell_of_ne (r : Region) (slot lat : Nat) {p : Nat × Nat} {i j : Nat} (h : genKey i j ≠ genKey p.1 p.2)
    (o : CellOut) : (r.takeCell slot lat p o).gensAt i j = r.gensAt i j := by
  unfold Region.takeCell Region.gensAt
  dsimp only [Region.addFlags]
  split
  · rfl
  · rw [assocGet_put, if_neg h]

theorem takeCell_eq (r : Region) (slot lat : Nat) (p : Nat × Nat) (o : CellOut) :
    r.takeCell slot lat p o = { r with
      landings := r.landings ++ o.landings p (slot + lat - 1)
      gens := (r.takeCell slot lat p o).gens
      status := { r.status with flags := r.status.flags ||| o.flags } } := by
  unfold Region.takeCell
  dsimp only [Region.addFlags]
  split <;> rfl

/-- The region after the cells of a list have run a row. -/
def takeCells (slot lat : Nat) (f : Nat × Nat → CellOut) (l : List (Nat × Nat)) (r : Region) : Region :=
  l.foldl (fun r p => r.takeCell slot lat p (f p)) r

theorem takeCells_eq (slot lat : Nat) (f : Nat × Nat → CellOut) (l : List (Nat × Nat)) (r : Region) :
    takeCells slot lat f l r = { r with
      landings := r.landings ++ l.flatMap fun p => (f p).landings p (slot + lat - 1)
      gens := (takeCells slot lat f l r).gens
      status := { r.status with flags := (takeCells slot lat f l r).status.flags } } := by
  induction l generalizing r with
  | nil => simp [takeCells]
  | cons p l ih =>
    rw [takeCells, List.foldl_cons, ← takeCells, ih, takeCell_eq]
    simp only [List.flatMap_cons, List.append_assoc]

theorem takeCells_flags (slot lat : Nat) (f : Nat × Nat → CellOut) (l : List (Nat × Nat)) (r : Region) (k : Nat) :
    (takeCells slot lat f l r).status.flags.getLsbD k =
      (r.status.flags.getLsbD k || l.any fun p => (f p).flags.getLsbD k) := by
  induction l generalizing r with
  | nil => exact (Bool.or_false _).symm
  | cons p l ih =>
    rw [takeCells, List.foldl_cons, ← takeCells, ih, takeCell_eq, List.any_cons, BitVec.getLsbD_or, Bool.or_assoc]

/-- A cell keeps the generators that its own row leaves. -/
theorem takeCells_gensAt_keep (slot lat : Nat) (f : Nat × Nat → CellOut) (l : List (Nat × Nat)) (r : Region) (p : Nat × Nat)
    (hl : ∀ q ∈ l, genKey q.1 q.2 = genKey p.1 p.2 → q = p) (h : r.gensAt p.1 p.2 = (f p).gens) :
    (takeCells slot lat f l r).gensAt p.1 p.2 = (f p).gens := by
  induction l generalizing r with
  | nil => exact h
  | cons q l ih =>
    refine ih _ (fun y hy => hl y (List.mem_cons_of_mem _ hy)) ?_
    by_cases hk : genKey q.1 q.2 = genKey p.1 p.2
    · rw [hl q List.mem_cons_self hk]
      exact gensAt_takeCell_self ..
    · rw [gensAt_takeCell_of_ne _ _ _ (Ne.symm hk), h]

theorem takeCells_gensAt (slot lat : Nat) (f : Nat × Nat → CellOut) (l : List (Nat × Nat)) (r : Region) (p : Nat × Nat)
    (hp : p ∈ l) (hl : ∀ q ∈ l, genKey q.1 q.2 = genKey p.1 p.2 → q = p) :
    (takeCells slot lat f l r).gensAt p.1 p.2 = (f p).gens := by
  induction l generalizing r with
  | nil => exact absurd hp List.not_mem_nil
  | cons q l ih =>
    have hl' : ∀ y ∈ l, genKey y.1 y.2 = genKey p.1 p.2 → y = p := fun y hy => hl y (List.mem_cons_of_mem _ hy)
    obtain rfl | hp := List.mem_cons.1 hp
    · exact takeCells_gensAt_keep slot lat f l _ p hl' (gensAt_takeCell_self ..)
    · exact ih _ hp hl'

/-- R56: the number of a cell names it, in a region of no more than 1,024 columns. -/
theorem genKey_inj {c : RegionCfg} (h : c.cols ≤ 1024) {p q : Nat × Nat} (hp : p ∈ c.cells) (hq : q ∈ c.cells)
    (hk : genKey q.1 q.2 = genKey p.1 p.2) : q = p := by
  obtain ⟨i, -, hp⟩ := List.mem_flatMap.1 hp
  obtain ⟨i', -, hq⟩ := List.mem_flatMap.1 hq
  obtain ⟨j, hj, rfl⟩ := List.mem_map.1 hp
  obtain ⟨j', hj', rfl⟩ := List.mem_map.1 hq
  rw [List.mem_range] at hj hj'
  simp only [genKey] at hk
  rw [Prod.mk.injEq]
  omega

/-- The state after a row that overflows nowhere and writes no weight. -/
theorem rowState_of_no_ovf {lat : Nat} {x : BitVec 5} {f : CellIn → CellOut} {s : State}
    (ho : ∀ p ∈ s.region.cfg.cells, (f (s.cellIn p)).ovf = none) (hw : ∀ n, (f n).weight = none) :
    rowState lat x f s =
      { s with region := takeCells s.graph.slotNo lat (fun p => f (s.cellIn p)) s.region.cfg.cells s.region } := by
  have hf : (s.region.cfg.cells.map fun p => (p, f (s.cellIn p))).find? (fun o => o.2.ovf.isSome) = none := by
    refine List.find?_eq_none.2 fun o hm => ?_
    obtain ⟨p, hp, rfl⟩ := List.mem_map.1 hm
    simp [ho p hp]
  have step : ∀ (l : List (Nat × Nat)) (r : Region), (l.map fun p => (p, f (s.cellIn p))).foldl (fun (s : State) o =>
      ({ s with region := s.region.takeCell s.graph.slotNo lat o.1 o.2 } : State).takeWeight o.1 x o.2)
      { s with region := r } = { s with region := takeCells s.graph.slotNo lat (fun p => f (s.cellIn p)) l r } := by
    intro l
    induction l with
    | nil => exact fun r => rfl
    | cons p l ih =>
      intro r
      rw [List.map_cons, List.foldl_cons]
      simp only [State.takeWeight, hw]
      exact ih _
  simp only [rowState, hf]
  exact step _ s.region

/-- R55, R56, R188: a row that overflows nowhere, writes no weight and sends one beat to its destinations. -/
theorem rowLands_cellRow {lat : Nat} {x : BitVec 5} {f : CellIn → CellOut} {d : BitVec 3} {allow : CellIn → BitVec 128}
    {beat : CellIn → Beat} {s : State} (ho : ∀ p ∈ s.region.cfg.cells, (f (s.cellIn p)).ovf = none)
    (hw : ∀ n, (f n).weight = none) (hs : ∀ n, (f n).outs = (destsOf d).map fun k => (k, beat n, allow n)) :
    ∃ t, cellRow lat x f s = .next t ∧ RowLands lat d allow beat (fun n => (f n).flags) (fun n => (f n).gens) s t := by
  refine ⟨_, rfl, ?_⟩
  rw [rowState_of_no_ovf ho hw]
  refine ⟨?_, fun k => takeCells_flags .., fun hc p hp => takeCells_gensAt _ _ _ _ _ p hp fun q hq => genKey_inj hc hp hq⟩
  have hl : ∀ p, (f (s.cellIn p)).landings p (s.graph.slotNo + lat - 1) = (destsOf d).map fun k =>
      ⟨p.1, p.2, k, s.graph.slotNo + lat - 1, beat (s.cellIn p), allow (s.cellIn p)⟩ := by
    intro p
    rw [CellOut.landings, hs, List.map_map]
    rfl
  simp only [← hl]
  rw [takeCells_eq]

/-! ### Where an operation may overflow under TRAP (R60, R61, R63) -/

theorem overflowResult_trap (fmt : Nat) (neg : Bool) (rm : Rounding) {ov : Overflow} (h : ov ≠ .trap) :
    (overflowResult fmt neg rm ov).trap = false := by
  cases ov with
  | trap => exact absurd rfl h
  | sat | ieee => rfl
  | inf =>
    simp only [overflowResult]
    split <;> [rfl; (split <;> rfl)]
  | nan =>
    simp only [overflowResult]
    split <;> rfl

theorem roundExact_trap (fmt : Nat) (rm : Rounding) {ov : Overflow} (h : ov ≠ .trap) (fo : Bool) (g : BitVec 32) (x : Exact) :
    (roundExact fmt rm ov fo g x).trap = false := by
  simp only [roundExact, apply_ite Rounded.trap, overflowResult_trap fmt x.neg rm h, ite_self]

theorem roundFin_trap (fmt : Nat) (rm : Rounding) {ov : Overflow} (h : ov ≠ .trap) (fo : Bool) (g : BitVec 32) (neg : Bool)
    (m : Nat) (e : Int) : (roundFin fmt rm ov fo g neg m e).trap = false := roundExact_trap fmt rm h fo g _

theorem roundInf_trap (fmt : Nat) (neg : Bool) : (roundInf fmt neg).trap = false := by
  simp only [roundInf, apply_ite Rounded.trap, ite_self]

theorem roundVal_trap (fmt : Nat) (rm : Rounding) (fo : Bool) (g : BitVec 32) (v : Val) :
    (roundVal fmt rm fo g v).trap = false := by
  cases v with
  | nan => rfl
  | inf neg => exact roundInf_trap fmt neg
  | fin neg m e => exact roundFin_trap fmt rm (by decide) fo g neg m e

theorem roundOutc_trap (fmt : Nat) (rm : Rounding) (fo : Bool) (g : BitVec 32) (order : List Val) (extra : Bool) (o : Outc) :
    (roundOutc fmt rm fo g order extra o).trap = false := by
  unfold roundOutc
  split
  · rfl
  · cases o with
    | invalid => rfl
    | val v => exact roundVal_trap fmt rm fo g v

theorem specialVal_trap (fmt : Nat) (rm : Rounding) (fo : Bool) (g : BitVec 32) (op : Special) (v : Val) :
    (specialVal fmt rm fo g op v).trap = false := by
  cases v with
  | nan => rfl
  | inf neg =>
    cases op <;> simp only [specialVal, apply_ite Rounded.trap, roundInf_trap, invalidResult, ite_self]
  | fin neg m e =>
    cases op <;>
      simp only [specialVal, apply_ite Rounded.trap, roundInf_trap, invalidResult, ite_self,
        roundExact_trap fmt rm (ov := .ieee) (by decide), roundFin_trap fmt rm (ov := .ieee) (by decide)]

/-! ### Conversions overflow under TRAP alone -/

theorem convertVal_trap (fmt : Nat) (rm : Rounding) {ov : Overflow} (h : ov ≠ .trap) (fo : Bool) (g : BitVec 32) (v : Val) :
    (convertVal fmt rm ov fo g v).trap = false := by
  cases v with
  | nan => rfl
  | inf neg => simp only [convertVal, convertInf, apply_ite Rounded.trap, overflowResult_trap fmt neg rm h, ite_self]
  | fin neg m e => exact roundFin_trap fmt rm h fo g neg m e

theorem toFloat_trap (fmt : Nat) (rm : Rounding) {ov : Overflow} (h : ov ≠ .trap) (fo : Bool) (g : BitVec 32) (exp : BitVec 8)
    (v : Val) : (toFloat fmt rm ov fo g exp v).trap = false := by
  unfold toFloat
  split
  · cases v with
    | fin neg m e => exact roundFin_trap 5 rm h fo g neg m _
    | nan | inf => exact convertVal_trap 5 rm h fo g _
  · exact convertVal_trap fmt rm h fo g v

theorem narrowFloatInt_trap (fmt : Nat) {ov : Overflow} (h : ov ≠ .trap) (n : Int) (ix : Bool) :
    (narrowFloatInt fmt ov n ix).trap = false := by
  simp only [narrowFloatInt]
  split
  · rfl
  · cases ov with
    | trap => exact absurd rfl h
    | sat | inf | nan | ieee => rfl

theorem floatToInt_trap (fmt : Nat) (rm : Rounding) {ov : Overflow} (h : ov ≠ .trap) (g : BitVec 32) (v : Val) :
    (floatToInt fmt rm ov g v).trap = false := by
  cases v with
  | nan =>
    cases ov with
    | trap => exact absurd rfl h
    | sat | inf | nan | ieee => rfl
  | inf neg => exact narrowFloatInt_trap fmt h _ _
  | fin neg m e => exact narrowFloatInt_trap fmt h _ _

theorem narrowInt_trap (fmt : Nat) {ov : Overflow} (h : ov ≠ .trap) (n : Int) : (narrowInt fmt ov n).trap = false := by
  simp only [narrowInt]
  split
  · rfl
  · cases ov with
    | trap => exact absurd rfl h
    | sat | inf | nan | ieee => rfl

theorem narrowBfp_trap (fmt : Nat) {ov : Overflow} (h : ov ≠ .trap) (n : Int) (ix : Bool) :
    (narrowBfp fmt ov n ix).trap = false := by
  simp only [narrowBfp]
  split
  · rfl
  · cases ov with
    | trap => exact absurd rfl h
    | sat | inf | nan | ieee => rfl

theorem toBfp_trap (fmt : Nat) (rm : Rounding) {ov : Overflow} (h : ov ≠ .trap) (g : BitVec 32) (exp : BitVec 8) (v : Val) :
    (toBfp fmt rm ov g exp v).trap = false := by
  unfold toBfp
  split
  · rfl
  · cases v with
    | nan => rfl
    | inf neg =>
      cases ov with
      | trap => exact absurd rfl h
      | sat | inf | nan | ieee => rfl
    | fin neg m e => exact narrowBfp_trap fmt h _ _

theorem convertElem_trap (env : NumEnv) (kind : Conv) (dst f : Nat) (rm : Rounding) {ov : Overflow} (h : ov ≠ .trap)
    (fi fo : Bool) (exp : BitVec 8) (lane : Nat) (g : BitVec 32) :
    (convertElem env kind dst f rm ov fi fo exp lane g).trap = false := by
  cases kind
  case vftoi => exact floatToInt_trap dst rm h g _
  case vitof => exact toFloat_trap dst rm h fo g exp _
  case vrndi =>
    simp only [convertElem]
    split <;> rfl
  all_goals
    simp only [convertElem]
    split
    · exact toFloat_trap dst rm h fo g exp _
    · split
      · exact narrowInt_trap dst h _
      · split
        · exact narrowBfp_trap dst h _ _
        · exact toBfp_trap dst rm h g exp _

/-! ### The lanes of a token operation -/

theorem runLanes_ovf (rm : Rounding) (gens : Gens) (act : Nat → Bool) {f : Nat → BitVec 32 → LaneOut}
    (h : ∀ l g, (f l g).trap = false) : (runLanes rm gens act f).ovf = 0 := by
  unfold runLanes
  refine List.foldlRecOn (motive := fun acc : LaneAcc => acc.ovf = 0) _ _ rfl fun acc hacc l _ => ?_
  split
  · simp only [h, Bool.false_eq_true, if_false, hacc]
  · exact hacc

theorem laneOp_ovf (rm : Rounding) (gens : Gens) (old a : Token) (k : Bool) (mask : BitVec 16) (srcs : List Token)
    (tag : BitVec 4) {f : Nat → BitVec 32 → LaneOut} (h : ∀ l g, (f l g).trap = false) :
    (laneOp rm gens old a k mask srcs tag f).ovf = 0 := by
  unfold laneOp
  split
  · rfl
  · exact runLanes_ovf rm gens _ h

theorem tokArith_ovf (env : NumEnv) (gens : Gens) (op : Arith) (old a b c : Token) (mask : BitVec 16) (fi fo k : Bool) :
    (tokArith env gens op old a b c mask fi fo k).ovf = 0 := laneOp_ovf _ _ _ _ _ _ _ _ fun _ _ => roundOutc_trap ..

theorem tokMinMax_ovf (env : NumEnv) (gens : Gens) (isMax : Bool) (old a b : Token) (mask : BitVec 16) (fi fo k : Bool) :
    (tokMinMax env gens isMax old a b mask fi fo k).ovf = 0 := laneOp_ovf _ _ _ _ _ _ _ _ fun _ _ => roundOutc_trap ..

theorem tokSign_ovf (env : NumEnv) (gens : Gens) (op : SignOp) (old a b : Token) (mask : BitVec 16) (fi fo k : Bool) :
    (tokSign env gens op old a b mask fi fo k).ovf = 0 := laneOp_ovf _ _ _ _ _ _ _ _ fun _ _ => rfl

theorem tokClass_ovf (env : NumEnv) (gens : Gens) (old a : Token) (mask : BitVec 16) (fi k : Bool) :
    (tokClass env gens old a mask fi k).ovf = 0 := laneOp_ovf _ _ _ _ _ _ _ _ fun _ _ => rfl

theorem tokSpecial_ovf (env : NumEnv) (gens : Gens) (op : Special) (old a : Token) (mask : BitVec 16) (fi fo k : Bool) :
    (tokSpecial env gens op old a mask fi fo k).ovf = 0 := laneOp_ovf _ _ _ _ _ _ _ _ fun _ _ => specialVal_trap ..

theorem tokScale_ovf (env : NumEnv) (gens : Gens) (old a b : Token) (mask : BitVec 16) (fi fo k : Bool) :
    (tokScale env gens old a b mask fi fo k).ovf = 0 := by
  refine laneOp_ovf _ _ _ _ _ _ _ _ fun l g => ?_
  dsimp only
  split
  · exact roundOutc_trap ..
  · split
    · split
      · rfl
      · exact roundFin_trap _ _ (by decide) ..
    · rfl
    · rfl

theorem tokInt_ovf (gens : Gens) (op : IntOp) (old a b c : Token) (srcs : List Token) (mask : BitVec 16) (k : Bool) :
    (tokInt gens op old a b c srcs mask k).ovf = 0 := laneOp_ovf _ _ _ _ _ _ _ _ fun _ _ => rfl

theorem tokCmp_ovf (env : NumEnv) (gens : Gens) (cond : Nat) (old a b : Token) (mask : BitVec 16) (fi k : Bool) :
    (tokCmp env gens cond old a b mask fi k).ovf = 0 := by
  unfold tokCmp
  split <;> rfl

theorem tokSel_ovf (gens : Gens) (old a b c : Token) (mask : BitVec 16) (k : Bool) :
    (tokSel gens old a b c mask k).ovf = 0 := by
  unfold tokSel
  split <;> rfl

theorem tokDot_ovf (env : NumEnv) (gens : Gens) (old a b : Token) (mask : BitVec 16) (fi fo k : Bool) :
    (tokDot env gens old a b mask fi fo k).ovf = 0 := by
  simp only [tokDot]
  split <;> rfl

theorem tokTree_ovf (env : NumEnv) (gens : Gens) (isSum : Bool) (old a : Token) (mask : BitVec 16) (fi fo k : Bool) :
    (tokTree env gens isSum old a mask fi fo k).ovf = 0 := by
  simp only [tokTree]
  split
  · rfl
  · split
    · rfl
    · rfl
    · split <;> rfl

theorem tokScan_ovf (env : NumEnv) (gens : Gens) (old a : Token) (mask : BitVec 16) (fi fo k : Bool) :
    (tokScan env gens old a mask fi fo k).ovf = 0 := by
  simp only [tokScan]
  split <;> rfl

theorem tokPerm_ovf (gens : Gens) (old a b : Token) (mask : BitVec 16) (k : Bool) : (tokPerm gens old a b mask k).ovf = 0 := by
  unfold tokPerm
  split <;> rfl

theorem tokShuf_ovf (gens : Gens) (p : Nat) (old a : Token) (srcs : List Token) (mask : BitVec 16) (k : Bool) :
    (tokShuf gens p old a srcs mask k).ovf = 0 := by
  unfold tokShuf
  split <;> rfl

theorem tokBcst_ovf (gens : Gens) (j : Nat) (old a : Token) (srcs : List Token) (mask : BitVec 16) (k : Bool) :
    (tokBcst gens j old a srcs mask k).ovf = 0 := by
  unfold tokBcst
  split <;> rfl

theorem tokMask_ovf (gens : Gens) (old a b : Token) (mask : BitVec 16) (k : Bool) : (tokMask gens old a b mask k).ovf = 0 := by
  simp only [tokMask]
  split <;> rfl

theorem tokHmrg_ovf (gens : Gens) (old : Token) (bins : List Token) (mask : BitVec 16) (k : Bool) :
    (tokHmrg gens old bins mask k).ovf = 0 := by
  simp only [tokHmrg]
  split <;> rfl

theorem tokSlice_ovf (gens : Gens) (a : Token) : (tokSlice gens a).ovf = 0 := by
  unfold tokSlice
  split
  · rfl
  · split <;> rfl

/-- R63: the token operations without an ov field overflow nowhere. -/
theorem tokSpec_ovf {i : Instr} {k d op} (h : tokSpec i = some (k, d, op)) (c : Core) : (op c).ovf = 0 := by
  cases i
  case vfma | vfms | vfnma | vadd | vsub | vmul => cases h; exact tokArith_ovf ..
  case vmax | vmin => cases h; exact tokMinMax_ovf ..
  case vabs | vneg | vcps => cases h; exact tokSign_ovf ..
  case vexpf | vlogf | vgetx | vrcp | vrsq => cases h; exact tokSpecial_ovf ..
  case vsumt | vmaxt => cases h; exact tokTree_ovf ..
  case viadd | visub | vimul | vand | vor | vxor | vshl | vshr | vsar | vimin | vimax | vcnt | vimac => cases h; exact tokInt_ovf ..
  case vsel => cases h; exact tokSel_ovf ..
  case vcls => cases h; exact tokClass_ovf ..
  case vcmp => cases h; exact tokCmp_ovf ..
  case vdot => cases h; exact tokDot_ovf ..
  case vscale => cases h; exact tokScale_ovf ..
  case vscan => cases h; exact tokScan_ovf ..
  case vperm => cases h; exact tokPerm_ovf ..
  case vshuf => cases h; exact tokShuf_ovf ..
  case vbcst => cases h; exact tokBcst_ovf ..
  case vmsk => cases h; exact tokMask_ovf ..
  case vhmrg => cases h; exact tokHmrg_ovf ..
  all_goals contradiction

/-! ### The positions of a row -/

/-- A row none of whose positions overflows. -/
theorem overTokens_ovf {f : Nat → Gens → TokOut} (h : ∀ q g, (f q g).ovf = 0) (count : Nat) (gens : Gens) :
    (overTokens count gens f).ovf = none := by
  unfold overTokens
  refine List.foldlRecOn (motive := fun acc : BeatAcc => acc.ovf = none) _ _ rfl fun acc hacc q _ => ?_
  simp only [hacc, h, bne_self_eq_false, Bool.and_false, Bool.false_eq_true, if_false]

/-- A row none of whose positions steps a generator. -/
theorem overTokens_gens {f : Nat → Gens → TokOut} (h : ∀ q g, (f q g).gens = g) (count : Nat) (gens : Gens) :
    (overTokens count gens f).gens = gens := by
  unfold overTokens
  refine List.foldlRecOn (motive := fun acc : BeatAcc => acc.gens = gens) _ _ rfl fun acc hacc q _ => ?_
  simp only [h, hacc]

/-- A row none of whose positions raises a flag. -/
theorem overTokens_flags {f : Nat → Gens → TokOut} (h : ∀ q g, (f q g).flags = 0) (count : Nat) (gens : Gens) :
    (overTokens count gens f).flags = 0 := by
  unfold overTokens
  refine List.foldlRecOn (motive := fun acc : BeatAcc => acc.flags = 0) _ _ rfl fun acc hacc q _ => ?_
  simp only [h, hacc]
  rfl

/-- R122: what a token row makes of the tokens of one position. -/
def rowApply (x : RowForm) (n : CellIn) (g : Gens) (t : RowToks) : TokOut :=
  match tokSpec x.rim with
  | some (_, _, op) => op (rowCore n g t x.x)
  | none => ⟨Token.reset, g, 0, 0⟩

theorem at_eq_rowApply (x : RowForm) (n : CellIn) (q : Nat) (g : Gens) : x.at n q g = rowApply x n g (n.toks x.u q) := rfl

theorem at_ovf (x : RowForm) (n : CellIn) (q : Nat) (g : Gens) : (x.at n q g).ovf = 0 := by
  unfold RowForm.at
  split
  · next h => exact tokSpec_ovf h _
  · rfl

/-! ### The token rows -/

/-- R122: the token t2 of a row whose pattern or lane stands in x. -/
def patternToken (x : BitVec 5) : Token := ⟨x.setWidth 512, 9, 0, false, 0xFFFF, 0⟩

theorem laneIndex_patternToken (x : BitVec 5) (bits : Nat) : laneIndex (patternToken x) bits = x.toNat % 2 ^ bits := by
  have hl : (patternToken x).lane 0 = x.setWidth 32 := by
    simp only [Token.lane, patternToken, fld]
    ext k hk
    have hk' : k < 512 := by omega
    simp [hk']
  have hx : x.toNat % 2 ^ 32 = x.toNat := Nat.mod_eq_of_lt (Nat.lt_trans x.isLt (by decide))
  rw [laneIndex, hl, BitVec.toNat_setWidth, hx]
  exact if_pos (by simp [patternToken])

theorem tokShuf_patternToken (g : Gens) (x : BitVec 5) (old a : Token) (mask : BitVec 16) (k : Bool) :
    tokShuf g (laneIndex (patternToken x) 5) old a [a, patternToken x] mask k = tokShuf g x.toNat old a [a] mask k := by
  rw [laneIndex_patternToken, Nat.mod_eq_of_lt x.isLt]
  simp only [tokShuf, List.any_cons, List.any_nil, patternToken, Bool.or_false]

theorem tokBcst_patternToken (g : Gens) (x : BitVec 5) (old a : Token) (mask : BitVec 16) (k : Bool) :
    tokBcst g (laneIndex (patternToken x) 4) old a [a, patternToken x] mask k = tokBcst g x.toNat old a [a] mask k := by
  rw [laneIndex_patternToken]
  simp only [tokBcst, List.any_cons, List.any_nil, patternToken, Bool.or_false, Nat.reducePow, Nat.mod_mod]

/-- R147: VIMAC alone reads a third operand. -/
theorem tokInt_two {op : IntOp} (h : op ≠ .mac) (g : Gens) (old a b c c' : Token) (srcs : List Token) (mask : BitVec 16) (k : Bool) :
    tokInt g op old a b c srcs mask k = tokInt g op old a b c' srcs mask k := by
  cases op
  case mac => exact absurd rfl h
  all_goals simp only [tokInt, intElem]

/-- R147: VCNT reads operand a alone. -/
theorem tokInt_cnt (g : Gens) (old a b c b' c' : Token) (srcs : List Token) (mask : BitVec 16) (k : Bool) :
    tokInt g .cnt old a b c srcs mask k = tokInt g .cnt old a b' c' srcs mask k := by
  simp only [tokInt, intElem]

/-- R122, R191: every token row applies its rim word to the tokens of each position. -/
theorem exec_of_rowForm {i : Instr} {x : RowForm} (h : rowForm i = some x) (s : State) :
    exec i s = cellRow x.lat x.u.x (tokenCell x.u (rowApply x)) s := by
  cases i
  case cellVadd | cellVsub | cellVmul | cellVfma | cellVfms | cellVfnma | cellVmax | cellVmin | cellVabs | cellVneg |
    cellVcps | cellVcmp | cellVsel | cellVcls | cellVexpf | cellVlogf | cellVgetx | cellVrcp | cellVrsq |
    cellVscale | cellVdot | cellVsumt | cellVmaxt | cellVscan | cellVperm | cellVmsk | cellVimac =>
    cases h
    simp only [exec_cellVadd, exec_cellVsub, exec_cellVmul, exec_cellVfma, exec_cellVfms, exec_cellVfnma, exec_cellVmax,
      exec_cellVmin, exec_cellVabs, exec_cellVneg, exec_cellVcps, exec_cellVcmp, exec_cellVsel, exec_cellVcls,
      exec_cellVexpf, exec_cellVlogf, exec_cellVgetx, exec_cellVrcp, exec_cellVrsq, exec_cellVscale,
      exec_cellVdot, exec_cellVsumt, exec_cellVmaxt, exec_cellVscan, exec_cellVperm, exec_cellVmsk,
      exec_cellVimac]
    rfl
  case cellViadd | cellVisub | cellVimul | cellVand | cellVor | cellVxor | cellVshl | cellVshr | cellVsar | cellVimin |
    cellVimax =>
    cases h
    simp only [exec_cellViadd, exec_cellVisub, exec_cellVimul, exec_cellVand, exec_cellVor, exec_cellVxor, exec_cellVshl,
      exec_cellVshr, exec_cellVsar, exec_cellVimin, exec_cellVimax]
    exact congrArg (fun f => cellRow 2 0 (tokenCell _ f) s)
      (funext fun n => funext fun g => funext fun t => tokInt_two (by decide) ..)
  case cellVcnt =>
    cases h
    rw [exec_cellVcnt]
    exact congrArg (fun f => cellRow 2 0 (tokenCell _ f) s) (funext fun n => funext fun g => funext fun t => tokInt_cnt ..)
  case cellVshuf =>
    cases h
    rw [exec_cellVshuf]
    exact congrArg (fun f => cellRow 2 0 (tokenCell _ f) s)
      (funext fun n => funext fun g => funext fun t => (tokShuf_patternToken ..).symm)
  case cellVbcst =>
    cases h
    rw [exec_cellVbcst]
    exact congrArg (fun f => cellRow 2 0 (tokenCell _ f) s)
      (funext fun n => funext fun g => funext fun t => (tokBcst_patternToken ..).symm)
  all_goals contradiction

/-- R55, R56, R122, R188: what a row leaves that gives one beat over its token positions. -/
theorem rowResult_of_gives {lat : Nat} {u : RowUse} {out : CellIn → BeatAcc} {s : State}
    (ho : ∀ p ∈ s.region.cfg.cells, (out (s.cellIn p)).ovf = none) :
    ∃ t, cellRow lat u.x (fun n => n.gives u (out n)) s = .next t ∧
      RowResult lat u (fun n => (out n).beat) (fun n => (out n).flags) (fun n => (out n).gens) s t :=
  rowLands_cellRow ho (fun _ => rfl) fun _ => rfl

/-- The same where no position overflows or steps a generator. -/
theorem rowResult_of_positions {lat : Nat} {u : RowUse} {f : CellIn → Nat → Gens → TokOut} {s : State}
    (ho : ∀ n q g, (f n q g).ovf = 0) (hg : ∀ n q g, (f n q g).gens = g) :
    ∃ t, cellRow lat u.x (fun n => n.gives u (overTokens (tokensOf u.f.toNat) n.gens (f n))) s = .next t ∧
      RowResult lat u (fun n => (overTokens (tokensOf u.f.toNat) n.gens (f n)).beat)
        (fun n => (overTokens (tokensOf u.f.toNat) n.gens (f n)).flags) (fun n => n.gens) s t := by
  have h := rowResult_of_gives (lat := lat) (u := u) (s := s) (out := fun n => overTokens (tokensOf u.f.toNat) n.gens (f n))
    fun p _ => overTokens_ovf (ho _) _ _
  simpa only [overTokens_gens (hg _)] using h

/-! ### The conversion rows -/

theorem exec_of_rowConv {i : Instr} {k : Conv} {u : RowUse} {fi fo : BitVec 1} {rim : BitVec 4 → BitVec 2 → Instr}
    (h : rowConv i = some (k, u, fi, fo, rim)) (s : State) :
    exec i s = cellRow 4 u.x (convertCell u k (fi == 1) (fo == 1)) s := by
  cases i
  case cellVcvt | cellVrndi | cellVftoi | cellVitof | cellVpack | cellVunpk =>
    cases h
    simp only [exec_cellVcvt, exec_cellVrndi, exec_cellVftoi, exec_cellVitof, exec_cellVpack, exec_cellVunpk]
    rfl
  all_goals contradiction

theorem tokConvert_ovf (env : NumEnv) (gens : Gens) (kind : Conv) (dst f : BitVec 4) (rm : Rounding) {ov : Overflow}
    (h : ov ≠ .trap) (old a : Token) (fi fo k : Bool) : (tokConvert env gens kind dst f rm ov old a fi fo k).ovf = 0 := by
  simp only [tokConvert]
  split <;> exact laneOp_ovf _ _ _ _ _ _ _ _ fun _ _ => convertElem_trap _ _ _ _ _ h ..

theorem tokPack_ovf (env : NumEnv) (gens : Gens) (dst f : BitVec 4) (rm : Rounding) {ov : Overflow} (h : ov ≠ .trap)
    (old a : Token) (fi fo k : Bool) : (tokPack env gens dst f rm ov old a fi fo k).ovf = 0 := by
  refine runLanes_ovf rm gens _ fun l g => ?_
  split
  · rfl
  · exact convertElem_trap _ _ _ _ _ h ..

theorem tokUnpack_ovf (env : NumEnv) (gens : Gens) (dst f : BitVec 4) (rm : Rounding) {ov : Overflow} (h : ov ≠ .trap)
    (a : Token) (fi fo k : Bool) : (tokUnpack env gens dst f rm ov a fi fo k).1.ovf = 0 := by
  refine runLanes_ovf rm gens _ fun l g => ?_
  dsimp only
  split
  · rfl
  · exact convertElem_trap _ _ _ _ _ h ..

/-- R60, R180: the policies other than TRAP. -/
theorem ofCode_ne_trap {c : BitVec 2} (h : c ≠ 3) : Overflow.ofCode c ≠ .trap := by
  revert c
  decide

theorem convertPos_ovf {n : CellIn} (h : n.cfg.mode.extractLsb' 0 2 ≠ 3) (kind : Conv) (fi fo : Bool) (dst : BitVec 4) (a : Beat)
    (q : Nat) (g : Gens) : (convertPos n kind fi fo dst a q g).ovf = 0 := by
  have ht : n.ov ≠ .trap := ofCode_ne_trap h
  simp only [convertPos]
  generalize (if a.bub = true then dst else a.tag) = from'
  split
  · rfl
  split
  · rfl
  split
  · rfl
  cases kind with
  | vpack => exact tokPack_ovf _ _ _ _ _ ht ..
  | vunpk => exact tokUnpack_ovf _ _ _ _ _ ht ..
  | vcvt | vrndi | vftoi | vitof => exact tokConvert_ovf _ _ _ _ _ _ ht ..

/-- R122, R129: a conversion of a position whose tags form a pair is the rim word's. -/
theorem convertPos_of_pair {i : Instr} {k : Conv} {u : RowUse} {fi fo : BitVec 1} {rim : BitVec 4 → BitVec 2 → Instr}
    (h : rowConv i = some (k, u, fi, fo, rim)) {n : CellIn} {a : Beat} {q : Nat} (hb : a.bub = false)
    (hq : q < tokensOf a.tag.toNat) (hp : convPair k u.f a.tag = true) {r}
    (hr : convSpec (rim a.tag (n.cfg.mode.extractLsb' 0 2)) = some r) (g : Gens) :
    convertPos n k (fi == 1) (fo == 1) u.f a q g =
      r.2.2 (rowCore n g ⟨Token.reset, a.tok a.tag.toNat q, Token.reset, Token.reset⟩ none) := by
  have hq' : ¬ tokensOf a.tag.toNat ≤ q := Nat.not_le.2 hq
  simp only [convertPos, hb, hq', hp, Bool.false_and, Bool.not_true, Bool.false_eq_true, if_false]
  cases i
  case cellVcvt | cellVrndi | cellVftoi | cellVitof | cellVpack =>
    cases h
    cases hr
    rfl
  case cellVunpk =>
    cases h
    contradiction
  all_goals contradiction

/-- R129: a position whose tags form no pair is written invalid. -/
theorem convertPos_of_no_pair {n : CellIn} {k : Conv} {fi fo : Bool} {dst : BitVec 4} {a : Beat} {q : Nat} (hb : a.bub = false)
    (hq : q < tokensOf a.tag.toNat) (hp : convPair k dst a.tag = false) (g : Gens) :
    convertPos n k fi fo dst a q g = ⟨Token.invalid dst, g, flagNV, 0⟩ := by
  have hq' : ¬ tokensOf a.tag.toNat ≤ q := Nat.not_le.2 hq
  simp only [convertPos, hb, hq', hp, Bool.false_and, Bool.not_false, Bool.and_self, Bool.false_eq_true, if_false, if_true]

/-- R63, R292: the first cell with an overflowing lane stops the graph. -/
theorem rowState_of_ovf {lat : Nat} {x : BitVec 5} {f : CellIn → CellOut} {s : State} {pre post : List (Nat × Nat)} {p : Nat × Nat}
    {q : Nat} {lanes : BitVec 16} (hc : s.region.cfg.cells = pre ++ p :: post) (hpre : ∀ y ∈ pre, (f (s.cellIn y)).ovf = none)
    (hp : (f (s.cellIn p)).ovf = some (q, lanes)) :
    rowState lat x f s = s.stopRow graphOverflow (BitVec.ofNat 64 (lanes.toNat + 2 ^ 16 * (q % 4))) p := by
  have hf : (s.region.cfg.cells.map fun p => (p, f (s.cellIn p))).find? (fun o => o.2.ovf.isSome) = some (p, f (s.cellIn p)) := by
    rw [hc, List.map_append, List.map_cons, List.find?_eq_some_iff_append]
    refine ⟨by rw [hp]; rfl, _, _, rfl, fun o ho => ?_⟩
    obtain ⟨y, hy, rfl⟩ := List.mem_map.1 ho
    simp [hpre y hy]
  simp only [rowState, hf, hp, Option.getD_some]

/-- R292, R293: a graph that has not stopped stops with the record of the fault. -/
theorem stopRow_of_no_fault {s : State} (h : s.graph.fault = none) (cause : BitVec 8) (detail : BitVec 64) (p : Nat × Nat) :
    s.stopRow cause detail p = { s with graph := { s.graph with
      stopped := true, grace := 8
      fault := some (s.region.faultRec s.time cause detail
        (tileNum ((s.region.cfg.row0 + p.1) / 16) ((s.region.cfg.col0 + p.2) / 16)))
      faulted := s.graph.faulted ++ [s.region.id] } } := by
  simp only [State.stopRow, Graph.stop, h]

/-! ### The other rows -/

theorem tokSlice_gens (g : Gens) (a : Token) : (tokSlice g a).gens = g := by
  unfold tokSlice
  split
  · rfl
  · split <;> rfl

theorem tokHmrg_gens (g : Gens) (old : Token) (bins : List Token) (mask : BitVec 16) (k : Bool) :
    (tokHmrg g old bins mask k).gens = g := by
  simp only [tokHmrg]
  split <;> rfl

theorem tokHmrg_flags (g : Gens) (old : Token) (bins : List Token) (mask : BitVec 16) (k : Bool) :
    (tokHmrg g old bins mask k).flags = 0 := by
  simp only [tokHmrg]
  split <;> rfl

/-- Settles O45: each row by what it makes of a token position, and by whether a position overflows. -/
theorem cellTokenRows : Obligations.CellTokenRows := by
  refine ⟨?token, ?conversion, ?vbfp, ?vpld, ?vhmrg⟩
  case token =>
    intro i x s h
    rw [exec_of_rowForm h]
    exact rowResult_of_gives fun p _ => overTokens_ovf (at_ovf x _) _ _
  case conversion =>
    intro i k u fi fo rim s h
    refine ⟨fun ho => ?result, fun n ha => if_neg ha, fun n ha => ?entry, ?pair, ?noPair, ?trap⟩
    case result =>
      rw [exec_of_rowConv h]
      refine rowResult_of_gives fun p hp => ?_
      obtain ho | ho := ho
      · exact overTokens_ovf (convertPos_ovf ho k _ _ _ _) _ _
      · exact ho p hp
    case entry => exact if_pos ha
    case pair =>
      intro n q g v r op hb hq hp hv hr hop
      subst hv hop
      exact convertPos_of_pair h hb hq hp hr g
    case noPair => exact fun n q g hb hq hp => convertPos_of_no_pair hb hq hp g
    case trap =>
      intro pre p post q lanes hc hpre hp hf
      refine ⟨_, _, (exec_of_rowConv h s).trans (congrArg Host.Outcome.next
        ((rowState_of_ovf hc hpre hp).trans (stopRow_of_no_fault hf ..))), rfl, rfl, rfl, rfl, rfl, rfl, rfl⟩
  case vbfp =>
    intro d a b c q i o f x s
    rw [exec_cellVbfp]
    exact rowResult_of_positions (u := ⟨d, a, b, c, q, f, x⟩) (fun _ _ _ => rfl) fun _ _ _ => rfl
  case vpld =>
    intro d a q i o f x s
    rw [exec_cellVpld]
    exact rowResult_of_positions (u := ⟨d, a, 0, 0, q, f, x⟩) (fun _ _ _ => tokSlice_ovf ..) fun _ _ _ => tokSlice_gens ..
  case vhmrg =>
    intro d a b c q i o f x s
    rw [exec_cellVhmrg]
    obtain ⟨t, ht, hr⟩ := rowResult_of_positions (lat := 6) (u := ⟨d, a, b, c, q, f, x⟩) (s := s)
      (f := fun n p g => tokHmrg g Token.reset
        (((n.cell.c.toList.take (b.toNat + 1)).drop a.toNat).map fun y => y.tok y.tag.toNat p) 0xFFFF false)
      (fun _ _ _ => tokHmrg_ovf ..) fun _ _ _ => tokHmrg_gens ..
    simp only [overTokens_flags fun _ _ => tokHmrg_flags ..] at hr
    exact ⟨t, ht, hr⟩

end Sys2Proof.Laws
end

section
/-! PROOFS. The write steps of the special registers (O16). -/

namespace Sys2Proof.Laws

open Sys2Proof Sys2Proof.Machine

/-- R54: RM takes the codes up to 5 alone, and RESEED reloads the generators from the SEED written. -/
theorem writeTcr_eq (c : Core) (v : BitVec 64) : c.writeTcr v = { c with
    rm := if v.extractLsb' 0 3 ≤ 5#3 then v.extractLsb' 0 3 else c.rm
    remap := v.extractLsb' 8 8, seed := v.extractLsb' 16 16
    rnd := if v.getLsbD 32 then Gens.seeded (v.extractLsb' 16 16) else c.rnd } := by
  unfold Core.writeTcr
  dsimp only
  split <;> rfl

/-- R56: a write with the RESEED bit put in reloads the generators whatever the word holds there. -/
theorem writeTcr_reseed (c : Core) (v : BitVec 64) : c.writeTcr (v ||| 0x100000000) = { c with
    rm := if v.extractLsb' 0 3 ≤ 5#3 then v.extractLsb' 0 3 else c.rm
    remap := v.extractLsb' 8 8, seed := v.extractLsb' 16 16, rnd := Gens.seeded (v.extractLsb' 16 16) } := by
  simp [writeTcr_eq, BitVec.extractLsb'_or]

theorem setIfInBounds_of_lt {α : Type} {n : Nat} (x : Vector α n) {l : Nat} (h : l < n) (v : α) :
    x.setIfInBounds l v = x.set l v h := by
  rw [← Vector.toArray_inj, Vector.toArray_setIfInBounds, Vector.toArray_set, Array.setIfInBounds_def, dif_pos]

/-- R56: a write of RNDl, l being one of the sixteen. -/
theorem writeRnd_eq (c : Core) (l : BitVec 4) (v : BitVec 64) : c.writeRnd l.toNat v =
    if v.extractLsb' 0 32 = 0 then c else { c with rnd := c.rnd.set l.toNat (v.extractLsb' 0 32) l.isLt } := by
  rw [Core.writeRnd, setIfInBounds_of_lt _ l.isLt]
  rfl

/-- R83: a write of LC0 to LC2. -/
theorem writeLc_eq (c : Core) {l : Nat} (h : l < 3) (v : BitVec 64) :
    c.writeLc l v = { c with lc := c.lc.set l (v.extractLsb' 0 32) h } := by
  rw [Core.writeLc, setIfInBounds_of_lt _ h]
  rfl

/-- Settles O16: each register by its write; the register number of a write of any register selects the same write. -/
theorem registerWriteSteps : Obligations.RegisterWriteSteps := by
  intro v s c
  refine ⟨rfl, ?tcr, ?reseed, rfl, fun l => ?rnd, rfl, fun l h => ?lc, rfl, rfl, rfl, rfl, fun w => ⟨rfl, rfl, rfl, rfl, rfl⟩⟩
  case tcr => rw [exec_tcrWrite, execTcrWrite, writeTcr_eq]
  case reseed => rw [exec_tcrReseed, execTcrReseed, writeTcr_reseed]
  case rnd => rw [exec_rndWrite, execRndWrite, writeRnd_eq]
  case lc => rw [exec_lcWrite, execLcWrite, writeLc_eq _ h]

end Sys2Proof.Laws
end

section
/-! PROOFS. The state right after reset (O59). -/

namespace Sys2Proof.Laws

open Sys2Proof Sys2Proof.Machine

theorem getTile_reset (k : Nat) : State.reset.getTile k = Tile.reset k := by
  unfold State.getTile
  split
  · next h => exact h ▸ rfl
  · rfl

theorem getHub_reset (h : Nat) : getHub State.reset h = Hub.reset := by
  unfold getHub
  by_cases hh : h < 12
  · rw [List.getD_eq_getElem _ _ (by simpa using hh)]
    exact List.eq_of_mem_replicate (List.getElem_mem _)
  · exact List.getD_eq_default _ _ (by simpa using hh)

/-! ### The files of a core (R74) -/

section
variable (r c : BitVec 6)

theorem s_reset (n : BitVec 5) : (Core.reset r c).s n = 0 := by
  simp [Core.s, Core.reset]

theorem p_reset (n : BitVec 3) : (Core.reset r c).p n = (n == 0) := by
  simp only [Core.p, Core.reset]
  split <;> simp_all

theorem m_reset (n : BitVec 3) : (Core.reset r c).m n = 0xFFFF := by
  simp [Core.m, Core.reset]

theorem t_reset (n : BitVec 5) : (Core.reset r c).t n = Token.reset := by
  simp [Core.t, Core.reset]

/-- R56: the generators of seed 0. -/
theorem rnd_reset {l : Nat} (h : l < 16) : (Core.reset r c).rnd.toList[l]? = some (BitVec.ofNat 32 (0x5A00 + l)) := by
  interval_cases l <;> rfl

end

/-- R342: no format range is in use. -/
theorem rangeOf_reset (a : Nat) : rangeOf Hub.reset a = none := by
  refine List.find?_eq_none.2 fun r hr => ?_
  obtain ⟨n, -, rfl⟩ := List.mem_map.1 hr
  have hv : (getRange Hub.reset n).w0.getLsbD 0 = false := BitVec.getLsbD_zero
  rw [hv, Bool.false_and]
  exact Bool.false_ne_true

/-- Every entry of a vector that repeats one value is that value. -/
theorem forall_mem_replicate {α : Type} {n : Nat} {a : α} {P : α → Prop} (h : P a) :
    ∀ b ∈ (Vector.replicate n a).toList, P b := by
  intro b hb
  rw [Vector.toList_replicate] at hb
  exact List.eq_of_mem_replicate hb ▸ h

/-- R389: the coordinates of a tile fit their fields. -/
theorem coord_toNat {n : Nat} (h : n < 64) : (BitVec.ofNat 6 n).toNat = n := Nat.mod_eq_of_lt h

/-- Settles O59: the tiles by the core they hold, and everything else by what reads as its default where nothing is listed. -/
theorem resetState : Obligations.ResetState := by
  refine ⟨reset_wf, fun k hk => ?tile, fun p => rfl, fun slice => ?cache, fun h a => ?range, forall_mem_replicate ?hoop,
    fun k => rfl, fun q => rfl, fun n => BitVec.getLsbD_zero, rfl⟩
  case tile =>
    have hz : ∀ {n w : Nat}, ∀ v ∈ (Vector.replicate n (0 : BitVec w)).toList, v = 0 := forall_mem_replicate rfl
    rw [getTile_reset]
    exact ⟨s_reset _ _, p_reset _ _, m_reset _ _, t_reset _ _, hz, rfl, rfl, rfl, rfl, rfl, rfl, rfl, rfl, rfl,
      fun l hl => rnd_reset _ _ hl, rfl, rfl, rfl, rfl, rfl, rfl, rfl, rfl, hz, rfl, rfl, hz, rfl, forall_mem_replicate rfl,
      rfl, rfl, rfl, rfl, coord_toNat (by omega), coord_toNat (by omega), rfl, rfl⟩
  case cache => rw [cacheMiB, getHub_reset]; rfl
  case range => rw [getHub_reset]; exact rangeOf_reset a
  case hoop => exact ⟨rfl, rfl, rfl, rfl, rfl⟩

end Sys2Proof.Laws
end

section
/-! PROOFS. The token instructions of the rim core that write one token (O32), and the conversions (O36). -/

namespace Sys2Proof.Laws

open Sys2Proof Sys2Proof.Machine

/-- R118 to R149: every token instruction takes the course of R119 with its operation. -/
theorem exec_of_tokSpec {i : Instr} {k d op} (h : tokSpec i = some (k, d, op)) (s : State) :
    exec i s = tokInstr k (encode i) d op s := by
  cases i
  case vfma | vfms | vfnma | vadd | vsub | vmul | vmax | vmin | vabs | vneg | vcps | vexpf | vlogf | vgetx | vrcp | vrsq |
    vsumt | vmaxt | viadd | visub | vimul | vand | vor | vxor | vshl | vshr | vsar | vimin | vimax | vcnt | vimac | vsel |
    vcls | vcmp | vdot | vscale | vscan | vperm | vshuf | vbcst | vmsk | vhmrg =>
    cases h
    rfl
  all_goals contradiction

/-- Settles O32: every token instruction is `tokInstr` with its operation. -/
theorem tokenResults : Obligations.TokenResults := by
  intro i k d op s h hc
  exact exec_of_tokSpec h s ▸ tokInstr_effect k (encode i) d op s hc

/-! ### Conversions -/

/-- R63: outside TRAP, or where no lane overflows, a conversion retires with its effect. -/
theorem tcInstr_effect {v : BitVec 2} {ovf : Core → BitVec 16} {f : Core → Core} {s : State} (hc : CanRetire s)
    (ho : v ≠ 3 ∨ ovf s.tile.core = 0) (w : Word) (hf : (f s.tile.core).retiredAs s.tile.core = f s.tile.core)
    (hw : (f s.tile.core).ew = s.tile.core.ew) : ∃ t, tcInstr w v ovf f s = .next t ∧ CoreEffect 2 f s t := by
  have hn : ¬ (v = 3 ∧ ovf s.tile.core ≠ 0) := fun h => ho.elim (· h.1) h.2
  exact ⟨_, seqInstr_done 2 w _ s _ hc (if_neg hn), lateIn_effectAt w (retireTo_effect 2 s f hf hw)⟩

/-- R63: under TRAP an overflowing lane traps with the lanes in EADDR. -/
theorem tcInstr_trap {ovf : Core → BitVec 16} {s : State} (hc : CanRetire s) (ho : ovf s.tile.core ≠ 0)
    (hr : HandlerReady s.tile.core) (w : Word) (f : Core → Core) :
    ∃ t, tcInstr w 3 ovf f s = .next t ∧ TrapsWith causeOverflow ((ovf s.tile.core).setWidth 64) w s t :=
  ⟨_, seqInstr_trap 2 w _ s hc _ _ (if_pos ⟨rfl, ho⟩), trapAt_with s _ _ w hr⟩

/-- R129 to R136: every conversion with one destination takes the course of R63 with its operation. -/
theorem exec_of_convSpec {i : Instr} {v d op} (h : convSpec i = some (v, d, op)) (s : State) :
    exec i s = tcInstr (encode i) v (fun c => (op c).ovf) (fun c => c.takeTok d (op c)) s := by
  cases i
  case vcvt | vrndi | vftoi | vitof | vpack =>
    cases h
    rfl
  all_goals contradiction

theorem setT_self (c : Core) (r : BitVec 5) : c.setT r (c.t r) = c := by
  simp only [Core.setT, Core.t, Vector.set_getElem_self]

/-- R137: VUNPK leaves its source shifted down by the codes that it has taken where k is set, and as it was otherwise. -/
theorem takeTok_tokUnpack (c : Core) (env : NumEnv) (g : Gens) (t f : BitVec 4) (rm : Rounding) (ov : Overflow)
    (a d : BitVec 5) (fi fo : Bool) (k : BitVec 1) :
    let r := tokUnpack env g t f rm ov (c.t a) fi fo (k == 1)
    (c.setT a r.2).takeTok d r.1 =
      { (if k = 1 then c.setT a { c.t a with data := (c.t a).data >>> (16 * codeWidth f.toNat) } else c).setT d r.1.tok with
        rnd := r.1.gens, fstat := c.fstat ||| r.1.flags } := by
  dsimp only
  by_cases hk : k = 1
  · subst hk
    rfl
  · have hs : (tokUnpack env g t f rm ov (c.t a) fi fo (k == 1)).2 = c.t a := if_neg (by simpa using hk)
    rw [hs, setT_self, if_neg hk, Core.takeTok]

/-- Settles O36: each conversion takes the course of R63 with its operation. -/
theorem tokenConversions : Obligations.TokenConversions := by
  refine ⟨fun i v d op s h hc => ⟨fun ho => ?retires, fun hv ho hr => ?traps⟩, ?unpack⟩
  case retires =>
    rw [exec_of_convSpec h]
    exact tcInstr_effect hc ho (encode i) rfl rfl
  case traps =>
    subst hv
    rw [exec_of_convSpec h]
    exact tcInstr_trap hc ho hr (encode i) _
  case unpack =>
    intro d a t f r v i o k s hc op ho
    obtain ⟨u, hu, he⟩ := tcInstr_effect (ovf := fun x => (op x).1.ovf)
      (f := fun x => (x.setT a (op x).2).takeTok d (op x).1) hc ho
      (encode (.vunpk d a t f r v i o k)) rfl rfl
    simp only [op, takeTok_tokUnpack] at he
    exact ⟨u, hu, he⟩

end Sys2Proof.Laws
end

section
/-! PROOFS. The lanes of packed lines and beats: what a put field, a line of lanes and a token put into a beat read as. -/

namespace Sys2Proof.Laws

open Sys2Proof Sys2Proof.Machine

/-! ### Fields -/

theorem fld_getLsbD {n : Nat} (w : BitVec n) (lo len k : Nat) :
    (fld w lo len).getLsbD k = (decide (k < len) && w.getLsbD (lo + k)) := BitVec.getLsbD_extractLsb' ..

theorem putField_getLsbD {n : Nat} (w : BitVec n) {lo len k : Nat} (h : lo + len ≤ n) (v : Nat) :
    (putField w lo len v).getLsbD k = if lo ≤ k ∧ k < lo + len then v.testBit (k - lo) else w.getLsbD k := by
  simp only [putField, BitVec.getLsbD_or, BitVec.getLsbD_and, BitVec.getLsbD_not, BitVec.getLsbD_ofNat,
    Nat.testBit_shiftLeft, Nat.testBit_two_pow_sub_one]
  by_cases h1 : lo ≤ k
  · by_cases h2 : k < lo + len
    · have hk : k < n := by omega
      have hl : k - lo < len := by omega
      simp [h1, h2, hk, hl]
    · have hl : ¬ k - lo < len := by omega
      by_cases hk : k < n
      · simp [h2, hk, hl]
      · simp [h2, hk, BitVec.getLsbD_of_ge w k (by omega)]
  · by_cases hk : k < n
    · simp [h1, hk]
    · simp [h1, hk, BitVec.getLsbD_of_ge w k (by omega)]

/-- A field that has been put reads back. -/
theorem fld_putField {n : Nat} (w : BitVec n) {lo len : Nat} (h : lo + len ≤ n) (v : Nat) :
    fld (putField w lo len v) lo len = BitVec.ofNat len v := by
  refine BitVec.eq_of_getLsbD_eq fun k hk => ?_
  have hr : lo ≤ lo + k ∧ lo + k < lo + len := by omega
  rw [fld_getLsbD, putField_getLsbD w h, if_pos hr, BitVec.getLsbD_ofNat, Nat.add_sub_cancel_left]

/-! ### Lines of lanes -/

theorem lineOfLanes_getLsbD (ls : List (BitVec 32)) {l k : Nat} (hl : l < 16) (hk : k < 32) :
    (lineOfLanes ls).getLsbD (32 * l + k) = (ls.getD l 0).getLsbD k := by
  have hw : 32 * l + k < 512 := by omega
  induction ls generalizing l with
  | nil => simp [lineOfLanes]
  | cons x ls ih =>
    have hs : (lineOfLanes (x :: ls)).getLsbD (32 * l + k) =
        ((decide (32 * l + k < 512) && !decide (32 * l + k < 32) && (lineOfLanes ls).getLsbD (32 * l + k - 32)) ||
          (decide (32 * l + k < 512) && x.getLsbD (32 * l + k))) := by
      simp only [lineOfLanes, List.foldr_cons, BitVec.getLsbD_or, BitVec.getLsbD_shiftLeft, BitVec.getLsbD_setWidth]
    rw [hs]
    cases l with
    | zero => simp [hk]; omega
    | succ l =>
      have he : 32 * (l + 1) + k - 32 = 32 * l + k := by omega
      have hx : x.getLsbD (32 * (l + 1) + k) = false := BitVec.getLsbD_of_ge _ _ (by omega)
      have hn : ¬ 32 * (l + 1) + k < 32 := by omega
      rw [he, hx, ih (by omega) (by omega), List.getD_cons_succ]
      simp [hw, hn]

/-- R117: lane l of a line made of lanes. -/
theorem fld_lineOfLanes (ls : List (BitVec 32)) {l : Nat} (hl : l < 16) : fld (lineOfLanes ls) (32 * l) 32 = ls.getD l 0 := by
  refine BitVec.eq_of_getLsbD_eq fun k hk => ?_
  rw [fld_getLsbD, lineOfLanes_getLsbD ls hl hk, decide_eq_true hk, Bool.true_and]

theorem fld_lineOfLanes_range (f : Nat → BitVec 32) {l : Nat} (hl : l < 16) :
    fld (lineOfLanes ((List.range 16).map f)) (32 * l) 32 = f l := by
  rw [fld_lineOfLanes _ hl, List.getD_eq_getElem _ _ (by simpa using hl), List.getElem_map, List.getElem_range]

/-! ### Tokens of formats of 32 bits -/

theorem packed_div {α : Type} (f : α → Nat) (w : Nat) (ls : List α) {i : Nat} (hi : i < ls.length) :
    ls.foldr (fun e acc => f e % 2 ^ w + acc * 2 ^ w) 0 / 2 ^ (w * i) % 2 ^ w = f ls[i] % 2 ^ w := by
  induction ls generalizing i with
  | nil => exact absurd hi (Nat.not_lt_zero i)
  | cons x ls ih =>
    cases i with
    | zero => simp
    | succ i =>
      have hp : 0 < 2 ^ w := Nat.two_pow_pos w
      have hd : (f x % 2 ^ w + ls.foldr (fun e acc => f e % 2 ^ w + acc * 2 ^ w) 0 * 2 ^ w) / 2 ^ w =
          ls.foldr (fun e acc => f e % 2 ^ w + acc * 2 ^ w) 0 := by
        rw [Nat.add_mul_div_right _ _ hp, Nat.div_eq_of_lt (Nat.mod_lt _ hp), Nat.zero_add]
      rw [List.foldr_cons, Nat.mul_succ, Nat.add_comm (w * i), Nat.pow_add, ← Nat.div_div_eq_div_mul, hd,
        ih (Nat.lt_of_succ_lt_succ hi), List.getElem_cons_succ]

theorem packToken_lane {fmt : Nat} (h : elemBits fmt = 32) (t : Token) {l : Nat} (hl : l < 16) :
    packToken fmt t / 2 ^ (32 * l) % 2 ^ 32 = (t.lane l).toNat := by
  have hp := packed_div (fun e => (t.lane e).toNat) 32 (List.range 16) (i := l) (by simpa using hl)
  rw [List.getElem_range] at hp
  rw [packToken, h, hp]
  exact Nat.mod_eq_of_lt (t.lane l).isLt

theorem packToken_testBit {fmt : Nat} (h : elemBits fmt = 32) (t : Token) {l k : Nat} (hl : l < 16) (hk : k < 32) :
    (packToken fmt t).testBit (32 * l + k) = (t.lane l).getLsbD k := by
  rw [BitVec.getLsbD, ← packToken_lane h t hl, Nat.testBit_mod_two_pow, Nat.testBit_div_two_pow, decide_eq_true hk,
    Bool.true_and, Nat.add_comm]

theorem putTok_lane {fmt : Nat} (h : elemBits fmt = 32) (b : Beat) (t : Token) {l : Nat} (hl : l < 16) :
    fld (b.putTok fmt 0 t).data (32 * l) 32 = t.lane l := by
  have hd : (b.putTok fmt 0 t).data = putField b.data 0 512 (packToken fmt t) := by simp [Beat.putTok, h]
  refine BitVec.eq_of_getLsbD_eq fun k hk => ?_
  rw [hd, fld_getLsbD, putField_getLsbD _ (by decide), if_pos (by omega), Nat.sub_zero, packToken_testBit h t hl hk,
    decide_eq_true hk, Bool.true_and]

/-- R117: the one token of a beat of FP32. -/
theorem beatOf_zero (t : Token) : beatOf 0 [t] = (Beat.invalid 0).putTok 0 0 t := rfl

theorem beatOf_zero_lane (t : Token) {l : Nat} (hl : l < 16) : fld (beatOf 0 [t]).data (32 * l) 32 = t.lane l :=
  putTok_lane rfl _ t hl

theorem beatOf_zero_valid (t : Token) {l : Nat} (hl : l < 16) : (beatOf 0 [t]).valid.getLsbD l = t.valid.getLsbD l := by
  rw [beatOf_zero, Beat.putTok, putField_getLsbD _ (by decide), if_pos (by omega)]
  rfl

theorem beatOf_zero_exps (t : Token) : fld (beatOf 0 [t]).exps 0 8 = t.exp := by
  rw [beatOf_zero, Beat.putTok]
  exact (fld_putField _ (by decide) _).trans (BitVec.ofNat_toNat ..)

/-- R117: the lanes of the one token of an INT32 beat. -/
theorem tok_lane_of_int32 {b : Beat} (h : b.tag = 9) {l : Nat} (hl : l < 16) : (b.tok 9 0).lane l = fld b.data (32 * l) 32 := by
  have ht : b.tok 9 0 = ⟨lineOfLanes ((List.range 16).map fun e => laneForm b.tag.toNat (b.code 9 0 e)), b.tag, fld b.exps 0 8,
      b.bub, fld b.valid 0 16, fld b.pred 0 16⟩ := rfl
  rw [ht, Token.lane, fld_lineOfLanes_range _ hl, h]
  have hc : b.code 9 0 l = (fld b.data (32 * l) 32).toNat := by
    rw [Beat.code, Nat.mul_zero, Nat.zero_add, Nat.mul_comm]
    rfl
  rw [hc]
  exact (congrArg (BitVec.ofNat 32) (Nat.mod_eq_of_lt (BitVec.isLt _))).trans (BitVec.ofNat_toNat ..)

end Sys2Proof.Laws
end

section
/-! PROOFS. What a multiply and accumulate row leaves, and the dot products of MACF (O47). -/

namespace Sys2Proof.Laws

open Sys2Proof Sys2Proof.Machine

/-! ### Rows that leave the generators, and the flags, as they were -/

theorem takeCell_gens_of_eq {r : Region} {p : Nat × Nat} {o : CellOut} (h : o.gens = r.gensAt p.1 p.2) (slot lat : Nat) :
    (r.takeCell slot lat p o).gens = r.gens := by
  unfold Region.takeCell
  dsimp only [Region.addFlags]
  split
  · rfl
  · next hn => exact absurd h hn

/-- R56: a row in whose cells no generator steps. -/
theorem takeCells_gens_of_eq {slot lat : Nat} {f : Nat × Nat → CellOut} {l : List (Nat × Nat)} {r : Region}
    (h : ∀ p ∈ l, (f p).gens = r.gensAt p.1 p.2) : (takeCells slot lat f l r).gens = r.gens := by
  induction l generalizing r with
  | nil => rfl
  | cons p l ih =>
    have hp := takeCell_gens_of_eq (h p List.mem_cons_self) slot lat
    refine (ih (r := r.takeCell slot lat p (f p)) fun q hq => ?_).trans hp
    rw [h q (List.mem_cons_of_mem _ hq), takeCell_eq, Region.gensAt, Region.gensAt, hp]

/-- R55: a row none of whose cells raises a flag. -/
theorem takeCells_flags_of_zero {slot lat : Nat} {f : Nat × Nat → CellOut} {l : List (Nat × Nat)} {r : Region}
    (h : ∀ p ∈ l, (f p).flags = 0) : (takeCells slot lat f l r).status.flags = r.status.flags := by
  refine BitVec.eq_of_getLsbD_eq fun k _ => ?_
  have hn : (l.any fun p => (f p).flags.getLsbD k) = false :=
    List.any_eq_false.2 fun p hp => by simp [h p hp]
  rw [takeCells_flags, hn, Bool.or_false]

/-! ### Multiply and accumulate rows -/

/-- R192, R193: the beat that a multiply and accumulate row sends to S. -/
def macBeat (x : BitVec 5) (body : CellIn → Beat → Beat → Token → Beat × Flags) (n : CellIn) : Beat :=
  if n.west.bub then n.north else (body n n.west n.north (n.cell.weight x)).1

theorem macBeat_of_bubble {n : CellIn} (h : n.west.bub = true) (x : BitVec 5)
    (body : CellIn → Beat → Beat → Token → Beat × Flags) : macBeat x body n = n.north := if_pos h

theorem macBeat_of_live {n : CellIn} (h : n.west.bub = false) (x : BitVec 5)
    (body : CellIn → Beat → Beat → Token → Beat × Flags) :
    macBeat x body n = (body n n.west n.north (n.cell.weight x)).1 := if_neg (by simp [h])

theorem macCell_outs (u : RowUse) (body : CellIn → Beat → Beat → Token → Beat × Flags) (n : CellIn) :
    (macCell u body n).outs = [(4, n.west, BitVec.allOnes 128), (5, macBeat u.x body n, n.allow u)] := by
  simp only [macCell, macBeat, apply_ite Prod.fst]

theorem macCell_flags_of_bubble {n : CellIn} (h : n.west.bub = true) (u : RowUse)
    (body : CellIn → Beat → Beat → Token → Beat × Flags) : (macCell u body n).flags = 0 := by
  simp only [macCell, h, if_true]

/-- R188, R192, R193: what a multiply and accumulate row leaves. -/
theorem macResult_cellRow (q : BitVec 3) (f : BitVec 4) (x : BitVec 5) (body : CellIn → Beat → Beat → Token → Beat × Flags)
    (s : State) : ∃ t, cellRow 1 x (macCell (macUse q f x) body) s = .next t ∧ MacResult q f x (macBeat x body) s t := by
  let cell := macCell (macUse q f x) body
  refine ⟨_, rfl, ?_⟩
  rw [rowState_of_no_ovf (fun _ _ => rfl) fun _ => rfl]
  have hl : ∀ p, (cell (s.cellIn p)).landings p (s.graph.slotNo + 1 - 1) =
      [⟨p.1, p.2, 4, s.graph.slotNo, (s.cellIn p).west, BitVec.allOnes 128⟩,
        ⟨p.1, p.2, 5, s.graph.slotNo, macBeat x body (s.cellIn p), (s.cellIn p).allow ⟨5, 5, 6, 4, q, f, x⟩⟩] := by
    intro p
    rw [CellOut.landings, macCell_outs]
    rfl
  have hr := takeCells_eq s.graph.slotNo 1 (fun p => cell (s.cellIn p)) s.region.cfg.cells s.region
  rw [takeCells_gens_of_eq fun _ _ => rfl] at hr
  simp only [hl] at hr
  refine ⟨by rw [← hr], fun hb => ?_⟩
  have hf := takeCells_flags_of_zero (slot := s.graph.slotNo) (lat := 1) (r := s.region) (l := s.region.cfg.cells)
    (f := fun p => cell (s.cellIn p)) fun p hp => macCell_flags_of_bubble (hb p hp) ..
  rw [hf] at hr
  have hs := congrArg Region.status hr
  exact hs

/-! ### MACF -/

theorem any_isNaN_pairs (f g : Nat → Val × Flags) (l : List Nat) :
    ((l.map f).map Prod.fst ++ (l.map g).map Prod.fst).any Val.isNaN = l.any fun e => (f e).1.isNaN || (g e).1.isNaN := by
  rw [Bool.eq_iff_iff]
  simp only [List.any_append, List.any_map, Bool.or_eq_true, List.any_eq_true, Function.comp_apply]
  constructor
  · rintro (⟨e, he, h⟩ | ⟨e, he, h⟩)
    exacts [⟨e, he, .inl h⟩, ⟨e, he, .inr h⟩]
  · rintro ⟨e, he, h | h⟩
    exacts [.inl ⟨e, he, h⟩, .inr ⟨e, he, h⟩]

theorem map_prodOf_pairs (f g : Nat → Val × Flags) (l : List Nat) :
    ((l.map f).zip (l.map g)).map (fun v => prodOf v.1.1 v.2.1) = l.map fun e => mulVal (f e).1 (g e).1 := by
  rw [List.zip_map', List.map_map]
  rfl

/-- R67: one dot product. -/
theorem macDot_eq_macfLane (n : CellIn) (i o : BitVec 1) (psum : BitVec 32) (a w : Token) :
    (macDot n.env (i == 1) (o == 1) psum a w fun e => a.valid.getLsbD e && w.valid.getLsbD e && !w.bub).1 =
      macfLane n i o psum a w := by
  have hdec : ∀ (t : Token) e, (decLane n.env (i == 1) t e).1 =
      (let v := (decodeElem t.tag.toNat t.exp n.env.remap (t.data.extractLsb' (32 * e) 32).toNat).1
       if i = 1 then flushIn t.tag.toNat v else v) := by
    intro t e
    simp only [decLane, beq_iff_eq]
    rfl
  simp only [macDot, macfLane, ← hdec, beq_iff_eq]
  generalize (if i = 1 then flushIn 0 (decodeFloat 0 psum.toNat) else decodeFloat 0 psum.toNat) = p
  cases p with
  | nan s sig pay => rfl
  | inf s | fin s m e =>
    dsimp only
    rw [any_isNaN_pairs, map_prodOf_pairs]
    split <;> rfl

/-- R13: a beat holds at most eight tokens. -/
theorem tokensOf_le (fmt : Nat) : tokensOf fmt ≤ 8 := by
  have h : 4 ≤ elemBits fmt := by
    unfold elemBits
    split <;> decide
  exact (Nat.div_le_div_left h (by decide)).trans (by decide)

/-- A mask of ones. -/
theorem ones_getLsbD (m k : Nat) : (BitVec.ofNat 16 (2 ^ m - 1)).getLsbD k = (decide (k < 16) && decide (k < m)) := by
  rw [BitVec.getLsbD_ofNat, Nat.testBit_two_pow_sub_one]

theorem getD_map_range {α : Type} (f : Nat → α) (d : α) {m l : Nat} (h : l < m) : ((List.range m).map f).getD l d = f l := by
  rw [List.getD_eq_getElem _ _ (by simpa using h), List.getElem_map, List.getElem_range]

section
variable (n : CellIn) (i o : BitVec 1) (f : BitVec 4) (a s : Beat) (w : Token)

/-- R192: the valid bits of the partial sums of MACF. -/
theorem macfOut_valid {l : Nat} (hl : l < 16) : (macfOut n.env (i == 1) (o == 1) f a s w).1.valid.getLsbD l =
    (decide (l < tokensOf f.toNat) && (psumToken s).valid.getLsbD l) := by
  refine (beatOf_zero_valid _ hl).trans ?_
  rw [BitVec.getLsbD_and, ones_getLsbD, decide_eq_true hl, Bool.true_and, Bool.and_comm]

/-- R67, R192: the partial sum of each row of the activation: as it was where the row is wholly invalid. -/
theorem macfOut_lane {l : Nat} (hl : l < tokensOf f.toNat) :
    fld (macfOut n.env (i == 1) (o == 1) f a s w).1.data (32 * l) 32 =
      if (a.tok f.toNat l).valid = 0 then (psumToken s).lane l
      else macfLane n i o ((psumToken s).lane l) (a.tok f.toNat l) w := by
  have hl' : l < 16 := lt_of_lt_of_le hl ((tokensOf_le _).trans (by decide))
  refine (beatOf_zero_lane _ hl').trans ((fld_lineOfLanes _ hl').trans ?_)
  rw [List.map_map, getD_map_range _ _ hl, Function.comp_apply, apply_ite Prod.fst, macDot_eq_macfLane]

end

end Sys2Proof.Laws
end

section
/-! PROOFS. MACB and MACP: the integer sums of a block of three cell rows and the beat that carries them (O47). -/

namespace Sys2Proof.Laws

open Sys2Proof Sys2Proof.Machine

/-! ### The integer sums of MACB and MACP -/

theorem signedOf_eq_toInt {w v : Nat} (hw : 0 < w) (x : BitVec w) (h : v % 2 ^ w = x.toNat) : signedOf w v = x.toInt := by
  have hp : 2 ^ w = 2 * 2 ^ (w - 1) := by rw [← Nat.pow_succ']; congr 1; omega
  rw [signedOf, h, BitVec.toInt_eq_toNat_cond]
  split <;> split <;> omega

/-- R193: the integer product sum of one row of the activation. -/
theorem macbSum_eq {aw : Nat} (ha : 0 < aw) (a : Beat) (q : Nat) (g : Nat → Int) :
    macbSum a aw q ((List.range 16).map g) =
      ((List.range 16).map fun e => (a.data.extractLsb' ((16 * q + e) * aw) aw).toInt * g e).sum := by
  have hz : (List.range 16).zip ((List.range 16).map g) = (List.range 16).map fun e => (e, g e) := by
    simpa using List.zip_map' (f := id) (g := g) (l := List.range 16)
  have hs : ∀ e, signedOf aw (fld a.data ((16 * q + e) * aw) aw).toNat = (a.data.extractLsb' ((16 * q + e) * aw) aw).toInt :=
    fun e => signedOf_eq_toInt ha _ (Nat.mod_eq_of_lt (BitVec.isLt _))
  simp only [macbSum, hz, List.foldl_map, hs, List.sum_eq_foldl]

/-- R193: the width of the weights of MACB, or with `mp` of MACP. -/
def blockWidth (mp : Bool) (w : Token) : Nat := if mp then 6 else if w.tag.toNat < 10 then 8 else bfpWidth w.tag.toNat

/-- R193: the weights of MACB are no BFP codes. -/
def notBfp (mp : Bool) (w : Token) : Bool := !mp && !w.bub && decide (w.tag.toNat < 10)

theorem bfpWidth_tag_le {t : BitVec 4} (h : ¬ t.toNat < 10) : 0 < bfpWidth t.toNat ∧ bfpWidth t.toNat ≤ 8 := by
  revert t
  decide

/-- R193: a weight counts where its lane is valid and its token no bubble. -/
theorem weight_gate (valid bub : Bool) (m : Int) : (if valid && !bub then m else 0) = if bub || !valid then 0 else m := by
  cases valid <;> cases bub <;> rfl

theorem macbWeights_fst (w : Token) (ww : Nat) : (macbWeights w ww).1 = (List.range 16).map fun e =>
    if w.bub || !w.valid.getLsbD e then 0 else signedOf ww ((w.lane e).toNat % 256) :=
  List.map_congr_left fun _ _ => weight_gate ..

/-- R193: a weight token whose tag is no BFP code has no weights. -/
theorem macWeight_of_tag_lt {w : Token} (h : w.tag.toNat < 10) (e : Nat) : macWeight false w e = 0 := by
  simp only [macWeight, h, if_true, Bool.false_eq_true, if_false, ite_self]

/-- R50: a BFP weight is the low bits of its container. -/
theorem macWeight_of_bfp {w : Token} (h : ¬ w.tag.toNat < 10) (e : Nat) : macWeight false w e =
    if w.bub || !w.valid.getLsbD e then 0 else signedOf (bfpWidth w.tag.toNat) ((w.lane e).toNat % 256) := by
  obtain ⟨h0, h8⟩ := bfpWidth_tag_le h
  have hm : (w.lane e).toNat % 256 % 2 ^ bfpWidth w.tag.toNat =
      ((w.data.extractLsb' (32 * e) 32).extractLsb' 0 (bfpWidth w.tag.toNat)).toNat := by
    rw [Nat.mod_mod_of_dvd _ (Nat.pow_dvd_pow 2 h8 : 2 ^ bfpWidth w.tag.toNat ∣ 2 ^ 8), BitVec.extractLsb'_toNat,
      Nat.shiftRight_zero]
    rfl
  rw [signedOf_eq_toInt h0 _ hm, macWeight, if_neg Bool.false_ne_true, if_neg h]

/-- R193: the weights that MACB multiplies by. -/
theorem macb_weights (w : Token) :
    (if notBfp false w then List.replicate 16 (0 : Int) else (macbWeights w (blockWidth false w)).1) =
      (List.range 16).map (macWeight false w) := by
  rw [macbWeights_fst]
  by_cases h : w.tag.toNat < 10
  · rw [List.map_congr_left fun e _ => macWeight_of_tag_lt h e]
    cases hb : w.bub <;> simp [notBfp, hb, h]
  · rw [List.map_congr_left fun e _ => macWeight_of_bfp h e]
    simp only [notBfp, blockWidth, h, decide_false, Bool.and_false, Bool.false_eq_true, if_false]

/-- R193: the cell of MACB, or with `mp` of MACP. -/
def blockBody (mp : Bool) (i o : BitVec 1) (f : BitVec 4) : CellIn → Beat → Beat → Token → Beat × Flags :=
  if mp then macpBody (i == 1) (o == 1) f else macbBody (i == 1) (o == 1) f

theorem exec_block (mp : Bool) (q : BitVec 3) (i o : BitVec 1) (f : BitVec 4) (x : BitVec 5) (s : State) :
    exec (if mp then .cellMacp q i o f x else .cellMacb q i o f x) s =
      cellRow 1 x (macCell (macUse q f x) (blockBody mp i o f)) s := by
  cases mp <;> rfl

/-- R193, R194: MACB and MACP differ in their weights. -/
theorem blockBody_fst (mp : Bool) (i o : BitVec 1) (f : BitVec 4) (n : CellIn) (a s : Beat) (w : Token) :
    (blockBody mp i o f n a s w).1 =
      (macbOut n (i == 1) (o == 1) f a s w ((List.range 16).map (macWeight mp w)) (blockWidth mp w) (notBfp mp w)).1 := by
  cases mp with
  | true =>
    have hw : ((List.range 16).map fun e => if w.valid.getLsbD e && !w.bub then sliceWeight w e else 0) =
        (List.range 16).map (macWeight true w) := List.map_congr_left fun _ _ => weight_gate ..
    exact congrArg (fun ms => (macbOut n (i == 1) (o == 1) f a s w ms 6 false).1) hw
  | false =>
    have ht : decide (10 ≤ w.tag.toNat) = !decide (w.tag.toNat < 10) := by rw [← decide_not, decide_eq_decide]; omega
    rw [← macb_weights]
    simp only [blockBody, macbBody, ht, notBfp, blockWidth, Bool.not_not, Bool.not_false, Bool.true_and, Bool.false_eq_true, if_false,
      apply_ite Prod.fst, Bool.not_eq_true', decide_eq_false_iff_not, ite_not]

/-! ### Blocks of three cell rows (R68) -/

/-- A beat that carries a partial sum in lane q and the block state in lane 8 + q for each row of the activation. -/
def blockBeat (rows : Nat) (ew : BitVec 8) (one : Nat → BitVec 32 × BitVec 32) : Beat :=
  let v := BitVec.ofNat 16 (2 ^ rows - 1)
  beatOf 0 [⟨lineOfLanes ((List.range rows).map (fun q => (one q).1) ++ List.replicate (8 - rows) 0 ++
    (List.range rows).map fun q => (one q).2), 0, ew, false, v ||| (v <<< 8), 0⟩]

section
variable {rows r : Nat} (ew : BitVec 8) (one : Nat → BitVec 32 × BitVec 32)

theorem blockBeat_exps : fld (blockBeat rows ew one).exps 0 8 = ew := beatOf_zero_exps _

theorem blockBeat_valid (hr : r < 8) : (blockBeat rows ew one).valid.getLsbD r = decide (r < rows) := by
  have hr' : r < 16 := by omega
  refine (beatOf_zero_valid _ hr').trans ?_
  rw [BitVec.getLsbD_or, BitVec.getLsbD_shiftLeft, ones_getLsbD]
  simp [hr, hr']

theorem blockBeat_valid_high (h8 : rows ≤ 8) (hr : r < 8) : (blockBeat rows ew one).valid.getLsbD (8 + r) = decide (r < rows) := by
  have hr' : 8 + r < 16 := by omega
  have hn : ¬ 8 + r < rows := by omega
  refine (beatOf_zero_valid _ hr').trans ?_
  rw [BitVec.getLsbD_or, BitVec.getLsbD_shiftLeft, ones_getLsbD, ones_getLsbD, Nat.add_sub_cancel_left]
  simp [hn, hr']
  omega

theorem blockBeat_lane (h8 : rows ≤ 8) (hr : r < rows) : fld (blockBeat rows ew one).data (32 * r) 32 = (one r).1 := by
  have hr' : r < 16 := by omega
  refine (beatOf_zero_lane _ hr').trans ((fld_lineOfLanes _ hr').trans ?_)
  rw [List.append_assoc, List.getD_append _ _ _ _ (by simpa using hr), getD_map_range _ _ hr]

theorem blockBeat_lane_high (h8 : rows ≤ 8) (hr : r < rows) : fld (blockBeat rows ew one).data (32 * (8 + r)) 32 = (one r).2 := by
  have hr' : 8 + r < 16 := by omega
  have hl : ((List.range rows).map (fun q => (one q).1) ++ List.replicate (8 - rows) 0).length = 8 := by simp; omega
  refine (beatOf_zero_lane _ hr').trans ((fld_lineOfLanes _ hr').trans ?_)
  rw [List.getD_append_right _ _ _ _ (by omega), hl, Nat.add_sub_cancel_left, getD_map_range _ _ hr]

end

section
variable (n : CellIn) (fi fo : Bool) (a s : Beat) (w : Token) (aw : Nat) (ms : List Int) (ww : Nat) (bad : Bool) (q : Nat)

/-- R193: the weight exponent of a block, which its first row sets. -/
def blockExpW : BitVec 8 := if n.i % 3 = 0 then w.exp else psumExp s

/-- R193: the activation exponent of a block, which its first row sets. -/
def blockExpA : BitVec 8 := if n.i % 3 = 0 then fld a.data (256 + 8 * q) 8 else fld ((psumToken s).lane (8 + q)) 24 8

/-- R68: the integer sum of a block so far. -/
def blockInt : Int :=
  if n.i % 3 = 0 then macbSum a aw q ms else (fld ((psumToken s).lane (8 + q)) 0 24).toInt + macbSum a aw q ms

/-- R68, R193: what a cell makes of row q of the activation: the partial sum and the block state, which the third row rounds into
the partial sum. -/
def blockLanes : BitVec 32 × BitVec 32 :=
  if n.i % 3 = 2 then
    (if bad then BitVec.ofNat 32 (defaultNaN 0)
      else (blockPsum fi fo ((psumToken s).lane q) (blockInt n a s aw ms q) (blockExpA n a s q) (blockExpW n s w) aw ww).1, 0)
  else
    (if bad then BitVec.ofNat 32 (defaultNaN 0) else (quietPsum ((psumToken s).lane q)).1,
      blockExpA n a s q ++ BitVec.ofInt 24 (blockInt n a s aw ms q))

variable {n bad}

theorem blockLanes_of_bad (h : bad = true) :
    (blockLanes n fi fo a s w aw ms ww bad q).1 = BitVec.ofNat 32 (defaultNaN 0) := by
  subst h
  unfold blockLanes
  split <;> rfl

theorem blockLanes_of_third_bfp (h2 : n.i % 3 = 2) (h : bad = false) : (blockLanes n fi fo a s w aw ms ww bad q).1 =
    (blockPsum fi fo ((psumToken s).lane q) (blockInt n a s aw ms q) (blockExpA n a s q) (blockExpW n s w) aw ww).1 := by
  rw [blockLanes, if_pos h2, h]
  rfl

theorem blockLanes_state_of_third (h2 : n.i % 3 = 2) : (blockLanes n fi fo a s w aw ms ww bad q).2 = 0 := by
  rw [blockLanes, if_pos h2]

theorem blockLanes_of_not_third_bfp (h2 : n.i % 3 ≠ 2) (h : bad = false) :
    (blockLanes n fi fo a s w aw ms ww bad q).1 = (quietPsum ((psumToken s).lane q)).1 := by
  rw [blockLanes, if_neg h2, h]
  rfl

theorem blockLanes_state_of_not_third (h2 : n.i % 3 ≠ 2) :
    (blockLanes n fi fo a s w aw ms ww bad q).2 = blockExpA n a s q ++ BitVec.ofInt 24 (blockInt n a s aw ms q) := by
  rw [blockLanes, if_neg h2]

variable (n bad)

theorem macbOut_fst (f : BitVec 4) : (macbOut n fi fo f a s w ms ww bad).1 =
    blockBeat (16 / bfpWidth f.toNat) (blockExpW n s w) (blockLanes n fi fo a s w (bfpWidth f.toNat) ms ww bad) := by
  simp only [macbOut, blockBeat, blockLanes, blockInt, blockExpA, blockExpW, List.map_map, Function.comp_def, beq_iff_eq,
    apply_ite Prod.fst, apply_ite Prod.snd]

end
/-- R193: a partial sum that is no NaN passes unchanged. -/
theorem quietPsum_of_not_nan {v : BitVec 32} (h : (decodeFloat 0 v.toNat).isNaN = false) : (quietPsum v).1 = v := by
  unfold quietPsum
  split
  · next hd => simp [hd, Val.isNaN] at h
  · rfl

end Sys2Proof.Laws
end

section
/-! PROOFS. VHIST of cells, and the rows that accumulate, settled together (O47). -/

namespace Sys2Proof.Laws

open Sys2Proof Sys2Proof.Machine

/-! ### VHIST -/

theorem histBins_length (bins : List Token) (a b : Token) (mask : BitVec 16) : (histBins bins a b mask).length = bins.length := by
  unfold histBins
  split <;> simp

/-- R148: the lanes of bin j after VHIST. -/
theorem histBins_lane {bins : List Token} {j : Nat} (hj : j < bins.length) (a b d : Token) {l : Nat} (hl : l < 16) :
    ((histBins bins a b 0xFFFF).getD j d).lane l =
      if a.bub = false ∧ b.bub = false ∧ a.valid.getLsbD l = true ∧ b.valid.getLsbD l = true ∧ (a.lane l).toNat = j then
        (bins.getD j d).lane l + b.lane l
      else (bins.getD j d).lane l := by
  by_cases hb : (a.bub || b.bub) = true
  · have hn : ¬ (a.bub = false ∧ b.bub = false) := fun h => by simp [h] at hb
    rw [histBins, if_pos hb, if_neg fun h => hn ⟨h.1, h.2.1⟩]
  · have hm : (0xFFFF#16).getLsbD l = true := by interval_cases l <;> rfl
    have hz : j < (histBins bins a b 0xFFFF).length := by rwa [histBins_length]
    obtain ⟨ha, hb'⟩ : a.bub = false ∧ b.bub = false := by simpa using hb
    rw [List.getD_eq_getElem _ _ hz, List.getD_eq_getElem _ _ hj]
    simp only [histBins, hb, Bool.false_eq_true, if_false, List.getElem_zipWith, List.getElem_range]
    rw [Token.lane, fld_lineOfLanes_range _ hl]
    simp [laneActive, hm, ha, hb', and_assoc]

/-- The headers of a beat: its tag and its bubble flag. -/
def headOf (b : Beat) : BitVec 4 × Bool := (b.tag, b.bub)

theorem headOf_putBin (b : Beat) (q : Nat) (t : Token) : headOf (putBin b q t) = headOf b := by
  unfold putBin
  split <;> rfl

/-- R148: the bins after the first token positions of a row of VHIST. -/
def histAfter (u : RowUse) (n : CellIn) : List Beat :=
  let bins := n.cell.c.toList.drop u.d.toNat
  (List.range (tokensOf u.f.toNat)).foldl (fun (bs : List Beat) q =>
    bs.zipWith (fun x t => putBin x q t) (histBins (bins.map fun x => x.tok x.tag.toNat q)
      ((n.operand u u.a).tok u.f.toNat q) ((n.operand u u.b).tok u.f.toNat q) 0xFFFF)) bins

theorem histCell_eq (u : RowUse) (n : CellIn) : histCell u n =
    ⟨((List.range (histAfter u n).length).zip (histAfter u n)).map fun x => (BitVec.ofNat 3 (u.d.toNat + x.1), x.2, n.allow u),
      none, n.gens, 0, none⟩ := rfl

theorem map_headOf_zipWith_putBin {bs : List Beat} {ts : List Token} (h : ts.length = bs.length) (q : Nat) :
    (bs.zipWith (fun x t => putBin x q t) ts).map headOf = bs.map headOf := by
  refine List.ext_getElem (by simp [h]) fun j h1 h2 => ?_
  rw [List.getElem_map, List.getElem_map, List.getElem_zipWith, headOf_putBin]

/-- R148: VHIST changes the header of no bin. -/
theorem histAfter_heads (u : RowUse) (n : CellIn) :
    (histAfter u n).map headOf = (n.cell.c.toList.drop u.d.toNat).map headOf := by
  refine List.foldlRecOn (motive := fun bs : List Beat => bs.map headOf = (n.cell.c.toList.drop u.d.toNat).map headOf) _ _ rfl
    fun bs hbs q _ => ?_
  have hl : bs.length = (n.cell.c.toList.drop u.d.toNat).length := by simpa using congrArg List.length hbs
  rw [map_headOf_zipWith_putBin (by rw [histBins_length, List.length_map, hl]), hbs]

theorem histAfter_length (u : RowUse) (n : CellIn) : (histAfter u n).length = 4 - u.d.toNat := by
  simpa using congrArg List.length (histAfter_heads u n)

/-- R148: a row of VHIST in INT32 has one token position. -/
theorem histAfter_of_int32 {u : RowUse} (h : u.f = 9) (n : CellIn) : histAfter u n =
    let bins := n.cell.c.toList.drop u.d.toNat
    bins.zipWith (fun x t => putBin x 0 t) (histBins (bins.map fun x => x.tok x.tag.toNat 0)
      ((n.operand u u.a).tok 9 0) ((n.operand u u.b).tok 9 0) 0xFFFF) := by
  rw [histAfter, h]
  rfl

theorem putBin_lane {b : Beat} (h : b.tag = 9) (t : Token) {l : Nat} (hl : l < 16) :
    fld (putBin b 0 t).data (32 * l) 32 = t.lane l := by
  have hp : putBin b 0 t = b.putTok 9 0 t := by
    rw [putBin, h]
    rfl
  rw [hp, putTok_lane rfl b t hl]

theorem histAfter_getD_head (u : RowUse) (n : CellIn) (j : Nat) :
    headOf ((histAfter u n).getD j Beat.bubble) = headOf (n.cell.c.toList.getD (u.d.toNat + j) Beat.bubble) := by
  have h := congrArg (fun l => l.getD j (headOf Beat.bubble)) (histAfter_heads u n)
  simp only [List.getD_map] at h
  rw [h]
  simp

/-- R148: the lanes of bin c_(d + j) after a row of VHIST in INT32. -/
theorem histAfter_lane {u : RowUse} (hf : u.f = 9) (n : CellIn) {j : Nat} (hj : u.d.toNat + j < 4)
    (ht : (n.cell.c.toList.getD (u.d.toNat + j) Beat.bubble).tag = 9) {l : Nat} (hl : l < 16) :
    let old := n.cell.c.toList.getD (u.d.toNat + j) Beat.bubble
    let ta := (n.operand u u.a).tok 9 0
    let tb := (n.operand u u.b).tok 9 0
    fld ((histAfter u n).getD j Beat.bubble).data (32 * l) 32 =
      if ta.bub = false ∧ tb.bub = false ∧ ta.valid.getLsbD l = true ∧ tb.valid.getLsbD l = true ∧ (ta.lane l).toNat = j then
        fld old.data (32 * l) 32 + tb.lane l
      else fld old.data (32 * l) 32 := by
  intro old ta tb
  let bins := n.cell.c.toList.drop u.d.toNat
  let ts := bins.map fun x => x.tok x.tag.toNat 0
  have hbin : j < bins.length := by simp [bins]; omega
  have hts : j < ts.length := by rwa [List.length_map]
  have hold : bins[j] = old := by
    rw [← List.getD_eq_getElem _ Beat.bubble hbin, List.getD_eq_getElem?_getD, List.getElem?_drop, ← List.getD_eq_getElem?_getD]
  have hafter : (histAfter u n).getD j Beat.bubble = putBin old 0 ((histBins ts ta tb 0xFFFF).getD j Token.reset) := by
    have hh : j < (histBins ts ta tb 0xFFFF).length := by rwa [histBins_length]
    rw [histAfter_of_int32 hf, List.getD_eq_getElem _ _ (by rw [List.length_zipWith]; exact lt_min hbin hh), List.getElem_zipWith,
      List.getD_eq_getElem _ _ hh, ← hold]
  have htok : (ts.getD j Token.reset).lane l = fld old.data (32 * l) 32 := by
    rw [List.getD_eq_getElem _ _ hts, List.getElem_map, hold, ht]
    exact tok_lane_of_int32 ht hl
  rw [hafter, putBin_lane ht _ hl, histBins_lane hts _ _ _ hl, htok]

/-- R148, R188: what a row of VHIST leaves. -/
theorem cellRow_hist (u : RowUse) (s : State) : cellRow 2 u.x (histCell u) s = .next { s with region := { s.region with
    landings := s.region.landings ++ s.region.cfg.cells.flatMap fun p => (List.range (4 - u.d.toNat)).map fun j =>
      ⟨p.1, p.2, BitVec.ofNat 3 (u.d.toNat + j), s.graph.slotNo + 1, (histAfter u (s.cellIn p)).getD j Beat.bubble,
        (s.cellIn p).allow u⟩ } } := by
  have hl : ∀ p, (histCell u (s.cellIn p)).landings p (s.graph.slotNo + 2 - 1) = (List.range (4 - u.d.toNat)).map fun j =>
      ⟨p.1, p.2, BitVec.ofNat 3 (u.d.toNat + j), s.graph.slotNo + 1, (histAfter u (s.cellIn p)).getD j Beat.bubble,
        (s.cellIn p).allow u⟩ := by
    intro p
    have hz : (List.range (histAfter u (s.cellIn p)).length).zip (histAfter u (s.cellIn p)) =
        (List.range (4 - u.d.toNat)).map fun j => (j, (histAfter u (s.cellIn p)).getD j Beat.bubble) := by
      refine List.ext_getElem (by simp [histAfter_length]) fun j h1 h2 => ?_
      have hj : j < (histAfter u (s.cellIn p)).length := by simpa using h1
      rw [List.getElem_zip, List.getElem_map, List.getElem_range, List.getElem_range, List.getD_eq_getElem _ _ hj]
    rw [CellOut.landings, histCell_eq, hz, List.map_map, List.map_map]
    rfl
  have hr := takeCells_eq s.graph.slotNo 2 (fun p => histCell u (s.cellIn p)) s.region.cfg.cells s.region
  rw [takeCells_gens_of_eq fun _ _ => rfl, takeCells_flags_of_zero fun _ _ => rfl] at hr
  simp only [hl] at hr
  rw [cellRow, rowState_of_no_ovf (fun _ _ => rfl) fun _ => rfl, hr]

/-- Settles O47: a row of each kind by the beats that its cells send. -/
theorem cellSums : Obligations.CellSums := by
  refine ⟨?macf, ?block, ?vhist⟩
  case macf =>
    intro q i o f x s
    obtain ⟨t, ht, hm⟩ := macResult_cellRow q f x (fun n a p w => macfOut n.env (i == 1) (o == 1) f a p w) s
    refine ⟨_, t, (exec_cellMacf q i o f x s).trans ht, hm, fun n => ⟨fun hb => macBeat_of_bubble hb x _, fun hb => ?_⟩⟩
    rw [macBeat_of_live hb]
    exact ⟨rfl, rfl, fun l hl => ⟨macfOut_valid n i o f _ _ _ hl, fun hp => macfOut_lane n i o f _ _ _ hp⟩⟩
  case block =>
    intro mp q i o f x s hf
    obtain ⟨t, ht, hm⟩ := macResult_cellRow q f x (blockBody mp i o f) s
    refine ⟨_, t, (exec_block mp q i o f x s).trans ht, hm, fun n => ⟨fun hb => macBeat_of_bubble hb x _, fun hb => ?_⟩⟩
    obtain ⟨ha, h8⟩ : 0 < bfpWidth f.toNat ∧ 16 / bfpWidth f.toNat ≤ 8 := by
      obtain rfl | rfl | rfl := hf <;> decide
    rw [macBeat_of_live hb, blockBody_fst, macbOut_fst]
    refine ⟨rfl, rfl, blockBeat_exps _ _,
      fun r hr => ⟨blockBeat_valid _ _ hr, blockBeat_valid_high _ _ h8 hr, fun hrow => ?_⟩⟩
    refine ⟨fun hbad => ?invalid, fun h2 => ⟨?zero, fun hbad => ?rounds⟩, fun h2 => ⟨?state, fun hbad hnan => ?passes⟩⟩
    case invalid => exact (blockBeat_lane _ _ h8 hrow).trans (blockLanes_of_bad (h := hbad) ..)
    case zero => exact (blockBeat_lane_high _ _ h8 hrow).trans (blockLanes_state_of_third (h2 := h2) ..)
    case rounds =>
      refine (blockBeat_lane _ _ h8 hrow).trans ((blockLanes_of_third_bfp (h2 := h2) (h := hbad) ..).trans ?_)
      rw [blockInt, macbSum_eq ha]
      rfl
    case state =>
      refine (blockBeat_lane_high _ _ h8 hrow).trans ((blockLanes_state_of_not_third (h2 := h2) ..).trans ?_)
      rw [blockInt, macbSum_eq ha]
      rfl
    case passes =>
      exact (blockBeat_lane _ _ h8 hrow).trans
        ((blockLanes_of_not_third_bfp (h2 := h2) (h := hbad) ..).trans (quietPsum_of_not_nan hnan))
  case vhist =>
    intro d a b c q i o f x s u
    refine ⟨fun n j => (histAfter u n).getD j Beat.bubble, _, cellRow_hist u s, rfl, fun n j hj => ?_⟩
    obtain ⟨ht, hb⟩ := Prod.mk.inj (histAfter_getD_head u n j)
    exact ⟨ht, hb, fun hf h9 l hl => histAfter_lane hf n hj h9 hl⟩

end Sys2Proof.Laws
end

section
/-! PROOFS. The lanes of a token operation (R56, R119, R120): the token that it builds, and its run over the active lanes. -/

namespace Sys2Proof.Laws

open Sys2Proof Sys2Proof.Machine

/-! ### Bits -/

theorem setBit_getLsbD {n : Nat} (v : BitVec n) {k : Nat} (hk : k < n) (b : Bool) (j : Nat) :
    (setBit v k b).getLsbD j = if j = k then b else v.getLsbD j := by
  by_cases hj : j < n
  · have h1 : (1#n <<< k).getLsbD j = decide (j = k) := by
      by_cases h : j < k
      · have hne : j ≠ k := by omega
        simp [h, hne]
      · have he : decide (j - k = 0) = decide (j = k) := by rw [decide_eq_decide]; omega
        simp [hj, h, he]
    unfold setBit
    split
    · next h =>
      rw [BitVec.getLsbD_or, h1, h]
      split <;> simp [*]
    · next h =>
      rw [BitVec.getLsbD_and, BitVec.getLsbD_not, h1, Bool.eq_false_iff.2 h]
      split <;> simp [*]
  · have hne : j ≠ k := by omega
    rw [if_neg hne, BitVec.getLsbD_of_ge _ _ (by omega), BitVec.getLsbD_of_ge _ _ (by omega)]

/-! ### The generators (R56) -/

theorem gens_at_of_lt (gs : Gens) {l : Nat} (hl : l < 16) : gs.at l = gs[l] := by
  rw [Gens.at, List.getD_eq_getElem _ _ (by simpa using hl), Vector.getElem_toList]

/-- R56: a lane that rounds under RSR steps its own generator. -/
theorem gens_put_at (gs : Gens) (rm : Rounding) {l : Nat} (hl : l < 16) (step : Bool) {j : Nat} (hj : j < 16) :
    (gs.put rm l step).at j = if j = l ∧ step = true ∧ rm = .rsr then stepGen (gs.at j) else gs.at j := by
  unfold Gens.put
  by_cases hs : step = true ∧ rm = .rsr
  · have hc : (step && rm == .rsr) = true := by simp [hs]
    rw [if_pos hc, setIfInBounds_of_lt gs hl, gens_at_of_lt _ hj, gens_at_of_lt _ hj, Vector.getElem_set]
    by_cases hjl : j = l
    · subst hjl
      rw [if_pos rfl, if_pos ⟨rfl, hs⟩, gens_at_of_lt _ hj]
    · rw [if_neg (Ne.symm hjl), if_neg fun h => hjl h.1]
  · have hc : ¬ (step && rm == .rsr) = true := by simpa using hs
    rw [if_neg hc, if_neg fun h => hs h.2]

theorem gens_put_of_not_step {gs : Gens} {rm : Rounding} {l : Nat} {step : Bool} (h : step = false ∨ rm ≠ .rsr) :
    gs.put rm l step = gs := by
  refine if_neg fun hc => ?_
  obtain ⟨h1, h2⟩ := Bool.and_eq_true_iff.1 hc
  exact h.elim (fun h => Bool.false_ne_true (h ▸ h1)) fun h => h (eq_of_beq h2)

/-! ### The run over the active lanes -/

/-- R56, R119: what lane l adds to a run. -/
def laneStep (rm : Rounding) (act : Nat → Bool) (f : Nat → BitVec 32 → LaneOut) (acc : LaneAcc) (l : Nat) : LaneAcc :=
  if act l then
    let r := f l (stepGen (acc.gens.at l))
    ⟨acc.out ++ [some r.bits], acc.gens.put rm l r.step, acc.flags ||| r.flags,
      if r.trap then setBit acc.ovf l true else acc.ovf⟩
  else { acc with out := acc.out ++ [none] }

theorem runLanes_eq_foldl (rm : Rounding) (gens : Gens) (act : Nat → Bool) (f : Nat → BitVec 32 → LaneOut) :
    runLanes rm gens act f = (List.range 16).foldl (laneStep rm act f) ⟨[], gens, 0, 0⟩ := rfl

section
variable (rm : Rounding) (gens : Gens) (act : Nat → Bool) (f : Nat → BitVec 32 → LaneOut)

/-- The outcome of a lane. Each lane finds its own generator as it was before the run. -/
def laneOut (l : Nat) : Option (BitVec 32) := if act l then some (f l (stepGen (gens.at l))).bits else none

/-- The generator of a lane after its turn. -/
def laneGen (l : Nat) : BitVec 32 :=
  if act l = true ∧ (f l (stepGen (gens.at l))).step = true ∧ rm = .rsr then stepGen (gens.at l) else gens.at l

/-- The lanes below `n` have had their turn. -/
theorem foldl_laneStep {n : Nat} (hn : n ≤ 16) :
    let acc := (List.range n).foldl (laneStep rm act f) ⟨[], gens, 0, 0⟩
    acc.out = (List.range n).map (laneOut gens act f) ∧
      ∀ l, l < 16 → acc.gens.at l = if l < n then laneGen rm gens act f l else gens.at l := by
  induction n with
  | zero => exact ⟨rfl, fun _ _ => rfl⟩
  | succ n ih =>
    obtain ⟨ho, hg⟩ := ih (by omega)
    have hgn := hg n (by omega)
    rw [if_neg (Nat.lt_irrefl n)] at hgn
    simp only [List.range_succ, List.foldl_append, List.foldl_cons, List.foldl_nil, List.map_append, List.map_cons, List.map_nil]
    generalize (List.range n).foldl (laneStep rm act f) ⟨[], gens, 0, 0⟩ = acc at ho hg hgn
    by_cases ha : act n = true
    · simp only [laneStep, ha, if_true, ho, hgn, laneOut]
      refine ⟨trivial, fun l hl => ?_⟩
      rw [gens_put_at _ _ (by omega) _ hl]
      by_cases hln : l = n
      · subst hln
        simp only [hgn, laneGen, ha, true_and, Nat.lt_succ_self, if_true]
      · have hlt : l < n + 1 ↔ l < n := by omega
        simp only [hln, false_and, if_false, hlt, hg l hl]
    · simp only [laneStep, ha, Bool.false_eq_true, if_false, ho, laneOut]
      refine ⟨trivial, fun l hl => ?_⟩
      rw [hg l hl]
      by_cases hln : l = n
      · subst hln
        simp [laneGen, ha]
      · have hlt : l < n + 1 ↔ l < n := by omega
        simp only [hlt]

theorem runLanes_out {l : Nat} (hl : l < 16) : (runLanes rm gens act f).out.getD l none = laneOut gens act f l := by
  rw [runLanes_eq_foldl, (foldl_laneStep rm gens act f (Nat.le_refl 16)).1, getD_map_range _ _ hl]

theorem runLanes_gens_at {l : Nat} (hl : l < 16) : (runLanes rm gens act f).gens.at l = laneGen rm gens act f l := by
  rw [runLanes_eq_foldl, (foldl_laneStep rm gens act f (Nat.le_refl 16)).2 l hl, if_pos hl]

variable {rm f}

/-- R56: outside RSR, and where no lane rounds, no generator steps. -/
theorem runLanes_gens_of_not_step (h : ∀ l g, (f l g).step = false ∨ rm ≠ .rsr) : (runLanes rm gens act f).gens = gens := by
  rw [runLanes_eq_foldl]
  refine List.foldlRecOn (motive := fun acc : LaneAcc => acc.gens = gens) _ _ rfl fun acc hacc l _ => ?_
  unfold laneStep
  split
  · exact (gens_put_of_not_step (h l _)).trans hacc
  · exact hacc

theorem runLanes_flags_of_zero (h : ∀ l g, (f l g).flags = 0) : (runLanes rm gens act f).flags = 0 := by
  rw [runLanes_eq_foldl]
  refine List.foldlRecOn (motive := fun acc : LaneAcc => acc.flags = 0) _ _ rfl fun acc hacc l _ => ?_
  unfold laneStep
  split
  · simp only [h, hacc]
    rfl
  · exact hacc

end

/-! ### The token that an operation builds (R119, R120) -/

/-- R119, R120: valid or predicate bits, of which the inactive lanes are clear or with k those of the old token. -/
theorem mergeBits_getLsbD (new old : BitVec 16) (k : Bool) (act : Nat → Bool) {l : Nat} (hl : l < 16) :
    ((new &&& maskOf 16 act) ||| (old &&& (if k then ~~~ maskOf 16 act else 0))).getLsbD l =
      if act l then new.getLsbD l else k && old.getLsbD l := by
  have hm : (maskOf 16 act).getLsbD l = act l := by rw [maskOf_bit, decide_eq_true hl, Bool.true_and]
  rw [BitVec.getLsbD_or, BitVec.getLsbD_and, BitVec.getLsbD_and, hm]
  cases k with
  | false => cases act l <;> simp
  | true =>
    rw [if_pos rfl, BitVec.getLsbD_not, hm]
    cases act l <;> simp [hl]

section
variable (old : Token) (tag : BitVec 4) (exp : BitVec 8) {out : List (Option (BitVec 32))} (valid pred : BitVec 16) {l : Nat}

theorem buildToken_lane (k : Bool) (hl : l < 16) : (buildToken old k tag exp out valid pred).lane l =
    (out.getD l none).getD (if k then old.lane l else 0) := by
  rw [buildToken, Token.lane, fld_lineOfLanes_range _ hl]
  cases out.getD l none <;> rfl

theorem buildToken_valid (k : Bool) (hl : l < 16) : (buildToken old k tag exp out valid pred).valid.getLsbD l =
    if (out.getD l none).isSome then valid.getLsbD l else k && old.valid.getLsbD l := mergeBits_getLsbD _ _ _ _ hl

theorem buildToken_pred (k : Bool) (hl : l < 16) : (buildToken old k tag exp out valid pred).pred.getLsbD l =
    if (out.getD l none).isSome then pred.getLsbD l else k && old.pred.getLsbD l := mergeBits_getLsbD _ _ _ _ hl

/-- R119: an active lane takes its value, and its valid and predicate bits. -/
theorem buildToken_active (k : Bool) {v : BitVec 32} (hl : l < 16) (h : out.getD l none = some v) :
    let t := buildToken old k tag exp out valid pred
    t.lane l = v ∧ t.valid.getLsbD l = valid.getLsbD l ∧ t.pred.getLsbD l = pred.getLsbD l := by
  dsimp only
  rw [buildToken_lane _ _ _ _ _ _ hl, buildToken_valid _ _ _ _ _ _ hl, buildToken_pred _ _ _ _ _ _ hl, h]
  exact ⟨rfl, rfl, rfl⟩

/-- R120: an inactive lane reads 0 and invalid, or with k stays as it was. -/
theorem buildToken_inactive (k : BitVec 1) (hl : l < 16) (h : out.getD l none = none) :
    let t := buildToken old (k == 1) tag exp out valid pred
    if k = 0 then t.lane l = 0 ∧ t.valid.getLsbD l = false ∧ t.pred.getLsbD l = false
    else t.lane l = old.lane l ∧ t.valid.getLsbD l = old.valid.getLsbD l ∧ t.pred.getLsbD l = old.pred.getLsbD l := by
  dsimp only
  rw [buildToken_lane _ _ _ _ _ _ hl, buildToken_valid _ _ _ _ _ _ hl, buildToken_pred _ _ _ _ _ _ hl, h]
  obtain rfl | rfl : k = 0 ∨ k = 1 := by bv_omega
  all_goals exact ⟨rfl, rfl, rfl⟩

end

theorem ones16_getLsbD {l : Nat} (hl : l < 16) : (0xFFFF : BitVec 16).getLsbD l = true := by
  interval_cases l <;> rfl

/-- R119, R120: a token built with every active lane valid and the predicate bits of operand a. -/
theorem buildToken_laneResult {out : List (Option (BitVec 32))} {active : Nat → Bool} {val : Nat → BitVec 32}
    (h : ∀ l, l < 16 → out.getD l none = if active l then some (val l) else none) (old a : Token) (k : BitVec 1) (tag : BitVec 4)
    (exp : BitVec 8) : LaneResult old a (buildToken old (k == 1) tag exp out 0xFFFF a.pred) k active val := by
  refine ⟨rfl, fun l hl => ?_⟩
  have hl' := h l hl
  split
  · next ha =>
    rw [if_pos ha] at hl'
    obtain ⟨hd, hv, hp⟩ := buildToken_active old tag exp 0xFFFF a.pred (k == 1) hl hl'
    exact ⟨hd, hv.trans (ones16_getLsbD hl), hp⟩
  · next ha =>
    rw [if_neg ha] at hl'
    exact buildToken_inactive old tag exp 0xFFFF a.pred k hl hl'

/-! ### Operations lane by lane -/

/-- R120: the destination of a bubble. -/
theorem bubbleDest_eq_bubbled (old : Token) (k : BitVec 1) (tag : BitVec 4) : bubbleDest old (k == 1) tag = bubbled old k tag := by
  obtain rfl | rfl : k = 0 ∨ k = 1 := by bv_omega
  all_goals rfl

section
variable {rm : Rounding} {gens : Gens} {old a : Token} {k : BitVec 1} {mask : BitVec 16} {srcs : List Token} {tag : BitVec 4}
  {f : Nat → BitVec 32 → LaneOut}

theorem laneOp_of_bubble (h : ∃ t ∈ srcs, t.bub = true) :
    laneOp rm gens old a (k == 1) mask srcs tag f = ⟨bubbled old k tag, gens, 0, 0⟩ := by
  rw [laneOp, if_pos (List.any_eq_true.2 h), bubbleDest_eq_bubbled]

theorem laneOp_of_live (h : ∀ t ∈ srcs, t.bub = false) : laneOp rm gens old a (k == 1) mask srcs tag f =
    let r := runLanes rm gens (laneActive mask srcs) f
    ⟨buildToken old (k == 1) tag a.exp r.out 0xFFFF a.pred, r.gens, r.flags, r.ovf⟩ :=
  if_neg fun hb => by
    obtain ⟨t, ht, hb⟩ := List.any_eq_true.1 hb
    exact Bool.false_ne_true ((h t ht).symm.trans hb)

/-- R119, R120: each active lane takes the outcome of its element and of its own generator. -/
theorem laneOp_laneResult (h : ∀ t ∈ srcs, t.bub = false) {active : Nat → Bool} (ha : laneActive mask srcs = active)
    {val : Nat → BitVec 32} (hv : ∀ l, (f l (stepGen (gens.at l))).bits = val l) :
    LaneResult old a (laneOp rm gens old a (k == 1) mask srcs tag f).tok k active val := by
  subst ha
  rw [laneOp_of_live h]
  refine buildToken_laneResult (fun l hl => ?_) old a k tag a.exp
  rw [runLanes_out _ _ _ _ hl, laneOut, hv]

theorem laneOp_tag_exp (h : ∀ t ∈ srcs, t.bub = false) : (laneOp rm gens old a (k == 1) mask srcs tag f).tok.tag = tag ∧
    (laneOp rm gens old a (k == 1) mask srcs tag f).tok.exp = a.exp := by
  rw [laneOp_of_live h]
  exact ⟨rfl, rfl⟩

/-- R56: where every active lane rounds, the generators of the active lanes step under RSR. -/
theorem laneOp_gens_at (h : ∀ t ∈ srcs, t.bub = false) (hs : ∀ l g, (f l g).step = true) {l : Nat} (hl : l < 16) :
    (laneOp rm gens old a (k == 1) mask srcs tag f).gens.at l =
      if laneActive mask srcs l = true ∧ rm = .rsr then stepGen (gens.at l) else gens.at l := by
  rw [laneOp_of_live h]
  refine (runLanes_gens_at _ _ _ _ hl).trans ?_
  simp only [laneGen, hs, true_and]

/-- R147: an operation that rounds nothing and raises no flag leaves generators and flags. -/
theorem laneOp_gens_flags_of_exact (hs : ∀ l g, (f l g).step = false) (hf : ∀ l g, (f l g).flags = 0) :
    (laneOp rm gens old a (k == 1) mask srcs tag f).gens = gens ∧ (laneOp rm gens old a (k == 1) mask srcs tag f).flags = 0 := by
  unfold laneOp
  split
  · exact ⟨rfl, rfl⟩
  · exact ⟨runLanes_gens_of_not_step _ _ fun l g => .inl (hs l g), runLanes_flags_of_zero _ _ hf⟩

end

/-! ### Retirement with a token -/

/-- An effect speaks of the core in focus alone. -/
theorem coreEffect_congr {cls : Fin 8} {f g : Core → Core} {s t : State} (h : CoreEffect cls f s t)
    (e : f s.tile.core = g s.tile.core) : CoreEffect cls g s t := by
  obtain ⟨h1, h2, h3⟩ := h
  exact ⟨h1, h2, h3.trans e⟩

/-- R119: a token instruction that raises no flag and steps no generator. -/
theorem tokSpec_effect_of_quiet {i : Instr} {cls d op} (h : tokSpec i = some (cls, d, op)) {s : State} (hc : CanRetire s)
    (hg : (op s.tile.core).gens = s.tile.core.rnd) (hf : (op s.tile.core).flags = 0) :
    ∃ t, exec i s = .next t ∧ CoreEffect cls (fun c => c.setT d (op s.tile.core).tok) s t := by
  obtain ⟨t, ht, he⟩ := tokenResults i cls d op s h hc
  refine ⟨t, ht, coreEffect_congr he ?_⟩
  simp only [hg, hf]
  rw [show s.tile.core.fstat ||| 0 = s.tile.core.fstat from BitVec.or_zero]
  rfl

theorem laneActive_map_eq_laneOn (c : Core) (m : BitVec 3) (rs : List (BitVec 5)) :
    laneActive (c.m m) (rs.map c.t) = laneOn c m rs := by
  funext l
  rw [laneActive, laneOn, List.all_map]
  rfl

end Sys2Proof.Laws
end

section
/-! PROOFS. The floating-point arithmetic of the rim core, lane by lane (O33). -/

namespace Sys2Proof.Laws

open Sys2Proof Sys2Proof.Machine

/-- R123: the operation of a form on the tokens of a core. -/
def arithTok (op : Arith) (x : ArithForm) (c : Core) : TokOut :=
  tokArith c.env c.rnd op (c.t x.d) (c.t x.a) (c.t x.b) ((x.c.map c.t).getD Token.reset) (c.m x.m) (x.i == 1) (x.o == 1) (x.k == 1)

/-- R123: each form is a token instruction with its operation. -/
theorem tokSpec_of_arithSpec {i : Instr} {x : ArithForm} (h : arithSpec i = some x) :
    ∃ op, tokSpec i = some (2, x.d, arithTok op x) ∧ op.three = x.c.isSome ∧ ∀ rm u v w, arithOutc rm op u v w = x.f rm u v w := by
  cases i
  case vadd => cases h; exact ⟨.add, rfl, rfl, fun _ _ _ _ => rfl⟩
  case vsub => cases h; exact ⟨.sub, rfl, rfl, fun _ _ _ _ => rfl⟩
  case vmul => cases h; exact ⟨.mul, rfl, rfl, fun _ _ _ _ => rfl⟩
  case vfma => cases h; exact ⟨.fma, rfl, rfl, fun _ _ _ _ => rfl⟩
  case vfms => cases h; exact ⟨.fms, rfl, rfl, fun _ _ _ _ => rfl⟩
  case vfnma => cases h; exact ⟨.fnma, rfl, rfl, fun _ _ _ _ => rfl⟩
  all_goals contradiction

/-- R118: an element as the model decodes it. -/
theorem decLane_fst (c : Core) (i : BitVec 1) (t : Token) (l : Nat) : (decLane c.env (i == 1) t l).1 = element c i t l := by
  simp only [decLane, element, beq_iff_eq]
  rfl

/-- R118, R123: one lane of a form. -/
def arithOut (op : Arith) (x : ArithForm) (c : Core) (l : Nat) (g : BitVec 32) : LaneOut :=
  let fmt := opFormat (c.t x.a).tag.toNat
  let u := decLane c.env (x.i == 1) (c.t x.a) l
  let v := decLane c.env (x.i == 1) (c.t x.b) l
  match x.c with
  | none => laneOf fmt (roundOutc fmt c.env.rm (x.o == 1) g [u.1, v.1] false (arithOutc c.env.rm op u.1 v.1 Val.zero))
      (u.2 ||| v.2 ||| 0)
  | some r =>
    let w := decLane c.env (x.i == 1) (c.t r) l
    laneOf fmt (roundOutc fmt c.env.rm (x.o == 1) g [w.1, u.1, v.1] (!u.1.isNaN && !v.1.isNaN && mulVal u.1 v.1 == .invalid)
      (arithOutc c.env.rm op u.1 v.1 w.1)) (u.2 ||| v.2 ||| w.2)

/-- R119, R123: a form runs lane by lane over its sources. -/
theorem arithTok_eq_laneOp {op : Arith} {x : ArithForm} (h : op.three = x.c.isSome) (c : Core) : arithTok op x c =
    laneOp c.env.rm c.rnd (c.t x.d) (c.t x.a) (x.k == 1) (c.m x.m) (x.srcs.map c.t) (opTag (c.t x.a)) (arithOut op x c) := by
  obtain ⟨d, a, b, r, m, i, o, k, f⟩ := x
  cases r
  all_goals
    dsimp only [Option.isSome] at h
    simp only [arithTok, tokArith, h, ArithForm.srcs]
    rfl

theorem arithOut_step (op : Arith) (x : ArithForm) (c : Core) (l : Nat) (g : BitVec 32) : (arithOut op x c l g).step = true := by
  unfold arithOut
  dsimp only
  split <;> rfl

/-- R123: the lane that a form writes. -/
theorem arithOut_bits {op : Arith} {x : ArithForm} (h : ∀ rm u v w, arithOutc rm op u v w = x.f rm u v w) (c : Core) (l : Nat) :
    (arithOut op x c l (stepGen (c.rnd.at l))).bits = arithLane c x l := by
  obtain ⟨d, a, b, r, m, i, o, k, f⟩ := x
  cases r
  all_goals
    simp only [arithOut, arithLane, decLane_fst, h]
    rfl

/-- Settles O33: a form is an operation lane by lane, each of whose lanes rounds once. -/
theorem tokenArithmetic : Obligations.TokenArithmetic := by
  intro i x s h hc
  obtain ⟨op, hs, h3, hf⟩ := tokSpec_of_arithSpec h
  have hop := arithTok_eq_laneOp h3 s.tile.core
  have hon := laneActive_map_eq_laneOn s.tile.core x.m x.srcs
  refine ⟨fun hb => ?bubble, fun hl => ?live⟩
  case bubble =>
    obtain ⟨r, hr, hb⟩ := hb
    rw [laneOp_of_bubble ⟨_, List.mem_map_of_mem hr, hb⟩] at hop
    obtain ⟨t, ht, he⟩ := tokSpec_effect_of_quiet hs hc (congrArg TokOut.gens hop) (congrArg TokOut.flags hop)
    exact ⟨t, ht, coreEffect_congr he (by rw [hop]; rfl)⟩
  case live =>
    have hsrc : ∀ t ∈ x.srcs.map s.tile.core.t, t.bub = false := by simpa using hl
    obtain ⟨htag, hexp⟩ := laneOp_tag_exp (rm := s.tile.core.env.rm) (gens := s.tile.core.rnd) (old := s.tile.core.t x.d)
      (a := s.tile.core.t x.a) (k := x.k) (mask := s.tile.core.m x.m) (tag := opTag (s.tile.core.t x.a))
      (f := arithOut op x s.tile.core) hsrc
    obtain ⟨t, ht, he⟩ := tokenResults i _ _ _ s hs hc
    refine ⟨_, _, _, t, ht, coreEffect_congr he (by rw [hop]), htag, hexp,
      laneOp_laneResult hsrc hon (arithOut_bits hf s.tile.core), fun l hl => ?_⟩
    rw [laneOp_gens_at hsrc (arithOut_step op x s.tile.core) hl, hon]
    rfl

end Sys2Proof.Laws
end

section
/-! PROOFS. The integer group of the rim core, lane by lane (O34). -/

namespace Sys2Proof.Laws

open Sys2Proof Sys2Proof.Machine

/-! ### The results (R147) -/

theorem signedOf_eq {w : Nat} (hw : 0 < w) (v : Nat) : signedOf w v = (BitVec.ofNat w v).toInt := signedOf_eq_toInt hw _ rfl

section
variable {w : Nat} (u : Bool) (a b c : Nat)

theorem intElem_shl : intElem .shl w u a b c = if w ≤ b % 2 ^ w then 0 else a % 2 ^ w * 2 ^ (b % 2 ^ w) % 2 ^ w := by
  simp only [intElem, Nat.shiftLeft_eq]

theorem intElem_shr : intElem .shr w u a b c = if w ≤ b % 2 ^ w then 0 else a % 2 ^ w / 2 ^ (b % 2 ^ w) := by
  simp only [intElem, Nat.shiftRight_eq_div_pow]

theorem intElem_sar (hw : 0 < w) : intElem .sar w u a b c =
    ((BitVec.ofNat w (a % 2 ^ w)).sshiftRight (min (b % 2 ^ w) w)).toNat := by
  rw [BitVec.sshiftRight, BitVec.toNat_ofInt, Int.shiftRight_eq_div_pow, ← signedOf_eq hw]
  rfl

theorem intElem_less (hw : 0 < w) : decide (signedOf w (a % 2 ^ w) < signedOf w (b % 2 ^ w)) =
    (BitVec.ofNat w (a % 2 ^ w)).slt (BitVec.ofNat w (b % 2 ^ w)) := by
  rw [signedOf_eq hw, signedOf_eq hw]
  rfl

theorem intElem_min (hw : 0 < w) : intElem .min w u a b c =
    if (if u then decide (a % 2 ^ w < b % 2 ^ w) else (BitVec.ofNat w (a % 2 ^ w)).slt (BitVec.ofNat w (b % 2 ^ w))) then a % 2 ^ w
    else b % 2 ^ w := by
  rw [← intElem_less a b hw]
  rfl

theorem intElem_max (hw : 0 < w) : intElem .max w u a b c =
    if (if u then decide (a % 2 ^ w < b % 2 ^ w) else (BitVec.ofNat w (a % 2 ^ w)).slt (BitVec.ofNat w (b % 2 ^ w))) then b % 2 ^ w
    else a % 2 ^ w := by
  rw [← intElem_less a b hw]
  rfl

theorem intElem_cnt : intElem .cnt w u a b c = ((List.range 32).filter (a % 2 ^ w).testBit).length := by
  have hb : ∀ k ∈ List.range 32, (BitVec.ofNat 32 (a % 2 ^ w)).getLsbD k = (a % 2 ^ w).testBit k := by
    intro k hk
    rw [BitVec.getLsbD_ofNat, decide_eq_true (List.mem_range.1 hk), Bool.true_and]
  simp only [intElem, popCount, bitsOf, List.filter_map, List.length_map, Function.comp_def, id_eq, List.filter_congr hb]

end

/-! ### The forms -/

/-- Operand n of a form; the ones that it does not have read token 0. -/
def intSrc (x : IntForm) (c : Core) (n : Nat) : Token := c.t ((x.a :: x.rest).getD n 0)

/-- R147: the operation of a form on the tokens of a core. -/
def intTok (op : IntOp) (x : IntForm) (c : Core) : TokOut :=
  tokInt c.rnd op (c.t x.d) (intSrc x c 0) (intSrc x c 1) (intSrc x c 2) ((x.a :: x.rest).map c.t) (c.m x.m) (x.k == 1)

/-- R147: an operation computes the function of a form, on the low bits of the operands. -/
def Computes (op : IntOp) (f : Nat → Bool → Nat → Nat → Nat → Nat) : Prop :=
  ∀ w u a b c, 0 < w → intElem op w u a b c = f w u (a % 2 ^ w) (b % 2 ^ w) (c % 2 ^ w)

/-- R147: each form is a token instruction with its operation. -/
theorem tokSpec_of_intSpec {i : Instr} {x : IntForm} (h : intSpec i = some x) :
    ∃ op, tokSpec i = some (2, x.d, intTok op x) ∧ Computes op x.f := by
  have two : ∀ {op}, op ≠ .mac → ∀ (d a b : BitVec 5) (m : BitVec 3) (k : BitVec 1) f, some ((2 : Fin 8), d, fun c : Core =>
      tokInt c.rnd op (c.t d) (c.t a) (c.t b) Token.reset [c.t a, c.t b] (c.m m) (k == 1)) =
        some (2, d, intTok op ⟨d, a, [b], m, k, f⟩) :=
    fun h d a b m k f => congrArg (fun op => some (2, d, op)) (funext fun c => tokInt_two h ..)
  cases i
  case viadd => cases h; exact ⟨.add, two (by decide) .., fun _ _ _ _ _ _ => rfl⟩
  case visub => cases h; exact ⟨.sub, two (by decide) .., fun _ _ _ _ _ _ => rfl⟩
  case vimul => cases h; exact ⟨.mul, two (by decide) .., fun _ _ _ _ _ _ => rfl⟩
  case vand => cases h; exact ⟨.and, two (by decide) .., fun _ _ _ _ _ _ => rfl⟩
  case vor => cases h; exact ⟨.or, two (by decide) .., fun _ _ _ _ _ _ => rfl⟩
  case vxor => cases h; exact ⟨.xor, two (by decide) .., fun _ _ _ _ _ _ => rfl⟩
  case vshl => cases h; exact ⟨.shl, two (by decide) .., fun _ u a b c _ => intElem_shl u a b c⟩
  case vshr => cases h; exact ⟨.shr, two (by decide) .., fun _ u a b c _ => intElem_shr u a b c⟩
  case vsar => cases h; exact ⟨.sar, two (by decide) .., fun _ u a b c hw => intElem_sar u a b c hw⟩
  case vimin => cases h; exact ⟨.min, two (by decide) .., fun _ u a b c hw => intElem_min u a b c hw⟩
  case vimax => cases h; exact ⟨.max, two (by decide) .., fun _ u a b c hw => intElem_max u a b c hw⟩
  case vcnt =>
    cases h
    exact ⟨.cnt, congrArg (fun op => some (_, _, op)) (funext fun c => tokInt_cnt ..), fun _ u a b c _ => intElem_cnt u a b c⟩
  case vimac => cases h; exact ⟨.mac, rfl, fun _ _ _ _ _ _ => rfl⟩
  all_goals contradiction

/-! ### Tags and widths -/

theorem isIntCode_iff (t : BitVec 4) : isIntCode t = true ↔ t = 6 ∨ t = 7 ∨ t = 8 ∨ t = 9 := by
  revert t
  decide

theorem intTag_eq (a : Token) : intTag a = if a.tag = 6 ∨ a.tag = 7 ∨ a.tag = 8 ∨ a.tag = 9 then a.tag else 9 := by
  simp only [intTag, isIntCode_iff]

theorem intWidth_eq_intBits (a : Token) : intWidth (intTag a).toNat = intBits a.tag := by
  rw [intTag]
  generalize a.tag = t
  revert t
  decide

theorem intBits_pos (t : BitVec 4) : 0 < intBits t := by
  revert t
  decide

/-- R117: an integer result in lane form. -/
theorem laneForm_of_isIntCode {t : BitVec 4} (h : isIntCode t = true) (v : Nat) : laneForm t.toNat v = Sys2Proof.intLane t v := by
  have hs : ∀ w, 0 < w → BitVec.ofInt 32 (signedOf w (v % 2 ^ w)) = (BitVec.ofNat w v).signExtend 32 := by
    intro w hw
    rw [signedOf_eq_toInt hw (BitVec.ofNat w v) (Nat.mod_mod ..), BitVec.signExtend]
  obtain rfl | rfl | rfl | rfl := (isIntCode_iff t).1 h
  · exact hs 8 (by decide)
  · rfl
  · exact hs 16 (by decide)
  · exact BitVec.eq_of_toNat_eq (by simp [laneForm, elemBits, Sys2Proof.intLane])

theorem isIntCode_intTag (a : Token) : isIntCode (intTag a) = true := by
  rw [intTag]
  split
  · assumption
  · rfl

/-- R117, R147: one lane of a form. -/
def intOut (op : IntOp) (x : IntForm) (c : Core) (l : Nat) : LaneOut :=
  let a := intSrc x c 0
  ⟨laneForm (intTag a).toNat (intElem op (intWidth (intTag a).toNat) (a.tag == 7) (a.lane l).toNat ((intSrc x c 1).lane l).toNat
    ((intSrc x c 2).lane l).toNat), 0, false, false⟩

theorem intTok_eq_laneOp (op : IntOp) (x : IntForm) (c : Core) : intTok op x c =
    laneOp .rne c.rnd (c.t x.d) (c.t x.a) (x.k == 1) (c.m x.m) ((x.a :: x.rest).map c.t) (intTag (c.t x.a))
      fun l _ => intOut op x c l := rfl

theorem intOut_bits {op : IntOp} {x : IntForm} (h : Computes op x.f) (c : Core) (l : Nat) : (intOut op x c l).bits =
    Sys2Proof.intLane (intTag (c.t x.a)) (x.f (intBits (c.t x.a).tag) ((c.t x.a).tag == 7)
      (((intSrc x c 0).lane l).toNat % 2 ^ intBits (c.t x.a).tag) (((intSrc x c 1).lane l).toNat % 2 ^ intBits (c.t x.a).tag)
      (((intSrc x c 2).lane l).toNat % 2 ^ intBits (c.t x.a).tag)) := by
  have hw : intWidth (intTag (intSrc x c 0)).toNat = intBits (c.t x.a).tag := intWidth_eq_intBits _
  rw [← h _ _ _ _ _ (intBits_pos _), intOut, hw]
  exact laneForm_of_isIntCode (isIntCode_intTag _) _

/-- Settles O34: a form is an operation lane by lane that rounds nothing. -/
theorem tokenIntegers : Obligations.TokenIntegers := by
  intro i x s h hc
  obtain ⟨op, hs, hf⟩ := tokSpec_of_intSpec h
  have hop := intTok_eq_laneOp op x s.tile.core
  have htag := intTag_eq (s.tile.core.t x.a)
  obtain ⟨hg, hz⟩ := laneOp_gens_flags_of_exact (rm := .rne) (gens := s.tile.core.rnd) (old := s.tile.core.t x.d)
    (a := s.tile.core.t x.a) (k := x.k) (mask := s.tile.core.m x.m) (srcs := (x.a :: x.rest).map s.tile.core.t)
    (tag := intTag (s.tile.core.t x.a)) (f := fun l _ => intOut op x s.tile.core l) (fun _ _ => rfl) fun _ _ => rfl
  rw [← hop] at hg hz
  obtain ⟨t, ht, he⟩ := tokSpec_effect_of_quiet hs hc hg hz
  refine ⟨fun hb => ⟨t, ht, ?bubble⟩, fun hl => ⟨_, t, ht, he, ?live⟩⟩
  case bubble =>
    obtain ⟨r, hr, hb⟩ := hb
    rw [laneOp_of_bubble ⟨_, List.mem_map_of_mem hr, hb⟩, htag] at hop
    exact coreEffect_congr he (by rw [hop])
  case live =>
    have hsrc : ∀ t ∈ (x.a :: x.rest).map s.tile.core.t, t.bub = false := List.forall_mem_map.2 hl
    rw [hop, ← htag]
    obtain ⟨hwt, hwe⟩ := laneOp_tag_exp (rm := .rne) (gens := s.tile.core.rnd) (old := s.tile.core.t x.d)
      (a := s.tile.core.t x.a) (k := x.k) (mask := s.tile.core.m x.m) (tag := intTag (s.tile.core.t x.a))
      (f := fun l _ => intOut op x s.tile.core l) hsrc
    exact ⟨hwt, hwe, laneOp_laneResult hsrc (laneActive_map_eq_laneOn ..) fun l => intOut_bits hf s.tile.core l⟩

end Sys2Proof.Laws
end

section
/-! PROOFS. The moves of lanes: VPERM, VSHUF, VBCST, VINS, VEXT and VMSK (O35). -/

namespace Sys2Proof.Laws

open Sys2Proof Sys2Proof.Machine

/-! ### VPERM, VSHUF and VBCST (R142 to R144) -/

/-- The lanes of a that the lanes of a move take. -/
def movedToken (x : MoveForm) (c : Core) : Token :=
  moveLanes (c.t x.d) (c.t x.a) (x.k == 1) (x.active c) fun l => (c.t x.a, x.from_ c l)

/-- R142 to R144: the outcome of a move. -/
def moveOut (x : MoveForm) (c : Core) : TokOut :=
  if (c.t x.a).bub || (c.t x.b).bub then ⟨bubbled (c.t x.d) x.k (c.t x.a).tag, c.rnd, 0, 0⟩ else ⟨movedToken x c, c.rnd, 0, 0⟩

theorem shufLane_eq (p l : Nat) : shufLane p l = if p < 16 then (l ^^^ p) % 16 else (l + p - 16) % 16 := by
  unfold shufLane
  split
  · rfl
  · rw [Nat.add_sub_assoc (by omega)]

theorem laneIndexOf_lt (t : Token) (n : Nat) : laneIndexOf t n < 2 ^ n := by
  unfold laneIndexOf
  split
  · exact Nat.mod_lt _ (Nat.two_pow_pos n)
  · exact Nat.two_pow_pos n

theorem laneIndexOf_mod_16 (t : Token) : laneIndexOf t 4 % 16 = laneIndexOf t 4 := Nat.mod_eq_of_lt (laneIndexOf_lt t 4)

theorem laneIndex_eq_laneIndexOf (t : Token) (n : Nat) : laneIndex t n = laneIndexOf t n := rfl

theorem laneActive_singleton (mask : BitVec 16) (b : Token) :
    laneActive mask [b] = fun l => mask.getLsbD l && b.valid.getLsbD l := by
  funext l
  simp only [laneActive, List.all_cons, List.all_nil, Bool.and_true]

/-- R142 to R144: each move is a token instruction with its outcome. -/
theorem tokSpec_of_moveSpec {i : Instr} {x : MoveForm} (h : moveSpec i = some x) : tokSpec i = some (2, x.d, moveOut x) := by
  cases i
  case vperm d a b m k =>
    cases h
    refine congrArg (fun op => some (2, d, op)) (funext fun c => ?_)
    simp only [tokPerm, moveOut, movedToken, bubbleDest_eq_bubbled, laneActive_singleton]
    rfl
  case vshuf d a b m k =>
    cases h
    refine congrArg (fun op => some (2, d, op)) (funext fun c => ?_)
    simp only [tokShuf, moveOut, movedToken, bubbleDest_eq_bubbled, shufLane_eq, laneIndex_eq_laneIndexOf, List.any_cons,
      List.any_nil, Bool.or_false]
  case vbcst d a b m k =>
    cases h
    refine congrArg (fun op => some (2, d, op)) (funext fun c => ?_)
    simp only [tokBcst, moveOut, movedToken, bubbleDest_eq_bubbled, laneIndex_eq_laneIndexOf,
      laneIndexOf_mod_16, List.any_cons, List.any_nil, Bool.or_false]
  all_goals contradiction

theorem moveOut_of_bubble {x : MoveForm} {c : Core} (h : (c.t x.a).bub = true ∨ (c.t x.b).bub = true) :
    moveOut x c = ⟨bubbled (c.t x.d) x.k (c.t x.a).tag, c.rnd, 0, 0⟩ := if_pos (Bool.or_eq_true_iff.2 h)

theorem moveOut_of_live {x : MoveForm} {c : Core} (ha : (c.t x.a).bub = false) (hb : (c.t x.b).bub = false) :
    moveOut x c = ⟨movedToken x c, c.rnd, 0, 0⟩ := if_neg (by simp [ha, hb])

theorem moveOut_quiet (x : MoveForm) (c : Core) : (moveOut x c).gens = c.rnd ∧ (moveOut x c).flags = 0 := by
  unfold moveOut
  split <;> exact ⟨rfl, rfl⟩

/-- R142: an active lane takes its element, valid bit and predicate bit from its lane of a. -/
theorem movedToken_active {x : MoveForm} {c : Core} {l : Nat} (hl : l < 16) (ha : x.active c l = true) :
    (movedToken x c).lane l = (c.t x.a).lane (x.from_ c l) ∧
      (movedToken x c).valid.getLsbD l = (c.t x.a).valid.getLsbD (x.from_ c l) ∧
      (movedToken x c).pred.getLsbD l = (c.t x.a).pred.getLsbD (x.from_ c l) := by
  obtain ⟨hd, hv, hp⟩ := buildToken_active (c.t x.d) (c.t x.a).tag (c.t x.a).exp
    (maskOf 16 fun l => (c.t x.a).valid.getLsbD (x.from_ c l)) (maskOf 16 fun l => (c.t x.a).pred.getLsbD (x.from_ c l))
    (x.k == 1) hl ((getD_map_range (fun l => if x.active c l then some ((c.t x.a).lane (x.from_ c l)) else none) _ hl).trans
      (if_pos ha))
  rw [maskOf_bit, decide_eq_true hl, Bool.true_and] at hv hp
  exact ⟨hd, hv, hp⟩

theorem movedToken_inactive {x : MoveForm} {c : Core} {l : Nat} (hl : l < 16) (ha : ¬ x.active c l = true) :
    if x.k = 0 then (movedToken x c).lane l = 0 ∧ (movedToken x c).valid.getLsbD l = false ∧
      (movedToken x c).pred.getLsbD l = false
    else (movedToken x c).lane l = (c.t x.d).lane l ∧ (movedToken x c).valid.getLsbD l = (c.t x.d).valid.getLsbD l ∧
      (movedToken x c).pred.getLsbD l = (c.t x.d).pred.getLsbD l :=
  buildToken_inactive _ _ _ _ _ _ hl ((getD_map_range _ _ hl).trans (if_neg ha))

/-! ### VINS (R145) -/

/-- A field apart from the one that was put reads as before. -/
theorem fld_putField_of_disjoint {n : Nat} (w : BitVec n) {lo len lo' len' : Nat} (h : lo + len ≤ n)
    (hd : lo' + len' ≤ lo ∨ lo + len ≤ lo') (v : Nat) : fld (putField w lo len v) lo' len' = fld w lo' len' := by
  refine BitVec.eq_of_getLsbD_eq fun k hk => ?_
  rw [fld_getLsbD, fld_getLsbD, putField_getLsbD w h, if_neg (by omega)]

section
variable (t : Token) {n l : Nat} (v : BitVec 64)

theorem insToken_lane (hl : l < 16) : (insToken t n v).lane l = if l = n then v.extractLsb' 0 32 else t.lane l := by
  unfold insToken
  split
  · next hn =>
    by_cases h : l = n
    · subst h
      rw [if_pos rfl]
      exact (fld_putField _ (by omega) _).trans (BitVec.ofNat_toNat ..)
    · rw [if_neg h]
      exact fld_putField_of_disjoint _ (by omega) (by omega) _
  · rw [if_neg (by omega)]
    split <;> rfl

theorem insToken_valid (hl : l < 16) : (insToken t n v).valid.getLsbD l =
    if n = 17 then v.getLsbD l else if l = n then true else t.valid.getLsbD l := by
  unfold insToken
  split
  · next hn => rw [if_neg (by omega), setBit_getLsbD _ hn]
  · rw [if_neg (show l ≠ n by omega)]
    split
    · rfl
    · rw [if_pos rfl, fld_getLsbD, decide_eq_true hl, Nat.zero_add, Bool.true_and]
    · rfl
    · next h _ => rw [if_neg h]

theorem insToken_pred (hl : l < 16) : (insToken t n v).pred.getLsbD l =
    if n = 16 then v.getLsbD l else if l = n then false else t.pred.getLsbD l := by
  unfold insToken
  split
  · next hn => rw [if_neg (by omega), setBit_getLsbD _ hn]
  · rw [if_neg (show l ≠ n by omega)]
    split
    · rw [if_pos rfl, fld_getLsbD, decide_eq_true hl, Nat.zero_add, Bool.true_and]
    · rfl
    · rfl
    · next h _ _ => rw [if_neg h]

theorem insToken_head : (insToken t n v).tag = (if n = 18 then v.extractLsb' 0 4 else t.tag) ∧
    (insToken t n v).exp = (if n = 18 then v.extractLsb' 4 8 else t.exp) ∧
    (insToken t n v).bub = if n = 18 then v.getLsbD 12 else t.bub := by
  unfold insToken
  split
  · next hn =>
    have h : n ≠ 18 := by omega
    simp only [if_neg h, and_self]
  · split
    · exact ⟨rfl, rfl, rfl⟩
    · exact ⟨rfl, rfl, rfl⟩
    · exact ⟨rfl, rfl, rfl⟩
    · next h => simp only [if_neg h, and_self]

end

/-! ### VEXT and VMSK (R145, R146) -/

theorem extToken_eq (t : Token) (n : Nat) : extToken t n =
    if n < 16 then (t.data.extractLsb' (32 * n) 32).signExtend 64
    else if n = 16 then t.pred.setWidth 64
    else if n = 17 then t.valid.setWidth 64
    else if n = 18 then BitVec.ofNat 64 (t.tag.toNat + 16 * t.exp.toNat + 4096 * t.bub.toNat)
    else 0 := by
  unfold extToken
  split
  · rfl
  · split
    · rfl
    · rfl
    · rfl
    · next h16 h17 h18 => rw [if_neg h16, if_neg h17, if_neg h18]

/-- R146: VMSK on tokens that are no bubbles. -/
theorem tokMask_active (gens : Gens) (old : Token) {a b : Token} {mask : BitVec 16} (ha : a.bub = false) (hb : b.bub = false)
    (k : Bool) {l : Nat} (hl : l < 16) (hm : mask.getLsbD l = true) : let t := (tokMask gens old a b mask k).tok
    t.lane l = a.lane l ∧ t.valid.getLsbD l = (a.valid.getLsbD l && b.pred.getLsbD l) := by
  have he : ¬ (a.bub || b.bub) = true := by simp [ha, hb]
  obtain ⟨hd, hv, -⟩ := buildToken_active old a.tag a.exp (a.valid &&& b.pred) a.pred k hl
    ((getD_map_range (fun l => if mask.getLsbD l then some (a.lane l) else none) _ hl).trans (if_pos hm))
  rw [BitVec.getLsbD_and] at hv
  simp only [tokMask, he, Bool.false_eq_true, if_false]
  exact ⟨hd, hv⟩

theorem tokMask_quiet (gens : Gens) (old a b : Token) (mask : BitVec 16) (k : Bool) :
    (tokMask gens old a b mask k).gens = gens ∧ (tokMask gens old a b mask k).flags = 0 := by
  unfold tokMask
  split <;> exact ⟨rfl, rfl⟩

theorem tokMask_tag (gens : Gens) (old : Token) {a b : Token} (ha : a.bub = false) (hb : b.bub = false) (mask : BitVec 16)
    (k : Bool) : (tokMask gens old a b mask k).tok.tag = a.tag := by
  simp only [tokMask, ha, hb, Bool.or_false, Bool.false_eq_true, if_false]
  rfl

/-- Settles O35: each instruction by the lanes of the token, or the word, that it writes. -/
theorem tokenMoves : Obligations.TokenMoves := by
  refine ⟨?move, ?vins, ?vext, ?vmsk⟩
  case move =>
    intro i x s h hc
    obtain ⟨hg, hf⟩ := moveOut_quiet x s.tile.core
    obtain ⟨t, ht, he⟩ := tokSpec_effect_of_quiet (tokSpec_of_moveSpec h) hc hg hf
    refine ⟨fun hb => ⟨t, ht, coreEffect_congr he (by rw [moveOut_of_bubble hb])⟩, fun ha hb =>
      ⟨movedToken x s.tile.core, t, ht, coreEffect_congr he (by rw [moveOut_of_live ha hb]), rfl, rfl, rfl, fun l hl => ?_⟩⟩
    by_cases hon : x.active s.tile.core l = true
    · exact (if_pos hon).symm ▸ movedToken_active hl hon
    · exact (if_neg hon).symm ▸ movedToken_inactive hl hon
  case vins =>
    intro d a b s hc
    obtain ⟨t, ht, he⟩ := coreInstr_effect 2 (encode (.vins d a b)) true
      (fun x => x.setT d (insToken (x.t d) (fld (x.s b) 0 5).toNat (x.s a))) s hc rfl rfl rfl
    obtain ⟨htag, hexp, hbub⟩ := insToken_head (s.tile.core.t d) (n := (fld (s.tile.core.s b) 0 5).toNat) (s.tile.core.s a)
    exact ⟨_, t, ht, coreEffect_congr he rfl, fun l hl => insToken_lane _ _ hl, fun l hl => insToken_valid _ _ hl,
      fun l hl => insToken_pred _ _ hl, htag, hexp, hbub⟩
  case vext =>
    intro d a b s hc
    obtain ⟨t, ht, he⟩ := setS_effect 2 (encode (.vext d a b)) true d (fun x => extToken (x.t a) (fld (x.s b) 0 5).toNat) s
      (fun _ => extToken (s.tile.core.t a) (fld (s.tile.core.s b) 0 5).toNat) rfl hc rfl
    exact ⟨t, ht, coreEffect_congr he (by rw [extToken_eq]; rfl)⟩
  case vmsk =>
    intro d a b m s hc ha hb
    obtain ⟨hg, hf⟩ := tokMask_quiet s.tile.core.rnd (s.tile.core.t d) (s.tile.core.t a) (s.tile.core.t b) (s.tile.core.m m) false
    obtain ⟨t, ht, he⟩ := tokSpec_effect_of_quiet (i := .vmsk d a b m 0) rfl hc hg hf
    exact ⟨_, t, ht, he, tokMask_tag _ _ ha hb _ _, fun l hl hm => tokMask_active _ _ ha hb _ hl hm⟩

end Sys2Proof.Laws
end

section
/-! PROOFS. VHIST and VBFP of the rim core (O37). -/

namespace Sys2Proof.Laws

open Sys2Proof Sys2Proof.Machine

/-- R148: bin j after VHIST keeps its header. -/
theorem histBins_getElem {bins : List Token} {a b : Token} (ha : a.bub = false) (hb : b.bub = false) {mask : BitVec 16} {j : Nat}
    (hj : j < bins.length) (h : j < (histBins bins a b mask).length) : (histBins bins a b mask)[j] =
      { bins[j] with data := lineOfLanes ((List.range 16).map fun l =>
          if laneActive mask [a, b] l && (a.lane l).toNat == j then bins[j].lane l + b.lane l else bins[j].lane l) } := by
  have hn : ¬ (a.bub || b.bub) = true := by simp [ha, hb]
  simp only [histBins, hn, Bool.false_eq_true, if_false, List.getElem_zipWith, List.getElem_range]

/-- R148: the registers after VHIST; the bins are td up to t31. -/
def histToks (c : Core) (d a b : BitVec 5) (m : BitVec 3) : Vector Token 32 :=
  let bins := histBins (c.toks.toList.drop d.toNat) (c.t a) (c.t b) (c.m m)
  Vector.ofFn fun r : Fin 32 => if d.toNat ≤ r.val then bins.getD (r.val - d.toNat) (c.toks.get r) else c.toks.get r

section
variable {c : Core} {a b : BitVec 5} (d : BitVec 5) (m : BitVec 3) (r : Fin 32)

theorem histToks_below (h : ¬ d.toNat ≤ r.val) : (histToks c d a b m).get r = c.toks.get r := by
  rw [histToks, Vector.get_ofFn, if_neg h]

/-- R148: the bin that register r holds. -/
theorem histToks_bin (ha : (c.t a).bub = false) (hb : (c.t b).bub = false) (h : d.toNat ≤ r.val) :
    (histToks c d a b m).get r = { c.toks.get r with data := lineOfLanes ((List.range 16).map fun l =>
      if laneActive (c.m m) [c.t a, c.t b] l && ((c.t a).lane l).toNat == r.val - d.toNat then
        (c.toks.get r).lane l + (c.t b).lane l
      else (c.toks.get r).lane l) } := by
  have hr := r.isLt
  have hj : r.val - d.toNat < (c.toks.toList.drop d.toNat).length := by
    rw [List.length_drop, Vector.length_toList]
    omega
  have hb' : r.val - d.toNat < (histBins (c.toks.toList.drop d.toNat) (c.t a) (c.t b) (c.m m)).length := by
    rwa [histBins_length]
  have hget : (c.toks.toList.drop d.toNat)[r.val - d.toNat] = c.toks.get r := by
    simp only [List.getElem_drop, Nat.add_sub_cancel' h, Vector.getElem_toList]
    rfl
  rw [histToks, Vector.get_ofFn, if_pos h, List.getD_eq_getElem _ _ hb', histBins_getElem ha hb hj, hget]

/-- R148: the bin that a lane names; a lane below 0 or beyond the bins names none. -/
theorem lane_names_bin (x : BitVec 32) {d r : Nat} (h : d ≤ r) (hr : r < 32) : x.toNat = r - d ↔ x.toInt = (r : Int) - d := by
  rw [BitVec.toInt_eq_toNat_cond]
  have := x.isLt
  split <;> omega

end

/-- Settles O37: VHIST by the bins of td to t31, VBFP by the exponent of its block. -/
theorem blocksAndHistograms : Obligations.BlocksAndHistograms := by
  refine ⟨?vhist, ?vbfp⟩
  case vhist =>
    intro d a b m s hc ha hb
    obtain ⟨t, ht, he⟩ := coreInstr_effect 2 (encode (.vhist d a b m)) true
      (fun x => { x with toks := histToks x d a b m }) s hc rfl rfl rfl
    refine ⟨_, t, ht, coreEffect_congr he rfl, fun r => ?_⟩
    by_cases hd : d.toNat ≤ r.val
    · rw [histToks_bin d m r ha hb hd]
      refine ⟨rfl, fun l hl => (fld_lineOfLanes_range _ hl).trans ?_⟩
      have hon := congrFun (laneActive_map_eq_laneOn s.tile.core m [a, b]) l
      simp only [← lane_names_bin _ hd r.isLt, hd, true_and, ← hon, List.map_cons, List.map_nil, Bool.and_eq_true, beq_iff_eq]
      rfl
    · rw [histToks_below d m r hd]
      exact ⟨rfl, fun l _ => (if_neg fun h => hd h.1).symm⟩
  case vbfp =>
    intro d a b m i s hc _ _ _
    let r := blockExp s.tile.core.env (i == 1) (s.tile.core.m m) [s.tile.core.t a, s.tile.core.t b, s.tile.core.t d]
    obtain ⟨t, ht, he⟩ := coreInstr_effect 2 (encode (.vbfp d a b m i)) true (fun x =>
      { ((x.setT a ((x.t a).withExp r.1)).setT b ((x.t b).withExp r.1)).setT d ((x.t d).withExp r.1) with
        fstat := x.fstat ||| r.2 }) s hc rfl rfl rfl
    exact ⟨t, ht, r.1, r.2, rfl, he⟩

end Sys2Proof.Laws
end

section
/-! PROOFS. The beats of SELR and the lanes of PSUM and the reductions (O46). -/

namespace Sys2Proof.Laws

open Sys2Proof Sys2Proof.Machine

/-! ### Masks of elements -/

theorem elemBits_pos (fmt : Nat) : 0 < elemBits fmt := by
  unfold elemBits
  split <;> decide

/-- R13: the elements of a beat fill no more than its 512 bits. -/
theorem elements_le (fmt : Nat) : 16 * tokensOf fmt * elemBits fmt ≤ 512 := by
  have h : tokensOf fmt * elemBits fmt ≤ 32 := Nat.div_mul_le_self 32 _
  rw [Nat.mul_assoc]
  omega

/-- The bits of element e, for elements of w bits. -/
theorem elementBits_getLsbD {w : Nat} (hw : 0 < w) (e : Nat) {k : Nat} (hk : k < 512) :
    (BitVec.ofNat 512 (2 ^ w - 1) <<< (e * w)).getLsbD k = decide (k / w = e) := by
  have hd : k / w = e ↔ e * w ≤ k ∧ k < e * w + w := by
    rw [Nat.div_eq_iff hw]
    omega
  rw [BitVec.getLsbD_shiftLeft, BitVec.getLsbD_ofNat, Nat.testBit_two_pow_sub_one, Bool.eq_iff_iff]
  simp only [Bool.and_eq_true, decide_eq_true_eq, Bool.not_eq_true', decide_eq_false_iff_not, hd]
  omega

/-- R117: the mask of the elements that are allowed. -/
theorem elemMask_getLsbD (fmt : Nat) (allow : BitVec 128) {k : Nat} (hk : k < 16 * tokensOf fmt * elemBits fmt) :
    (elemMask fmt allow).getLsbD k = allow.getLsbD (k / elemBits fmt) := by
  have hk' : k < 512 := lt_of_lt_of_le hk (elements_le fmt)
  have hn : k / elemBits fmt < 16 * tokensOf fmt := (Nat.div_lt_iff_lt_mul (elemBits_pos fmt)).2 hk
  have below : ∀ n, ((List.range n).foldl (fun (m : Line) e =>
      if allow.getLsbD e then m ||| (BitVec.ofNat 512 (2 ^ elemBits fmt - 1) <<< (e * elemBits fmt)) else m) 0).getLsbD k =
        (decide (k / elemBits fmt < n) && allow.getLsbD (k / elemBits fmt)) := by
    intro n
    induction n with
    | zero => simp
    | succ n ih =>
      rw [List.range_succ, List.foldl_append, List.foldl_cons, List.foldl_nil]
      by_cases h : k / elemBits fmt = n
      · have hlt : ¬ n < n := Nat.lt_irrefl n
        rw [h, decide_eq_false hlt, Bool.false_and] at ih
        rw [h, decide_eq_true (Nat.lt_succ_self n), Bool.true_and]
        cases ha : allow.getLsbD n with
        | false => exact ih
        | true => rw [if_pos rfl, BitVec.getLsbD_or, elementBits_getLsbD (elemBits_pos fmt) n hk', h, decide_eq_true rfl, Bool.or_true]
      · have hlt : decide (k / elemBits fmt < n + 1) = decide (k / elemBits fmt < n) := by rw [decide_eq_decide]; omega
        rw [hlt, ← ih]
        split
        · rw [BitVec.getLsbD_or, elementBits_getLsbD (elemBits_pos fmt) n hk', decide_eq_false h, Bool.or_false]
        · rfl
  rw [elemMask, below, decide_eq_true hn, Bool.true_and]

/-! ### SELR (R196) -/

/-- A bit of a under a mask, else one of b. -/
theorem select_getLsbD {n : Nat} (a b m : BitVec n) {k : Nat} (hk : k < n) :
    ((a &&& m) ||| (b &&& ~~~ m)).getLsbD k = if m.getLsbD k then a.getLsbD k else b.getLsbD k := by
  rw [BitVec.getLsbD_or, BitVec.getLsbD_and, BitVec.getLsbD_and, BitVec.getLsbD_not, decide_eq_true hk]
  cases m.getLsbD k <;> simp

/-- R196: the beat whose elements stand in for those of a: one of no elements where b is a bubble. -/
theorem standIn_getLsbD (b : Beat) (e : Nat) :
    (if b.bub then Beat.bubble else b).valid.getLsbD e = (!b.bub && b.valid.getLsbD e) ∧
    (if b.bub then Beat.bubble else b).pred.getLsbD e = (!b.bub && b.pred.getLsbD e) ∧
    (if b.bub then Beat.bubble else b).data.getLsbD e = (!b.bub && b.data.getLsbD e) := by
  cases b.bub <;> simp [Beat.bubble]

section
variable {a : Beat} (h : a.bub = false) (b : Beat)
include h

theorem selectBeat_of_live : selectBeat a b =
    let b := if b.bub then Beat.bubble else b
    let m := elemMask a.tag.toNat a.pred
    { a with
      data := (a.data &&& m) ||| (b.data &&& ~~~ m)
      valid := (a.valid &&& a.pred) ||| (b.valid &&& ~~~ a.pred)
      pred := a.pred ||| (b.pred &&& ~~~ a.pred) } := if_neg (by simp [h])

theorem selectBeat_head : (selectBeat a b).bub = false ∧ (selectBeat a b).tag = a.tag ∧ (selectBeat a b).exps = a.exps := by
  rw [selectBeat_of_live h]
  exact ⟨h, rfl, rfl⟩

theorem selectBeat_bits {e : Nat} (he : e < 128) :
    (selectBeat a b).valid.getLsbD e = (if a.pred.getLsbD e then a.valid.getLsbD e else !b.bub && b.valid.getLsbD e) ∧
    (selectBeat a b).pred.getLsbD e = (a.pred.getLsbD e || (!b.bub && b.pred.getLsbD e)) := by
  obtain ⟨hv, hp, -⟩ := standIn_getLsbD b e
  rw [selectBeat_of_live h, ← hv, ← hp]
  refine ⟨select_getLsbD _ _ _ he, ?_⟩
  dsimp only
  rw [BitVec.getLsbD_or, BitVec.getLsbD_and, BitVec.getLsbD_not, decide_eq_true he]
  cases a.pred.getLsbD e <;> simp

theorem selectBeat_data {k : Nat} (hk : k < 16 * tokensOf a.tag.toNat * elemBits a.tag.toNat) : (selectBeat a b).data.getLsbD k =
    if a.pred.getLsbD (k / elemBits a.tag.toNat) then a.data.getLsbD k else !b.bub && b.data.getLsbD k := by
  obtain ⟨-, -, hd⟩ := standIn_getLsbD b k
  rw [selectBeat_of_live h, ← hd, ← elemMask_getLsbD a.tag.toNat a.pred hk]
  exact select_getLsbD _ _ _ (lt_of_lt_of_le hk (elements_le _))

end

/-! ### Lanes combined (R196, R197) -/

/-- A token has a valid element in a lane. -/
def laneValid (t : Token) (l : Nat) : Bool := !t.bub && t.valid.getLsbD l

/-- R197: the two lanes that lane l combines. -/
def foldSrc (fold : Bool) (a b : Token) (l : Nat) : Token × Nat × Token × Nat :=
  if fold then (if l < 8 then (a, 2 * l, a, 2 * l + 1) else (b, 2 * (l - 8), b, 2 * (l - 8) + 1)) else (a, l, b, l)

theorem foldLanes_eq (fold : Bool) (a b : Token) (l : Nat) : foldLanes fold a b l =
    let v := foldSrc fold a b l
    (validLane v.1 v.2.1, validLane v.2.2.1 v.2.2.2) := by
  unfold foldLanes foldSrc
  split
  · split <;> rfl
  · rfl

theorem validLane_of_valid {t : Token} {l : Nat} (h : laneValid t l = true) : validLane t l = some (t, l) := if_pos h

theorem validLane_of_invalid {t : Token} {l : Nat} (h : laneValid t l = false) : validLane t l = none :=
  if_neg (by rw [← laneValid, h]; exact Bool.false_ne_true)

theorem validLane_isSome (t : Token) (l : Nat) : (validLane t l).isSome = laneValid t l := by
  cases h : laneValid t l with
  | true => rw [validLane_of_valid h]; rfl
  | false => rw [validLane_of_invalid h]; rfl

/-- A lane of two tokens combined, each of which may have no element there. -/
def combineLane (env : NumEnv) (rm : Rounding) (fmt : BitVec 4) (op : Combine) (fi fo : Bool) (g : BitVec 32) :
    Option (Token × Nat) × Option (Token × Nat) → LaneOut
  | (some (t, k), some (t', k')) =>
    if fmt = 9 then ⟨combineInt op (t.lane k) (t'.lane k'), 0, false, false⟩
    else
      laneOf fmt.toNat (combineVals fmt.toNat rm fo op g (decLane env fi t k).1 (decLane env fi t' k').1)
        ((decLane env fi t k).2 ||| (decLane env fi t' k').2)
  | (some (t, k), none) => ⟨t.lane k, 0, false, false⟩
  | (none, some (t, k)) => ⟨t.lane k, 0, false, false⟩
  | (none, none) => ⟨0, 0, false, false⟩

section
variable (env : NumEnv) (rm : Rounding) (g : Gens) (f : BitVec 4) (op : Combine) (fold fi fo : Bool) (a b : Token)

/-- The lanes that lane l combines, where they have elements. -/
def combinePair (l : Nat) : Option (Token × Nat) × Option (Token × Nat) :=
  ((List.range 16).map (foldLanes fold a b)).getD l (none, none)

/-- R119, R197: a combination runs over the lanes that have an element in one of the tokens. -/
def combineRun : LaneAcc :=
  runLanes rm g (fun l => (combinePair fold a b l).1.isSome || (combinePair fold a b l).2.isSome)
    fun l g => combineLane env rm f op fi fo g (combinePair fold a b l)

theorem combineToken_eq : combineToken env rm g f op fold fi fo a b =
    let r := combineRun env rm g f op fold fi fo a b
    ⟨buildToken Token.reset false f 0 r.out 0xFFFF 0, r.gens, r.flags, 0⟩ := rfl

theorem combineToken_ovf : (combineToken env rm g f op fold fi fo a b).ovf = 0 := rfl

theorem combinePair_eq {l : Nat} (hl : l < 16) : combinePair fold a b l =
    let v := foldSrc fold a b l
    (validLane v.1 v.2.1, validLane v.2.2.1 v.2.2.2) := by
  rw [combinePair, getD_map_range _ _ hl, foldLanes_eq]

/-- R196, R197: the outcome of lane l; none where neither token has an element. -/
theorem combineRun_out {l : Nat} (hl : l < 16) : (combineRun env rm g f op fold fi fo a b).out.getD l none =
    let v := foldSrc fold a b l
    if laneValid v.1 v.2.1 || laneValid v.2.2.1 v.2.2.2 then
      some (combineLane env rm f op fi fo (stepGen (g.at l)) (validLane v.1 v.2.1, validLane v.2.2.1 v.2.2.2)).bits
    else none := by
  rw [combineRun, runLanes_out _ _ _ _ hl, laneOut, combinePair_eq fold a b hl]
  simp only [validLane_isSome]

/-- R196, R197: a lane is valid where either token has an element. -/
theorem combineToken_valid {l : Nat} (hl : l < 16) : (combineToken env rm g f op fold fi fo a b).tok.valid.getLsbD l =
    let v := foldSrc fold a b l
    laneValid v.1 v.2.1 || laneValid v.2.2.1 v.2.2.2 := by
  rw [combineToken_eq, buildToken_valid _ _ _ _ _ _ hl, combineRun_out _ _ _ _ _ _ _ _ _ _ hl, ones16_getLsbD hl]
  dsimp only
  split
  · next h => rw [h]; rfl
  · next h => rw [Bool.eq_false_iff.2 h]; rfl

theorem combineToken_lane {l : Nat} (hl : l < 16) {v : Token × Nat × Token × Nat} (hv : foldSrc fold a b l = v)
    (h : (laneValid v.1 v.2.1 || laneValid v.2.2.1 v.2.2.2) = true) : (combineToken env rm g f op fold fi fo a b).tok.lane l =
      (combineLane env rm f op fi fo (stepGen (g.at l)) (validLane v.1 v.2.1, validLane v.2.2.1 v.2.2.2)).bits := by
  rw [combineToken_eq, buildToken_lane _ _ _ _ _ _ hl, combineRun_out _ _ _ _ _ _ _ _ _ _ hl, hv]
  dsimp only
  rw [if_pos h, Option.getD_some]

/-- R196: PSUM rounds to nearest even, so that no generator steps. -/
theorem combineToken_gens_of_rne : (combineToken env .rne g f op fold fi fo a b).gens = g :=
  runLanes_gens_of_not_step _ _ fun _ _ => .inr (by decide)

variable {op}

/-- R197: two elements of INT32. -/
theorem combineInt_eq (p r : BitVec 32) : combineInt op p r =
    match op with
    | .sum => p + r
    | .max => if p.slt r then r else p
    | .min => if r.slt p then r else p := by
  cases op <;> rfl

end

end Sys2Proof.Laws
end

section
/-! PROOFS. The rows that move beats and those that write weight entries, settled together (O46). -/

namespace Sys2Proof.Laws

open Sys2Proof Sys2Proof.Machine

/-! ### Weight entries of cells (R195) -/

theorem cellAt_putCell (s : State) (row col : Nat) (x : Cell) (row' col' : Nat) : (s.putCell row col x).cellAt row' col' =
    if cellNum row' col' = cellNum row col then x else s.cellAt row' col' := by
  simp only [State.cellAt, State.putCell, assocGet_put]
  split <;> rfl

/-- A cell with weight entry x replaced. -/
def setWeight (y : Cell) (x : BitVec 5) (t : Token) : Cell := { y with w := y.w.set x.toNat t x.isLt }

theorem setWeight_setWeight (y : Cell) (x : BitVec 5) (t : Token) : setWeight (setWeight y x t) x t = setWeight y x t := by
  simp only [setWeight, Vector.set_set]

/-- The cells of a list, numbered from the first cell of a region, with weight entry x replaced. -/
def putWeights (c : RegionCfg) (x : BitVec 5) (w : Nat × Nat → Token) (l : List (Nat × Nat)) (s : State) : State :=
  l.foldl (fun s p => s.putCell (c.row0 + p.1) (c.col0 + p.2)
    (setWeight (s.cellAt (c.row0 + p.1) (c.col0 + p.2)) x (w p))) s

section
variable (c : RegionCfg) (x : BitVec 5) (w : Nat × Nat → Token)

theorem putWeights_eq (l : List (Nat × Nat)) (s : State) : putWeights c x w l s =
    { s with cells := (putWeights c x w l s).cells } := by
  induction l generalizing s with
  | nil => rfl
  | cons p l ih =>
    rw [putWeights, List.foldl_cons, ← putWeights, ih]
    rfl

/-- A cell that the list does not name stays as it was. -/
theorem cellAt_putWeights_of_not_mem {l : List (Nat × Nat)} {row col : Nat}
    (h : ∀ p ∈ l, cellNum row col ≠ cellNum (c.row0 + p.1) (c.col0 + p.2)) (s : State) :
    (putWeights c x w l s).cellAt row col = s.cellAt row col := by
  induction l generalizing s with
  | nil => rfl
  | cons p l ih =>
    rw [putWeights, List.foldl_cons, ← putWeights, ih (fun q hq => h q (List.mem_cons_of_mem _ hq)), cellAt_putCell,
      if_neg (h p List.mem_cons_self)]

/-- A cell of the list has the new entry, where its number names it. -/
theorem cellAt_putWeights {l : List (Nat × Nat)} {p : Nat × Nat} (hp : p ∈ l)
    (hl : ∀ q ∈ l, cellNum (c.row0 + p.1) (c.col0 + p.2) = cellNum (c.row0 + q.1) (c.col0 + q.2) → q = p) (s : State) :
    (putWeights c x w l s).cellAt (c.row0 + p.1) (c.col0 + p.2) =
      setWeight (s.cellAt (c.row0 + p.1) (c.col0 + p.2)) x (w p) := by
  induction l generalizing s with
  | nil => exact absurd hp List.not_mem_nil
  | cons q l ih =>
    have hl' : ∀ y ∈ l, cellNum (c.row0 + p.1) (c.col0 + p.2) = cellNum (c.row0 + y.1) (c.col0 + y.2) → y = p :=
      fun y hy => hl y (List.mem_cons_of_mem _ hy)
    rw [putWeights, List.foldl_cons, ← putWeights]
    by_cases hm : p ∈ l
    · rw [ih hm hl', cellAt_putCell]
      split
      · next hk => rw [hl q List.mem_cons_self hk, setWeight_setWeight]
      · rfl
    · obtain rfl : p = q := (List.mem_cons.1 hp).resolve_right hm
      rw [cellAt_putWeights_of_not_mem c x w fun y hy hk => hm (hl' y hy hk ▸ hy), cellAt_putCell, if_pos rfl]

end

/-- R187: a cell of a region lies in its columns and rows. -/
theorem mem_cells {c : RegionCfg} {p : Nat × Nat} (h : p ∈ c.cells) : p.1 < c.rows ∧ p.2 < c.cols := by
  obtain ⟨i, hi, hp⟩ := List.mem_flatMap.1 h
  obtain ⟨j, hj, rfl⟩ := List.mem_map.1 hp
  exact ⟨List.mem_range.1 hi, List.mem_range.1 hj⟩

/-- R1, R187: the number of a cell names it within the 704 columns of the array. -/
theorem cellNum_inj {row col row' col' : Nat} (hc : col < 704) (hc' : col' < 704) (h : cellNum row col = cellNum row' col') :
    row = row' ∧ col = col' := by
  simp only [cellNum] at h
  omega

/-- R195: a row that overflows nowhere and writes a weight entry in every cell. -/
theorem rowState_of_weights {lat : Nat} {x : BitVec 5} {f : CellIn → CellOut} {w : CellIn → Token} {s : State}
    (ho : ∀ p ∈ s.region.cfg.cells, (f (s.cellIn p)).ovf = none) (hw : ∀ n, (f n).weight = some (w n)) :
    rowState lat x f s =
      { putWeights s.region.cfg x (fun p => w (s.cellIn p)) s.region.cfg.cells s with
        region := takeCells s.graph.slotNo lat (fun p => f (s.cellIn p)) s.region.cfg.cells s.region } := by
  have hf : (s.region.cfg.cells.map fun p => (p, f (s.cellIn p))).find? (fun o => o.2.ovf.isSome) = none := by
    refine List.find?_eq_none.2 fun o hm => ?_
    obtain ⟨p, hp, rfl⟩ := List.mem_map.1 hm
    simp [ho p hp]
  have step : ∀ (l : List (Nat × Nat)) (u : State) (r : Region), r.cfg = s.region.cfg → u.graph.slotNo = s.graph.slotNo →
      (l.map fun p => (p, f (s.cellIn p))).foldl (fun (s : State) o =>
        ({ s with region := s.region.takeCell s.graph.slotNo lat o.1 o.2 } : State).takeWeight o.1 x o.2) { u with region := r } =
        { putWeights s.region.cfg x (fun p => w (s.cellIn p)) l u with
          region := takeCells s.graph.slotNo lat (fun p => f (s.cellIn p)) l r } := by
    intro l
    induction l with
    | nil => exact fun u r _ _ => rfl
    | cons p l ih =>
      intro u r hr hu
      have hr' : (r.takeCell s.graph.slotNo lat p (f (s.cellIn p))).cfg = s.region.cfg := by rw [takeCell_eq]; exact hr
      rw [List.map_cons, List.foldl_cons, putWeights, List.foldl_cons, ← putWeights, takeCells, List.foldl_cons, ← takeCells,
        ← ih _ _ hr' (by exact hu)]
      congr 1
      simp only [State.takeWeight, hw, hu, hr']
      rfl
  simp only [rowState, hf]
  exact step _ s s.region rfl rfl

/-- R195: what a row that writes weight entries leaves besides them. -/
theorem rowLands_of_weights {lat : Nat} {x : BitVec 5} {f : CellIn → CellOut} {w : CellIn → Token} {d : BitVec 3}
    {allow : CellIn → BitVec 128} {beat : CellIn → Beat} {s : State} (ho : ∀ p ∈ s.region.cfg.cells, (f (s.cellIn p)).ovf = none)
    (hw : ∀ n, (f n).weight = some (w n)) (hs : ∀ n, (f n).outs = (destsOf d).map fun k => (k, beat n, allow n)) :
    RowLands lat d allow beat (fun n => (f n).flags) (fun n => (f n).gens) s { rowState lat x f s with cells := s.cells } := by
  let g : CellIn → CellOut := fun n => { f n with weight := none }
  obtain ⟨t, ht, hl⟩ := rowLands_cellRow (lat := lat) (x := x) (f := g) (s := s) ho (fun _ => rfl) hs
  have he : rowState lat x g s = { rowState lat x f s with cells := s.cells } := by
    rw [rowState_of_no_ovf (f := g) ho fun _ => rfl, rowState_of_weights ho hw, putWeights_eq]
    rfl
  obtain rfl : rowState lat x g s = t := Host.Outcome.next.inj ht
  exact he ▸ hl

/-! ### WLOAD and WPLT (R195) -/

/-- R195: the entry that WLOAD, or with `check` WPLT, writes. -/
def weightWritten (u : RowUse) (check : Bool) (n : CellIn) : Token :=
  let t := firstToken (n.operand u u.a)
  if check && !t.bub && !sliceOk t then zeroSlice t else t

theorem exec_weight (wplt : Bool) (d a q : BitVec 3) (i o : BitVec 1) (x : BitVec 5) (s : State) :
    exec (if wplt then .cellWplt d a q i o x else .cellWload d a q i o x) s =
      cellRow 1 x (weightCell ⟨d, a, 0, 0, q, 0, x⟩ wplt) s := by
  cases wplt <;> rfl

theorem zeroSlice_lane (t : Token) {l : Nat} (hl : l < 16) :
    (zeroSlice t).lane l = ([0, 0, 1, 0x80807F7F] : List (BitVec 32)).getD l 0 := fld_lineOfLanes _ hl

/-- R194, R195: every weight of the slice that stands in for one that is not well-formed is 0. -/
theorem sliceWeight_zeroSlice (t : Token) (e : Nat) : sliceWeight (zeroSlice t) e = 0 := by
  simp only [sliceWeight, zeroSlice_lane t (show 0 < 16 by decide), zeroSlice_lane t (show 1 < 16 by decide),
    zeroSlice_lane t (show 2 < 16 by decide), zeroSlice_lane t (show 3 < 16 by decide), zeroSlice_lane t (show 4 < 16 by decide)]
  simp [plaitRate, plaitValue]

/-! ### The rows -/

/-- R120, R187: a row that gives one beat and raises no flag. -/
theorem rowLands_plain (lat : Nat) (x : BitVec 5) (u : CellIn → RowUse) (beat : CellIn → Beat) {d : BitVec 3}
    (hd : ∀ n, (u n).d = d) (s : State) : ∃ t, cellRow lat x (fun n => n.plain (u n) (beat n)) s = .next t ∧
      RowLands lat d (fun n => n.allow (u n)) beat (fun _ => 0) (fun n => n.gens) s t :=
  rowLands_cellRow (fun _ _ => rfl) (fun _ => rfl) fun n => by rw [← hd n]; rfl

/-- R197: the reductions combine under the region's rounding mode. -/
theorem exec_of_rowRed {i : Instr} {u op fold fi fo} (h : rowRed i = some (u, op, fold, fi, fo)) (s : State) :
    exec i s = cellRow 2 u.x (combineCell u op true fold (fi == 1) (fo == 1)) s := by
  cases i
  case cellRsum | cellRmax | cellRmin | cellRfold => cases h; rfl
  all_goals contradiction

/-- R197: the positions of a row of PSUM or of a reduction. -/
def combineOut (u : RowUse) (op : Combine) (rm : CellIn → Rounding) (fold fi fo : Bool) (n : CellIn) : BeatAcc :=
  overTokens (tokensOf u.f.toNat) n.gens fun p g => combineToken n.env (rm n) g u.f op fold fi fo
    ((n.operand u u.a).tok u.f.toNat p) ((n.operand u u.b).tok u.f.toNat p)

/-- R196: a row that combines to nearest even. -/
theorem rowResult_psum (u : RowUse) (op : Combine) (fold fi fo : Bool) (s : State) :
    ∃ t, cellRow 1 u.x (combineCell u op false fold fi fo) s = .next t ∧
      RowResult 1 u (fun n => (combineOut u op (fun _ => .rne) fold fi fo n).beat)
        (fun n => (combineOut u op (fun _ => .rne) fold fi fo n).flags) (fun n => n.gens) s t :=
  rowResult_of_positions (f := fun n p g => combineToken n.env .rne g u.f op fold fi fo
    ((n.operand u u.a).tok u.f.toNat p) ((n.operand u u.b).tok u.f.toNat p))
    (fun _ _ _ => combineToken_ovf ..) fun _ _ _ => combineToken_gens_of_rne ..

/-- R120, R197: two bubbles reduce to a bubble. -/
theorem combineCell_red (u : RowUse) (op : Combine) (fold fi fo : Bool) (n : CellIn) : combineCell u op true fold fi fo n =
    let both := (n.operand u u.a).bub && (n.operand u u.b).bub
    let out := combineOut u op (fun n => n.env.rm) fold fi fo n
    ⟨n.sends u (if both then Beat.bubbleOf u.f else out.beat), none, if both then n.gens else out.gens,
      if both then 0 else out.flags, if both then none else out.ovf⟩ := by
  simp only [combineCell, Bool.true_and]
  split <;> rfl

/-- Settles O46: the rows by the beats that their cells send, and a combination by the lanes of its token. -/
theorem cellMoves : Obligations.CellMoves := by
  refine ⟨?pass, ?bubl, ?selr, ?psum, ?reduction, ?lanes, ?weights⟩
  case pass =>
    intro d a q i o x s u
    exact rowLands_plain 1 x u (fun n => n.operand (u n) a) (fun _ => rfl) s
  case bubl =>
    intro d q i o x s
    exact rowLands_plain 1 x _ _ (fun _ => rfl) s
  case selr =>
    intro d a b q i o x s u
    obtain ⟨t, ht, hr⟩ := rowLands_plain 1 x (fun _ => u) (fun n => selectBeat (n.operand u a) (n.operand u b)) (fun _ => rfl) s
    refine ⟨_, t, ht, hr, fun n => ⟨fun hb => if_pos hb, fun hb => ?_⟩⟩
    obtain ⟨h1, h2, h3⟩ := selectBeat_head hb (n.operand u b)
    exact ⟨h1, h2, h3, fun e he => selectBeat_bits hb _ he, fun k hk => selectBeat_data hb _ hk⟩
  case psum =>
    intro d a b q i o x s
    have h := rowResult_psum ⟨d, a, b, 0, q, 0, x⟩ .sum false (i == 1) (o == 1) s
    have hf : (0 : BitVec 4).toNat = 0 := rfl
    have ht : tokensOf 0 = 1 := rfl
    simp only [combineOut, hf, ht] at h
    exact h
  case reduction =>
    intro ins u op fold i o s h
    rw [exec_of_rowRed h]
    have hc := funext (combineCell_red u op fold (i == 1) (o == 1))
    rw [hc]
    refine rowLands_cellRow (fun p _ => ?_) (fun _ => rfl) fun _ => rfl
    dsimp only
    split
    · rfl
    · exact overTokens_ovf (fun _ _ => combineToken_ovf ..) _ _
  case lanes =>
    intro env rm g f op fold fi fo a b y src has
    refine ⟨rfl, rfl, rfl, fun l hl => ?_⟩
    intro v lane p r
    have hv : foldSrc fold a b l = v := rfl
    have hlane := combineToken_lane env rm g f op fold fi fo a b hl hv
    refine ⟨combineToken_valid env rm g f op fold fi fo a b hl, fun h1 h2 => ?_, fun h1 h2 => ?_, fun h1 h2 hf => ?_⟩
    · rw [validLane_of_valid h1, validLane_of_invalid h2] at hlane
      exact hlane (Bool.or_eq_true_iff.2 (.inl h1))
    · rw [validLane_of_invalid h1, validLane_of_valid h2] at hlane
      exact hlane (Bool.or_eq_true_iff.2 (.inr h2))
    · rw [validLane_of_valid h1, validLane_of_valid h2] at hlane
      refine (hlane (Bool.or_eq_true_iff.2 (.inl h1))).trans ?_
      rw [combineLane, if_pos hf, combineInt_eq]
      rfl
  case weights =>
    intro wplt d a q i o x s hcol u c new bad
    have hst := rowState_of_weights (lat := 1) (x := x) (f := weightCell u wplt) (w := weightWritten u wplt) (s := s)
      (fun _ _ => rfl) fun _ => rfl
    have hcells : ∀ row col, (rowState 1 x (weightCell u wplt) s).cellAt row col =
        (putWeights c x (fun p => weightWritten u wplt (s.cellIn p)) c.cells s).cellAt row col := by
      intro row col
      rw [hst]
      rfl
    have hcell : ∀ p ∈ c.cells, c.col0 + p.2 < 704 := fun p hp => by
      have hp2 : p.2 < s.region.cfg.cols := (mem_cells hp).2
      show s.region.cfg.col0 + p.2 < 704
      omega
    refine ⟨_, weightWritten u wplt, exec_weight wplt d a q i o x s,
      rowLands_of_weights (f := weightCell u wplt) (w := weightWritten u wplt) (fun _ _ => rfl) (fun _ => rfl) fun _ => rfl,
      fun p hp => ?_, fun row col hc hn => ?_, fun n hn => ?_, fun n hn => ?_⟩
    · rw [hcells, cellAt_putWeights c x _ hp fun y hy hk => ?_]
      · rfl
      · obtain ⟨h1, h2⟩ := cellNum_inj (hcell p hp) (hcell y hy) hk
        exact Prod.ext (by omega) (by omega)
    · rw [hcells]
      refine cellAt_putWeights_of_not_mem c x _ (fun p hp hk => ?_) s
      obtain ⟨h1, h2⟩ := cellNum_inj hc (hcell p hp) hk
      obtain ⟨hr, hcl⟩ := mem_cells hp
      rw [RegionCfg.holds, decide_eq_false_iff_not] at hn
      omega
    · exact if_neg (Bool.eq_false_iff.1 hn)
    · obtain ⟨⟨-, hb⟩, -⟩ : (wplt = true ∧ (!(new n).bub) = true) ∧ (!sliceOk (new n)) = true := by
        simpa [bad, and_assoc] using hn
      have hw : weightWritten u wplt n = zeroSlice (new n) := if_pos hn
      rw [hw]
      exact ⟨rfl, (Bool.not_eq_true' _).mp hb, fun e _ => sliceWeight_zeroSlice _ e⟩

end Sys2Proof.Laws
end

section
/-! PROOFS. The reads of the core in focus that no write holds back: what the hub leaves, and the value that each gives (R98, R99,
R152, R286). -/

namespace Sys2Proof.Laws

open Sys2Proof Sys2Proof.Machine

/-! ### What an access at the home hub leaves (R309, R311) -/

/-- Nothing but page-table entries and what the hubs hold differs. -/
def OnlyHubs (s t : State) : Prop := t = { s with ptes := t.ptes, hubs := t.hubs }

theorem onlyHubs_refl (s : State) : OnlyHubs s s := rfl

theorem onlyHubs_trans {s t u : State} (h : OnlyHubs s t) (k : OnlyHubs t u) : OnlyHubs s u := by
  rw [OnlyHubs] at h k ⊢
  rw [k, h]

theorem onlyHubs_cachePte (s : State) (p : Nat) (e : BitVec 128) : OnlyHubs s (cachePte s p e) := rfl

theorem onlyHubs_walkerUpdate (s : State) (p : Nat) (e : BitVec 128) (w : Bool) : OnlyHubs s (walkerUpdate s p e w) := by
  simp only [walkerUpdate]
  generalize (if w then setBit (setBit e 7 true) 8 true else setBit e 7 true) = e'
  split
  · exact onlyHubs_refl s
  · split
    · exact onlyHubs_trans (t := putPte s p e') rfl (onlyHubs_cachePte ..)
    · exact onlyHubs_refl s

/-- The state in an answer of the hub. -/
def AnswerHubs (s : State) (x : HubAnswer) : Prop :=
  match x with
  | .at _ _ t => OnlyHubs s t
  | .value _ _ t => OnlyHubs s t
  | .unmapped _ => True
  | .refused _ => True
  | .poisoned => True

theorem answerHubs_ite {s : State} {c : Prop} [Decidable c] {x y : HubAnswer} (hx : AnswerHubs s x) (hy : AnswerHubs s y) :
    AnswerHubs s (if c then x else y) := by
  split
  · exact hx
  · exact hy

/-- R309: a check of an entry answers without a state. -/
theorem answerHubs_pteCheck {e : BitVec 128} {a : Access} {x : HubAnswer} (h : pteCheck e a = some x) (s : State) :
    AnswerHubs s x := by
  unfold pteCheck at h
  split at h
  · cases h; trivial
  split at h
  · cases h; trivial
  split at h
  · cases h; trivial
  split at h
  · split at h
    · cases h
    · cases h; trivial
  · cases h

theorem answerHubs_pageAccess (s : State) (ia : Nat) (a : Access) : AnswerHubs s (pageAccess s ia a) := by
  unfold pageAccess
  refine answerHubs_ite trivial ?_
  dsimp only
  split
  · next h => exact answerHubs_pteCheck h s
  · exact answerHubs_ite trivial (answerHubs_ite trivial
      (onlyHubs_trans (onlyHubs_cachePte ..) (onlyHubs_walkerUpdate ..)))

theorem answerHubs_scratchAccess (s : State) (ia : Nat) : AnswerHubs s (scratchAccess s ia) := by
  unfold scratchAccess
  exact answerHubs_ite trivial (answerHubs_ite trivial (onlyHubs_refl s))

/-- R345: the packed bytes of a fill lie in one page, or in two that are met in order. -/
theorem answerHubs_packedAccess (s : State) (ia len : Nat) (a : Access) : AnswerHubs s (packedAccess s ia len a) := by
  have h := answerHubs_pageAccess s ia a
  unfold packedAccess
  dsimp only
  split
  · next loc attr t e =>
    rw [e] at h
    refine answerHubs_ite trivial (answerHubs_ite h ?_)
    have k := answerHubs_pageAccess t ((ia + len - 1) / 65536 * 65536) a
    split
    · next e2 =>
      rw [e2] at k
      exact answerHubs_ite trivial (onlyHubs_trans h k)
    · next e2 =>
      rw [e2] at k
      exact onlyHubs_trans (t := t) h k
    all_goals trivial
  · next e =>
    rw [e] at h
    exact h
  all_goals trivial

theorem answerHubs_value {s t : State} {v : Nat} {attr : BitVec 2} (h : AnswerHubs s (.value v attr t)) (w : Nat) :
    AnswerHubs s (.value w attr t) := h

theorem answerHubs_decodedAccess (s : State) (r : FormatRange) (ia : Nat) (a : Access) : AnswerHubs s (decodedAccess s r ia a) := by
  have h := answerHubs_packedAccess s (r.pbase + (ia - r.dbase) / 64 * r.blockBytes) r.blockBytes a
  unfold decodedAccess
  dsimp only
  refine answerHubs_ite trivial ?_
  split
  · next e =>
    rw [e] at h
    exact answerHubs_value h _
  · exact h

theorem answerHubs_hubAccess (s : State) (ia : Nat) (a : Access) : AnswerHubs s (hubAccess s ia a) := by
  unfold hubAccess
  refine answerHubs_ite (answerHubs_ite trivial (answerHubs_scratchAccess ..)) (answerHubs_ite
    (answerHubs_ite trivial (onlyHubs_refl s)) ?_)
  split
  · exact answerHubs_ite (answerHubs_decodedAccess ..) (answerHubs_pageAccess ..)
  · exact answerHubs_pageAccess ..

/-- R99: a load leaves no more than entries and what the hubs hold. -/
theorem onlyHubs_of_hubLoad {s t : State} {ia n v : Nat} {a : Access} {attr : BitVec 2} (h : hubLoad s ia n a = .value v attr t) :
    OnlyHubs s t := by
  have k := answerHubs_hubAccess s ia a
  unfold hubLoad at h
  split at h
  · next e =>
    rw [e] at k
    split at h
    · cases h
    · cases h; exact k
  · next e =>
    rw [e] at k
    cases h
    exact k
  all_goals cases h

/-! ### The core that has read -/

theorem onlyEntries_refl (s : State) : OnlyEntries s s := rfl

theorem onlyEntries_trans {s t u : State} (h : OnlyEntries s t) (k : OnlyEntries t u) : OnlyEntries s u := by
  rw [OnlyEntries] at h k ⊢
  rw [k, h]

theorem onlyEntries_core {s t : State} (h : OnlyEntries s t) : t.tile.core = { s.tile.core with attrs := t.tile.core.attrs } :=
  congrArg (fun u : State => u.tile.core) h

/-- What a read leaves of the core besides the attributes: its wards, registers and accounts. -/
theorem onlyEntries_fields {s t : State} (h : OnlyEntries s t) : t.tile.core.wards = s.tile.core.wards ∧
    t.tile.core.toks = s.tile.core.toks ∧ t.tile.core.masks = s.tile.core.masks ∧ t.tile.core.energy = s.tile.core.energy ∧
    t.tile.core.ew = s.tile.core.ew := by
  rw [onlyEntries_core h]
  exact ⟨rfl, rfl, rfl, rfl, rfl⟩

theorem memKept_of_onlyEntries {s t : State} (h : OnlyEntries s t) : MemKept s t := fun a => by
  rw [OnlyEntries] at h
  rw [h]

/-- R320: the attribute that a load's reply brings is all that it changes of the core. -/
theorem onlyEntries_of_readOne {n : Nat} {va : BitVec 64} {s t : State} {v : Nat} (h : ReadOne n va s v t) : OnlyEntries s t := by
  obtain ⟨w, attr, u, -, -, -, hl, rfl⟩ := h
  have hu := onlyHubs_of_hubLoad hl
  rw [OnlyHubs] at hu
  rw [hu]
  rfl

/-! ### One read (R98, R99, R286, R306, R319, R320) -/

/-- R306: the IA as the spec and the model compute it. -/
theorem ia_eq_iaOf {w : Ward} {va : BitVec 64} (h : WardHolds w va) : w.ia va.toNat = iaOf w va := by
  obtain ⟨-, -, hlo, -⟩ := h
  have : w.vbase.toNat * 65536 ≤ va.toNat := by omega
  simp only [Ward.ia, iaOf, Nat.add_sub_assoc this]

theorem wardHolds_of_wardOf {c : Core} {va : BitVec 64} {w : Ward} (h : WardOf c va w) : WardHolds w va := by
  obtain ⟨-, -, -, -, h⟩ := h
  exact h

theorem meets_none_iff {e : CreelEntry} {lines : List Nat} :
    e.meets none lines = true ↔ e.dest = none ∧ e.ia.toNat / 64 ∈ lines := by
  simp [CreelEntry.meets]

theorem creelHolds_of_loadClear {c : Core} {ia : Nat} {lines : List Nat} (h : LoadClear c ia lines) :
    creelHolds c.creel none lines (attrOf c.attrs (ia / 65536) == 0) = false := by
  obtain ⟨h, -, -⟩ := h
  refine List.any_eq_false.2 fun e he hb => ?_
  obtain ⟨hlive, hb⟩ := Bool.and_eq_true_iff.1 hb
  obtain ⟨hline, hso⟩ := h e he (eq_of_beq hlive)
  obtain hb | hb := Bool.or_eq_true_iff.1 hb
  · obtain ⟨hd, hm⟩ := meets_none_iff.1 hb
    exact hline hd hm
  · obtain ⟨ha, he0⟩ := Bool.and_eq_true_iff.1 hb
    exact hso (eq_of_beq ha) (eq_of_beq he0)

theorem aloftMeets_of_loadClear {c : Core} {ia : Nat} {lines : List Nat} (h : LoadClear c ia lines) :
    c.aloftMeets none lines (attrOf c.attrs (ia / 65536)) = false := by
  obtain ⟨-, h, -⟩ := h
  refine Bool.eq_false_iff.2 fun hb => ?_
  obtain ⟨ha, hb⟩ := Bool.and_eq_true_iff.1 hb
  have hc := h (by simpa using ha)
  obtain hb | hb := Bool.or_eq_true_iff.1 hb
  · obtain ⟨e, he, hm⟩ := List.any_eq_true.1 hb
    obtain ⟨hd, hm⟩ := meets_none_iff.1 hm
    exact hc e (List.mem_append_left _ he) hd hm
  · obtain ⟨x, hx, hm⟩ := List.any_eq_true.1 hb
    obtain ⟨hd, hm⟩ := meets_none_iff.1 hm
    exact hc x.entry (List.mem_append_right _ (List.mem_map_of_mem hx)) hd hm

theorem soAloft_of_orderClear {c : Core} {ia : Nat} (h : OrderClear c ia) :
    (attrOf c.attrs (ia / 65536) == 0 && c.soAloft) = false := by
  refine Bool.eq_false_iff.2 fun hb => ?_
  obtain ⟨ha, hb⟩ := Bool.and_eq_true_iff.1 hb
  have hc := h (eq_of_beq ha)
  obtain hb | hb := Bool.or_eq_true_iff.1 hb
  · obtain ⟨x, hx, h0⟩ := List.any_eq_true.1 hb
    exact hc x.entry (List.mem_append_right _ (List.mem_map_of_mem hx)) (eq_of_beq h0)
  · obtain ⟨e, he, h0⟩ := List.any_eq_true.1 hb
    exact hc e (List.mem_append_left _ he) (eq_of_beq h0)

/-- R286, R319, R320: a load that no write stands in the way of is sent. -/
theorem loadWaits_of_loadClear {c : Core} {ia : Nat} {lines : List Nat} (h : LoadClear c ia lines) (va : BitVec 64) :
    c.loadWaits va none lines (attrOf c.attrs (ia / 65536)) = none := by
  obtain ⟨-, -, ho⟩ := id h
  simp only [Core.loadWaits, creelHolds_of_loadClear h, aloftMeets_of_loadClear h, soAloft_of_orderClear ho, Bool.or_self,
    Bool.false_eq_true, if_false]

theorem recalls_eq_false {s : State} {lines : List Nat} (h : ∀ l ∈ lines, l ∉ s.island.dirtyLines) : s.recalls lines = false :=
  List.any_eq_false.2 fun l hl hc => h l hl (List.contains_iff_mem.1 hc)

/-- R99: a read that the spec allows gives its value. -/
theorem rimRead_of_readOne {n : Nat} {va : BitVec 64} {s t : State} {v : Nat} (h : ReadOne n va s v t) :
    rimRead va n s = .value v t := by
  obtain ⟨w, attr, u, ⟨-, hw, -, -, hr⟩, hclear, hdirty, hl, rfl⟩ := h
  simp only [rimRead, findWard_of_wardOf hw, ia_eq_iaOf (wardHolds_of_wardOf hw), hr, Bool.false_eq_true, if_false,
    loadWaits_of_loadClear hclear, recalls_eq_false hdirty, hl, afterLoad]

/-! ### Several reads (R102, R152) -/

theorem onlyEntries_of_readAll {n : Nat} {vas : List (BitVec 64)} {s t : State} {vs : List Nat} (h : ReadAll n vas s vs t) :
    OnlyEntries s t := by
  induction vas generalizing s vs with
  | nil =>
    obtain ⟨-, rfl⟩ := h
    exact onlyEntries_refl _
  | cons va vas ih =>
    cases vs with
    | nil => exact h.elim
    | cons v vs =>
      obtain ⟨u, h1, h2⟩ := h
      exact onlyEntries_trans (onlyEntries_of_readOne h1) (ih h2)

theorem rimReads_of_readAll {n : Nat} {vas : List (BitVec 64)} {s t : State} {vs : List Nat} (h : ReadAll n vas s vs t)
    (got : List Nat) (k : List Nat → State → Act) : rimReads n vas s got k = k (got ++ vs) t := by
  induction vas generalizing s vs got with
  | nil =>
    obtain ⟨rfl, rfl⟩ := h
    rw [rimReads, List.append_nil]
  | cons va vas ih =>
    cases vs with
    | nil => exact h.elim
    | cons v vs =>
      obtain ⟨u, h1, h2⟩ := h
      simp only [rimReads, rimRead_of_readOne h1, ih h2, List.append_assoc, List.singleton_append]

theorem reaches_congr {c c' : Core} (h : c.wards = c'.wards) {va : BitVec 64} {n : Nat} {rd wr : Bool} {w : Ward}
    (hr : Reaches c va n rd wr w) : Reaches c' va n rd wr w := by
  obtain ⟨ha, ⟨pre, post, hl, hw⟩, hp⟩ := hr
  exact ⟨ha, ⟨pre, post, h ▸ hl, hw⟩, hp⟩

/-- R98: every one of several reads passes the checks at issue: the wards stay as they are. -/
theorem reaches_of_readAll {n : Nat} {vas : List (BitVec 64)} {s t : State} {vs : List Nat} (h : ReadAll n vas s vs t) :
    ∀ va ∈ vas, ∃ w, Reaches s.tile.core va n true false w := by
  induction vas generalizing s vs with
  | nil => exact fun _ hm => absurd hm List.not_mem_nil
  | cons va vas ih =>
    cases vs with
    | nil => exact h.elim
    | cons v vs =>
      obtain ⟨u, h1, h2⟩ := h
      obtain ⟨hwards, -⟩ := onlyEntries_fields (onlyEntries_of_readOne h1)
      intro x hx
      obtain rfl | hx := List.mem_cons.1 hx
      · obtain ⟨w, -, -, hw, -⟩ := h1
        exact ⟨w, hw⟩
      · obtain ⟨w, hw⟩ := ih h2 x hx
        exact ⟨w, reaches_congr hwards hw⟩

/-- R98: accesses that reach their wards pass the checks. -/
theorem checkVas_of_reaches {c : Core} {n : Nat} {vas : List (BitVec 64)} (h : ∀ va ∈ vas, ∃ w, Reaches c va n true false w) :
    checkVas c.wards.toList vas n true false = none := by
  have h1 : (vas.find? fun v => v.toNat % n != 0) = none := List.find?_eq_none.2 fun va hva => by
    obtain ⟨w, hal, -⟩ := h va hva
    simp [hal]
  have h2 : (vas.find? fun v => (findWard c.wards.toList v.toNat).isNone) = none := List.find?_eq_none.2 fun va hva => by
    obtain ⟨w, -, hw, -⟩ := h va hva
    simp [findWard_of_wardOf hw]
  have h3 : (vas.find? fun v => !((findWard c.wards.toList v.toNat).any fun w => w.grants true false)) = none :=
    List.find?_eq_none.2 fun va hva => by
      obtain ⟨w, -, hw, hr, -⟩ := h va hva
      simp [findWard_of_wardOf hw, Ward.grants, hr rfl]
  simp only [checkVas, h1, h2, h3, Option.map_none]

/-- R152: no byte of this module is asked for at another. -/
theorem bytesAhead_of_reaches {s : State} {n : Nat} {vas : List (BitVec 64)}
    (h : ∀ va ∈ vas, ∃ w, Reaches s.tile.core va n true false w) : bytesAhead vas s = none := by
  unfold bytesAhead
  dsimp only
  split
  · rfl
  · next e =>
    obtain ⟨va, hva, he⟩ := List.exists_of_findSome?_eq_some e
    obtain ⟨w, -, hw, -, -, hr⟩ := h va hva
    simp [findWard_of_wardOf hw, hr] at he

theorem segmentAhead_of_reaches {s : State} {va : BitVec 64} {n : Nat} {w : Ward} (h : Reaches s.tile.core va n true false w)
    (i0 : Nat) (lanes : BitVec 16) : segmentAhead va i0 lanes s = none := by
  obtain ⟨-, hw, -, -, hr⟩ := h
  simp only [segmentAhead, findWard_of_wardOf hw, hr, Bool.not_false, Bool.true_or, if_true]

/-- R152: bytes that can all be read. -/
theorem readBytesAt_of_readAll {vas : List (BitVec 64)} {s t : State} {vs : List Nat} (h : ReadAll 1 vas s vs t)
    (k : List Nat → State → Act) : readBytesAt vas k s = k vs t := by
  have hr := reaches_of_readAll h
  simp only [readBytesAt, checkVas_of_reaches hr, bytesAhead_of_reaches hr, rimReads_of_readAll h, List.nil_append]

/-! ### Retirement after reads -/

/-- R168: an instruction that has read retires with its effect on the core that the reads have left. -/
theorem retireTo_afterAccess (k : Fin 8) (w : Word) {s u : State} (hu : OnlyEntries s u) (f : Core → Core)
    (hf : (f u.tile.core).retiredAs u.tile.core = f u.tile.core) (hw : (f u.tile.core).ew = u.tile.core.ew) :
    AfterAccess k f s u (lateIn w (retireTo s (u.setCore (f u.tile.core)) k (nextOf s))) := by
  obtain ⟨-, -, -, hen, hew⟩ := onlyEntries_fields hu
  have he : (f u.tile.core).energy = s.tile.core.energy := by rw [← hf, ← hen]; rfl
  refine ⟨⟨rfl, charge_lc .., charge_lcsAct .., ?_, rfl⟩, rfl, ?_⟩
  · exact charge_energy s.tile.core ((f u.tile.core).withLoops (nextOf s).2) he (hw.trans hew) k
  · have h : (((f u.tile.core).withLoops (nextOf s).2).charge k s.tile.core.mode).retiredAs u.tile.core = f u.tile.core := by
      rw [charge_retiredAs]; exact hf
    exact h

end Sys2Proof.Laws
end

section
/-! PROOFS. VPLD: the token of a packed block (O31). -/

namespace Sys2Proof.Laws

open Sys2Proof Sys2Proof.Machine

/-! ### The token (R151) -/

/-- R102, R151: a token whose active lanes a load writes. -/
theorem buildToken_lanesLoaded (old : Token) (k : BitVec 1) (tag : BitVec 4) (exp : BitVec 8) (p : Nat → Bool)
    (val : Nat → BitVec 32) : LanesLoaded old
      (buildToken old (k == 1) tag exp ((List.range 16).map fun l => if p l then some (val l) else none) 0xFFFF 0) k
      (((List.range 16).filter p).map fun l => (l, (val l).toNat)) := by
  refine ⟨rfl, fun x hx => ?_, fun l hl hn => ?_⟩
  · obtain ⟨l, hm, rfl⟩ := List.mem_map.1 hx
    obtain ⟨hr, hp⟩ := List.mem_filter.1 hm
    have hl : l < 16 := List.mem_range.1 hr
    obtain ⟨hd, hv, hpred⟩ := buildToken_active old tag exp 0xFFFF 0 (k == 1) hl
      ((getD_map_range (fun l => if p l then some (val l) else none) none hl).trans (if_pos hp))
    exact ⟨hd.trans (by rw [BitVec.ofNat_toNat, BitVec.setWidth_eq]), hv.trans (ones16_getLsbD hl), hpred.trans BitVec.getLsbD_zero⟩
  · have hp : ¬ p l = true := fun hp => hn _ (List.mem_map_of_mem (List.mem_filter.2 ⟨List.mem_range.2 hl, hp⟩)) rfl
    exact buildToken_inactive old tag exp 0xFFFF 0 k hl
      ((getD_map_range (fun l => if p l then some (val l) else none) none hl).trans (if_neg hp))

/-- R151: a bad header writes no lane. -/
theorem buildToken_nil_lanesLoaded (old : Token) (k : BitVec 1) (tag : BitVec 4) (exp : BitVec 8) :
    LanesLoaded old (buildToken old (k == 1) tag exp [] 0 0) k [] :=
  ⟨rfl, fun _ h => absurd h List.not_mem_nil, fun _ hl _ => buildToken_inactive old tag exp 0 0 k hl rfl⟩

/-- R151: the active lanes below the weight count. -/
theorem filter_active (m : BitVec 16) (p : Nat → Bool) :
    (activeOf m).filter p = (List.range 16).filter fun l => m.getLsbD l && p l := by
  rw [activeOf, List.filter_filter]
  exact List.filter_congr fun l _ => Bool.and_comm ..

theorem plaitToken_lanesLoaded (h : PlaitHeader) (old : Token) (k : BitVec 1) (m : BitVec 16) (i0 : Nat) (win : Nat → Nat)
    (exp : BitVec 8) : LanesLoaded old (plaitToken h old (k == 1) m i0 win exp) k
      (((activeOf m).filter fun l => decide (i0 + l < h.n)).map fun l =>
        (l, (BitVec.ofInt 32 (plaitValue (win (i0 + l)) h.mul h.add)).toNat)) := by
  rw [filter_active]
  exact buildToken_lanesLoaded old k 14 exp (fun l => m.getLsbD l && decide (i0 + l < h.n)) _

/-- R151: the bytes that VPLD needs. -/
theorem plaitNeeded_eq (h : PlaitHeader) (i0 : Nat) (m : BitVec 16) : plaitNeeded h i0 m =
    let stream := plaitBytes h 16 (((activeOf m).filter fun l => decide (i0 + l < h.n)).map fun l => h.pos (i0 + l))
    if i0 < h.n then insertRising (h.expOffset + i0 / 48) stream else stream := by
  rw [filter_active]
  rfl

/-! ### The course of VPLD (R151, R152) -/

theorem ofNat_add_offset (va : BitVec 64) (j : Nat) : BitVec.ofNat 64 (va.toNat + j) = va + BitVec.ofNat 64 j := by
  rw [BitVec.ofNat_add, BitVec.ofNat_toNat, BitVec.setWidth_eq]

/-- R151: the token of a bad header: every lane cleared or kept. -/
def plaitEmpty (d : BitVec 5) (k : BitVec 1) (c : Core) : Token := buildToken (c.t d) (k == 1) 14 0 [] 0 0

/-- R151: the token of a bad header in its register, and NV. -/
def plaitRefused (d : BitVec 5) (x : Token) (c : Core) : Core := { c.setT d x with fstat := c.fstat ||| flagNV }

theorem plaitRefused_retiredAs (d : BitVec 5) (x : Token) (c : Core) : (plaitRefused d x c).retiredAs c = plaitRefused d x c := rfl

theorem plaitRefused_ew (d : BitVec 5) (x : Token) (c : Core) : (plaitRefused d x c).ew = c.ew := rfl

theorem setT_retiredAs (c : Core) (d : BitVec 5) (x : Token) : (c.setT d x).retiredAs c = c.setT d x := rfl

/-- R151: the byte at offset `o` of those read at the offsets `needed`. -/
def plaitByte (needed got : List Nat) (o : Nat) : Nat := (assocGet (needed.zip got) o).getD 0

/-- R151: the token of the bytes that VPLD has read, in the core that has read the header. -/
def plaitLoaded (h : PlaitHeader) (d : BitVec 5) (m : BitVec 3) (k : BitVec 1) (i0 : Nat) (got : List Nat) (c : Core) : Token :=
  let byte := plaitByte (plaitNeeded h i0 (c.m m)) got
  plaitToken h (c.t d) (k == 1) (c.m m) i0 (fun i => plaitBits h 16 (h.pos i) byte)
    (if i0 < h.n then BitVec.ofNat 8 (byte (h.expOffset + i0 / 48)) else 0)

theorem plaitLoaded_exp (h : PlaitHeader) (d : BitVec 5) (m : BitVec 3) (k : BitVec 1) (i0 : Nat) (got : List Nat) (c : Core) :
    (plaitLoaded h d m k i0 got c).exp = if i0 < h.n then
      BitVec.ofNat 8 (plaitByte (plaitNeeded h i0 (c.m m)) got (h.expOffset + i0 / 48)) else 0 := rfl

theorem plaitLoaded_lanesLoaded (h : PlaitHeader) (d : BitVec 5) (m : BitVec 3) (k : BitVec 1) (i0 : Nat) (got : List Nat)
    (c : Core) : LanesLoaded (c.t d) (plaitLoaded h d m k i0 got c) k
      (((activeOf (c.m m)).filter fun l => decide (i0 + l < h.n)).map fun l =>
        (l, (BitVec.ofInt 32 (plaitValue (plaitBits h 16 (h.pos (i0 + l)) (plaitByte (plaitNeeded h i0 (c.m m)) got))
          h.mul h.add)).toNat)) := by
  unfold plaitLoaded
  exact plaitToken_lanesLoaded h (c.t d) k (c.m m) i0
    (fun i => plaitBits h 16 (h.pos i) (plaitByte (plaitNeeded h i0 (c.m m)) got)) _

/-- R151, R152: VPLD once its header has been read. -/
def plaitBody (d : BitVec 5) (m : BitVec 3) (k : BitVec 1) (va : BitVec 64) (i0 : Nat) (head : BitVec 128) (s : State) : Act :=
  match plaitHeader head with
  | none => .done (s.setCore (plaitRefused d (plaitEmpty d k s.tile.core) s.tile.core))
  | some h => readBytesAt ((plaitNeeded h i0 (s.tile.core.m m)).map fun o => BitVec.ofNat 64 (va.toNat + o))
      (fun got t => .done (t.setCore (t.tile.core.setT d (plaitLoaded h d m k i0 got s.tile.core)))) s

/-- R151: VPLD from its alignment on. -/
def plaitStart (d a b : BitVec 5) (m : BitVec 3) (k : BitVec 1) (s : State) : Act :=
  let va := s.tile.core.s a
  let i0 := (s.tile.core.s b).toNat / 16 * 16
  if va.toNat % 16 ≠ 0 then .trap causeAlign va
  else
    match segmentAhead va i0 (s.tile.core.m m) s with
    | some a => a
    | none => readHeader va.toNat (fun hv s => plaitBody d m k va i0 (BitVec.ofNat 128 hv) s) s

section
variable (d a b : BitVec 5) (m : BitVec 3) (k : BitVec 1) {s u v : State}

theorem exec_vpld_eq (s : State) :
    exec (.vpld d a b m k) s = seqInstr 4 (encode (.vpld d a b m k)) true (plaitStart d a b m k) s := rfl

theorem readHeader_of_readAll {va : BitVec 64} {hs : List Nat}
    (h : ReadAll 1 ((List.range 16).map fun j => va + BitVec.ofNat 64 j) s hs u) (f : Nat → State → Act) :
    readHeader va.toNat f s = f (natOfBytes (hs.map (BitVec.ofNat 8))) u := by
  simp only [readHeader, ofNat_add_offset, readBytesAt_of_readAll h]

/-- R152: a header whose bytes can be read is in this module, and is read before anything else. -/
theorem plaitStart_of_readAll {hs : List Nat} (hal : (s.tile.core.s a).toNat % 16 = 0)
    (h : ReadAll 1 ((List.range 16).map fun j => s.tile.core.s a + BitVec.ofNat 64 j) s hs u) :
    plaitStart d a b m k s = plaitBody d m k (s.tile.core.s a) ((s.tile.core.s b).toNat / 16 * 16)
      (BitVec.ofNat 128 (natOfBytes (hs.map (BitVec.ofNat 8)))) u := by
  obtain ⟨w, hw⟩ := reaches_of_readAll h (s.tile.core.s a)
    (List.mem_map.2 ⟨0, List.mem_range.2 (by decide), BitVec.add_zero _⟩)
  simp only [plaitStart, hal, segmentAhead_of_reaches hw, readHeader_of_readAll h, ne_eq, not_true_eq_false, if_false]

/-- R151: a bad header ends the instruction. -/
theorem plaitBody_of_none {va : BitVec 64} {head : BitVec 128} (i0 : Nat) (h : plaitHeader head = none) :
    plaitBody d m k va i0 head s = .done (s.setCore (plaitRefused d (plaitEmpty d k s.tile.core) s.tile.core)) := by
  simp only [plaitBody, h]

/-- R151: a good header leads to the bytes of its elements and their exponent. -/
theorem plaitBody_of_some {va : BitVec 64} {head : BitVec 128} {h : PlaitHeader} {i0 : Nat} {vs : List Nat}
    (hh : plaitHeader head = some h)
    (hr : ReadAll 1 ((plaitNeeded h i0 (s.tile.core.m m)).map fun o => va + BitVec.ofNat 64 o) s vs u) :
    plaitBody d m k va i0 head s =
      .done (u.setCore (u.tile.core.setT d (plaitLoaded h d m k i0 vs s.tile.core))) := by
  simp only [plaitBody, hh, ofNat_add_offset, readBytesAt_of_readAll hr]

/-- R168: VPLD retires with the effect on the core that its reads have left. -/
theorem exec_vpld_afterAccess (hc : CanRetire s) (hu : OnlyEntries s u) (f : Core → Core)
    (hf : (f u.tile.core).retiredAs u.tile.core = f u.tile.core) (hw : (f u.tile.core).ew = u.tile.core.ew)
    (hb : plaitStart d a b m k s = .done (u.setCore (f u.tile.core))) :
    ∃ t, exec (.vpld d a b m k) s = .next t ∧ AfterAccess 4 f s u t ∧ MemKept s t :=
  ⟨_, (exec_vpld_eq d a b m k s).trans (seqInstr_done 4 _ _ s _ hc hb), retireTo_afterAccess 4 _ hu f hf hw,
    fun x => memKept_of_onlyEntries hu x⟩

end

theorem t_of_onlyEntries {s u : State} (h : OnlyEntries s u) (r : BitVec 5) : u.tile.core.t r = s.tile.core.t r := by
  obtain ⟨-, ht, -⟩ := onlyEntries_fields h
  simp only [Core.t, ht]

theorem m_of_onlyEntries {s u : State} (h : OnlyEntries s u) (r : BitVec 3) : u.tile.core.m r = s.tile.core.m r := by
  obtain ⟨-, -, hm, -⟩ := onlyEntries_fields h
  simp only [Core.m, hm]

/-- Settles O31: once its header is read, VPLD either writes no lane and raises NV, or reads the bytes that its active elements need
and writes the token of their values. -/
theorem plaitLoads : Obligations.PlaitLoads := by
  unfold Obligations.PlaitLoads
  intro d a b m k s u hs hc va old hal hr head
  have hu : OnlyEntries s u := onlyEntries_of_readAll hr
  have hstart : plaitStart d a b m k s = plaitBody d m k va ((s.tile.core.s b).toNat / 16 * 16) head u :=
    plaitStart_of_readAll d a b m k hal hr
  have hold : u.tile.core.t d = old := t_of_onlyEntries hu d
  refine ⟨fun hn => ?_, ?_⟩
  · obtain ⟨t, he, ha, hm⟩ := exec_vpld_afterAccess d a b m k hc hu (plaitRefused d (plaitEmpty d k u.tile.core))
      (plaitRefused_retiredAs ..) (plaitRefused_ew ..) (hstart.trans (plaitBody_of_none d m k _ hn))
    exact ⟨plaitEmpty d k u.tile.core, t, he, ha, hm, rfl, rfl, hold ▸ buildToken_nil_lanesLoaded ..⟩
  · intro h i0 els expAt stream needed vs v hh hi hels hexp hstream hneeded hrv byte
    have hneed : needed = plaitNeeded h i0 (u.tile.core.m m) := by
      rw [m_of_onlyEntries hu, plaitNeeded_eq, hneeded, hstream, hels, hexp]
    have hbyte : byte = plaitByte (plaitNeeded h i0 (u.tile.core.m m)) vs := by rw [← hneed]; rfl
    rw [hneed] at hrv
    obtain ⟨t, he, ha, hm⟩ := exec_vpld_afterAccess d a b m k hc (onlyEntries_trans hu (onlyEntries_of_readAll hrv))
      (fun c => c.setT d (plaitLoaded h d m k i0 vs u.tile.core)) (setT_retiredAs ..) (setT_ew ..)
      (hstart.trans (hi ▸ plaitBody_of_some d m k hh hrv))
    refine ⟨plaitLoaded h d m k i0 vs u.tile.core, t, he, ha, hm, rfl, ?_, ?_⟩
    · rw [hbyte, hexp, plaitLoaded_exp]
    · rw [hbyte, hels, ← hold, ← m_of_onlyEntries hu m]
      exact plaitLoaded_lanesLoaded ..

end Sys2Proof.Laws
end

section
/-! PROOFS. The issue of CFG: its own order of checks, and the status of a length that it refuses (O39). -/

namespace Sys2Proof.Laws

open Sys2Proof Sys2Proof.Machine

theorem fld_eq_zero_iff {n : Nat} (w : BitVec n) (len : Nat) : fld w 0 len = 0 ↔ w.toNat % 2 ^ len = 0 := by
  rw [fld, ← BitVec.toNat_inj, BitVec.extractLsb'_toNat, Nat.shiftRight_zero]
  rfl

section
variable {d : BitVec 5} {sa sb : BitVec 64} {s : State}

/-- R177: a CFG whose stream one readable ward holds joins the queue. -/
theorem cfgAct_queued (h0 : 0 < sb.toNat) (h1 : sb.toNat ≤ 2 ^ 20) (hr : RecordOk s.tile.core sa 4 (4 * sb.toNat))
    (hl : s.tile.core.cmds.length < 16) (h8 : (s.tile.core.cmds.filter fun x => x.kind == .cfg).length < 8) :
    ∃ w, cfgAct d sa sb s = .done (s.setCore (s.tile.core.addCmd .cfg d sa sb w)) := by
  obtain ⟨hal, w, hw, hpr, hlim⟩ := hr
  refine ⟨w, ?_⟩
  have hz : sb ≠ 0 := fun h => by simp [h] at h0
  unfold cfgAct
  rw [if_neg (not_not.2 ((fld_eq_zero_iff sa 2).2 hal)), if_neg (by simp only [hz, false_or]; omega)]
  simp only [findWard_of_wardOf hw]
  rw [if_neg (by omega), if_neg (by simp [hpr]), if_neg (by omega)]

/-- R209: a length outside 1 to 2^20 lands BADLEN at once. -/
theorem cfgAct_badLen (hal : sa.toNat % 4 = 0) (hn : sb.toNat = 0 ∨ 2 ^ 20 < sb.toNat) (hl : s.tile.core.cmds.length < 16) :
    cfgAct d sa sb s = .done (s.setCore
      ((s.tile.core.addCmd .cfg d sa sb Ward.reset).takeStatus s.tile.core.cmdSerial ⟨0x04, 0, fld sb 0 32⟩ false)) := by
  have hz : sb = 0 ∨ 2 ^ 20 < sb.toNat := hn.imp_left fun h => BitVec.eq_of_toNat_eq h
  unfold cfgAct
  rw [if_neg (not_not.2 ((fld_eq_zero_iff sa 2).2 hal)), if_pos hz, if_neg (by omega)]

theorem cfgAct_misaligned (hal : sa.toNat % 4 ≠ 0) : cfgAct d sa sb s = .trap causeAlign sa :=
  if_pos (mt (fld_eq_zero_iff sa 2).1 hal)

/-- R177: a stream that leaves the ward of its first word. -/
theorem cfgAct_pastWard {w : Ward} (hal : sa.toNat % 4 = 0) (h0 : 0 < sb.toNat) (h1 : sb.toNat ≤ 2 ^ 20)
    (hw : WardOf s.tile.core sa w) (hlim : w.vlimit.toNat * 65536 < sa.toNat + 4 * sb.toNat) :
    cfgAct d sa sb s = .trap causeWardMiss (BitVec.ofNat 64 (w.vlimit.toNat * 65536)) := by
  have hz : sb ≠ 0 := fun h => by simp [h] at h0
  unfold cfgAct
  rw [if_neg (not_not.2 ((fld_eq_zero_iff sa 2).2 hal)), if_neg (by simp only [hz, false_or]; omega)]
  simp only [findWard_of_wardOf hw]
  rw [if_pos hlim]

end

/-! ### A status that lands as it is issued -/

theorem landWaiter_of_other {c : Core} {x : Cmd} (h : x.kind ≠ .cfgw ∧ x.kind ≠ .cpyw) : c.landWaiter x = c := by
  obtain ⟨h1, h2⟩ := h
  exact if_neg (by simp [h1, h2])

/-- R178, R221: where no CFGW or CPYW is outstanding, none can land. -/
theorem landWaiters_of_none {c : Core} (h : ∀ x ∈ c.cmds, x.kind ≠ .cfgw ∧ x.kind ≠ .cpyw) : c.landWaiters = c := by
  rw [Core.landWaiters]
  generalize c.cmds = l at h
  induction l with
  | nil => rfl
  | cons x xs ih =>
    rw [List.foldl_cons, landWaiter_of_other (h x (.head _))]
    exact ih fun y hy => h y (.tail _ hy)

/-- R208: BADLEN's word. -/
theorem landedWord_cfg_badLen (v : BitVec 64) :
    landedWord .cfg ⟨0x04, 0, fld v 0 32⟩ = BitVec.ofNat 64 (0x80000004 + 2 ^ 32 * (v.toNat % 2 ^ 32)) := by
  simp [landedWord, fld, CmdKind.code]

/-- R178, R209: a core in which the next CFG has ended with a status word as it was issued. -/
def cfgEnded (d : BitVec 5) (w : BitVec 64) (c : Core) : Core :=
  { c.setS d w with cmdSerial := c.cmdSerial + 1, cfgLog := c.cfgLog ++ [(c.cmdSerial, w)] }

theorem cfgEnded_retiredAs (d : BitVec 5) (w : BitVec 64) (c : Core) : (cfgEnded d w c).retiredAs c = cfgEnded d w c := by
  unfold cfgEnded Core.setS
  split <;> rfl

/-- R207, R209: the status of a CFG that lands as it is issued. -/
theorem addCmd_takeStatus_cfg {c : Core} (d : BitVec 5) (sa sb : BitVec 64) (w : Ward) (st : Status) (hr : c.run ≠ .idle)
    (hc : ∀ x ∈ c.cmds, x.serial < c.cmdSerial ∧ x.kind ≠ .cfgw ∧ x.kind ≠ .cpyw) :
    (c.addCmd .cfg d sa sb w).takeStatus c.cmdSerial st false = cfgEnded d (landedWord .cfg st) c := by
  have hne : ∀ x ∈ c.cmds, (x.serial == c.cmdSerial) = false := fun x hx => by
    have := (hc x hx).1
    simp only [beq_eq_false_iff_ne, ne_eq]
    omega
  have hfind : (c.addCmd .cfg d sa sb w).cmds.find? (fun x => x.serial == c.cmdSerial) = some (newCmd c .cfg d sa sb w) := by
    rw [Core.addCmd, List.find?_append, List.find?_eq_none.2 (by simpa using hne)]
    simp [newCmd]
  have hfilter : (c.addCmd .cfg d sa sb w).cmds.filter (fun x => x.serial != c.cmdSerial) = c.cmds := by
    rw [Core.addCmd, List.filter_append, List.filter_eq_self.2 (by simpa using hne)]
    simp
  unfold Core.takeStatus
  simp only [hfind, hfilter, newCmd]
  rw [if_neg (by simpa [Core.addCmd] using hr), landWaiters_of_none (by
    rw [setS_cmds]
    exact fun x hx => (hc x hx).2)]
  simp only [Core.addCmd, cfgEnded, Core.setS]
  split <;> simp

theorem exec_cfg_permitted (d a b : BitVec 5) {g : BitVec 4} {s : State} (hg : s.tile.core.guard g = true) :
    exec (.cfg d a b g) s = seqInstr 6 (encode (.cfg d a b g)) true
      (fun s => cfgAct d (s.tile.core.s a) (s.tile.core.s b) s) s := by
  rw [exec_cfg, execCfg, hg]
  rfl

/-- Settles O39: the issue of CFG by its address, its length and its ward. -/
theorem configurationIssue : Obligations.ConfigurationIssue := by
  intro d a b g s hc hg c va n
  have hx := exec_cfg_permitted d a b hg
  refine ⟨fun h0 h1 hr hl h8 => ?queued, fun hal hn hl hi hs => ?badLen, fun hm hh => ?align, fun w hal h0 h1 hw hlim hh => ?ward⟩
  case queued =>
    obtain ⟨w, hw⟩ := cfgAct_queued (d := d) h0 h1 hr hl h8
    exact ⟨newCmd c .cfg d va (c.s b) w, _, hx.trans (seqInstr_done 6 _ _ s _ hc hw), newCmd_queued ..,
      lateIn_effectAt _ (retireTo_effect 6 s (fun c' => { c' with
        cmds := c'.cmds ++ [newCmd c .cfg d va (c.s b) w], cmdSerial := c'.cmdSerial + 1 }) rfl rfl)⟩
  case badLen =>
    have hw := cfgAct_badLen (d := d) hal hn hl
    rw [addCmd_takeStatus_cfg _ _ _ _ _ hi hs, landedWord_cfg_badLen] at hw
    exact ⟨_, hx.trans (seqInstr_done 6 _ _ s _ hc hw),
      lateIn_effectAt _ (retireTo_effect 6 s (cfgEnded d _) (cfgEnded_retiredAs ..) (setS_ew ..))⟩
  case align => exact ⟨_, hx.trans (seqInstr_trap 6 _ _ s hc _ _ (cfgAct_misaligned hm)), trapAt_with s _ _ _ hh⟩
  case ward => exact ⟨_, hx.trans (seqInstr_trap 6 _ _ s hc _ _ (cfgAct_pastWard hal h0 h1 hw hlim)), trapAt_with s _ _ _ hh⟩

end Sys2Proof.Laws
end

section
/-! PROOFS. Tables, tiles and operand memory as they read after a change, and what a read of operand memory finds. -/

namespace Sys2Proof.Laws

open Sys2Proof Sys2Proof.Machine

/-! ### Tables and tiles -/

theorem sparseGet_assocPut {α : Type} (d : α) (l : Sparse α) (k : Nat) (v : α) : sparseGet d (assocPut l k v) k = v := by
  induction l with
  | nil => exact if_pos rfl
  | cons p l ih =>
    obtain ⟨a, x⟩ := p
    unfold assocPut
    split
    · exact if_pos rfl
    · next h => rw [sparseGet, if_neg h, ih]

theorem getTile_putTile (s : State) (k : Nat) (x : Tile) (n : Nat) :
    (s.putTile k x).getTile n = if n = k then x else s.getTile n := by
  by_cases hk : k = s.tileIdx
  · rw [State.putTile, if_pos hk, hk]
    simp only [State.getTile]
    split <;> rfl
  · simp only [State.putTile, State.getTile, if_neg hk, assocGet_put]
    by_cases hn : n = k
    · simp only [hn, if_neg hk, if_true, Option.getD_some]
    · simp only [if_neg hn]

/-! ### Bytes of a number -/

/-- R5: the bits of a read, those of its bytes. -/
theorem readBytes_testBit (m : List Host.Cell) (n a j : Nat) : (readBytes m a n).testBit j =
    (decide (j < 8 * n) && (readByte m (a + j / 8)).getLsbD (j % 8)) := by
  induction n generalizing a j with
  | zero => simp [readBytes]
  | succ n ih =>
    have hb : (readByte m a).toNat < 2 ^ 8 := (readByte m a).isLt
    rw [readBytes, Nat.add_comm, show 256 = 2 ^ 8 from rfl, Nat.testBit_two_pow_mul_add _ hb]
    split
    · next h =>
      have e1 : j / 8 = 0 := by omega
      have e2 : j % 8 = j := by omega
      rw [e1, e2, decide_eq_true (by omega), Bool.true_and, Nat.add_zero, BitVec.testBit_toNat]
    · next h =>
      have e1 : a + 1 + (j - 8) / 8 = a + j / 8 := by omega
      have e2 : (j - 8) % 8 = j % 8 := by omega
      have e3 : decide (j - 8 < 8 * n) = decide (j < 8 * (n + 1)) := by
        rw [decide_eq_decide]
        omega
      rw [ih, e1, e2, e3]

/-- A line is the read of the bytes that it holds. -/
theorem eq_ofNat_readBytes {d : Line} {m : List Host.Cell} {a : Nat}
    (h : ∀ k, k < 64 → d.extractLsb' (8 * k) 8 = readByte m (a + k)) : d = BitVec.ofNat 512 (readBytes m a 64) := by
  refine BitVec.eq_of_getLsbD_eq fun j hj => ?_
  have hk := congrArg (·.getLsbD (j % 8)) (h (j / 8) (by omega))
  simp only [BitVec.getLsbD_extractLsb', decide_eq_true (show j % 8 < 8 by omega), Bool.true_and, Nat.div_add_mod] at hk
  rw [BitVec.getLsbD_ofNat, readBytes_testBit, hk, decide_eq_true hj, Bool.true_and, Bool.true_and]

theorem ofNat_readBytes_byte (m : List Host.Cell) (a : Nat) {k : Nat} (hk : k < 64) :
    (BitVec.ofNat 512 (readBytes m a 64) : Line).extractLsb' (8 * k) 8 = readByte m (a + k) := by
  refine BitVec.eq_of_getLsbD_eq fun j hj => ?_
  have e1 : (8 * k + j) / 8 = k := by omega
  have e2 : (8 * k + j) % 8 = j := by omega
  rw [BitVec.getLsbD_extractLsb', BitVec.getLsbD_ofNat, readBytes_testBit, e1, e2, decide_eq_true hj,
    decide_eq_true (show 8 * k + j < 512 by omega), Bool.true_and, Bool.true_and, Bool.true_and]

/-! ### What a read of operand memory finds (R275, R276) -/

/-- R275: what a read finds is one thing, and it is what the model has it find. -/
theorem eq_omSeen_of_omSees {s : State} {n x : Nat} {y : OmImage} (h : OmSees s n x y) : y = s.omSeen n x := by
  obtain ⟨ht, ⟨pre, post, hl, hpre⟩ | ⟨hn, hp, he, hd⟩⟩ := h
  · have hf : (s.getTile n).omBefore.find? (fun b => b.token == x / 64) = some y :=
      List.find?_eq_some_iff_append.2 ⟨beq_iff_eq.2 ht, pre, post, hl, fun b hb => by simp [hpre b hb]⟩
    rw [State.omSeen, hf, Option.getD_some]
  · have hf : (s.getTile n).omBefore.find? (fun b => b.token == x / 64) = none :=
      List.find?_eq_none.2 fun b hb => by simp [hn b hb]
    rw [State.omSeen, hf, Option.getD_none, State.omImage, State.omToken, State.omSide, State.omPoisoned, ← hp, ← he, ← ht,
      ← eq_ofNat_readBytes hd]

theorem omSees_omSeen (s : State) (n x : Nat) : OmSees s n x (s.omSeen n x) := by
  unfold State.omSeen
  cases hf : (s.getTile n).omBefore.find? (fun b => b.token == x / 64) with
  | some y =>
    obtain ⟨ht, pre, post, hl, hpre⟩ := List.find?_eq_some_iff_append.1 hf
    exact ⟨beq_iff_eq.1 ht, .inl ⟨pre, post, hl, fun b hb => by simpa using hpre b hb⟩⟩
  | none =>
    exact ⟨rfl, .inr ⟨fun b hb => by simpa using List.find?_eq_none.1 hf b hb, rfl, rfl, fun k hk => ofNat_readBytes_byte _ _ hk⟩⟩

theorem omSeen_congr {s t : State} {n x : Nat} (hm : t.mem = s.mem) (hb : (t.getTile n).omBefore = (s.getTile n).omBefore)
    (hp : (t.getTile n).omPoison = (s.getTile n).omPoison) : t.omSeen n x = s.omSeen n x := by
  simp only [State.omSeen, State.omImage, State.omToken, State.omSide, State.omPoisoned, hm, hb, hp]

/-! ### Counting corrected words (R274, R276) -/

theorem countOm_omCorr (t : Tile) (k : Nat) : (t.countOm k).omCorr.toNat = min (2 ^ 32 - 1) (t.omCorr.toNat + k) := by
  have := t.omCorr.isLt
  simp only [Tile.countOm]
  split
  · rw [BitVec.toNat_allOnes]
    omega
  · rw [BitVec.toNat_ofNat]
    omega

theorem countOm_eq (t : Tile) (k : Nat) : t.countOm k = { t with omCorr := (t.countOm k).omCorr } := rfl

/-- A counter that saturates counts a sum as it counts the parts. -/
theorem countOm_countOm (t : Tile) (k j : Nat) : (t.countOm k).countOm j = t.countOm (k + j) := by
  have h : ((t.countOm k).countOm j).omCorr = (t.countOm (k + j)).omCorr := by
    rw [← BitVec.toNat_inj, countOm_omCorr, countOm_omCorr, countOm_omCorr]
    omega
  rw [countOm_eq (t.countOm k), h]
  rfl

theorem countOm_zero (t : Tile) : t.countOm 0 = t := by
  have h : (t.countOm 0).omCorr = t.omCorr := by
    have := t.omCorr.isLt
    rw [← BitVec.toNat_inj, countOm_omCorr]
    omega
  rw [countOm_eq, h]

theorem getTile_omRead (s : State) (n x k : Nat) :
    (s.omRead n x).getTile k = (s.getTile k).countOm (if k = n then ((s.getTile n).errorsAt x).length else 0) := by
  simp only [State.omRead]
  split
  · next h => simp only [h, ite_self, countOm_zero]
  · rw [getTile_putTile]
    split
    · next hk => rw [hk]
    · rw [countOm_zero]

theorem omRead_eq (s : State) (n x : Nat) :
    s.omRead n x = { s with tile := (s.omRead n x).tile, tiles := (s.omRead n x).tiles } := by
  simp only [State.omRead]
  split
  · rfl
  · rw [putTile_eq]

/-! ### The beat of a token (R201) -/

/-- The number that one byte at each of `n` positions makes. -/
def spreadByte (e n : Nat) : Nat := (List.range n).foldl (fun v q => v + e * 2 ^ (8 * q)) 0

theorem spreadByte_succ (e n : Nat) : spreadByte e (n + 1) = spreadByte e n + e * 2 ^ (8 * n) := by
  rw [spreadByte, List.range_succ, List.foldl_append]
  rfl

theorem spreadByte_lt {e : Nat} (he : e < 256) (n : Nat) : spreadByte e n < 2 ^ (8 * n) := by
  induction n with
  | zero => exact Nat.one_pos
  | succ n ih =>
    have h : (e + 1) * 2 ^ (8 * n) ≤ 256 * 2 ^ (8 * n) := Nat.mul_le_mul_right _ he
    rw [spreadByte_succ, show 2 ^ (8 * (n + 1)) = 256 * 2 ^ (8 * n) by rw [Nat.mul_succ, Nat.pow_add, Nat.mul_comm]]
    rw [Nat.succ_mul] at h
    omega

theorem spreadByte_testBit {e : Nat} (he : e < 256) {n p k : Nat} (hp : p < n) (hk : k < 8) :
    (spreadByte e n).testBit (8 * p + k) = e.testBit k := by
  induction n with
  | zero => exact absurd hp (Nat.not_lt_zero p)
  | succ n ih =>
    rw [spreadByte_succ, Nat.add_comm, Nat.mul_comm e, Nat.testBit_two_pow_mul_add _ (spreadByte_lt he n)]
    obtain h | rfl := Nat.lt_succ_iff_lt_or_eq.1 hp
    · rw [if_pos (by omega), ih h]
    · rw [if_neg (by omega), Nat.add_sub_cancel_left]

/-- One exponent byte at each position that is in use. -/
theorem sameExps_byte {n p : Nat} (hn : n ≤ 8) (hp : p < n) (e : BitVec 8) : (sameExps n e).extractLsb' (8 * p) 8 = e := by
  refine BitVec.eq_of_getLsbD_eq fun k hk => ?_
  rw [BitVec.getLsbD_extractLsb', decide_eq_true hk, Bool.true_and, sameExps, BitVec.getLsbD_ofNat,
    decide_eq_true (by omega), Bool.true_and, ← spreadByte, spreadByte_testBit e.isLt hp hk, BitVec.testBit_toNat]

end Sys2Proof.Laws
end

section
/-! PROOFS. FEEDR, OUTR and AWIN (O49). -/

namespace Sys2Proof.Laws

open Sys2Proof Sys2Proof.Machine

/-! ### Reads of a FEEDR (R201, R275, R276) -/

/-- What reads of feeds leave: the beats `l` join the feeds of the region in focus, tile k counts `n k` corrected words, and the graph
notes deviations; where `q` holds, nothing else of the graph differs. -/
structure Fed (s t : State) (n : Nat → Nat) (l : List FeedBeat) (q : Prop) : Prop where
  frame : t = { s with
    region := { s.region with feeds := s.region.feeds ++ l }, graph := t.graph, tile := t.tile, tiles := t.tiles }
  slotNo : t.graph.slotNo = s.graph.slotNo
  tiles : ∀ k, t.getTile k = (s.getTile k).countOm (n k)
  quiet : q → t.graph = { s.graph with devs := t.graph.devs }

namespace Fed

variable {s t u : State} {n m : Nat → Nat} {l k : List FeedBeat} {p q : Prop}

theorem refl (s : State) : Fed s s (fun _ => 0) [] True :=
  ⟨by rw [List.append_nil], rfl, fun _ => (countOm_zero _).symm, fun _ => rfl⟩

theorem trans (h : Fed s t n l p) (g : Fed t u m k q) : Fed s u (fun i => n i + m i) (l ++ k) (p ∧ q) := by
  refine ⟨?_, g.slotNo.trans h.slotNo, fun i => ?_, fun ⟨hp, hq⟩ => ?_⟩
  · rw [g.frame, h.frame]
    simp only [List.append_assoc]
  · rw [g.tiles, h.tiles, countOm_countOm]
  · rw [g.quiet hq, h.quiet hp]

theorem weaken (h : Fed s t n l p) (hn : ∀ i, n i = m i) (hl : l = k) (hq : q → p) : Fed s t m k q :=
  ⟨hl ▸ h.frame, h.slotNo, fun i => hn i ▸ h.tiles i, fun x => h.quiet (hq x)⟩

theorem mem (h : Fed s t n l p) : t.mem = s.mem := by rw [h.frame]
theorem time (h : Fed s t n l p) : t.time = s.time := by rw [h.frame]
theorem cfg (h : Fed s t n l p) : t.region.cfg = s.region.cfg := by rw [h.frame]
theorem cursors (h : Fed s t n l p) : t.region.cursors = s.region.cursors := by rw [h.frame]

theorem getTile_eq (h : Fed s t n l p) (k : Nat) : t.getTile k = { s.getTile k with omCorr := (t.getTile k).omCorr } := by
  rw [h.tiles]
  rfl

theorem omSeen (h : Fed s t n l p) (k x : Nat) : t.omSeen k x = s.omSeen k x :=
  omSeen_congr h.mem (by rw [h.tiles]; rfl) (by rw [h.tiles]; rfl)

theorem feedBeat (h : Fed s t n l p) (k x : Nat) (tag : BitVec 4) : t.feedBeat k x tag = s.feedBeat k x tag := by
  simp only [State.feedBeat, h.omSeen]

theorem errorsAt (h : Fed s t n l p) (k x : Nat) : (t.getTile k).errorsAt x = (s.getTile k).errorsAt x := by
  rw [h.tiles]
  rfl

/-- Reads one after another, each of which finds what the first state holds. -/
theorem foldl {α : Type} {g : State → α → State} {n : State → α → Nat → Nat} {l : State → α → List FeedBeat} {q : State → α → Prop}
    (hg : ∀ s a, Fed s (g s a) (n s a) (l s a) (q s a))
    (hi : ∀ {s t : State} {m k p}, Fed s t m k p → ∀ a, n t a = n s a ∧ l t a = l s a ∧ (q s a → q t a)) (as : List α) (s : State) :
    Fed s (as.foldl g s) (fun k => (as.map fun a => n s a k).sum) (as.flatMap (l s)) (∀ a ∈ as, q s a) := by
  induction as generalizing s with
  | nil => exact (refl s).weaken (fun _ => rfl) rfl fun _ => trivial
  | cons a as ih =>
    have h := hg s a
    refine (h.trans (ih (g s a))).weaken (fun k => ?_) ?_ fun hq => ⟨hq a (.head _), fun b hb => (hi h b).2.2 (hq b (.tail _ hb))⟩
    · rw [List.map_cons, List.sum_cons]
      simp only [(hi h _).1]
    · rw [List.flatMap_cons]
      exact congrArg (l s a ++ ·) (List.flatMap_congr fun b _ => (hi h b).2.1)

end Fed

/-- The fields of a FEEDR in one tile: its configuration, byte X of its 128 bytes, the tag, the edge and the tile. -/
structure FeedAt where
  cfg : RegionCfg
  x : Nat
  tag : BitVec 4
  edge : Edge
  tile : Nat

section
variable (a : FeedAt) (s : State) (h : Nat × Nat)

/-- R201: the position of the edge cell that half `h` feeds in the tile. -/
def FeedAt.pos : Option Nat := a.cfg.localPos a.edge a.tile h.2

/-- R201: the beat that a half sends to a position. -/
def FeedAt.beat (pos : Nat) : FeedBeat :=
  ⟨(a.cfg.edgeCell pos a.edge).1, (a.cfg.edgeCell pos a.edge).2, a.edge, s.graph.slotNo + 12, a.tile, a.x + h.1,
    s.feedBeat a.tile (a.x + h.1) a.tag⟩

/-- R201: the read of one half, as the model makes it. -/
def FeedAt.read : State :=
  match a.pos h with
  | none => s
  | some pos => (({ s with region := { s.region with feeds := s.region.feeds ++ [a.beat s h pos] } } : State).omRead a.tile
      (a.x + h.1)).omFault a.tile (a.x + h.1)

/-- R276: the words that the read of a half corrects. -/
def FeedAt.count : Nat := if (a.pos h).isSome then ((s.getTile a.tile).errorsAt (a.x + h.1)).length else 0

/-- The beats that a half sends: one where it has a position. -/
def FeedAt.beats : List FeedBeat := (a.pos h).toList.map (a.beat s h)

/-- R276: a half that is read finds no poison. -/
def FeedAt.Clean : Prop := (a.pos h).isSome = true → (s.omSeen a.tile (a.x + h.1)).poison = false

theorem omFault_eq (n x : Nat) : s.omFault n x = { s with graph := (s.omFault n x).graph } := by
  simp only [State.omFault]
  split <;> rfl

theorem omFault_slotNo (n x : Nat) : (s.omFault n x).graph.slotNo = s.graph.slotNo := by
  simp only [State.omFault, Graph.stop]
  split
  · split <;> [rfl; (split <;> rfl)]
  · rfl

theorem omFault_of_clean {n x : Nat} (hc : (s.omSeen n x).poison = false) : s.omFault n x = s := by
  simp only [State.omFault, hc, Bool.false_eq_true, if_false]

theorem fed_omFault (n x : Nat) : Fed s (s.omFault n x) (fun _ => 0) [] ((s.omSeen n x).poison = false) := by
  refine ⟨?_, omFault_slotNo s n x, fun k => ?_, fun hc => by rw [omFault_of_clean s hc]⟩
  · rw [List.append_nil, omFault_eq]
  · rw [countOm_zero, omFault_eq]
    rfl

theorem fed_omRead (n x : Nat) : Fed s (s.omRead n x) (fun k => if k = n then ((s.getTile n).errorsAt x).length else 0) [] True := by
  refine ⟨?_, ?_, getTile_omRead s n x, fun _ => ?_⟩
  · rw [List.append_nil, omRead_eq]
  all_goals rw [omRead_eq]

theorem fed_feeds (y : FeedBeat) : Fed s { s with region := { s.region with feeds := s.region.feeds ++ [y] } } (fun _ => 0) [y] True :=
  ⟨rfl, rfl, fun _ => (countOm_zero _).symm, fun _ => rfl⟩

/-- R201, R276: the read of one half. -/
theorem fed_read : Fed s (a.read s h) (fun k => if k = a.tile then a.count s h else 0) (a.beats s h) (a.Clean s h) := by
  unfold FeedAt.read FeedAt.count FeedAt.beats FeedAt.Clean
  cases hp : a.pos h with
  | none => exact (Fed.refl s).weaken (fun k => by simp) rfl fun _ => trivial
  | some pos =>
    have h1 := fed_feeds s (a.beat s h pos)
    have h2 := h1.trans (fed_omRead _ a.tile (a.x + h.1))
    refine (h2.trans (fed_omFault _ a.tile (a.x + h.1))).weaken (fun k => ?_) rfl fun hc => ⟨⟨trivial, trivial⟩, ?_⟩
    · rw [h1.errorsAt, Option.isSome_some, if_pos rfl, Nat.zero_add, Nat.add_zero]
    · rw [h2.omSeen]
      exact hc rfl

variable {s}

theorem fed_congr {t : State} {m : Nat → Nat} {k : List FeedBeat} {p : Prop} (g : Fed s t m k p) :
    a.count t h = a.count s h ∧ a.beats t h = a.beats s h ∧ (a.Clean s h → a.Clean t h) := by
  refine ⟨?_, ?_, fun hc hp => ?_⟩
  · simp only [FeedAt.count, g.errorsAt]
  · have hb : a.beat t h = a.beat s h := by
      funext pos
      simp only [FeedAt.beat, g.slotNo, g.feedBeat]
    simp only [FeedAt.beats, hb]
  · rw [g.omSeen]
    exact hc hp

end

/-! ### One tile, and every tile of the edge -/

section
variable (f : Nat) (tag : BitVec 4) (edge : Edge) (s : State) (tile : Nat)

/-- The fields of a feed of the region in focus in a tile. -/
def feedAt : FeedAt :=
  ⟨s.region.cfg, feedX (s.region.cfg.fda f) (s.region.cursor f).1, tag, edge, tile⟩

theorem fed_devs (l : List (Nat × Nat)) : Fed s { s with graph := { s.graph with devs := l } } (fun _ => 0) [] True :=
  ⟨by rw [List.append_nil], rfl, fun _ => (countOm_zero _).symm, fun _ => rfl⟩

theorem feedTile_eq : s.feedTile f tag edge tile =
    (feedHalves (s.region.cfg.fdb f)).foldl ((feedAt f tag edge s tile).read)
      (if s.fedInSlot tile then { s with graph := { s.graph with devs := s.graph.devs ++ [(s.graph.slotNo + 2, tile)] } } else s) := rfl

theorem sum_map_ite {α : Type} (c : Prop) [Decidable c] (f : α → Nat) (l : List α) :
    (l.map fun a => if c then f a else 0).sum = if c then (l.map f).sum else 0 := by
  split <;> simp

/-- R276: the words that a feed corrects in a tile. -/
def tileCount : Nat := ((feedHalves (s.region.cfg.fdb f)).map ((feedAt f tag edge s tile).count s)).sum

/-- R201: the beats that a feed sends to a tile. -/
def tileBeats : List FeedBeat := (feedHalves (s.region.cfg.fdb f)).flatMap ((feedAt f tag edge s tile).beats s)

theorem fed_feedTile : Fed s (s.feedTile f tag edge tile) (fun k => if k = tile then tileCount f tag edge s tile else 0)
    (tileBeats f tag edge s tile) (∀ h ∈ feedHalves (s.region.cfg.fdb f), (feedAt f tag edge s tile).Clean s h) := by
  have hd : ∃ t, (if s.fedInSlot tile then
      { s with graph := { s.graph with devs := s.graph.devs ++ [(s.graph.slotNo + 2, tile)] } } else s) = t ∧
      Fed s t (fun _ => 0) [] True := by
    refine ⟨_, rfl, ?_⟩
    split
    · exact fed_devs s _
    · exact Fed.refl s
  obtain ⟨t, ht, h1⟩ := hd
  rw [feedTile_eq, ht]
  have hc : ∀ h, _ := fun h => fed_congr (feedAt f tag edge s tile) h h1
  have h2 := Fed.foldl (fed_read (feedAt f tag edge s tile))
    (fun g a => ⟨by simp only [(fed_congr (feedAt f tag edge s tile) a g).1], (fed_congr _ a g).2⟩)
    (feedHalves (s.region.cfg.fdb f)) t
  refine (h1.trans h2).weaken (fun k => ?_) ?_ fun hq => ⟨trivial, fun h hh => (hc h).2.2 (hq h hh)⟩
  · simp only [(hc _).1, sum_map_ite, Nat.zero_add]
    rfl
  · exact List.flatMap_congr fun h _ => (hc h).2.1

theorem fed_congr_tile {t : State} {m : Nat → Nat} {k : List FeedBeat} {p : Prop} (g : Fed s t m k p) :
    feedAt f tag edge t tile = feedAt f tag edge s tile := by
  simp only [feedAt, Region.cursor, g.cfg, g.cursors]

/-- R201: FEEDR's part in every tile of its edge. -/
theorem fed_feedTiles (tiles : List Nat) : Fed s (tiles.foldl (fun s t => s.feedTile f tag edge t) s)
    (fun k => (tiles.map fun t => if k = t then tileCount f tag edge s t else 0).sum)
    (tiles.flatMap (tileBeats f tag edge s))
    (∀ t ∈ tiles, ∀ h ∈ feedHalves (s.region.cfg.fdb f), (feedAt f tag edge s t).Clean s h) := by
  refine Fed.foldl (fed_feedTile f tag edge) (fun {s t m k p} g tile => ?_) tiles s
  have he := fed_congr_tile f tag edge s tile g
  have hc : ∀ h, _ := fun h => fed_congr (feedAt f tag edge s tile) h g
  have hn : (feedAt f tag edge s tile).count t = (feedAt f tag edge s tile).count s := funext fun h => (hc h).1
  refine ⟨?_, ?_, fun hq h hh => ?_⟩
  · simp only [tileCount, he, g.cfg, hn]
  · simp only [tileBeats, he, g.cfg]
    exact List.flatMap_congr fun h _ => (hc h).2.1
  · rw [he]
    exact (hc h).2.2 (hq h (g.cfg ▸ hh))

end

/-! ### FEEDR and OUTR (R201, R202) -/

theorem filterMap_range_nodup {f : Nat → Option Nat} (hf : ∀ a b c, f a = some c → f b = some c → a = b) (n : Nat) :
    ((List.range n).filterMap f).Nodup :=
  List.Nodup.filterMap (fun a b c ha hb => hf a b c ha hb) List.nodup_range

/-- R201: no tile holds two parts of an edge. -/
theorem edgeTiles_nodup (c : RegionCfg) (edge : Edge) : (c.edgeTiles edge).Nodup := by
  cases edge
  all_goals
    refine filterMap_range_nodup (fun a b k ha hb => ?_) _
    simp only [Option.ite_none_right_eq_some, Option.some.injEq, tileNum] at ha hb
    omega

theorem sum_map_eq_of_nodup {l : List Nat} (h : l.Nodup) (f : Nat → Nat) (k : Nat) :
    (l.map fun t => if k = t then f t else 0).sum = if k ∈ l then f k else 0 := by
  induction l with
  | nil => rfl
  | cons a l ih =>
    obtain ⟨ha, hl⟩ := List.nodup_cons.1 h
    rw [List.map_cons, List.sum_cons, ih hl]
    by_cases hk : k = a
    · subst hk
      simp [ha]
    · simp [hk]

theorem sum_map_filter {α : Type} (p : α → Bool) (f : α → Nat) (l : List α) :
    (l.map fun a => if p a then f a else 0).sum = ((l.filter p).map f).sum := by
  induction l with
  | nil => rfl
  | cons a l ih =>
    rw [List.map_cons, List.sum_cons, ih, List.filter_cons]
    split <;> simp

/-- R184, R201: the halves that a feed enables. -/
theorem feedHalves_eq (b : BitVec 32) : feedHalves b =
    ([0, 1].filter fun h => b.getLsbD (20 + h)).map fun h => (64 * h, (b.extractLsb' (12 + 4 * h) 4).toNat) := by
  rw [feedHalves, List.filter_cons, List.filter_cons, List.filter_nil]
  simp only [Nat.add_zero, Nat.reduceAdd]
  split <;> split <;> rfl

theorem tileCount_eq (f : Nat) (tag : BitVec 4) (edge : Edge) (s : State) (tile : Nat) : tileCount f tag edge s tile =
    (([0, 1].filter fun h => (s.region.cfg.fdb f).getLsbD (20 + h) &&
        (s.region.cfg.localPos edge tile ((s.region.cfg.fdb f).extractLsb' (12 + 4 * h) 4).toNat).isSome).map fun h =>
      ((s.getTile tile).errorsAt (feedX (s.region.cfg.fda f) (s.region.cursor f).1 + 64 * h)).length).sum := by
  have hf : ∀ p q : Nat → Bool, ([0, 1].filter fun h => p h && q h) = ([0, 1].filter p).filter q := fun p q => by
    rw [List.filter_filter]
    simp only [Bool.and_comm]
  rw [tileCount, feedHalves_eq, List.map_map, hf]
  exact sum_map_filter (fun h =>
    (s.region.cfg.localPos edge tile ((s.region.cfg.fdb f).extractLsb' (12 + 4 * h) 4).toNat).isSome) _ _

/-- R201: the beats that a FEEDR sends to the tiles of its edge. -/
def feedrBeats (e : Nat) (tag : BitVec 4) (edge : Edge) (s : State) : List FeedBeat :=
  (s.region.cfg.edgeTiles edge).flatMap (tileBeats e tag edge s)

theorem feedrBeats_due {e : Nat} {tag : BitVec 4} {edge : Edge} {s : State} {y : FeedBeat} (hy : y ∈ feedrBeats e tag edge s) :
    y.due = s.graph.slotNo + 12 ∧ y.edge = edge := by
  obtain ⟨tile, -, hy⟩ := List.mem_flatMap.1 hy
  obtain ⟨h, -, hy⟩ := List.mem_flatMap.1 hy
  obtain ⟨pos, -, rfl⟩ := List.mem_map.1 hy
  exact ⟨rfl, rfl⟩

theorem mem_feedHalves {b : BitVec 32} {h : Nat} (hh : h < 2) (hb : b.getLsbD (20 + h) = true) :
    (64 * h, (b.extractLsb' (12 + 4 * h) 4).toNat) ∈ feedHalves b := by
  rw [feedHalves_eq]
  have hm : h ∈ [0, 1] := by
    simp only [List.mem_cons, List.not_mem_nil, or_false]
    omega
  exact List.mem_map.2 ⟨h, List.mem_filter.2 ⟨hm, hb⟩, rfl⟩

theorem feedrBeats_mem {e : Nat} {tag : BitVec 4} {edge : Edge} {s : State} {tile h pos : Nat}
    (ht : tile ∈ s.region.cfg.edgeTiles edge) (hh : h < 2) (hb : (s.region.cfg.fdb e).getLsbD (20 + h) = true)
    (hp : s.region.cfg.localPos edge tile ((s.region.cfg.fdb e).extractLsb' (12 + 4 * h) 4).toNat = some pos) :
    (feedAt e tag edge s tile).beat s (64 * h, ((s.region.cfg.fdb e).extractLsb' (12 + 4 * h) 4).toNat) pos ∈
      feedrBeats e tag edge s := by
  refine List.mem_flatMap.2 ⟨tile, ht, List.mem_flatMap.2 ⟨_, mem_feedHalves hh hb, List.mem_map.2 ⟨pos, ?_, rfl⟩⟩⟩
  rw [FeedAt.pos, Option.mem_toList]
  exact hp

/-- R201, R275, R276, R421: the beat of a token as the present port slot found it. -/
theorem feedBeat_of_omSees {s : State} {tile x : Nat} {z : OmImage} (hz : OmSees s tile x z) (tag : BitVec 4) :
    (z.poison = true → (s.feedBeat tile x tag).valid = 0) ∧
    (z.poison = false → (s.feedBeat tile x tag).data = z.data ∧
      (s.feedBeat tile x tag).valid = BitVec.ofNat 128 (2 ^ (16 * tokensOf tag.toNat) - 1) ∧
      ∀ p, p < tokensOf tag.toNat → (s.feedBeat tile x tag).exps.extractLsb' (8 * p) 8 = z.exp) := by
  rw [State.feedBeat, ← eq_omSeen_of_omSees hz]
  refine ⟨fun h => by rw [if_pos h]; rfl, fun h => ?_⟩
  rw [if_neg (by simp [h])]
  exact ⟨rfl, rfl, fun p hp => sameExps_byte (tokensOf_le _) hp _⟩

theorem feedBeat_head (s : State) (tile x : Nat) (tag : BitVec 4) :
    (s.feedBeat tile x tag).tag = tag ∧ (s.feedBeat tile x tag).bub = false ∧ (s.feedBeat tile x tag).pred = 0 := by
  unfold State.feedBeat
  dsimp only
  split <;> exact ⟨rfl, rfl, rfl⟩

/-- R201: the cursor of a feed after an execution. -/
theorem stepFeed_cursor (r : Region) (e : Nat) : sparseGet ((fld (r.cfg.fda e) 8 9).toNat, 0) (r.stepFeed e).cursors e =
    if (fld (r.cfg.fdb e) 0 10).toNat ≤ (r.cursor e).2 then ((fld (r.cfg.fda e) 8 9).toNat, 0)
    else (((((r.cursor e).1 : Int) + (fld (r.cfg.fda e) 17 10).toInt) % 512).toNat, (r.cursor e).2 + 1) :=
  sparseGet_assocPut ..

/-- R276: every half that a FEEDR reads is clean where no read finds poison. -/
theorem clean_of_omSees {s : State} {e : Nat} {tag : BitVec 4} {edge : Edge} {tile : Nat}
    (hc : ∀ h ∈ [0, 1].filter fun h => (s.region.cfg.fdb e).getLsbD (20 + h) &&
        (s.region.cfg.localPos edge tile ((s.region.cfg.fdb e).extractLsb' (12 + 4 * h) 4).toNat).isSome,
      ∀ z, OmSees s tile (feedX (s.region.cfg.fda e) (s.region.cursor e).1 + 64 * h) z → z.poison = false) :
    ∀ h ∈ feedHalves (s.region.cfg.fdb e), (feedAt e tag edge s tile).Clean s h := by
  intro h hh hp
  rw [feedHalves_eq] at hh
  obtain ⟨k, hk, rfl⟩ := List.mem_map.1 hh
  obtain ⟨hk, hb⟩ := List.mem_filter.1 hk
  exact hc k (List.mem_filter.2 ⟨hk, Bool.and_eq_true_iff.2 ⟨hb, hp⟩⟩) _ (omSees_omSeen ..)

/-! ### What a window holds (R200, R257) -/

theorem olderLatch_asymm {a b : Latch} (h : olderLatch a b = true) : olderLatch b a = false := by
  simp only [olderLatch, Bool.or_eq_true, decide_eq_true_eq, Bool.and_eq_true, beq_iff_eq] at h
  rw [← Bool.not_eq_true]
  simp only [olderLatch, Bool.or_eq_true, decide_eq_true_eq, Bool.and_eq_true, beq_iff_eq]
  rintro (h' | ⟨⟨h1, h2⟩, h3⟩)
  · omega
  · obtain h | ⟨⟨h4, h5⟩, h6⟩ := h
    · omega
    · rw [h2] at h6
      cases h6

/-- The choice between the present oldest and one more latch. -/
def olderOf (a b : Latch) : Latch := if olderLatch b a then b else a

theorem olderOf_left {l a : Latch} (h : a = l ∨ olderLatch l a = true) : olderOf l a = l := by
  obtain rfl | h := h
  · exact ite_self _
  · rw [olderOf, if_neg (by simp [olderLatch_asymm h])]

theorem olderOf_right {l a : Latch} (h : a = l ∨ olderLatch l a = true) : olderOf a l = l := by
  obtain rfl | h := h
  · exact ite_self _
  · rw [olderOf, if_pos h]

/-- A latch that is older than every other is the one that a search ends with. -/
theorem foldl_olderOf {l : Latch} (xs : List Latch) (a : Latch) (ha : a = l ∨ olderLatch l a = true)
    (hx : ∀ y ∈ xs, y = l ∨ olderLatch l y = true) (hl : l = a ∨ l ∈ xs) : xs.foldl olderOf a = l := by
  induction xs generalizing a with
  | nil => exact (hl.resolve_right List.not_mem_nil).symm
  | cons x xs ih =>
    have h0 := hx x (.head _)
    have hxs : ∀ y ∈ xs, y = l ∨ olderLatch l y = true := fun y hy => hx y (.tail _ hy)
    rw [List.foldl_cons]
    obtain rfl | hl := hl
    · rw [olderOf_left h0]
      exact ih l (.inl rfl) hxs (.inl rfl)
    · obtain rfl | hl := List.mem_cons.1 hl
      · rw [olderOf_right ha]
        exact ih l (.inl rfl) hxs (.inl rfl)
      · refine ih _ ?_ hxs (.inr hl)
        unfold olderOf
        split
        · exact h0
        · exact ha

theorem oldestLatch_eq_some {l : Latch} {due : List Latch} (hl : l ∈ due) (h : ∀ y ∈ due, y = l ∨ olderLatch l y = true) :
    oldestLatch due = some l := by
  cases due with
  | nil => cases hl
  | cons x xs =>
    exact congrArg some (foldl_olderOf xs x (h x (.head _)) (fun y hy => h y (.tail _ hy))
      ((List.mem_cons.1 hl).imp_left fun e => e))

theorem olderLatch_iff {a b : Latch} : olderLatch a b = true ↔ a.issue < b.issue ∨ (a.issue = b.issue ∧ a.edge = .w ∧ b.edge = .n) := by
  simp only [olderLatch, Bool.or_eq_true, decide_eq_true_eq, Bool.and_eq_true, beq_iff_eq, and_assoc]

/-- R200, R257: the latches of a window at a cell whose beats are due. -/
def dueLatches (s : State) (w : BitVec 5) (p : Nat × Nat) : List Latch :=
  s.region.latches.filter fun l => l.win == w && (latchPlaces p).contains (l.edge, l.pos) &&
    decide (l.issue + s.region.cfg.winLen w.toNat ≤ s.graph.slotNo)

theorem windowDue_of_no_gate {s : State} {w : BitVec 5} {p : Nat × Nat} (h : ∀ e ∈ latchPlaces p, s.gateAt w e = none) :
    s.windowDue w p = match oldestLatch (dueLatches s w p) with
      | none => .nothing
      | some l => match l.reply with
        | some b => .reply b l.id l.edge
        | none => .absent l.edge l.pos (some l.id) := by
  have hf : ((latchPlaces p).findSome? fun e => (s.gateAt w e).map fun x => (x, e)) = none :=
    List.findSome?_eq_none_iff.2 fun e he => by rw [h e he]; rfl
  simp only [State.windowDue, hf]
  rfl

theorem windowDue_nothing {s : State} {w : BitVec 5} {p : Nat × Nat} (h : ∀ e ∈ latchPlaces p, s.gateAt w e = none)
    (hd : dueLatches s w p = []) : s.windowDue w p = .nothing := by
  rw [windowDue_of_no_gate h, hd]
  rfl

theorem windowDue_oldest {s : State} {w : BitVec 5} {p : Nat × Nat} (h : ∀ e ∈ latchPlaces p, s.gateAt w e = none) {l : Latch}
    (hl : l ∈ dueLatches s w p)
    (ho : ∀ y ∈ dueLatches s w p, y = l ∨ l.issue < y.issue ∨ (l.issue = y.issue ∧ l.edge = .w ∧ y.edge = .n)) :
    s.windowDue w p = match l.reply with
      | some b => .reply b l.id l.edge
      | none => .absent l.edge l.pos (some l.id) := by
  rw [windowDue_of_no_gate h, oldestLatch_eq_some hl fun y hy => (ho y hy).imp_right olderLatch_iff.2]

/-! ### AWIN (R200, R257) -/

/-- R200: what every cell of the region in focus finds. -/
def windowDues (s : State) (w : BitVec 5) : List ((Nat × Nat) × Due) := s.region.cfg.cells.map fun p => (p, s.windowDue w p)

/-- A beat is due and absent. -/
def Absent : Due → Prop
  | .absent _ _ _ => True
  | _ => False

/-- Taking a due beat removes request n. -/
def Takes (n : Nat) : Due → Prop
  | .reply _ m _ => m = n
  | _ => False

/-- What the taking of due beats leaves: latches and gate beats go, and the beats join the feeds. -/
def Took (s t : State) : Prop :=
  t = { s with
    region := { s.region with latches := t.region.latches, feeds := t.region.feeds, status := t.region.status }, gates := t.gates }

theorem took_takeDue (s : State) (p : Nat × Nat) (d : Due) : Took s (s.takeDue p d) := by
  cases d <;> rfl

theorem mem_latches_takeDue (s : State) (p : Nat × Nat) (d : Due) (l : Latch) :
    l ∈ (s.takeDue p d).region.latches ↔ l ∈ s.region.latches ∧ ¬ Takes l.id d := by
  cases d with
  | reply _ _ _ =>
    simp only [State.takeDue, State.deliver, List.mem_filter, bne_iff_ne, ne_eq, Takes]
    rw [eq_comm (a := l.id)]
  | nothing | gate _ _ _ _ | absent _ _ _ => simp only [State.takeDue, State.deliver, Takes, not_false_eq_true, and_true]

theorem foldl_takeDue (ds : List ((Nat × Nat) × Due)) (s : State) :
    Took s (ds.foldl (fun s x => s.takeDue x.1 x.2) s) ∧
    ∀ l, l ∈ (ds.foldl (fun s x => s.takeDue x.1 x.2) s).region.latches ↔ l ∈ s.region.latches ∧ ∀ x ∈ ds, ¬ Takes l.id x.2 := by
  induction ds generalizing s with
  | nil => exact ⟨rfl, fun l => by simp⟩
  | cons d ds ih =>
    obtain ⟨h1, h2⟩ := ih (s.takeDue d.1 d.2)
    refine ⟨?_, fun l => ?_⟩
    · rw [List.foldl_cons, Took, h1, took_takeDue]
    · rw [List.foldl_cons, h2, mem_latches_takeDue, List.forall_mem_cons, and_assoc]

/-- Whether a beat is due and absent. -/
def isAbsent : Due → Bool
  | .absent _ _ _ => true
  | _ => false

theorem isAbsent_eq_false {d : Due} (h : ∀ ed pos n, d ≠ .absent ed pos n) : isAbsent d = false := by
  cases d with
  | absent ed pos n => exact absurd rfl (h ed pos n)
  | nothing | reply _ _ _ | gate _ _ _ _ => rfl

/-- The beat that AWIN writes in a cell. -/
def awinBeat (s : State) (w : BitVec 5) (n : CellIn) : Beat :=
  (((windowDues s w).find? fun x => x.1 == (n.i, n.j)).map fun x => x.2.beat).getD Beat.bubble

theorem awinBeat_cellIn {s : State} (w : BitVec 5) {p : Nat × Nat} (hp : p ∈ s.region.cfg.cells) :
    awinBeat s w (s.cellIn p) = (s.windowDue w p).beat := by
  have hf : ∀ l : List (Nat × Nat), p ∈ l →
      (l.map fun p => (p, s.windowDue w p)).find? (fun x => x.1 == p) = some (p, s.windowDue w p) := by
    intro l
    induction l with
    | nil => exact fun h => absurd h List.not_mem_nil
    | cons a l ih =>
      intro h
      by_cases ha : a = p
      · rw [List.map_cons, ha, List.find?_cons_of_pos (by simp)]
      · rw [List.map_cons, List.find?_cons_of_neg (by simpa using ha), ih ((List.mem_cons.1 h).resolve_left (Ne.symm ha))]
  have hw : (windowDues s w).find? (fun x => x.1 == ((s.cellIn p).i, (s.cellIn p).j)) = some (p, s.windowDue w p) := hf _ hp
  rw [awinBeat, hw]
  rfl

section
variable (d q : BitVec 3) (i o : BitVec 1) (w : BitVec 5) (s : State)

/-- R200: the state in which AWIN has written its beats, before they are taken. -/
def awinRow : State := rowState 1 0 (fun n => n.plain ⟨d, 0, 0, 0, q, 0, 0⟩ (awinBeat s w n)) s

theorem exec_awin_eq : exec (.cellAwin d q i o w) s = match (windowDues s w).find? fun x => isAbsent x.2 with
    | some (p, .absent ed pos id) => .next (s.missWindow w p ed pos id)
    | _ => .next ((windowDues s w).foldl (fun s x => s.takeDue x.1 x.2) (awinRow d q w s)) := rfl

variable {w s}

theorem exec_awin_present (h : ∀ p ∈ s.region.cfg.cells, ∀ ed pos n, s.windowDue w p ≠ .absent ed pos n) :
    exec (.cellAwin d q i o w) s =
      .next ((windowDues s w).foldl (fun s x => s.takeDue x.1 x.2) (awinRow d q w s)) := by
  have hf : (windowDues s w).find? (fun x => isAbsent x.2) = none := List.find?_eq_none.2 fun x hx => by
    obtain ⟨p, hp, rfl⟩ := List.mem_map.1 hx
    simp [isAbsent_eq_false (h p hp)]
  rw [exec_awin_eq, hf]

theorem exec_awin_absent {pre post : List (Nat × Nat)} {p : Nat × Nat} {ed : Edge} {pos : Nat} {n : Option Nat}
    (hc : s.region.cfg.cells = pre ++ p :: post) (hpre : ∀ x ∈ pre, ∀ ed pos n, s.windowDue w x ≠ .absent ed pos n)
    (hp : s.windowDue w p = .absent ed pos n) : exec (.cellAwin d q i o w) s = .next (s.missWindow w p ed pos n) := by
  have hf : (windowDues s w).find? (fun x => isAbsent x.2) = some (p, .absent ed pos n) := by
    refine List.find?_eq_some_iff_append.2 ⟨rfl, pre.map fun p => (p, s.windowDue w p), post.map fun p => (p, s.windowDue w p),
      ?_, fun x hx => ?_⟩
    · rw [windowDues, hc, List.map_append, List.map_cons, hp]
    · obtain ⟨y, hy, rfl⟩ := List.mem_map.1 hx
      simp [isAbsent_eq_false (hpre y hy)]
  rw [exec_awin_eq, hf]

theorem awinRow_eq : awinRow d q w s = { s with region := { s.region with
    landings := s.region.landings ++ s.region.cfg.cells.flatMap fun p => (destsOf d).map fun k =>
      ⟨p.1, p.2, k, s.graph.slotNo, (s.windowDue w p).beat, (s.cellIn p).allow ⟨d, 0, 0, 0, q, 0, 0⟩⟩ } } := by
  have hl : s.region.cfg.cells.flatMap (fun p =>
        ((s.cellIn p).plain ⟨d, 0, 0, 0, q, 0, 0⟩ (awinBeat s w (s.cellIn p))).landings p (s.graph.slotNo + 1 - 1)) =
      s.region.cfg.cells.flatMap fun p => (destsOf d).map fun k =>
        ⟨p.1, p.2, k, s.graph.slotNo, (s.windowDue w p).beat, (s.cellIn p).allow ⟨d, 0, 0, 0, q, 0, 0⟩⟩ := by
    refine List.flatMap_congr fun p hp => ?_
    rw [awinBeat_cellIn w hp, CellOut.landings, CellIn.plain, CellIn.sends, List.map_map]
    rfl
  have hg := takeCells_gens_of_eq (slot := s.graph.slotNo) (lat := 1) (l := s.region.cfg.cells) (r := s.region)
    (f := fun p => (s.cellIn p).plain ⟨d, 0, 0, 0, q, 0, 0⟩ (awinBeat s w (s.cellIn p))) fun _ _ => rfl
  have hf := takeCells_flags_of_zero (slot := s.graph.slotNo) (lat := 1) (l := s.region.cfg.cells) (r := s.region)
    (f := fun p => (s.cellIn p).plain ⟨d, 0, 0, 0, q, 0, 0⟩ (awinBeat s w (s.cellIn p))) fun _ _ => rfl
  rw [awinRow, rowState_of_no_ovf (fun _ _ => rfl) fun _ => rfl, takeCells_eq, hg, hf, hl]

end

theorem takes_iff {n : Nat} {d : Due} : Takes n d ↔ ∃ b ed, d = .reply b n ed := by
  cases d with
  | reply b m ed => exact ⟨fun h => ⟨b, ed, by rw [show m = n from h]⟩, fun ⟨_, _, h⟩ => by cases h; rfl⟩
  | nothing | gate _ _ _ _ | absent _ _ _ => simp [Takes]

/-- R200: AWIN where no beat is absent. -/
theorem exec_awin_took (d q : BitVec 3) (i o : BitVec 1) {w : BitVec 5} {s : State}
    (h : ∀ p ∈ s.region.cfg.cells, ∀ ed pos n, s.windowDue w p ≠ .absent ed pos n) :
    ∃ t, exec (.cellAwin d q i o w) s = .next t ∧
      t = { s with
        region := { s.region with
          latches := t.region.latches, feeds := t.region.feeds, status := t.region.status
          landings := s.region.landings ++ s.region.cfg.cells.flatMap fun p => (destsOf d).map fun k =>
            ⟨p.1, p.2, k, s.graph.slotNo, (s.windowDue w p).beat, (s.cellIn p).allow ⟨d, 0, 0, 0, q, 0, 0⟩⟩ }
        gates := t.gates } ∧
      ∀ l, l ∈ t.region.latches ↔ l ∈ s.region.latches ∧ ∀ p ∈ s.region.cfg.cells, ¬ Takes l.id (s.windowDue w p) := by
  obtain ⟨ht, hl⟩ := foldl_takeDue (windowDues s w) (awinRow d q w s)
  refine ⟨_, exec_awin_present d q i o h, ?_, fun l => ?_⟩
  · rw [Took, awinRow_eq] at ht
    rw [awinRow_eq]
    exact ht
  · rw [hl, awinRow_eq, windowDues, List.forall_mem_map]

theorem raise_mem (g : Graph) (src : Nat) : src ∈ (g.raise src).holds := by
  unfold Graph.raise
  split
  · next h => simpa using h
  · exact List.mem_append_right _ (List.mem_singleton_self src)

theorem raise_eq (g : Graph) (src : Nat) : g.raise src = { g with holds := (g.raise src).holds } := by
  unfold Graph.raise
  split <;> rfl

/-- R257: a window under HOLD whose beat is absent waits with its graph. -/
theorem missWindow_waits {s : State} {w : BitVec 5} {id : Option Nat}
    (h : (s.region.cfg.winHold w.toNat && (id.isNone || decide (8 ≤ s.region.cfg.winLen w.toNat))) = true) (p : Nat × Nat)
    (ed : Edge) (pos : Nat) :
    let t := s.missWindow w p ed pos id
    t.region = s.region ∧ t.mem = s.mem ∧ s.region.id ∈ t.graph.todo ∧ (∀ k, id = some k → holdWindow k ∈ t.graph.holds) ∧
      (s.graph.fault = none → t.graph.fault = none) := by
  simp only [State.missWindow, h, if_true]
  cases id with
  | none => exact ⟨rfl, rfl, List.mem_append_right _ (List.mem_singleton_self _), nofun, fun hf => hf⟩
  | some n =>
    refine ⟨rfl, rfl, List.mem_append_right _ (List.mem_singleton_self _), fun k hk => ?_, fun hf => ?_⟩
    · cases hk
      exact raise_mem s.graph _
    · show (s.graph.raise _).fault = none
      rw [raise_eq, hf]

/-- R292, R293: another window whose beat is absent takes a schedule-miss. -/
theorem missWindow_stops {s : State} {w : BitVec 5} {id : Option Nat}
    (h : (s.region.cfg.winHold w.toNat && (id.isNone || decide (8 ≤ s.region.cfg.winLen w.toNat))) = false) (p : Nat × Nat)
    (ed : Edge) (pos : Nat) : s.missWindow w p ed pos id = s.stopRow graphSchedMiss (missDetail s.region.cfg w ed pos) p := by
  simp only [State.missWindow, h, Bool.false_eq_true, if_false]

/-- R201: FEEDR, with the beats that it sends and the words that it counts. -/
theorem exec_feedr (q : BitVec 3) (i o : BitVec 1) (f : BitVec 4) (e : BitVec 5) (s : State) (edge : Edge)
    (he : edgeOfCode (fld (s.region.cfg.fdb e.toNat) 10 2) = edge) :
    ∃ u, exec (.cellFeedr q i o f e) s = .next { u with region := u.region.stepFeed e.toNat } ∧
      Fed s u (fun n => if n ∈ s.region.cfg.edgeTiles edge then tileCount e.toNat f edge s n else 0)
        (feedrBeats e.toNat f edge s)
        (∀ t ∈ s.region.cfg.edgeTiles edge, ∀ h ∈ feedHalves (s.region.cfg.fdb e.toNat), (feedAt e.toNat f edge s t).Clean s h) := by
  subst he
  exact ⟨_, rfl, (fed_feedTiles e.toNat f _ s _).weaken (sum_map_eq_of_nodup (edgeTiles_nodup ..) _) rfl fun h => h⟩

/-- Settles O49: FEEDR by the read of each half, OUTR at once, and AWIN by what each cell's window holds. -/
theorem cellFeeds : Obligations.CellFeeds := by
  refine ⟨?feeds, ?windows, ?holds⟩
  case feeds =>
    intro q i o f e s r a b edge cur x step halves
    refine ⟨?feedr, _, rfl, stepFeed_cursor { r with outs := r.outs ++ [⟨a, b, cur.1⟩] } e.toNat, rfl⟩
    obtain ⟨u, he, h⟩ := exec_feedr q i o f e s edge rfl
    have hstep : step (u.region.stepFeed e.toNat) := by
      have hs := stepFeed_cursor u.region e.toNat
      simp only [Region.cursor, h.cfg, h.cursors] at hs
      exact hs
    refine ⟨_, he, hstep, ?frame, h.getTile_eq, fun n hn => ?other, fun n hn => ?count,
      ⟨feedrBeats e.toNat f edge s, ?sent, fun y hy => feedrBeats_due hy, fun tile k pos ht hk hb hp => ?beat⟩, fun hc => ?quiet⟩
    case frame =>
      rw [h.frame]
      rfl
    case other => exact (h.tiles n).trans ((congrArg (s.getTile n).countOm (if_neg hn)).trans (countOm_zero _))
    case count =>
      have ht := (h.tiles n).trans (congrArg (s.getTile n).countOm ((if_pos hn).trans (tileCount_eq ..)))
      exact (congrArg (fun t : Tile => t.omCorr.toNat) ht).trans (countOm_omCorr ..)
    case sent =>
      show (u.region.stepFeed e.toNat).feeds = _
      rw [h.frame]
      rfl
    case beat =>
      obtain ⟨h1, h2, h3⟩ := feedBeat_head s tile (x k) f
      exact ⟨_, feedrBeats_mem ht hk hb hp, rfl, h1, h2, h3, fun z hz => feedBeat_of_omSees hz f⟩
    case quiet => exact h.quiet fun tile ht => clean_of_omSees fun k hk z hz => hc tile ht k hk z hz
  case windows =>
    intro d q i o w s u cells beat
    refine ⟨fun h => ?present, ?absent⟩
    case present =>
      have hb : beat = Due.beat := by
        funext x
        cases x <;> rfl
      obtain ⟨t, he, ht, hl⟩ := exec_awin_took d q i o h
      refine ⟨t, he, ?_, ?_, ?_, fun l hm => ?_⟩
      · rw [ht]
      · rw [ht]
      · rw [ht, hb]
      · simp only [hl l, hm, true_and, takes_iff, not_exists]
        rfl
    case absent =>
      intro pre p post ed pos n hc hpre hp c wait
      have he := exec_awin_absent d q i o hc hpre hp
      refine ⟨fun hw => ⟨_, he, missWindow_waits hw p ed pos⟩, fun hw hf => ?_⟩
      exact ⟨_, _, he.trans (by rw [missWindow_stops hw, stopRow_of_no_fault hf]), rfl, rfl, rfl, rfl⟩
  case holds =>
    intro s w p places len due hg
    exact ⟨windowDue_nothing hg, fun l hl ho => windowDue_oldest hg hl ho⟩

end Sys2Proof.Laws
end

section
/-! PROOFS. Graphs and regions as they read after a change, and the events of a graph (O50). -/

namespace Sys2Proof.Laws

open Sys2Proof Sys2Proof.Machine

/-! ### Graphs after a change -/

theorem find?_key {α : Type} {key : α → Nat} {l : List α} {k : Nat} {x : α} (h : l.find? (fun y => key y == k) = some x) :
    x ∈ l ∧ key x = k :=
  ⟨List.mem_of_find?_eq_some h, by simpa using List.find?_some h⟩

theorem find?_map_replace_ne {α : Type} (key : α → Nat) (x : α) (l : List α) {k : Nat} (h : k ≠ key x) :
    (l.map fun y => if key y = key x then x else y).find? (fun y => key y == k) = l.find? fun y => key y == k := by
  induction l with
  | nil => rfl
  | cons y l ih =>
    by_cases hy : key y = key x
    · rw [List.map_cons, if_pos hy, List.find?_cons_of_neg (by simpa using Ne.symm h),
        List.find?_cons_of_neg (by simpa [hy] using Ne.symm h), ih]
    · rw [List.map_cons, if_neg hy, List.find?_cons, List.find?_cons, ih]

section
variable {s u : State} {g : Nat} {x y : Graph}

theorem slot_of_getGraph (h : u.getGraph g = some x) : x.slot = g := by
  unfold State.getGraph at h
  split at h
  · next hs => rw [← Option.some.inj h, hs]
  · exact (find?_key h).2

/-- R248: a graph that is put in the place of one that is bound. -/
theorem graphTo_putGraph (h : u.getGraph g = some x) (hy : y.slot = g) : GraphTo g y u (u.putGraph y) := by
  subst hy
  refine ⟨putGraph_eq u y, getGraph_putGraph ?_, fun k hk => ?_⟩
  · unfold State.getGraph at h
    split at h
    · next hs => exact .inl hs
    · exact .inr ⟨x, find?_key h⟩
  · by_cases hs : u.graph.slot = y.slot
    · rw [State.putGraph, if_pos hs]
      simp only [State.getGraph, hs, if_neg (Ne.symm hk)]
    · rw [State.putGraph, if_neg hs]
      simp only [State.getGraph, find?_map_replace_ne Graph.slot y u.graphs hk]

theorem onGraph_of_some (h : u.getGraph g = some x) (f : Graph → Graph) : u.onGraph g f = u.putGraph (f x) := by
  rw [State.onGraph, h]

theorem graphTo_onGraph (h : u.getGraph g = some x) {f : Graph → Graph} (hf : (f x).slot = x.slot) :
    GraphTo g (f x) u (u.onGraph g f) := by
  rw [onGraph_of_some h]
  exact graphTo_putGraph h (hf.trans (slot_of_getGraph h))

end

theorem getTile_onGraph (s : State) (g : Nat) (f : Graph → Graph) (n : Nat) : (s.onGraph g f).getTile n = s.getTile n := by
  simp only [State.getTile, onGraph_tileIdx, onGraph_tile, onGraph_tiles]

/-! ### Regions after a change -/

section
variable (x : Graph) (r : Nat) (f : Region → Region)

theorem getRegion_onRegion (hf : ∀ y, (f y).id = y.id) (k : Nat) :
    (x.onRegion r f).getRegion k = (x.getRegion k).map fun y => if y.id = r then f y else y := by
  have hp : ((fun y : Region => y.id == k) ∘ fun y => if y.id = r then f y else y) = fun y => y.id == k := by
    funext y
    simp only [Function.comp]
    split <;> simp only [hf]
  rw [Graph.onRegion, Graph.getRegion, List.find?_map, hp]
  rfl

variable {x r}

theorem id_of_getRegion {y : Region} (h : x.getRegion r = some y) : y.id = r := (find?_key (key := Region.id) h).2

theorem getRegion_onRegion_self {y : Region} (h : x.getRegion r = some y) (hf : ∀ y, (f y).id = y.id) :
    (x.onRegion r f).getRegion r = some (f y) := by
  rw [getRegion_onRegion x r f hf, h, Option.map_some, if_pos (id_of_getRegion h)]

/-- A change of a region that is made only where a condition holds. -/
theorem onRegion_ite (p : Region → Prop) [DecidablePred p] (f : Region → Region) :
    x.onRegion r (fun y => if p y then f y else y) =
      { x with regions := x.regions.map fun y => if y.id = r ∧ p y then f y else y } := by
  simp only [Graph.onRegion, ite_and]

end

theorem getRegion_of_getGraph {s : State} {g r : Nat} {x : Graph} (h : s.getGraph g = some x) :
    s.getRegion g r = x.getRegion r := by
  rw [State.getRegion, h, Option.bind_some]

/-! ### A gate that closes changes no more of a region than its status (R263) -/

/-- Memory and the tile in focus are as they were, and every region, but for its status. -/
def StatusOnly (s t : State) : Prop :=
  t.mem = s.mem ∧ t.tile = s.tile ∧
    ∀ g r y, s.getRegion g r = some y → ∃ z, t.getRegion g r = some z ∧ z = { y with status := z.status }

/-- A graph's regions are as they were, but for their status. -/
def GraphStatusOnly (f : Graph → Graph) : Prop :=
  ∀ x, (f x).slot = x.slot ∧ ∀ r y, x.getRegion r = some y → ∃ z, (f x).getRegion r = some z ∧ z = { y with status := z.status }

theorem statusOnly_refl (s : State) : StatusOnly s s := ⟨rfl, rfl, fun _ _ y h => ⟨y, h, rfl⟩⟩

theorem statusOnly_trans {s t u : State} (h : StatusOnly s t) (k : StatusOnly t u) : StatusOnly s u := by
  obtain ⟨hm, ht, hr⟩ := h
  obtain ⟨km, kt, kr⟩ := k
  refine ⟨km.trans hm, kt.trans ht, fun g r y hy => ?_⟩
  obtain ⟨z, hz, ez⟩ := hr g r y hy
  obtain ⟨w, hw, ew⟩ := kr g r z hz
  exact ⟨w, hw, by rw [ew, ez]⟩

theorem statusOnly_onGraph (s : State) (g : Nat) {f : Graph → Graph} (hf : GraphStatusOnly f) : StatusOnly s (s.onGraph g f) := by
  refine ⟨onGraph_mem .., onGraph_tile .., fun k r y hy => ?_⟩
  cases hx : s.getGraph g with
  | none => exact ⟨y, by rw [State.onGraph, hx]; exact hy, rfl⟩
  | some x =>
    obtain ⟨hs, hr⟩ := hf x
    obtain ⟨-, hg, ho⟩ := graphTo_onGraph hx hs
    by_cases hk : k = g
    · subst hk
      rw [getRegion_of_getGraph hx] at hy
      rw [getRegion_of_getGraph hg]
      exact hr r y hy
    · refine ⟨y, ?_, rfl⟩
      rw [State.getRegion, ho k hk]
      exact hy

theorem graphStatusOnly_of_regions {f : Graph → Graph} (h : ∀ x, (f x).slot = x.slot ∧ (f x).regions = x.regions) :
    GraphStatusOnly f := fun x =>
  ⟨(h x).1, fun r y hy => ⟨y, by rw [Graph.getRegion, (h x).2]; exact hy, rfl⟩⟩

theorem graphStatusOnly_onRegion (r : Nat) {f : Region → Region} (h : ∀ y, f y = { y with status := (f y).status }) :
    GraphStatusOnly fun x => x.onRegion r f := by
  refine fun x => ⟨rfl, fun k y hy => ?_⟩
  rw [getRegion_onRegion x r f (fun y => by rw [h y]), hy, Option.map_some]
  refine ⟨_, rfl, ?_⟩
  split
  · exact h y
  · rfl

theorem stop_regions (x : Graph) (f : GraphFault) (n : Nat) : (x.stop f n).slot = x.slot ∧ (x.stop f n).regions = x.regions ∧
    (x.stop f n).holds = x.holds := by
  unfold Graph.stop
  split
  · exact ⟨rfl, rfl, rfl⟩
  · split <;> exact ⟨rfl, rfl, rfl⟩

theorem statusOnly_closeGate (s : State) (x : Gate) : StatusOnly s (closeGate s x) := by
  have hmark : ∀ r, GraphStatusOnly fun g : Graph => g.onRegion r fun y => { y with status := { y.status with gatef := true } } :=
    fun r => graphStatusOnly_onRegion r fun _ => rfl
  have hdrop : GraphStatusOnly fun g => (g.drop (holdGateOut x.num)).drop (holdGateIn x.num) :=
    graphStatusOnly_of_regions fun _ => ⟨rfl, rfl⟩
  have h0 : StatusOnly s { s with gates := s.gates.map fun (y : Gate) =>
      if y.num = x.num then { y with closed := true, beats := [] } else y } := statusOnly_refl s
  refine statusOnly_trans (statusOnly_trans (statusOnly_trans (statusOnly_trans (statusOnly_trans h0
    (statusOnly_onGraph _ x.fromGraph (hmark x.fromRegion))) (statusOnly_onGraph _ x.toGraph (hmark x.toRegion)))
    (statusOnly_onGraph _ x.fromGraph hdrop)) (statusOnly_onGraph _ x.toGraph hdrop))
    (statusOnly_onGraph _ x.toGraph (graphStatusOnly_of_regions fun g => ?_))
  dsimp only
  split
  · exact ⟨(stop_regions ..).1, (stop_regions ..).2.1⟩
  · exact ⟨rfl, rfl⟩

theorem statusOnly_closeStaged (s : State) (g id : Nat) (st : BitVec 8) : StatusOnly s (closeStaged s g id st) := by
  unfold closeStaged
  generalize s.gates.filter _ = l
  induction l generalizing s with
  | nil => exact statusOnly_refl s
  | cons x l ih => exact statusOnly_trans (statusOnly_closeGate s x) (ih _)

/-! ### Runs, pauses and switches (R250, R266) -/

theorem atPass_iff (y : Region) : y.atPass = true ↔ y.slots % y.cfg.rrows = 0 := by
  simp only [Region.atPass, Region.rowNo, beq_iff_eq]

/-- R250: whether an iteration enters at the next pass. -/
theorem nextSv_eq (y : Region) : let counts := ([1, 2, 3].map fun k => (y.cfg.field k).toNat).filter fun n => n != 0
    y.nextSv = BitVec.ofNat 8 ((2 * y.sv.toNat + if counts = [] ∨ y.pass < counts.foldl (· * ·) 1 then 1 else 0) %
      2 ^ ((y.cfg.field 4).extractLsb' 0 4).toNat) := by
  intro counts
  have h : (match y.cfg.iterations with
      | some n => decide (y.pass < n)
      | none => true).toNat = if counts = [] ∨ y.pass < counts.foldl (· * ·) 1 then 1 else 0 := by
    have hi : y.cfg.iterations = if counts.isEmpty then none else some (counts.foldl (· * ·) 1) := rfl
    rw [hi]
    by_cases hc : counts = []
    · simp [hc]
    · rw [if_neg (by simpa using hc)]
      simp [hc, Bool.toNat, Bool.cond_decide]
  rw [← h]
  rfl

/-- R266: nothing is still arriving at a region. -/
theorem drained_iff (u : State) (x : Graph) (y : Region) : u.drained x y = true ↔ y.latches = [] ∧
    (∀ f ∈ x.flights, f.beat.bub = true ∨ y.cfg.atEdge f = false) ∧
    (∀ q ∈ u.gates, q.closed = true ∨ q.toGraph ≠ x.slot ∨ q.toRegion ≠ y.id ∨ q.beats = []) := by
  simp only [State.drained, Bool.and_eq_true, List.all_eq_true, Bool.or_eq_true, Bool.not_eq_true', List.isEmpty_iff, bne_iff_ne,
    ne_eq, or_assoc]
  exact ⟨fun ⟨⟨h1, h2⟩, h3⟩ => ⟨h2, h1, h3⟩, fun ⟨h2, h1, h3⟩ => ⟨⟨h1, h2⟩, h3⟩⟩

/-- R181, R266: a region with the configuration that waited. -/
def switched (c : RegionCfg) (y : Region) : Region :=
  { y with cfg := c, next := none, loop := if y.loop = .paused then .running else y.loop }

theorem switchRegion_eq {u : State} {g r : Nat} {y : Region} {c : RegionCfg} (hy : u.getRegion g r = some y) (hc : y.next = some c) :
    u.switchRegion g r = closeStaged ((u.onRegion g r (switched c)).onGraph g fun z => (u.onRegion g r (switched c)).overtake z r)
      g r c.stage := by
  simp only [State.switchRegion, hy, hc]
  rfl

/-- R266: a region takes the configuration that waits; its gates may close, which its status records. -/
theorem switchRegion_spec {u : State} {g r : Nat} {x : Graph} {y : Region} {c : RegionCfg} (hx : u.getGraph g = some x)
    (hy : x.getRegion r = some y) (hc : y.next = some c) : (u.switchRegion g r).mem = u.mem ∧ (u.switchRegion g r).tile = u.tile ∧
    ∃ z, (u.switchRegion g r).getRegion g r = some z ∧ z = { switched c y with status := z.status } := by
  have hr : u.getRegion g r = some y := (getRegion_of_getGraph hx).trans hy
  rw [switchRegion_eq hr hc]
  obtain ⟨-, hg, -⟩ := graphTo_onGraph hx (f := fun z => z.onRegion r (switched c)) rfl
  have h1 : (u.onRegion g r (switched c)).getRegion g r = some (switched c y) :=
    (getRegion_of_getGraph hg).trans (getRegion_onRegion_self _ hy fun _ => rfl)
  obtain ⟨hm, ht, hz⟩ := statusOnly_trans
    (statusOnly_onGraph (u.onRegion g r (switched c)) g (f := fun z => (u.onRegion g r (switched c)).overtake z r)
      (graphStatusOnly_of_regions fun _ => ⟨rfl, rfl⟩))
    (statusOnly_closeStaged ((u.onRegion g r (switched c)).onGraph g fun z => (u.onRegion g r (switched c)).overtake z r) g r c.stage)
  exact ⟨hm.trans (onGraph_mem ..), ht.trans (onGraph_tile ..), hz g r _ h1⟩

theorem execRegionSwitch_eq {s : State} {g r : Nat} {x : Graph} {y : Region} (hx : s.settle.getGraph g = some x)
    (hy : s.settle.getRegion g r = some y) : execRegionSwitch g r s =
      if (y.loop = .paused ∨ y.loop = .runOut) ∧ y.landings = [] ∧ y.feeds = [] ∧ s.settle.streamEnded x r = true then
        .next (s.settle.switchRegion g r) else .next s.settle := by
  simp only [execRegionSwitch, hx, hy]

theorem execRegionDrainPoint_eq {s : State} {g : Nat} {x : Graph} (hx : s.settle.getGraph g = some x) (r : Nat) :
    execRegionDrainPoint g r s = .next (s.settle.onRegion g r fun y =>
      if y.loop = .running ∧ y.next.isSome = true ∧ y.atPass = true ∧ s.settle.drained x y = true then { y with loop := .paused }
      else y) := by
  simp only [execRegionDrainPoint, hx]

/-! ### Holds (R254, R257) -/

theorem raise_holds (x : Graph) (k : Nat) : x.raise k = { x with holds := raised k x.holds } := by
  by_cases h : k ∈ x.holds
  · rw [Graph.raise, raised, if_pos (List.contains_iff_mem.mpr h), if_pos h]
  · rw [Graph.raise, raised, if_neg (mt List.contains_iff_mem.mp h), if_neg h]

theorem mem_raised (j k : Nat) (l : List Nat) : k ∈ raised j l ↔ k ∈ l ∨ k = j := by
  unfold raised
  split
  · next h => exact ⟨.inl, fun hk => hk.elim id fun e => e ▸ h⟩
  · simp

/-- Sources raised one after the other. -/
theorem foldl_raise {α : Type} (f : α → Nat) (l : List α) (x : Graph) :
    ∃ h, l.foldl (fun x y => x.raise (f y)) x = { x with holds := h } ∧ ∀ k, k ∈ h ↔ k ∈ x.holds ∨ ∃ y ∈ l, k = f y := by
  induction l generalizing x with
  | nil => exact ⟨x.holds, rfl, fun k => by simp⟩
  | cons y l ih =>
    obtain ⟨h, he, hm⟩ := ih (x.raise (f y))
    refine ⟨h, ?_, fun k => ?_⟩
    · rw [List.foldl_cons, he, raise_holds]
    · rw [hm, raise_holds]
      simp only [mem_raised, List.exists_mem_cons_iff, or_assoc]

/-- R257: the requests of a HOLD window that are still without a reply eight slots before they are due. -/
theorem mem_lateRequests (y : Region) (w n : Nat) (l : Latch) : l ∈ y.lateRequests w n ↔
    (y.cfg.field (0x40 + w)).getLsbD 16 = true ∧ 8 ≤ ((y.cfg.field (0x40 + w)).extractLsb' 0 10).toNat + 1 ∧
      l ∈ y.latches ∧ l.win.toNat = w ∧ l.reply = none ∧
      l.issue + ((y.cfg.field (0x40 + w)).extractLsb' 0 10).toNat + 1 = n + 8 := by
  have hl : y.cfg.winLen w = ((y.cfg.field (0x40 + w)).extractLsb' 0 10).toNat + 1 := rfl
  have hh : y.cfg.winHold w = (y.cfg.field (0x40 + w)).getLsbD 16 := rfl
  simp only [Region.lateRequests, hl, hh]
  split
  · next hc =>
    simp only [Bool.and_eq_true, decide_eq_true_eq] at hc
    simp only [hc, true_and, List.mem_filter, Bool.and_eq_true, beq_iff_eq, Option.isNone_iff_eq_none, Nat.add_assoc]
    tauto
  · next hc =>
    simp only [Bool.and_eq_true, decide_eq_true_eq, not_and] at hc
    exact ⟨fun h => absurd h List.not_mem_nil, fun ⟨h1, h2, _⟩ => absurd h2 (hc h1)⟩

/-- R257: a graph after the check of a window of one of its regions. -/
def checkWindow (r w : Nat) (x : Graph) : Graph :=
  match x.getRegion r with
  | some y => (y.lateRequests w x.slotNo).foldl (fun x l => x.raise (holdWindow l.id)) x
  | none => x

theorem execWindowCheck_eq (g r w : Nat) (s : State) :
    execWindowCheck g r w s = .next (s.settle.onGraph g (checkWindow r w)) := rfl

theorem checkWindow_eq {x : Graph} {y : Region} {r : Nat} (w : Nat) (hy : x.getRegion r = some y) :
    ∃ h, checkWindow r w x = { x with holds := h } ∧
      ∀ k, k ∈ h ↔ k ∈ x.holds ∨ ∃ l ∈ y.lateRequests w x.slotNo, k = holdWindow l.id := by
  rw [checkWindow, hy]
  exact foldl_raise (fun l : Latch => holdWindow l.id) _ x

/-! ### Replies (R199, R255) -/

theorem pokeCreel_eq (s : State) (g r : Nat) : ∃ l, s.pokeCreel g r = { s with agenda := s.agenda ++ l } := by
  unfold State.pokeCreel
  split
  · exact ⟨_, rfl⟩
  · exact ⟨[], by rw [List.append_nil]⟩

/-- R199, R255: a graph after the reply of one of its requests. -/
def replied (id : Nat) (q : AgnReq) (x : Graph) : Graph :=
  { x with
    requests := x.requests.filter fun y => y.id != id
    holds := x.holds.filter fun k => k != holdWindow id && k != holdLoadSrc id
    regions := x.regions.map fun y => if y.id = q.consumer then
      { y with latches := y.latches.map fun l => if l.id = id then { l with reply := q.answer } else l } else y }

theorem replied_slot (id : Nat) (q : AgnReq) (x : Graph) : (replied id q x).slot = x.slot := rfl

theorem deliverReply_eq {s : State} {x : Graph} {g id : Nat} {q : AgnReq} (hg : g < 64) (hx : s.settle.getGraph g = some x)
    (hq : (x.requests.find? fun y => y.id == id && y.answer.isSome) = some q) :
    deliverReply (g + 64 * id) s = (s.settle.putGraph (replied id q x)).pokeCreel x.slot q.agn := by
  have h1 : (g + 64 * id) / 64 = id := by omega
  have h2 : (g + 64 * id) % 64 = g := by omega
  simp only [deliverReply, h1, h2, hx, hq]
  simp only [Graph.onRegion, Graph.drop, List.filter_filter, replied, Bool.and_comm]

/-! ### Operand memory deviations (R276, R292) -/

theorem raise_slot (x : Graph) (k : Nat) : (x.raise k).slot = x.slot := by rw [raise_holds]

/-- R276, R292: a graph after a read of a token that cannot be read. -/
def spoiled (tile a : Nat) (time : BitVec 64) (y : Graph) : Graph :=
  match y.regions.find? fun r => r.spoilFeeds tile a y.slotNo != r with
  | some r =>
    let y := y.stop (r.faultRec time graphOmErr (BitVec.ofNat 64 a) tile) 8
    ({ y with faulted := y.faulted ++ [r.id] }).onRegion r.id fun r => r.spoilFeeds tile a y.slotNo
  | none => y

/-- R276: a tile with a token of operand memory that cannot be read. -/
def poisoned (tile : Tile) (a : Nat) : Tile :=
  { tile with omPoison := if tile.omPoison.contains (a / 64) then tile.omPoison else tile.omPoison ++ [a / 64] }

theorem mem_poisoned (tile : Tile) (a : Nat) : a / 64 ∈ (poisoned tile a).omPoison := by
  unfold poisoned
  split
  · next h => exact List.contains_iff_mem.mp h
  · exact List.mem_append_right _ (.head _)

theorem execOmReadDeviation_false {s : State} {x : Graph} {tile : Nat} (slot tok : Nat) (h : s.settle.graphOfTile tile = some x) :
    execOmReadDeviation tile slot tok false s = .next (s.settle.onGraph x.slot fun x => x.raise (holdOm tile)) := by
  simp only [execOmReadDeviation, h]
  rfl

theorem execOmReadDeviation_true {s : State} {x : Graph} {tile : Nat} (slot tok : Nat) (h : s.settle.graphOfTile tile = some x) :
    let a := slot % 256 * 65536 + 64 * (tok % 1024)
    let u := s.settle.onGraph x.slot fun x => x.raise (holdOm tile)
    let v := u.putTile tile (poisoned (u.getTile tile) a)
    execOmReadDeviation tile slot tok true s = .next (v.onGraph x.slot (spoiled tile a v.time)) := by
  simp only [execOmReadDeviation, h]
  rfl

theorem stop_of_no_fault {x : Graph} (h : x.fault = none) (f : GraphFault) (n : Nat) :
    x.stop f n = { x with stopped := true, grace := n, fault := some f } := by
  simp only [Graph.stop, h]

/-- R276, R292, R293: a token that cannot be read stops the graph where it spoils beats on their way. -/
theorem spoiled_spec (tile a : Nat) (time : BitVec 64) (y : Graph) :
    (spoiled tile a time y).slot = y.slot ∧ (spoiled tile a time y).holds = y.holds ∧
    (y.fault = none → (spoiled tile a time y).regions ≠ y.regions → ∃ f, (spoiled tile a time y).fault = some f ∧
      f.cause = 3 ∧ f.detail = BitVec.ofNat 64 a ∧ (spoiled tile a time y).stopped = true) := by
  unfold spoiled
  split
  · next r _ =>
    obtain ⟨hs, -, hh⟩ := stop_regions y (r.faultRec time graphOmErr (BitVec.ofNat 64 a) tile) 8
    refine ⟨hs, hh, fun hf _ => ?_⟩
    rw [stop_of_no_fault hf]
    exact ⟨_, rfl, rfl, rfl, rfl⟩
  · exact ⟨rfl, rfl, fun _ h => absurd rfl h⟩

/-! ### The obligation -/

/-- Settles O50: one equation for each event, from the rule of a change of one graph. -/
theorem slotEvents : Obligations.SlotEvents := by
  intro g s u x hu hx
  subst hu
  refine ⟨fun r => ?runOut, fun y => nextSv_eq y, fun r => ?drainPoint, fun r y c hy hc => ⟨fun h hl hf he => ?switch, fun h => ?stay⟩,
    fun src => ⟨_, rfl, ?raise⟩, fun src => ⟨_, rfl, graphTo_onGraph hx rfl⟩, fun r w y hy => ?check, fun id q hg hq => ?reply,
    fun r => ⟨_, rfl, graphTo_onGraph hx rfl⟩, fun tile slot tok ht hg => ⟨?late, ?fails⟩, fun n => rfl⟩
  case runOut =>
    simp only [← atPass_iff]
    rw [← onRegion_ite]
    exact ⟨_, rfl, graphTo_onGraph hx rfl⟩
  case drainPoint =>
    simp only [← atPass_iff, ← drained_iff]
    rw [← onRegion_ite]
    exact ⟨_, execRegionDrainPoint_eq hx r, graphTo_onGraph hx rfl⟩
  case switch =>
    have hr := (getRegion_of_getGraph hx).trans hy
    obtain ⟨hm, ht, z, hz, ez⟩ := switchRegion_spec hx hy hc
    refine ⟨_, z, (execRegionSwitch_eq hx hr).trans (if_pos ⟨h, hl, hf, he⟩), hz, hm, ht, ez.trans ?_⟩
    rw [switched]
    rcases h with h | h
    · rw [h]
      rfl
    · rw [h]
  case stay =>
    have hr := (getRegion_of_getGraph hx).trans hy
    refine (execRegionSwitch_eq hx hr).trans (if_neg fun ⟨h1, h2, h3, h4⟩ => ?_)
    rcases h with h | h | h | h | h
    · simp [h] at h1
    · simp [h] at h1
    · exact h h2
    · exact h h3
    · simp [h] at h4
  case raise =>
    rw [← raise_holds]
    exact graphTo_onGraph hx (raise_slot x src)
  case check =>
    obtain ⟨h, he, hm⟩ := checkWindow_eq w hy
    refine ⟨_, h, execWindowCheck_eq g r w s, ?_, fun k => ?_⟩
    · rw [← he]
      exact graphTo_onGraph hx (by rw [he])
    · simp only [hm, mem_lateRequests]
      exact or_congr_right ⟨fun ⟨l, ⟨h1, h2, h3, h4, h5, h6⟩, hk⟩ => ⟨h1, h2, l, h3, h4, h5, h6, hk⟩,
        fun ⟨h1, h2, l, h3, h4, h5, h6, hk⟩ => ⟨l, ⟨h1, h2, h3, h4, h5, h6⟩, hk⟩⟩
  case reply =>
    obtain ⟨l, hl⟩ := pokeCreel_eq (s.settle.putGraph (replied id q x)) x.slot q.agn
    obtain ⟨hf, hi, -⟩ := graphTo_putGraph (y := replied id q x) hx ((replied_slot ..).trans (slot_of_getGraph hx))
    rw [← deliverReply_eq hg hx hq] at hl
    refine ⟨deliverReply (g + 64 * id) s, l, rfl, ?_, ?_⟩
    · rw [hl, hf]
    · rw [hl]
      exact hi
  case late =>
    subst hg
    rw [← raise_holds]
    exact ⟨_, execOmReadDeviation_false slot tok ht, graphTo_onGraph hx (raise_slot ..)⟩
  case fails =>
    subst hg
    obtain ⟨-, hr, -⟩ := graphTo_onGraph hx (f := fun x => x.raise (holdOm tile)) (raise_slot ..)
    generalize hu : s.settle.onGraph x.slot (fun x => x.raise (holdOm tile)) = u at hr
    have hm : u.mem = s.settle.mem := by rw [← hu, onGraph_mem]
    have he := execOmReadDeviation_true slot tok ht
    simp only [hu] at he
    generalize slot % 256 * 65536 + 64 * (tok % 1024) = a at he ⊢
    have hv : (u.putTile tile (poisoned (u.getTile tile) a)).getGraph x.slot = some (x.raise (holdOm tile)) := by
      rw [State.getGraph, putTile_graph, putTile_graphs]
      exact hr
    obtain ⟨hs, hh, hf⟩ := spoiled_spec tile a (u.putTile tile (poisoned (u.getTile tile) a)).time (x.raise (holdOm tile))
    obtain ⟨hfr, hg, -⟩ := graphTo_onGraph hv (f := spoiled tile a _) (hs.trans rfl)
    refine ⟨_, _, he, hg, ?_, ?_, ?_, ?_⟩
    · rw [onGraph_mem, putTile_mem, hm]
    · rw [hh, raise_holds]
    · rw [getTile_onGraph, getTile_putTile, if_pos rfl]
      exact mem_poisoned ..
    · rw [raise_holds] at hf ⊢
      exact hf

end Sys2Proof.Laws
end

section
/-! PROOFS. How the status of a command lands (R84, R207, R208, R294). -/

namespace Sys2Proof.Laws

open Sys2Proof Sys2Proof.Machine

/-! ### The word -/

theorem toNat_append_eq_add {m n : Nat} (x : BitVec m) (y : BitVec n) : (x ++ y).toNat = x.toNat * 2 ^ n + y.toNat := by
  rw [BitVec.toNat_append, ← Nat.shiftLeft_add_eq_or_of_lt y.isLt, Nat.shiftLeft_eq]

/-- R208: the status word field by field. -/
theorem landedWord_eq_statusWord (k : CmdKind) (st : Status) : landedWord k st = statusWord k st := by
  have hk : k.code < 2 ^ 8 := by cases k <;> decide
  have h1 := st.code.isLt
  have h2 := st.reason.isLt
  have h3 := st.detail.isLt
  apply BitVec.eq_of_toNat_eq
  rw [landedWord, BitVec.toNat_ofNat, Nat.mod_eq_of_lt (by omega)]
  simp only [statusWord, toNat_append_eq_add, BitVec.toNat_ofNat]
  omega

/-! ### The core -/

theorem landWaiter_cmds_subset (c : Core) (x : Cmd) : ∀ y ∈ (c.landWaiter x).cmds, y ∈ c.cmds := by
  unfold Core.landWaiter Core.setS
  dsimp only
  intro y hy
  split at hy
  · repeat' split at hy
    all_goals exact List.mem_of_mem_filter hy
  · exact hy

theorem landWaiters_cmds_subset (c : Core) : ∀ y ∈ c.landWaiters.cmds, y ∈ c.cmds := by
  refine List.foldlRecOn (motive := fun d : Core => ∀ y ∈ d.cmds, y ∈ c.cmds) _ _ (fun _ h => h) fun d hd x _ y hy => ?_
  exact hd y (landWaiter_cmds_subset d x y hy)

/-- R84, R207: a core that a command's status is written to. -/
def statusTaken (c : Core) (n : Nat) (x : Cmd) (w : BitVec 64) (first : Bool) : Core :=
  let c : Core := { c with
    cmds := c.cmds.filter fun y => y.serial != n
    cfgLog := if x.kind = .cfg then c.cfgLog ++ [(n, w)] else c.cfgLog
    cpyLog := if x.kind = .cpy ∨ x.kind = .ple then c.cpyLog ++ [(n, w)] else c.cpyLog }
  if c.run = .idle ∨ first = true then c else c.setS x.d w

theorem takeStatus_of_find {c : Core} {n : Nat} {x : Cmd} (h : (c.cmds.find? fun y => y.serial == n) = some x) (st : Status)
    (first : Bool) : c.takeStatus n st first = (statusTaken c n x (statusWord x.kind st) first).landWaiters := by
  rw [Core.takeStatus, h, ← landedWord_eq_statusWord]
  rfl

theorem statusTaken_cmds (c : Core) (n : Nat) (x : Cmd) (w : BitVec 64) (first : Bool) :
    (statusTaken c n x w first).cmds = c.cmds.filter fun y => y.serial != n := by
  unfold statusTaken
  dsimp only
  split
  · rfl
  · exact setS_cmds ..

theorem statusTaken_sregs (c : Core) (n : Nat) (x : Cmd) (w : BitVec 64) (first : Bool) :
    (statusTaken c n x w first).sregs = if c.run = .idle ∨ first = true then c.sregs else (c.setS x.d w).sregs := by
  unfold statusTaken Core.setS
  dsimp only
  repeat' split
  all_goals rfl

theorem statusTaken_eq (c : Core) (n : Nat) (x : Cmd) (w : BitVec 64) (first : Bool) :
    statusTaken c n x w first = { c with
      cmds := c.cmds.filter fun y => y.serial != n
      cfgLog := (statusTaken c n x w first).cfgLog
      cpyLog := (statusTaken c n x w first).cpyLog
      sregs := (statusTaken c n x w first).sregs } := by
  unfold statusTaken Core.setS
  dsimp only
  repeat' split
  all_goals rfl

/-! ### The state -/

theorem hasCmd_of_find {c : Core} {n : Nat} {x : Cmd} (h : (c.cmds.find? fun y => y.serial == n) = some x) : c.hasCmd n = true :=
  List.any_eq_true.2 ⟨x, List.mem_of_find?_eq_some h, List.find?_some (p := fun y : Cmd => y.serial == n) h⟩

theorem find?_of_hasCmd {c : Core} {n : Nat} (h : c.hasCmd n = true) : ∃ x, (c.cmds.find? fun y => y.serial == n) = some x := by
  obtain ⟨x, hx, hn⟩ := List.any_eq_true.1 h
  cases hf : c.cmds.find? fun y => y.serial == n with
  | some y => exact ⟨y, rfl⟩
  | none => exact absurd hn (List.find?_eq_none.1 hf x hx)

/-- R84, R207, R294: a status lands. -/
theorem landStatus_lands (s : State) (ref : CmdRef) (st : Status) : Lands ref st s (landStatus s ref st) := by
  by_cases hc : (s.getTile ref.tile).core.hasCmd ref.serial = true
  · obtain ⟨x, hx⟩ := find?_of_hasCmd hc
    have hr : (s.getTile ref.tile).core.statusReg ref.serial = x.d := by rw [Core.statusReg, hx]; rfl
    generalize hfirst : s.landsFirst (s.getTile ref.tile).core x.d = first
    have he : landStatus s ref st = { s.onCore ref.tile fun c => c.takeStatus ref.serial st first with free := s.free + 1 } := by
      rw [landStatus, if_pos hc, hr, hfirst]
    have hg : ∀ n, (landStatus s ref st).getTile n = if n = ref.tile then
        { s.getTile ref.tile with core := (s.getTile ref.tile).core.takeStatus ref.serial st first } else s.getTile n := by
      rw [he]
      exact getTile_putTile s ref.tile _
    refine ⟨?_, fun n hn => by rw [hg, if_neg hn], fun y hy => ?_⟩
    · rw [he, State.onCore, putTile_eq]
    · cases hx.symm.trans hy
      intro c d
      have hd : d = (statusTaken c ref.serial x (statusWord x.kind st) first).landWaiters := by
        rw [← takeStatus_of_find hx]
        exact congrArg Tile.core ((hg _).trans (if_pos rfl))
      refine ⟨?_, ?_, fun y hy => ?_, fun hk => ?_⟩
      · rw [he, State.onCore, putTile_eq]
      · exact ((hg _).trans (if_pos rfl)).trans (by rw [hd, takeStatus_of_find hx])
      · rw [hd] at hy
        have := landWaiters_cmds_subset _ y hy
        rw [statusTaken_cmds] at this
        simpa using (List.mem_filter.1 this).2
      · rw [landWaiters_of_none fun y hy => hk y (by
          rw [statusTaken_cmds] at hy
          exact List.mem_of_mem_filter hy)] at hd
        refine ⟨?_, fun hi => ?_, fun hi => ?_⟩
        · rw [hd]
          exact statusTaken_eq ..
        · rw [hd, statusTaken_sregs, if_pos (.inl hi)]
        · rw [hd, statusTaken_sregs]
          cases first with
          | false => exact .inl (if_neg (by simp [hi]))
          | true =>
            refine .inr ⟨?_, if_pos (.inr rfl)⟩
            obtain ⟨h, -⟩ := Bool.and_eq_true_iff.1 hfirst
            simpa using h
  · have hn : ∀ n, (landStatus s ref st).getTile n = s.getTile n := by
      intro n
      rw [landStatus, if_neg hc]
      rfl
    refine ⟨?_, fun n _ => hn n, fun x hx => absurd (hasCmd_of_find hx) hc⟩
    rw [landStatus, if_neg hc]

end Sys2Proof.Laws
end

section
/-! PROOFS. How a status command starts: the wait for what was issued before it, and the start of a HOOP (R207, R223, R224). -/

namespace Sys2Proof.Laws

open Sys2Proof Sys2Proof.Machine

/-! ### The wait (R207) -/

section
variable {s u : State} {n k : Nat} {x : Cmd}

theorem serial_of_find? {c : Core} (h : (c.cmds.find? fun y => y.serial == k) = some x) : x.serial = k :=
  (find?_key (key := Cmd.serial) h).2

theorem cmdCore_of_find? (h : ((u.getTile n).core.cmds.find? fun y => y.serial == k) = some x) :
    u.cmdCore n k = (u.getTile n).core := by
  rw [State.cmdCore, if_pos (hasCmd_of_find h)]

theorem hasCmd_eq_false_of_find? {c : Core} (h : (c.cmds.find? fun y => y.serial == k) = none) : c.hasCmd k = false := by
  rw [Core.hasCmd, List.any_eq_false]
  exact fun y hy => List.find?_eq_none.1 h y hy

/-- R207: a command that no core holds does not start. -/
theorem execCommandStart_of_none (h : ((s.settle.getTile n).core.cmds.find? fun y => y.serial == k) = none)
    (hs : s.settle.mgmt.saved = []) : execCommandStart n k s = .next s.settle := by
  have hw : s.settle.savedWith n k = none := by rw [State.savedWith, hs]; rfl
  have hc : s.settle.cmdCore n k = (s.settle.getTile n).core := by
    rw [State.cmdCore, if_neg (by simp [hasCmd_eq_false_of_find? h]), hw]
    rfl
  simp only [execCommandStart, hc, h]

theorem execCommandStart_of_find? (h : ((s.settle.getTile n).core.cmds.find? fun y => y.serial == k) = some x) :
    execCommandStart n k s = if s.settle.cmdReady n x = true then .next (startCmd s.settle n x) else .next s.settle := by
  simp only [execCommandStart, cmdCore_of_find? h, h]

theorem cmdFirst_iff (c : Core) (x : Cmd) :
    c.cmdFirst x = true ↔ ¬ ∃ y ∈ c.cmds, y.kind = x.kind ∧ y.serial < x.serial ∧ y.state ≠ .started := by
  simp only [Core.cmdFirst, List.all_eq_true, Bool.or_eq_true, bne_iff_ne, ne_eq, decide_eq_true_eq, beq_iff_eq, not_exists,
    not_and, not_not]
  refine forall₂_congr fun y _ => ⟨?_, ?_⟩
  · rintro ((h | h) | h) hk hl
    · exact absurd hk h
    · omega
    · exact h
  · intro h
    by_cases hk : y.kind = x.kind
    · by_cases hl : y.serial < x.serial
      · exact .inr (h hk hl)
      · exact .inl (.inr (by omega))
    · exact .inl (.inl hk)

theorem cmdPerformed_iff (c : Core) (x : Cmd) : c.cmdPerformed x = true ↔
    ¬ ((∃ w ∈ c.sent, w.ctx = x.ctx) ∨ (∃ e ∈ c.aloft, e.ctx = x.ctx) ∨ (∃ w ∈ c.owedRemote, w.entry.ctx = x.ctx) ∨
      ∃ e ∈ c.creel, e.ctx = x.ctx ∧ e.seq < x.barrier ∧ e.live = true) := by
  simp only [Core.cmdPerformed, Bool.and_eq_true, List.all_eq_true, bne_iff_ne, ne_eq, Bool.or_eq_true, decide_eq_true_eq,
    Bool.not_eq_true', not_or, not_exists, not_and, and_assoc, Bool.not_eq_true]
  refine and_congr_right fun _ => and_congr_right fun _ => and_congr_right fun _ => forall₂_congr fun e _ => ⟨?_, ?_⟩
  · rintro ((h | h) | h) hc hb
    · exact absurd hc h
    · omega
    · exact h
  · intro h
    by_cases hc : e.ctx = x.ctx
    · by_cases hb : e.seq < x.barrier
      · exact .inr (h hc hb)
      · exact .inl (.inr (by omega))
    · exact .inl (.inl hc)

/-- R207 steps 2 and 3: what keeps a command queued. -/
theorem cmdReady_eq_false (hx : ((u.getTile n).core.cmds.find? fun y => y.serial == k) = some x)
    (h : x.state ≠ .queued ∨ (∃ w ∈ (u.getTile n).core.sent, w.ctx = x.ctx) ∨ (∃ e ∈ (u.getTile n).core.aloft, e.ctx = x.ctx) ∨
      (∃ w ∈ (u.getTile n).core.owedRemote, w.entry.ctx = x.ctx) ∨
      (∃ e ∈ (u.getTile n).core.creel, e.ctx = x.ctx ∧ e.seq < x.barrier ∧ e.live = true) ∨
      (∃ y ∈ (u.getTile n).core.cmds, y.kind = x.kind ∧ y.serial < x.serial ∧ y.state ≠ .started)) :
    u.cmdReady n x = false := by
  rw [Bool.eq_false_iff]
  intro hr
  simp only [State.cmdReady, Bool.and_eq_true, beq_iff_eq] at hr
  obtain ⟨⟨⟨hq, hp⟩, hf⟩, -⟩ := hr
  rw [serial_of_find? hx, cmdCore_of_find? hx, cmdFirst_iff] at hf
  rw [cmdPerformed_iff] at hp
  obtain h | h | h | h | h | h := h
  · exact h hq
  · exact hp (.inl h)
  · exact hp (.inr (.inl h))
  · exact hp (.inr (.inr (.inl h)))
  · exact hp (.inr (.inr (.inr h)))
  · exact hf h

end

/-! ### Hoops (R223, R224) -/

section
variable {u : State} {h : Nat} (y : Hoop)

theorem hoop_putHoop (hh : h < 64) : (u.putHoop h y).hoop h = y := by
  simp only [State.hoop, State.putHoop, setIfInBounds_of_lt _ hh, Vector.toList_set]
  rw [List.getD_eq_getElem?_getD, List.getElem?_set_self (by simpa using hh)]
  rfl

theorem pokeHoop_eq (u : State) (h : Nat) : u.pokeHoop h = { u with agenda := (u.pokeHoop h).agenda } := by
  unfold State.pokeHoop
  split <;> rfl

theorem mem_agenda_pokeHoop (hr : (u.hoop h).ready = true) : .hoopOpen h ∈ (u.pokeHoop h).agenda := by
  rw [State.pokeHoop, if_pos hr]
  exact List.mem_append_right _ (.head _)

theorem arriveHoop_eq (u : State) (h : Nat) (a : Arrival) : u.arriveHoop h a =
    { u with hoops := (u.arriveHoop h a).hoops, agenda := (u.arriveHoop h a).agenda } := by
  rw [State.arriveHoop, pokeHoop_eq]
  rfl

theorem hoop_arriveHoop (hh : h < 64) (a : Arrival) : (u.arriveHoop h a).hoop h = (u.hoop h).arrive a := by
  rw [State.arriveHoop, pokeHoop_eq]
  exact hoop_putHoop _ hh

theorem ready_arrive {y : Hoop} {a : Arrival} (hp : y.arrivals.length + 1 = y.p.toNat) (hb : y.bytes = 0) :
    (y.arrive a).ready = true := by
  have h0 : y.p ≠ 0 := fun h => by simp [h] at hp
  rw [Hoop.arrive, if_neg (by omega), Hoop.ready, List.length_append, List.length_singleton, hp, hb]
  simpa using h0

end

theorem cmdHoldsHoop_iff {u : State} {n k : Nat} (hc : (u.getTile n).core.hasCmd k = true) (h : Nat) :
    u.cmdHoldsHoop n k h = true ↔ ∃ g, u.graphOfTile n = some g ∧ g.record.getLsbD (128 + h) = true := by
  rw [State.cmdHoldsHoop, State.cmdGraph, if_pos hc, Option.any_eq_true]
  rfl

theorem takeUp_eq {u : State} {n : Nat} {x : Cmd} (hc : (u.getTile n).core.hasCmd x.serial = true) :
    takeUp u n x = { u with tile := (takeUp u n x).tile, tiles := (takeUp u n x).tiles } := by
  rw [takeUp, markCmd, State.onCmd, State.onCmdCore, if_pos hc, State.onCore, putTile_eq]

/-- R223: the reserved bits of the first operand of a HOOP. -/
theorem hoopReserved_iff (v : BitVec 64) :
    v &&& 0xFFFFFFFFFFFFFCC0 = 0 ↔ v.extractLsb' 6 2 = 0 ∧ v.extractLsb' 10 54 = 0 := by
  have hm : ∀ i < 64, (0xFFFFFFFFFFFFFCC0 : BitVec 64).getLsbD i = true ↔ 6 ≤ i ∧ i < 8 ∨ 10 ≤ i := by decide
  have hz : ∀ {m : Nat} (w : BitVec m), w = 0 ↔ ∀ i < m, w.getLsbD i = false := fun w =>
    ⟨fun h i _ => by rw [h]; simp, fun h => BitVec.eq_of_getLsbD_eq fun i hi => by rw [h i hi]; simp⟩
  simp only [hz, BitVec.getLsbD_and, BitVec.getLsbD_extractLsb', Bool.and_eq_false_iff]
  constructor
  · intro h
    refine ⟨fun i hi => .inr ?_, fun i hi => .inr ?_⟩
    · exact (h (6 + i) (by omega)).resolve_right (Bool.eq_false_iff.not_left.2 ((hm (6 + i) (by omega)).2 (by omega)))
    · exact (h (10 + i) (by omega)).resolve_right (Bool.eq_false_iff.not_left.2 ((hm (10 + i) (by omega)).2 (by omega)))
  · rintro ⟨h1, h2⟩ i hi
    by_cases hb : 6 ≤ i ∧ i < 8 ∨ 10 ≤ i
    · refine .inl ?_
      obtain hb | hb := hb
      · have := h1 (i - 6) (by omega)
        rw [show 6 + (i - 6) = i by omega] at this
        exact this.resolve_left (by simp; omega)
      · have := h2 (i - 10) (by omega)
        rw [show 10 + (i - 10) = i by omega] at this
        exact this.resolve_left (by simp; omega)
    · exact .inr (by simpa using mt (hm i hi).1 hb)

/-- R223: the hoop that a HOOP names. -/
def hoopNum (x : Cmd) : Nat := (x.sa.extractLsb' 0 6).toNat
/-- R223: what a HOOP does with it. -/
def hoopOp (x : Cmd) : Nat := (x.sa.extractLsb' 8 2).toNat

theorem hoopNum_lt (x : Cmd) : hoopNum x < 64 := (x.sa.extractLsb' 0 6).isLt

/-- R224: a HOOP whose first operand is refused. -/
def HoopBad (x : Cmd) : Prop := x.sa.extractLsb' 6 2 ≠ 0 ∨ x.sa.extractLsb' 10 54 ≠ 0 ∨ hoopOp x = 3

theorem hoopBad_iff (x : Cmd) : HoopBad x ↔ x.sa &&& 0xFFFFFFFFFFFFFCC0 ≠ 0 ∨ hoopOp x = 3 := by
  rw [HoopBad, ne_eq (x.sa &&& _), hoopReserved_iff, not_and_or, or_assoc]

section
variable {u : State} {n : Nat} {x : Cmd}

theorem startHoop_eq (u : State) (n : Nat) (x : Cmd) : startHoop u n x =
    let r : CmdRef := ⟨n, x.serial⟩
    let y := u.hoop (hoopNum x)
    if x.sa &&& 0xFFFFFFFFFFFFFCC0 ≠ 0 ∨ hoopOp x = 3 then landStatus u r (.badRec 0xF1)
    else if !u.cmdHoldsHoop n x.serial (hoopNum x) then landStatus u r (.refused 8 (hoopNum x))
    else if hoopOp x ≠ 1 ∧ x.sb ≠ 0 then landStatus u r (.badRec 0xF2)
    else if hoopOp x = 0 then
      if y.p = 0 then landStatus u r (.refused 8 (hoopNum x)) else (takeUp u n x).arriveHoop (hoopNum x) (.cmd r)
    else if hoopOp x = 1 then
      if x.sb = 0 ∨ 4096 < x.sb.toNat then landStatus u r (.badRec 0xF2)
      else if y.arrivals ≠ [] ∨ y.bytes ≠ 0 then landStatus u r .busy
      else landStatus (u.putHoop (hoopNum x) { y with p := fld x.sb 0 13 }) r (.ok y.g.toNat)
    else landStatus u r (.ok (y.arrivals.length + 65536 * (y.g.toNat % 65536))) := rfl

theorem startHoop_bad (h : HoopBad x) : startHoop u n x = landStatus u ⟨n, x.serial⟩ (.badRec 0xF1) :=
  if_pos ((hoopBad_iff x).1 h)

theorem startHoop_unheld (hb : ¬ HoopBad x) (hd : u.cmdHoldsHoop n x.serial (hoopNum x) = false) :
    startHoop u n x = landStatus u ⟨n, x.serial⟩ (.refused 8 (hoopNum x)) := by
  rw [startHoop_eq]
  exact (if_neg (mt (hoopBad_iff x).2 hb)).trans (if_pos (by simp [hd]))

section
variable (hb : ¬ HoopBad x) (hd : u.cmdHoldsHoop n x.serial (hoopNum x) = true)
include hb hd

theorem startHoop_held : startHoop u n x =
    let r : CmdRef := ⟨n, x.serial⟩
    let y := u.hoop (hoopNum x)
    if hoopOp x ≠ 1 ∧ x.sb ≠ 0 then landStatus u r (.badRec 0xF2)
    else if hoopOp x = 0 then
      if y.p = 0 then landStatus u r (.refused 8 (hoopNum x)) else (takeUp u n x).arriveHoop (hoopNum x) (.cmd r)
    else if hoopOp x = 1 then
      if x.sb = 0 ∨ 4096 < x.sb.toNat then landStatus u r (.badRec 0xF2)
      else if y.arrivals ≠ [] ∨ y.bytes ≠ 0 then landStatus u r .busy
      else landStatus (u.putHoop (hoopNum x) { y with p := fld x.sb 0 13 }) r (.ok y.g.toNat)
    else landStatus u r (.ok (y.arrivals.length + 65536 * (y.g.toNat % 65536))) := by
  rw [startHoop_eq]
  exact (if_neg (mt (hoopBad_iff x).2 hb)).trans (if_neg (by simp [hd]))

theorem startHoop_operand (h1 : hoopOp x ≠ 1) (hs : x.sb ≠ 0) :
    startHoop u n x = landStatus u ⟨n, x.serial⟩ (.badRec 0xF2) := by
  rw [startHoop_held hb hd]
  exact if_pos ⟨h1, hs⟩

theorem startHoop_disarmed (h0 : hoopOp x = 0) (hs : x.sb = 0) (hp : (u.hoop (hoopNum x)).p = 0) :
    startHoop u n x = landStatus u ⟨n, x.serial⟩ (.refused 8 (hoopNum x)) := by
  rw [startHoop_held hb hd]
  exact (if_neg fun h => h.2 hs).trans ((if_pos h0).trans (if_pos hp))

/-- R224: an arrival, at a hoop that is armed. -/
theorem startHoop_arrives (h0 : hoopOp x = 0) (hs : x.sb = 0) (hp : (u.hoop (hoopNum x)).p ≠ 0) :
    startHoop u n x = (takeUp u n x).arriveHoop (hoopNum x) (.cmd ⟨n, x.serial⟩) := by
  rw [startHoop_held hb hd]
  exact (if_neg fun h => h.2 hs).trans ((if_pos h0).trans (if_neg hp))

theorem startHoop_arming (h1 : hoopOp x = 1) : startHoop u n x =
    let y := u.hoop (hoopNum x)
    if x.sb = 0 ∨ 4096 < x.sb.toNat then landStatus u ⟨n, x.serial⟩ (.badRec 0xF2)
    else if y.arrivals ≠ [] ∨ y.bytes ≠ 0 then landStatus u ⟨n, x.serial⟩ .busy
    else landStatus (u.putHoop (hoopNum x) { y with p := fld x.sb 0 13 }) ⟨n, x.serial⟩ (.ok y.g.toNat) := by
  rw [startHoop_held hb hd]
  exact (if_neg fun h => h.1 h1).trans ((if_neg (by omega)).trans (if_pos h1))

theorem startHoop_badCount (h1 : hoopOp x = 1) (hs : x.sb = 0 ∨ 4096 < x.sb.toNat) :
    startHoop u n x = landStatus u ⟨n, x.serial⟩ (.badRec 0xF2) := by
  rw [startHoop_arming hb hd h1]
  exact if_pos hs

theorem startHoop_busy (h1 : hoopOp x = 1) (hs : ¬ (x.sb = 0 ∨ 4096 < x.sb.toNat))
    (ha : (u.hoop (hoopNum x)).arrivals ≠ [] ∨ (u.hoop (hoopNum x)).bytes ≠ 0) :
    startHoop u n x = landStatus u ⟨n, x.serial⟩ .busy := by
  rw [startHoop_arming hb hd h1]
  exact (if_neg hs).trans (if_pos ha)

theorem startHoop_arms (h1 : hoopOp x = 1) (hs : ¬ (x.sb = 0 ∨ 4096 < x.sb.toNat))
    (ha : (u.hoop (hoopNum x)).arrivals = []) (hy : (u.hoop (hoopNum x)).bytes = 0) : startHoop u n x =
      landStatus (u.putHoop (hoopNum x) { u.hoop (hoopNum x) with p := fld x.sb 0 13 }) ⟨n, x.serial⟩
        (.ok (u.hoop (hoopNum x)).g.toNat) := by
  rw [startHoop_arming hb hd h1]
  exact (if_neg hs).trans (if_neg (by simp [ha, hy]))

/-- R224: a query. -/
theorem startHoop_query (h2 : hoopOp x = 2) (hs : x.sb = 0) : startHoop u n x =
    landStatus u ⟨n, x.serial⟩ (.ok ((u.hoop (hoopNum x)).arrivals.length + 65536 * ((u.hoop (hoopNum x)).g.toNat % 65536))) := by
  rw [startHoop_held hb hd]
  exact (if_neg fun h => h.2 hs).trans ((if_neg (by omega)).trans (if_neg (by omega)))

end

/-- R224: an arrival is counted, and may open its hoop. -/
theorem takeUp_arriveHoop_spec (hc : (u.getTile n).core.hasCmd x.serial = true) {h : Nat} (hh : h < 64) (a : Arrival) :
    let t := (takeUp u n x).arriveHoop h a
    t = { u with tile := t.tile, tiles := t.tiles, hoops := t.hoops, agenda := t.agenda } ∧ t.hoop h = (u.hoop h).arrive a ∧
    ((u.hoop h).arrivals.length + 1 = (u.hoop h).p.toNat → (u.hoop h).bytes = 0 → .hoopOpen h ∈ t.agenda) := by
  intro t
  have hy : (takeUp u n x).hoop h = u.hoop h := by rw [takeUp_eq hc]; rfl
  refine ⟨?_, (hoop_arriveHoop hh a).trans (by rw [hy]), fun hp hb => mem_agenda_pokeHoop ?_⟩
  · simp only [t]
    rw [arriveHoop_eq, takeUp_eq hc]
  · rw [hoop_putHoop _ hh, hy]
    exact ready_arrive hp hb

end

end Sys2Proof.Laws
end

section
/-! PROOFS. The opening and the abandoning of a hoop, and the flip of a key (R224, R227). -/

namespace Sys2Proof.Laws

open Sys2Proof Sys2Proof.Machine

/-! ### Arrivals that are told (R224, R324) -/

/-- R405, R407: an answer sets out. -/
theorem answerPacket_answered (s : State) (p : Packet) (body : PacketBody) : Answered p body s (answerPacket s p body) := by
  refine ⟨s.ownGen, rfl, fun g r h => ?_⟩
  rw [State.ownGen, h]

theorem tellArrival_hoops_mem (st : Status) (body : Nat → PacketBody) (s : State) (a : Arrival) :
    (tellArrival st body s a).hoops = s.hoops ∧ (tellArrival st body s a).mem = s.mem := by
  cases a with
  | cmd r =>
    rw [tellArrival, landStatus_eq]
    exact ⟨rfl, rfl⟩
  | engine => exact ⟨rfl, rfl⟩
  | remote p => exact ⟨rfl, rfl⟩

theorem foldl_tellArrival_hoops_mem (st : Status) (body : Nat → PacketBody) (l : List Arrival) (s : State) :
    (l.foldl (tellArrival st body) s).hoops = s.hoops ∧ (l.foldl (tellArrival st body) s).mem = s.mem := by
  refine List.foldlRecOn (motive := fun v : State => v.hoops = s.hoops ∧ v.mem = s.mem) _ _ ⟨rfl, rfl⟩ fun v ⟨hv, mv⟩ a _ => ?_
  obtain ⟨h, m⟩ := tellArrival_hoops_mem st body v a
  exact ⟨h.trans hv, m.trans mv⟩

theorem hoop_of_getElem? {s : State} {h : Nat} {x : Hoop} (hx : s.hoops.toList[h]? = some x) : s.hoop h = x := by
  rw [State.hoop, List.getD_eq_getElem?_getD, hx, Option.getD_some]

theorem lt_of_getElem?_hoops {s : State} {h : Nat} {x : Hoop} (hx : s.hoops.toList[h]? = some x) : h < 64 := by
  obtain ⟨hl, -⟩ := List.getElem?_eq_some_iff.1 hx
  simpa using hl

theorem getElem?_hoops {s : State} {h : Nat} (hh : h < 64) : s.hoops.toList[h]? = some (s.hoop h) := by
  have hl : h < s.hoops.toList.length := by simpa using hh
  rw [State.hoop, List.getD_eq_getElem _ _ hl, List.getElem?_eq_getElem hl]

theorem ready_iff (x : Hoop) : x.ready = true ↔ x.p ≠ 0 ∧ x.arrivals.length = x.p.toNat ∧ x.bytes = 0 := by
  simp only [Hoop.ready, Bool.and_eq_true, bne_iff_ne, beq_iff_eq, and_assoc]

/-- R224: a hoop as it opens. -/
def opened (x : Hoop) : Hoop :=
  { x with g := x.g + 1, arrivals := x.early.take x.p.toNat, early := x.early.drop x.p.toNat }

theorem execHoopOpen_of_ready {s : State} {h : Nat} (hr : (s.hoop h).ready = true) : execHoopOpen h s = .next
    (((s.hoop h).arrivals.foldl (tellArrival (Status.ok ((s.hoop h).g + 1).toNat) fun id => .ack id 0)
      (s.putHoop h (opened (s.hoop h)))).pokeHoop h) := by
  simp only [execHoopOpen, if_pos hr]
  rfl

theorem execHoopOpen_of_not_ready {s : State} {h : Nat} (hr : ¬ (s.hoop h).ready = true) : execHoopOpen h s = .next s := by
  simp only [execHoopOpen, if_neg hr]

theorem ok_toNat (v : BitVec 32) : Status.ok v.toNat = ⟨0, 0, v⟩ := by
  rw [Status.ok, BitVec.ofNat_toNat, BitVec.setWidth_eq]

/-- R224, R324: a hoop opens. -/
theorem hoopOpen_spec {s : State} {h : Nat} {x : Hoop} (hx : s.hoops.toList[h]? = some x) (hr : x.ready = true) :
    ∃ v t, execHoopOpen h s = .next t ∧ v.hoop h = opened x ∧ v = { s with hoops := v.hoops } ∧ t.hoops = v.hoops ∧ t.mem = s.mem ∧
      (∀ y, x.arrivals = [.cmd y] → ∃ w, Lands y ⟨0, 0, x.g + 1⟩ v w ∧ t = { w with agenda := t.agenda }) ∧
      ∀ p, x.arrivals = [.remote p] → ∃ w, Answered p (.ack (bodyId p.body) 0) v w ∧ t = { w with agenda := t.agenda } := by
  obtain rfl := hoop_of_getElem? hx
  refine ⟨s.putHoop h (opened (s.hoop h)), _, execHoopOpen_of_ready hr, hoop_putHoop _ (lt_of_getElem?_hoops hx), rfl, ?_, ?_,
    fun y hy => ?_, fun p hp => ?_⟩
  · rw [pokeHoop_eq]
    exact (foldl_tellArrival_hoops_mem ..).1
  · rw [pokeHoop_eq]
    exact (foldl_tellArrival_hoops_mem ..).2
  · rw [hy, ok_toNat]
    exact ⟨_, landStatus_lands _ y _, pokeHoop_eq ..⟩
  · rw [hp]
    exact ⟨_, answerPacket_answered _ p _, pokeHoop_eq ..⟩

/-- R224, R324: a hoop is abandoned. -/
theorem hoopAbandon_spec {s : State} {h : Nat} {x : Hoop} (hx : s.hoops.toList[h]? = some x) :
    ∃ v t, execHoopAbandon h s = .next t ∧ v = { s with hoops := v.hoops } ∧ v.hoop h = Hoop.reset ∧ t.hoops = v.hoops ∧
      t.mem = s.mem ∧ (x.arrivals ++ x.early = [] → t = v) ∧
      (∀ y, x.arrivals ++ x.early = [.cmd y] → Lands y ⟨0x13, 0, 0⟩ v t) ∧
      ∀ p, x.arrivals ++ x.early = [.remote p] → Answered p (.aborted (bodyId p.body)) v t := by
  obtain rfl := hoop_of_getElem? hx
  refine ⟨s.putHoop h Hoop.reset, _, rfl, rfl, hoop_putHoop _ (lt_of_getElem?_hoops hx), (foldl_tellArrival_hoops_mem ..).1,
    (foldl_tellArrival_hoops_mem ..).2, fun he => ?_, fun y hy => ?_, fun p hp => ?_⟩
  · rw [he]
    rfl
  · rw [hy]
    exact landStatus_lands _ y _
  · rw [hp]
    exact answerPacket_answered _ p _

/-! ### Keys (R227) -/

theorem execKeyFlip_of_some {s : State} {k : Nat} {y : CmdRef} {f : BitVec 64} (hp : (s.key k).pending = some y)
    (hf : (s.key k).flip = some f) : execKeyFlip k s = if f.ule s.time = true then
      .next (landStatus (s.putKey k ⟨!(s.key k).parity, none, [], none⟩) y (Status.ok (f.extractLsb' 0 32).toNat))
    else .next s := by
  simp only [execKeyFlip, hp, hf]
  rfl

theorem execKeyFlip_of_none {s : State} {k : Nat} (h : (s.key k).pending = none ∨ (s.key k).flip = none) :
    execKeyFlip k s = .next s := by
  obtain h | h := h
  · simp only [execKeyFlip, h]
  · cases hp : (s.key k).pending <;> simp only [execKeyFlip, hp, h]

theorem execKeyFlip_of_later {s : State} {k : Nat} {f : BitVec 64} (hf : (s.key k).flip = some f) (ht : s.time.toNat < f.toNat) :
    execKeyFlip k s = .next s := by
  cases hp : (s.key k).pending with
  | none => exact execKeyFlip_of_none (.inl hp)
  | some y => exact (execKeyFlip_of_some hp hf).trans (if_neg (by simpa [BitVec.ule] using ht))

/-- R227: at T the parity of a key turns. -/
theorem keyFlip_spec {s : State} {k : Nat} {y : CmdRef} {f : BitVec 64} (hp : (s.key k).pending = some y)
    (hf : (s.key k).flip = some f) (ht : f.toNat ≤ s.time.toNat) :
    ∃ v t, execKeyFlip k s = .next t ∧ v = { s with keys := v.keys } ∧
      sparseGet Key.reset v.keys k = ⟨!(s.key k).parity, none, [], none⟩ ∧
      (∀ j, j ≠ k → sparseGet Key.reset v.keys j = sparseGet Key.reset s.keys j) ∧ Lands y ⟨0, 0, f.extractLsb' 0 32⟩ v t := by
  refine ⟨s.putKey k ⟨!(s.key k).parity, none, [], none⟩, _,
    (execKeyFlip_of_some hp hf).trans (if_pos (by simpa [BitVec.ule] using ht)), rfl, ?_, fun j hj => ?_, ?_⟩
  · exact (sparseGet_put ..).trans (if_pos rfl)
  · exact (sparseGet_put ..).trans (if_neg hj)
  · rw [ok_toNat]
    exact landStatus_lands ..

end Sys2Proof.Laws
end

section
/-! PROOFS. A drain of accumulators to operand memory (R203, R213, R216). -/

namespace Sys2Proof.Laws

open Sys2Proof Sys2Proof.Machine

/-! ### Started commands -/

theorem started_find? {u : State} {r : CmdRef} {kind : CmdKind} {x : Cmd} (h : Started u r kind x) :
    (u.getTile r.tile).core.hasCmd r.serial = true ∧ x.serial = r.serial ∧ startedCmd u r.tile r.serial kind = some x := by
  have hx := List.find?_some h
  simp only [Bool.and_eq_true, beq_iff_eq] at hx
  obtain ⟨⟨hs, -⟩, -⟩ := hx
  have hc : (u.getTile r.tile).core.hasCmd r.serial = true :=
    List.any_eq_true.2 ⟨x, List.mem_of_find?_eq_some h, by simpa using hs⟩
  refine ⟨hc, hs, ?_⟩
  rw [startedCmd, State.cmdCore, if_pos hc]
  exact h

/-- A fold that establishes a fact at one element and keeps it at every other. -/
theorem foldl_establishes {α β : Type} {f : β → α → β} {P : β → Prop} (keep : ∀ b a, P b → P (f b a)) {l : List α} {x : α}
    (hx : x ∈ l) (est : ∀ b, P (f b x)) (b : β) : P (l.foldl f b) := by
  induction l generalizing b with
  | nil => exact absurd hx List.not_mem_nil
  | cons a l ih =>
    obtain rfl | hx := List.mem_cons.1 hx
    · exact List.foldlRecOn l f (est b) fun b hb a _ => keep b a hb
    · exact ih hx _

/-! ### Whole tokens written to operand memory (R216, R276, R421) -/

theorem omTouch_eq (s : State) (n x : Nat) (mask : BitVec 64) :
    s.omTouch n x mask = { s with tile := (s.omTouch n x mask).tile, tiles := (s.omTouch n x mask).tiles } := by
  unfold State.omTouch
  dsimp only
  split
  · exact putTile_eq ..
  · rfl

theorem omTouch_core (s : State) (n x : Nat) (mask : BitVec 64) (m : Nat) :
    ((s.omTouch n x mask).getTile m).core = (s.getTile m).core := by
  unfold State.omTouch
  dsimp only
  split
  · rw [getTile_putTile]
    split
    · next h => rw [h]; rfl
    · rfl
  · rfl

/-- Tokens written to operand memory: nothing changes but memory and what tiles record of it. -/
def OmOnly (s t : State) : Prop :=
  t = { s with mem := t.mem, tile := t.tile, tiles := t.tiles } ∧ ∀ m, (t.getTile m).core = (s.getTile m).core

theorem omOnly_refl (s : State) : OmOnly s s := ⟨rfl, fun _ => rfl⟩

theorem omOnly_trans {s t v : State} (h : OmOnly s t) (k : OmOnly t v) : OmOnly s v := by
  obtain ⟨h, hc⟩ := h
  obtain ⟨k, kc⟩ := k
  refine ⟨?_, fun m => (kc m).trans (hc m)⟩
  rw [k, h]

theorem omOnly_omWrite (s : State) (n x : Nat) (data : Line) (exp : BitVec 8) : OmOnly s (s.omWrite n x data exp) := by
  refine ⟨?_, fun m => omTouch_core ..⟩
  rw [State.omWrite, omTouch_eq]

/-- R213: tokens written one after the other, from an X on, with a sideband of 0. -/
def writeTokens (n base c : Nat) (d : Nat → Line) (s : State) : State :=
  (List.range c).foldl (fun s k => s.omWrite n (base + 64 * k) (d k) 0) s

theorem omOnly_writeTokens (n base c : Nat) (d : Nat → Line) (s : State) : OmOnly s (writeTokens n base c d s) :=
  List.foldlRecOn _ _ (omOnly_refl s) fun _ h _ _ => omOnly_trans h (omOnly_omWrite ..)

theorem omWrite_mem (s : State) (n x : Nat) (data : Line) (exp : BitVec 8) :
    (s.omWrite n x data exp).mem = writeByte (writeBytes s.mem (omLoc n x) 64 data.toNat) (sideLoc n x) exp := by
  rw [State.omWrite, omTouch_mem]

/-- R216, R421: the bytes of the tokens, their sidebands, and every other byte. -/
theorem readByte_writeTokens {n base c : Nat} (d : Nat → Line) (s : State) (hb : base % 64 = 0) (hn : n < 2112)
    (hl : base < 2 ^ 24) (hc : c ≤ 128) (q : Nat) : readByte (writeTokens n base c d s).mem q =
      if omLoc n base ≤ q ∧ q < omLoc n base + 64 * c then
        BitVec.ofNat 8 ((d ((q - omLoc n base) / 64)).toNat / 256 ^ ((q - omLoc n base) % 64))
      else if sideLoc n base ≤ q ∧ q < sideLoc n base + c then 0 else readByte s.mem q := by
  induction c with
  | zero => rw [if_neg (by omega), if_neg (by omega)]; rfl
  | succ c ih =>
    have ih := ih (by omega)
    have hs : writeTokens n base (c + 1) d s = (writeTokens n base c d s).omWrite n (base + 64 * c) (d c) 0 := by
      rw [writeTokens, List.range_succ, List.foldl_append]
      rfl
    have e1 : omLoc n (base + 64 * c) = omLoc n base + 64 * c := (Nat.add_assoc ..).symm
    have e2 : sideLoc n (base + 64 * c) = sideLoc n base + c := by
      simp only [sideLoc]
      omega
    have hd : omLoc n base + 64 * (c + 1) ≤ sideLoc n base := by
      simp only [omLoc, sideLoc, spaceSize]
      omega
    rw [hs, omWrite_mem, readByte_writeByte, readByte_writeBytes, ih, e1, e2]
    by_cases h1 : omLoc n base + 64 * c ≤ q ∧ q < omLoc n base + 64 * c + 64
    · have hq : (q - omLoc n base) / 64 = c := by omega
      have hr : (q - omLoc n base) % 64 = q - (omLoc n base + 64 * c) := by omega
      rw [if_neg (by omega), if_pos h1, if_pos (by omega), hq, hr]
    · rw [if_neg h1]
      by_cases h2 : q = sideLoc n base + c
      · rw [if_pos h2, if_neg (by omega), if_pos (by omega)]
      · rw [if_neg h2]
        by_cases h3 : omLoc n base ≤ q ∧ q < omLoc n base + 64 * c
        · rw [if_pos h3, if_pos (by omega)]
        · rw [if_neg h3]
          by_cases h4 : sideLoc n base ≤ q ∧ q < sideLoc n base + c
          · rw [if_pos h4, if_neg (by omega), if_pos (by omega)]
          · rw [if_neg h4, if_neg (by omega), if_neg (by omega)]

/-- R216: a lane of a token that was written. -/
theorem readBytes_writeTokens {n base c : Nat} (d : Nat → Line) (s : State) (hb : base % 64 = 0) (hn : n < 2112)
    (hl : base < 2 ^ 24) (hc : c ≤ 128) {i l : Nat} (hi : i < c) (hlane : l < 16) :
    readBytes (writeTokens n base c d s).mem (omLoc n (base + 64 * i) + 4 * l) 4 = (fld (d i) (32 * l) 32).toNat := by
  have e1 : omLoc n (base + 64 * i) = omLoc n base + 64 * i := (Nat.add_assoc ..).symm
  refine Nat.eq_of_testBit_eq fun j => ?_
  rw [readBytes_testBit, BitVec.testBit_toNat, fld_getLsbD]
  by_cases hj : j < 32
  · have hq : (omLoc n base + 64 * i + 4 * l + j / 8 - omLoc n base) / 64 = i := by omega
    have hr : (omLoc n base + 64 * i + 4 * l + j / 8 - omLoc n base) % 64 = 4 * l + j / 8 := by omega
    have hb8 : 8 * (4 * l + j / 8) + j % 8 = 32 * l + j := by omega
    rw [readByte_writeTokens d s hb hn hl hc, e1, if_pos (by omega), hq, hr, BitVec.getLsbD_ofNat,
      show (256 : Nat) = 2 ^ 8 from rfl, ← Nat.pow_mul, Nat.testBit_div_two_pow, BitVec.testBit_toNat, Nat.add_comm (j % 8), hb8,
      decide_eq_true (show j % 8 < 8 by omega), decide_eq_true (show j < 8 * 4 by omega)]
    rfl
  · rw [decide_eq_false (show ¬ j < 8 * 4 by omega)]
    rfl

/-! ### What drains (R203, R213) -/

/-- R213: the accumulator that drains to a lane. -/
def drainedLane (r : Region) (n k l : Nat) : BitVec 32 :=
  match r.cfg.localPos .s n l with
  | some j => sparseGet 0 r.acc (accKey j k)
  | none => 0

theorem fld_drainedToken (r : Region) (n k : Nat) {l : Nat} (hl : l < 16) :
    fld (drainedToken r n k) (32 * l) 32 = drainedLane r n k l := fld_lineOfLanes_range (drainedLane r n k) hl

/-- R213: accumulators with those that drain to a lane cleared. -/
def clearLane (r : Region) (n a c : Nat) (t : Sparse (BitVec 32)) (l : Nat) : Sparse (BitVec 32) :=
  match r.cfg.localPos .s n l with
  | some j => (List.range c).foldl (fun t k => sparsePut 0 t (accKey j (a + k)) 0) t
  | none => t

theorem acc_clearDrained (r : Region) (n a c : Nat) :
    (clearDrained r n a c).acc = (List.range 16).foldl (clearLane r n a c) r.acc := rfl

/-- R213: the accumulators of a lane that drained are zero. -/
theorem clearDrained_acc (r : Region) (n a c : Nat) {i l j : Nat} (hi : i < c) (hl : l < 16) (hj : r.cfg.localPos .s n l = some j) :
    sparseGet 0 (clearDrained r n a c).acc (accKey j (a + i)) = 0 := by
  have keep : ∀ (t : Sparse (BitVec 32)) (k : Nat), sparseGet 0 t (accKey j (a + i)) = 0 →
      sparseGet 0 (sparsePut 0 t k 0) (accKey j (a + i)) = 0 := fun t k h => by
    rw [sparseGet_put, h, ite_self]
  rw [acc_clearDrained]
  refine foldl_establishes (P := fun t : Sparse (BitVec 32) => sparseGet 0 t (accKey j (a + i)) = 0) (fun t m h => ?_)
    (List.mem_range.2 hl) (fun t => ?_) _
  · unfold clearLane
    split
    · exact List.foldlRecOn (motive := fun t : Sparse (BitVec 32) => sparseGet 0 t (accKey j (a + i)) = 0) _ _ h
        fun t h m _ => keep t _ h
    · exact h
  · simp only [clearLane, hj]
    exact foldl_establishes (P := fun t : Sparse (BitVec 32) => sparseGet 0 t (accKey j (a + i)) = 0) (fun t m h => keep t (accKey j (a + m)) h)
      (List.mem_range.2 hi) (fun t => (sparseGet_put ..).trans (if_pos rfl)) t

/-! ### The sample -/

section
variable {u : State} {n k : Nat} {x : Cmd} {g : Graph} {y : Region}

theorem graphOfTile_of_omOnly {s t : State} (h : OmOnly s t) (n : Nat) : t.graphOfTile n = s.graphOfTile n := by
  rw [h.1]
  rfl

theorem getGraph_of_omOnly {s t : State} (h : OmOnly s t) (k : Nat) : t.getGraph k = s.getGraph k := by
  rw [h.1]
  rfl

/-- R203, R213: a state in which the tokens of a drain are written, and its accumulators cleared where it says so. -/
def drainedTo (u : State) (n k : Nat) (x : Cmd) (g : Graph) (y : Region) : State :=
  let s := writeTokens n (drainBase x) (drainCount x) (fun i => drainedToken y n (drainFirst x + i)) u
  let s := if x.sa.getLsbD 23 then s.onCmdRegion n k y.id fun y => clearDrained y n (drainFirst x) (drainCount x) else s
  s.noteDrain n k g.slotNo

theorem execDrainSample_eq {s : State} (hs : Started s.settle ⟨n, k⟩ .drn x) (hg : s.settle.graphOfTile n = some g)
    (hy : drainRegion s.settle n x = some y) :
    execDrainSample n k s = .next (landStatus (drainedTo s.settle n k x g y) ⟨n, k⟩ (.ok (drainCount x))) := by
  obtain ⟨hc, hk, hf⟩ := started_find? hs
  have hgr : s.settle.cmdGraph n k = some g := by rw [State.cmdGraph, if_pos hc, hg]
  simp only at hk hf
  subst hk
  simp only [execDrainSample, hf, hy, hgr]
  rfl

theorem noteDrain_mem (s : State) (n k slot : Nat) : (s.noteDrain n k slot).mem = s.mem := by
  unfold State.noteDrain
  dsimp only
  split
  · exact putTile_mem ..
  · rfl

theorem noteDrain_getGraph (s : State) (n k slot i : Nat) : (s.noteDrain n k slot).getGraph i = s.getGraph i := by
  unfold State.noteDrain
  dsimp only
  split
  · rw [State.getGraph, putTile_graph, putTile_graphs]
    rfl
  · rfl

theorem onCmdRegion_mem (s : State) (n k r : Nat) (f : Region → Region) : (s.onCmdRegion n k r f).mem = s.mem := by
  unfold State.onCmdRegion
  split
  · split
    · exact onGraph_mem ..
    · rfl
  · rfl

theorem drainedTo_mem (u : State) (n k : Nat) (x : Cmd) (g : Graph) (y : Region) : (drainedTo u n k x g y).mem =
    (writeTokens n (drainBase x) (drainCount x) (fun i => drainedToken y n (drainFirst x + i)) u).mem := by
  rw [drainedTo, noteDrain_mem]
  split
  · exact onCmdRegion_mem ..
  · rfl

/-- R213: the region that drained, where its accumulators are cleared. -/
theorem drainedTo_region (hc : (u.getTile n).core.hasCmd k = true) (hg : u.graphOfTile n = some g) (hgg : u.getGraph g.slot = some g)
    (hy : g.getRegion y.id = some y) (hz : x.sa.getLsbD 23 = true) :
    (drainedTo u n k x g y).getRegion g.slot y.id = some (clearDrained y n (drainFirst x) (drainCount x)) := by
  have ho := omOnly_writeTokens n (drainBase x) (drainCount x) (fun i => drainedToken y n (drainFirst x + i)) u
  rw [drainedTo, if_pos hz, State.getRegion, noteDrain_getGraph, State.onCmdRegion, ho.2, if_pos hc, graphOfTile_of_omOnly ho, hg]
  obtain ⟨-, hr, -⟩ := graphTo_onGraph ((getGraph_of_omOnly ho g.slot).trans hgg)
    (f := fun z => z.onRegion y.id fun y => clearDrained y n (drainFirst x) (drainCount x)) rfl
  exact (congrArg (·.bind fun z => z.getRegion y.id) hr).trans (getRegion_onRegion_self (clearDrained · n (drainFirst x) (drainCount x)) hy fun _ => rfl)

theorem getRegion_of_drainRegion (hc : (u.getTile n).core.hasCmd x.serial = true) (hg : u.graphOfTile n = some g)
    (hy : drainRegion u n x = some y) : g.getRegion y.id = some y := by
  rw [drainRegion, State.cmdGraph, if_pos hc, hg] at hy
  simp only [Option.bind_some] at hy
  split at hy
  · next r hr =>
    split at hy
    · cases hy
      rwa [id_of_getRegion hr]
    · cases hy
  · cases hy

end

end Sys2Proof.Laws
end

section
/-! PROOFS. A claim of operand memory slots (R214, R216). -/

namespace Sys2Proof.Laws

open Sys2Proof Sys2Proof.Machine

/-! ### Tables of which some keys are dropped -/

theorem sparseGet_filter_key {α : Type} (d : α) (p : Nat → Bool) (t : Sparse α) (j : Nat) :
    sparseGet d (t.filter fun x => p x.1) j = if p j = true then sparseGet d t j else d := by
  induction t with
  | nil => simp [sparseGet]
  | cons y t ih =>
    obtain ⟨a, v⟩ := y
    by_cases ha : p a = true
    · rw [List.filter_cons_of_pos (by exact ha), sparseGet, sparseGet, ih]
      by_cases hj : a = j
      · rw [if_pos hj, if_pos hj, if_pos (hj ▸ ha)]
      · rw [if_neg hj, if_neg hj]
    · rw [List.filter_cons_of_neg (by exact ha), sparseGet, ih]
      by_cases hj : a = j
      · rw [if_neg (hj ▸ ha), if_neg (hj ▸ ha)]
      · rw [if_neg hj]

theorem readByte_filter (p : Nat → Bool) (m : List Host.Cell) (q : Nat) :
    readByte (m.filter fun c => p c.1) q = if p q = true then readByte m q else 0 := sparseGet_filter_key 0 p m q

/-! ### One slot (R214) -/

/-- Whether a byte is of a slot of operand memory, or of its sidebands. -/
def InSlot (n slot q : Nat) : Prop :=
  omLoc n (slot * 65536) ≤ q ∧ q < omLoc n (slot * 65536) + 65536 ∨
    sideLoc n (slot * 65536) ≤ q ∧ q < sideLoc n (slot * 65536) + 1024

theorem omZero_reads (s : State) (n slot q : Nat) :
    (InSlot n slot q → readByte (s.omZero n slot).mem q = 0) ∧ (¬ InSlot n slot q → readByte (s.omZero n slot).mem q = readByte s.mem q) := by
  have h : readByte (s.omZero n slot).mem q = if (!(decide (omLoc n (slot * 65536) ≤ q ∧ q < omLoc n (slot * 65536) + 65536) ||
      decide (sideLoc n (slot * 65536) ≤ q ∧ q < sideLoc n (slot * 65536) + 1024))) = true then readByte s.mem q else 0 := by
    rw [State.omZero, putTile_mem]
    exact readByte_filter (fun a => !(decide (omLoc n (slot * 65536) ≤ a ∧ a < omLoc n (slot * 65536) + 65536) ||
      decide (sideLoc n (slot * 65536) ≤ a ∧ a < sideLoc n (slot * 65536) + 1024))) s.mem q
  simp only [Bool.not_eq_true', Bool.or_eq_false_iff, decide_eq_false_iff_not, ← not_or] at h
  exact ⟨fun hq => h.trans (if_neg (not_not.2 hq)), fun hq => h.trans (if_pos hq)⟩

theorem omZero_owners (s : State) (n slot : Nat) : ((s.omZero n slot).getTile n).owners = (s.getTile n).owners := by
  rw [State.omZero, getTile_putTile, if_pos rfl]

/-- R214: one slot of a claim. -/
def claimSlot (n : Nat) (ctx : BitVec 16) (x : Nat × State) (slot : Nat) : Nat × State :=
  let tile := x.2.getTile n
  if tile.owns slot ctx then x
  else (x.1 + 1, (x.2.putTile n { tile with owners := assocPut tile.owners slot ctx }).omZero n slot)

theorem claimSlots_eq (s : State) (n : Nat) (ctx : BitVec 16) (lo c : Nat) :
    claimSlots s n ctx lo c = (List.range c).foldl (fun x k => claimSlot n ctx x (lo + k)) (0, s) := rfl

theorem owns_iff (t : Tile) (slot : Nat) (ctx : BitVec 16) : t.owns slot ctx = true ↔ assocGet t.owners slot = some ctx := beq_iff_eq

theorem claimSlots_succ (s : State) (n : Nat) (ctx : BitVec 16) (lo c : Nat) :
    claimSlots s n ctx lo (c + 1) = claimSlot n ctx (claimSlots s n ctx lo c) (lo + c) := by
  rw [claimSlots_eq, claimSlots_eq, List.range_succ, List.foldl_append]
  rfl

/-! ### A claim (R214) -/

section
variable {s : State} {n : Nat} {ctx : BitVec 16} {lo : Nat}

/-- R214: after a claim its slots are the context's, and those that were free are counted and read as zero. -/
structure Claimed (s : State) (n : Nat) (ctx : BitVec 16) (lo c m : Nat) (v : State) : Prop where
  count : m = ((List.range c).filter fun i => assocGet (s.getTile n).owners (lo + i) == none).length
  owned : ∀ i, lo ≤ i → i < lo + c → assocGet (v.getTile n).owners i = some ctx
  beyond : ∀ i, lo + c ≤ i → assocGet (v.getTile n).owners i = assocGet (s.getTile n).owners i
  zero : ∀ i q, lo ≤ i → i < lo + c → assocGet (s.getTile n).owners i = none → InSlot n i q → readByte v.mem q = 0
  kept : ∀ q, (∀ i, lo ≤ i → i < lo + c → assocGet (s.getTile n).owners i = none → ¬ InSlot n i q) → readByte v.mem q = readByte s.mem q

theorem claimed_zero : Claimed s n ctx lo 0 0 s := ⟨rfl, fun _ _ _ => by omega, fun _ _ => rfl, fun _ _ _ _ => by omega, fun _ _ => rfl⟩

/-- A slot that the context owned already. -/
theorem claimed_succ_of_own {c m : Nat} {v : State} (h : Claimed s n ctx lo c m v)
    (ho : assocGet (s.getTile n).owners (lo + c) = some ctx) : Claimed s n ctx lo (c + 1) m v := by
  refine ⟨?_, fun i h1 h2 => ?_, fun i hi => h.beyond i (by omega), fun i q h1 h2 hn hq => h.zero i q h1 ?_ hn hq, fun q hq => ?_⟩
  · rw [List.range_succ, List.filter_append, List.filter_cons_of_neg (by simp [ho]), List.filter_nil, List.append_nil]
    exact h.count
  · obtain h3 | rfl : i < lo + c ∨ i = lo + c := by omega
    · exact h.owned i h1 h3
    · exact (h.beyond _ (Nat.le_refl _)).trans ho
  · obtain h3 | rfl : i < lo + c ∨ i = lo + c := by omega
    · exact h3
    · simp [ho] at hn
  · exact h.kept q fun i h1 h2 hn => hq i h1 (by omega) hn

/-- A slot that was free. -/
theorem claimed_succ_of_free {c m : Nat} {v : State} (h : Claimed s n ctx lo c m v)
    (ho : assocGet (s.getTile n).owners (lo + c) = none) : Claimed s n ctx lo (c + 1) (m + 1)
      ((v.putTile n { v.getTile n with owners := assocPut (v.getTile n).owners (lo + c) ctx }).omZero n (lo + c)) := by
  have hown : ∀ i, assocGet (((v.putTile n { v.getTile n with owners := assocPut (v.getTile n).owners (lo + c) ctx }).omZero n
      (lo + c)).getTile n).owners i = if i = lo + c then some ctx else assocGet (v.getTile n).owners i := fun i => by
    rw [omZero_owners, getTile_putTile, if_pos rfl]
    exact assocGet_put ..
  refine ⟨?_, fun i h1 h2 => ?_, fun i hi => ?_, fun i q h1 h2 hn hq => ?_, fun q hq => ?_⟩
  · rw [List.range_succ, List.filter_append, List.filter_cons_of_pos (by simp [ho]), List.length_append, ← h.count]
    rfl
  · rw [hown]
    split
    · rfl
    · exact h.owned i h1 (by omega)
  · rw [hown, if_neg (by omega)]
    exact h.beyond i (by omega)
  · obtain ⟨hz, hk⟩ := omZero_reads (v.putTile n { v.getTile n with owners := assocPut (v.getTile n).owners (lo + c) ctx }) n (lo + c) q
    by_cases hc : InSlot n (lo + c) q
    · exact hz hc
    · rw [hk hc, putTile_mem]
      refine h.zero i q h1 ?_ hn hq
      obtain h3 | rfl : i < lo + c ∨ i = lo + c := by omega
      · exact h3
      · exact absurd hq hc
  · obtain ⟨-, hk⟩ := omZero_reads (v.putTile n { v.getTile n with owners := assocPut (v.getTile n).owners (lo + c) ctx }) n (lo + c) q
    rw [hk (hq (lo + c) (by omega) (by omega) ho), putTile_mem]
    exact h.kept q fun i h1 h2 hn => hq i h1 (by omega) hn

theorem claimSlots_claimed (c : Nat)
    (h : ∀ i, lo ≤ i → i < lo + c → assocGet (s.getTile n).owners i = none ∨ assocGet (s.getTile n).owners i = some ctx) :
    Claimed s n ctx lo c (claimSlots s n ctx lo c).1 (claimSlots s n ctx lo c).2 := by
  induction c with
  | zero => exact claimed_zero
  | succ c ih =>
    have hc := ih fun i h1 h2 => h i h1 (by omega)
    have he : assocGet (((claimSlots s n ctx lo c).2).getTile n).owners (lo + c) = assocGet (s.getTile n).owners (lo + c) :=
      hc.beyond _ (Nat.le_refl _)
    rw [claimSlots_succ, claimSlot]
    obtain ho | ho := h (lo + c) (by omega) (by omega)
    · rw [if_neg (by rw [owns_iff, he, ho]; simp)]
      exact claimed_succ_of_free hc ho
    · rw [if_pos (by rw [owns_iff, he, ho])]
      exact claimed_succ_of_own hc ho

/-- R216: no byte of a slot is of another slot of its tile. -/
theorem not_inSlot_of_ne {i j q : Nat} (hn : n < 2112) (hi : i < 256) (hij : j ≠ i)
    (h1 : omLoc n (i * 65536) ≤ q) (h2 : q < omLoc n (i * 65536) + 65536) : ¬ InSlot n j q := by
  simp only [InSlot, omLoc, sideLoc, spaceSize] at h1 h2 ⊢
  omega

/-- R214: the lowest slot of a claim that another context owns. -/
theorem foreignSlot_eq_some {t : Tile} {c i : Nat} {o : BitVec 16} (h1 : lo ≤ i) (h2 : i < lo + c) (ho : assocGet t.owners i = some o)
    (hne : o ≠ ctx) (hb : ∀ j, lo ≤ j → j < i → assocGet t.owners j = none ∨ assocGet t.owners j = some ctx) :
    t.foreignSlot ctx lo c = some i := by
  have hf : (List.range c).find? ((fun k => (assocGet t.owners k).any fun c => c != ctx) ∘ (lo + ·)) = some (i - lo) := by
    rw [List.find?_range_eq_some]
    refine ⟨?_, List.mem_range.2 (by omega), fun j hj => ?_⟩
    · simp [show lo + (i - lo) = i by omega, ho, hne]
    · obtain h | h := hb (lo + j) (by omega) (by omega) <;> simp [h]
  rw [Tile.foreignSlot, List.find?_map, hf, Option.map_some, show lo + (i - lo) = i by omega]

theorem foreignSlot_eq_none {t : Tile} {c : Nat}
    (h : ∀ i, lo ≤ i → i < lo + c → assocGet t.owners i = none ∨ assocGet t.owners i = some ctx) :
    t.foreignSlot ctx lo c = none := by
  rw [Tile.foreignSlot, List.find?_eq_none]
  simp only [List.mem_map, List.mem_range]
  rintro _ ⟨k, hk, rfl⟩
  obtain h | h := h (lo + k) (by omega) (by omega) <;> simp [h]

end

section
variable {s : State} {n k : Nat} {x : Cmd}

theorem execOclGrant_of_foreign (h : Started s ⟨n, k⟩ .ocl x) {i : Nat}
    (hi : (s.getTile n).foreignSlot x.ctx (claimFirst x) (claimCount x) = some i) :
    execOclGrant n k s = .next (landStatus s ⟨n, k⟩ ⟨0x14, 0, BitVec.ofNat 32 i⟩) := by
  obtain ⟨-, -, hf⟩ := started_find? h
  simp only at hf
  simp only [execOclGrant, hf, hi]

theorem execOclGrant_of_none (h : Started s ⟨n, k⟩ .ocl x)
    (hi : (s.getTile n).foreignSlot x.ctx (claimFirst x) (claimCount x) = none) :
    execOclGrant n k s = .next (landStatus (claimSlots s n x.ctx (claimFirst x) (claimCount x)).2 ⟨n, k⟩
      (.ok (claimSlots s n x.ctx (claimFirst x) (claimCount x)).1)) := by
  obtain ⟨-, -, hf⟩ := started_find? h
  simp only at hf
  simp only [execOclGrant, hf, hi]

end

end Sys2Proof.Laws
end

section
/-! PROOFS. The page-table port and migration: an invalidation, a page that moves, and a try that is lost (R231 to R233, R312, R349,
R350). -/

namespace Sys2Proof.Laws

open Sys2Proof Sys2Proof.Machine

/-! ### Invalidation (R231, R312) -/

section
variable (s : State) (a c : Nat)

/-- R231: a page that an invalidation leaves. -/
def leftOut (a c p : Nat) : Bool := !decide (a ≤ p ∧ p < a + c)

/-- R231: a tile after an invalidation. -/
def invalidTile (a c : Nat) (x : Tile) : Tile :=
  { x with core := { x.core with attrs := x.core.attrs.filter fun y => leftOut a c y.1 } }

/-- R231: a hub after an invalidation. -/
def invalidHub (a c : Nat) (h : Hub) : Hub :=
  { h with
    tlb := h.tlb.filter fun x => leftOut a c x.1
    engines := h.engines.map fun e => { e with attrs := e.attrs.filter fun y => leftOut a c y.1 } }

theorem invalidate_mem : (invalidate s a c).mem = s.mem := settle_mem s
theorem invalidate_ptes : (invalidate s a c).ptes = s.ptes := settle_ptes s

theorem invalidate_hubs : (invalidate s a c).hubs = s.settle.hubs.map (invalidHub a c) := rfl
theorem invalidate_tiles : (invalidate s a c).tiles = s.settle.tiles.map fun x => (x.1, invalidTile a c x.2) := rfl

theorem invalidate_saved_tiles {w : Saved} (h : w ∈ (invalidate s a c).mgmt.saved) :
    ∃ v : Saved, w.tiles = v.tiles.map fun x => (x.1, invalidTile a c x.2) := by
  obtain ⟨v, -, rfl⟩ := List.mem_map.1 h
  exact ⟨v, rfl⟩

variable {s a c}

theorem leftOut_of_mem_invalidTile {x : Tile} {y : Nat × BitVec 2} (h : y ∈ (invalidTile a c x).core.attrs) : leftOut a c y.1 = true :=
  (List.mem_filter.1 h).2

theorem leftOut_of_mem_invalidHub {h : Hub} : (∀ y ∈ (invalidHub a c h).tlb, leftOut a c y.1 = true) ∧
    ∀ e ∈ (invalidHub a c h).engines.toList, ∀ y ∈ e.attrs, leftOut a c y.1 = true := by
  refine ⟨fun y hy => (List.mem_filter.1 hy).2, fun e he y hy => ?_⟩
  rw [invalidHub, Vector.toList_map] at he
  obtain ⟨e, -, rfl⟩ := List.mem_map.1 he
  exact (List.mem_filter.1 hy).2

theorem assocGet_map {α β : Type} (f : α → β) (l : List (Nat × α)) (k : Nat) :
    assocGet (l.map fun x => (x.1, f x.2)) k = (assocGet l k).map f := by
  induction l with
  | nil => rfl
  | cons x l ih =>
    rw [List.map_cons, assocGet, assocGet, ih]
    split <;> rfl

theorem leftOut_of_mem_getTile {m : Nat} {y : Nat × BitVec 2} (h : y ∈ ((invalidate s a c).getTile m).core.attrs) :
    leftOut a c y.1 = true := by
  unfold State.getTile at h
  split at h
  · exact leftOut_of_mem_invalidTile h
  · rw [invalidate_tiles, assocGet_map] at h
    cases hm : assocGet s.settle.tiles m with
    | some x =>
      rw [hm] at h
      exact leftOut_of_mem_invalidTile h
    | none =>
      rw [hm] at h
      exact absurd h List.not_mem_nil

theorem leftOut_of_mem_saved {w : Saved} {z : Nat × Tile} {y : Nat × BitVec 2} (h : w ∈ (invalidate s a c).mgmt.saved)
    (hz : z ∈ w.tiles) (hy : y ∈ z.2.core.attrs) : leftOut a c y.1 = true := by
  obtain ⟨v, hv⟩ := invalidate_saved_tiles s a c h
  rw [hv] at hz
  obtain ⟨x, -, rfl⟩ := List.mem_map.1 hz
  exact leftOut_of_mem_invalidTile hy

theorem leftOut_succ_iff (a c p : Nat) : leftOut a (c + 1) p = true ↔ ¬ (a ≤ p ∧ p ≤ a + c) := by
  rw [leftOut, Bool.not_eq_true', decide_eq_false_iff_not]
  omega

theorem execPinvDone_eq {n k : Nat} {x : Cmd} (h : Started s ⟨n, k⟩ .pinv x) :
    execPinvDone n k s = .next (landStatus (invalidate s (x.sa.extractLsb' 16 28).toNat ((x.sa.extractLsb' 0 16).toNat + 1)) ⟨n, k⟩
      (.ok 0)) := by
  obtain ⟨-, -, hf⟩ := started_find? h
  simp only at hf
  simp only [execPinvDone, hf]
  rfl

end

/-! ### A frame copied to another (R349) -/

theorem sparseGet_append_of_right {α : Type} (d : α) {l r : Sparse α} {k : Nat} (h : ∀ x ∈ l, x.1 ≠ k) :
    sparseGet d (l ++ r) k = sparseGet d r k := by
  induction l with
  | nil => rfl
  | cons x l ih =>
    rw [List.cons_append, sparseGet, if_neg (h x (.head _))]
    exact ih fun y hy => h y (.tail _ hy)

theorem sparseGet_of_not_mem {α : Type} (d : α) {l : Sparse α} {k : Nat} (h : ∀ x ∈ l, x.1 ≠ k) : sparseGet d l k = d := by
  induction l with
  | nil => rfl
  | cons x l ih =>
    rw [sparseGet, if_neg (h x (.head _))]
    exact ih fun y hy => h y (.tail _ hy)

theorem sparseGet_append_of_left {α : Type} (d : α) {l r : Sparse α} {k : Nat} (h : ∀ x ∈ r, x.1 ≠ k) :
    sparseGet d (l ++ r) k = sparseGet d l k := by
  induction l with
  | nil => exact sparseGet_of_not_mem d h
  | cons x l ih => rw [List.cons_append, sparseGet, sparseGet, ih]

theorem sparseGet_map_key {α : Type} (d : α) (f : Nat → Nat) {l : Sparse α} {k : Nat} (h : ∀ x ∈ l, f x.1 = f k → x.1 = k) :
    sparseGet d (l.map fun x => (f x.1, x.2)) (f k) = sparseGet d l k := by
  induction l with
  | nil => rfl
  | cons x l ih =>
    rw [List.map_cons, sparseGet, sparseGet, ih fun y hy => h y (.tail _ hy)]
    by_cases hx : x.1 = k
    · rw [if_pos hx, if_pos (congrArg f hx)]
    · rw [if_neg hx, if_neg (mt (h x (.head _)) hx)]

/-- R349: memory with one frame's bytes copied to another. -/
def movedMem (m : List Host.Cell) (src dst : Nat) : List Host.Cell :=
  (m.filter fun c => decide (c.1 < frameLoc dst 0)) ++
    ((m.filter fun c => decide (frameLoc src 0 ≤ c.1 ∧ c.1 < frameLoc src 0 + 65536)).map fun c =>
      (c.1 - frameLoc src 0 + frameLoc dst 0, c.2)) ++
    m.filter fun c => decide (frameLoc dst 0 + 65536 ≤ c.1)

theorem readByte_movedMem (m : List Host.Cell) (src dst : Nat) :
    (∀ i, i < 65536 → readByte (movedMem m src dst) (dst * 65536 + i) = readByte m (src * 65536 + i)) ∧
    ∀ q, q < dst * 65536 ∨ dst * 65536 + 65536 ≤ q → readByte (movedMem m src dst) q = readByte m q := by
  have hlow : ∀ x ∈ m.filter (fun c => decide (c.1 < frameLoc dst 0)), x.1 < dst * 65536 := fun x hx => by
    simpa [frameLoc] using (List.mem_filter.1 hx).2
  have hhigh : ∀ x ∈ m.filter (fun c => decide (frameLoc dst 0 + 65536 ≤ c.1)), dst * 65536 + 65536 ≤ x.1 := fun x hx => by
    simpa [frameLoc] using (List.mem_filter.1 hx).2
  have hmoved : ∀ x ∈ (m.filter fun c => decide (frameLoc src 0 ≤ c.1 ∧ c.1 < frameLoc src 0 + 65536)).map fun c =>
      (c.1 - frameLoc src 0 + frameLoc dst 0, c.2), dst * 65536 ≤ x.1 ∧ x.1 < dst * 65536 + 65536 := fun x hx => by
    obtain ⟨y, hy, rfl⟩ := List.mem_map.1 hx
    obtain ⟨h1, h2⟩ := of_decide_eq_true (List.mem_filter.1 hy).2
    simp only [frameLoc] at h1 h2 ⊢
    omega
  refine ⟨fun i hi => ?_, fun q hq => ?_⟩
  · unfold readByte movedMem
    rw [sparseGet_append_of_left _ fun x hx => by have := hhigh x hx; omega,
      sparseGet_append_of_right _ fun x hx => by have := hlow x hx; omega]
    have hk : dst * 65536 + i = (src * 65536 + i) - frameLoc src 0 + frameLoc dst 0 := by
      simp only [frameLoc]
      omega
    rw [hk]
    refine (sparseGet_map_key 0 (fun a => a - frameLoc src 0 + frameLoc dst 0) fun x hx he => ?_).trans
      ((sparseGet_filter_key 0 (fun a => decide (frameLoc src 0 ≤ a ∧ a < frameLoc src 0 + 65536)) m _).trans (if_pos ?_))
    · have := of_decide_eq_true (List.mem_filter.1 hx).2
      simp only [frameLoc] at this he
      omega
    · rw [decide_eq_true_iff]
      simp only [frameLoc]
      omega
  · unfold readByte movedMem
    obtain hq | hq := hq
    · rw [sparseGet_append_of_left _ fun x hx => by have := hhigh x hx; omega,
        sparseGet_append_of_left _ fun x hx => by have := hmoved x hx; omega]
      exact (sparseGet_filter_key 0 (fun a => decide (a < frameLoc dst 0)) m q).trans (if_pos (by simpa [frameLoc] using hq))
    · rw [sparseGet_append_of_right _ fun x hx => by
        obtain hx | hx := List.mem_append.1 hx
        · have := hlow x hx
          omega
        · have := hmoved x hx
          omega]
      exact (sparseGet_filter_key 0 (fun a => decide (frameLoc dst 0 + 65536 ≤ a)) m q).trans (if_pos (by simpa [frameLoc] using hq))

/-! ### The switch (R232, R233, R350) -/

/-- R232, R349: what a migration changes besides memory and the entry: marks of lines, and what hubs keep. -/
theorem copyFrame_eq (s : State) (src dst : Nat) : copyFrame s src dst = { s with
    mem := movedMem s.mem src dst, linePoison := (copyFrame s src dst).linePoison, hubs := (copyFrame s src dst).hubs } := by
  unfold copyFrame movedMem
  dsimp only
  split <;> rfl

theorem useFrame_eq (on : Bool) (s : State) (f : Nat) : useFrame on s f = { s with hubs := (useFrame on s f).hubs } := rfl

theorem useFrames_eq (s : State) (fs : List Nat) (on : Bool) : useFrames s fs on = { s with hubs := (useFrames s fs on).hubs } := by
  refine List.foldlRecOn (motive := fun v : State => v = { s with hubs := v.hubs }) _ _ rfl fun v hv f _ => ?_
  rw [useFrame_eq, hv]

/-- R349: where a migration has moved a page that is not keyed. -/
theorem switchPage_eq (s : State) {m : Migration} (h : m.shadow = none) : switchPage s m = { s with
    mem := movedMem s.mem (pteFrame (getPte s m.page)).toNat m.frame.toNat
    linePoison := (switchPage s m).linePoison
    ptes := sparsePut 0 s.ptes m.page (m.switched (getPte s m.page))
    hubs := (switchPage s m).hubs } := by
  have hp : m.pairs (getPte s m.page) = [((pteFrame (getPte s m.page)).toNat, m.frame.toNat)] := by rw [Migration.pairs, h]
  rw [switchPage, hp, useFrames_eq, List.foldl_cons, List.foldl_nil, dropTlb, putHub, putPte, copyFrame_eq]

/-- R232, R350: the entry of a page that has moved. -/
theorem switched_getLsbD {m : Migration} (h : m.shadow = none) (e : BitVec 128) (i : Nat) : (m.switched e).getLsbD i =
    if i = 9 then false else if 36 ≤ i ∧ i < 60 then m.frame.getLsbD (i - 36) else e.getLsbD i := by
  rw [Migration.switched, h]
  simp only
  rw [putField_getLsbD _ (by decide), setBit_getLsbD _ (by decide), BitVec.testBit_toNat]
  by_cases h9 : i = 9
  · rw [if_pos h9, if_pos h9, if_neg (by omega)]
  · rw [if_neg h9, if_neg h9]

theorem switched_frame {m : Migration} (h : m.shadow = none) (e : BitVec 128) : (m.switched e).extractLsb' 36 24 = m.frame := by
  rw [Migration.switched, h]
  refine (fld_putField _ (by decide) _).trans ?_
  rw [BitVec.ofNat_toNat, BitVec.setWidth_eq]

/-- R232, R233: a page that has moved, its migration ended. -/
def moved (s : State) (m : Migration) : State := endMigration (switchPage s m) m.page

section
variable {s : State} {m : Migration} (h : m.shadow = none)
include h

theorem moved_eq : moved s m = { s with
    mem := (moved s m).mem, linePoison := (moved s m).linePoison, ptes := (moved s m).ptes, hubs := (moved s m).hubs
    migrations := s.migrations.filter fun y => y.page != m.page } := by
  rw [moved, endMigration, switchPage_eq s h]

theorem moved_mem : (moved s m).mem = movedMem s.mem (pteFrame (getPte s m.page)).toNat m.frame.toNat := by
  rw [moved, endMigration, switchPage_eq s h]

/-- R232, R349: the new frame holds the bytes of the old one, and every other byte of memory is as it was. -/
theorem moved_bytes : (∀ i, i < 65536 → readByte (moved s m).mem (m.frame.toNat * 65536 + i) =
      readByte s.mem ((pteFrame (getPte s m.page)).toNat * 65536 + i)) ∧
    MemKeptBut (m.frame.toNat * 65536) 65536 s (moved s m) := by
  rw [MemKeptBut, moved_mem h]
  exact readByte_movedMem ..

theorem moved_getPte (q : Nat) : getPte (moved s m) q = if q = m.page then m.switched (getPte s m.page) else getPte s q := by
  rw [moved, endMigration, switchPage_eq s h]
  exact sparseGet_put ..

end

section
variable {s : State} {p : Nat} {m : Migration}

theorem page_of_migration {b : Bool} (h : s.migration p b = some m) : m.page = p := by
  have := List.find?_some h
  simp only [Bool.and_eq_true, beq_iff_eq] at this
  exact this.1

theorem execMigTryEnd_moves (h : s.migration p false = some m) (hs : m.seen = false) (he : getPte s p = m.entry) :
    execMigTryEnd p s = .next (landStatus (moved s m) m.ref (.ok m.attempt)) := by
  simp only [execMigTryEnd, h, hs, he, Bool.not_false, beq_self_eq_true, Bool.and_self, if_true, moved, page_of_migration h]

theorem execMigTryEnd_lost (h : s.migration p false = some m) (hs : m.seen = true ∨ getPte s p ≠ m.entry) :
    execMigTryEnd p s = if m.attempt < m.tries then .next { s with
        migrations := s.migrations.map fun y =>
          if y.page = p then { y with entry := getPte s p, attempt := y.attempt + 1, seen := false } else y
        hubq := s.hubq ++ [.migrate p] }
      else .next (landStatus (endMigration (putPte (useFrames s ((m.pairs (getPte s p)).map Prod.snd) false) p
        (setBit (getPte s p) 9 false)) p) m.ref ⟨0x16, 0, BitVec.ofNat 32 m.tries⟩) := by
  have hc : (!m.seen && getPte s p == m.entry) = false := by
    obtain hs | hs := hs
    · rw [hs]
      rfl
    · rw [beq_eq_false_iff_ne.2 hs, Bool.and_false]
  simp only [execMigTryEnd, h, hc]
  rfl

theorem execMigSpSwitch_eq (h : s.migration p true = some m) : execMigSpSwitch p s = .next (landStatus (moved s m) m.ref (.ok 0)) := by
  simp only [execMigSpSwitch, h, moved, page_of_migration h]

/-- R232: a page whose last try was lost. -/
theorem gaveUp_spec (fs : List Nat) : let v := endMigration (putPte (useFrames s fs false) p (setBit (getPte s p) 9 false)) p
    v.mem = s.mem ∧ v.migrations = (s.migrations.filter fun y => y.page != p) ∧
    ∀ i, (getPte v p).getLsbD i = if i = 9 then false else (getPte s p).getLsbD i := by
  intro v
  have hv : v = endMigration (putPte (useFrames s fs false) p (setBit (getPte s p) 9 false)) p := rfl
  rw [useFrames_eq] at hv
  refine ⟨by rw [hv]; rfl, by rw [hv]; rfl, fun i => ?_⟩
  have hp : getPte v p = setBit (getPte s p) 9 false := (sparseGet_put ..).trans (if_pos rfl)
  rw [hp, setBit_getLsbD _ (by decide)]

end

end Sys2Proof.Laws
end

section
/-! PROOFS. The change of a slice's split, and the end of a copy and of an encoding (R218, R221, R222, R225, R234, R341). -/

namespace Sys2Proof.Laws

open Sys2Proof Sys2Proof.Machine

/-! ### Hubs and engines -/

theorem getD_setIfInBounds {α : Type} {n : Nat} (x : Vector α n) {k : Nat} (h : k < n) (v d : α) :
    (x.setIfInBounds k v).toList.getD k d = v := by
  rw [setIfInBounds_of_lt x h, Vector.toList_set, List.getD_eq_getElem?_getD, List.getElem?_set_self (by simpa using h),
    Option.getD_some]

theorem lt_of_getD_ne {α : Type} {n : Nat} {x : Vector α n} {k : Nat} {d : α} (h : x.toList.getD k d ≠ d) : k < n := by
  by_contra hk
  exact h (List.getD_eq_default _ _ (by simpa using hk))

theorem getHub_putHub {s : State} {k : Nat} (h : k < 12) (x : Hub) : getHub (putHub s k x) k = x := getD_setIfInBounds _ h ..

theorem lt_of_encodings {s : State} {hub : Nat} (h : (getHub s hub).encodings ≠ []) : hub < 12 :=
  lt_of_getD_ne (d := Hub.reset) fun he => h (congrArg Hub.encodings he)

theorem lt_of_queue {s : State} {hub e : Nat} (h : (s.engine hub e).queue ≠ []) : hub < 12 ∧ e < 4 := by
  have he : s.engine hub e ≠ Engine.reset := fun he => h (congrArg Engine.queue he)
  refine ⟨lt_of_getD_ne (x := s.hubs) (d := Hub.reset) fun hh => he ?_, lt_of_getD_ne he⟩
  have hr : getHub s hub = Hub.reset := hh
  by_contra hne
  rw [State.engine, hr] at hne
  have hk := lt_of_getD_ne hne
  rw [Hub.reset, Vector.toList_replicate, List.getD_replicate _ hk] at hne
  exact hne rfl

theorem engine_putEngine {s : State} {hub e : Nat} (hh : hub < 12) (he : e < 4) (x : Engine) : (s.putEngine hub e x).engine hub e = x := by
  rw [State.engine, State.putEngine, getHub_putHub hh]
  exact getD_setIfInBounds _ he ..

/-! ### The split of a slice (R234) -/

section
variable {s : State} {slice : Nat} {size : BitVec 4}

theorem cleanSlice_eq (s : State) (slice : Nat) (size : BitVec 4) : cleanSlice s slice size = { s with
    free := (cleanSlice s slice size).free, hubs := (cleanSlice s slice size).hubs } := by
  unfold cleanSlice
  split <;> rfl

theorem cleanSlice_cacheSize (s : State) (slice : Nat) (size : BitVec 4) {k : Nat} (hk : k < 12) :
    (getHub (cleanSlice s slice size) k).cacheSize = (getHub s k).cacheSize := by
  unfold cleanSlice
  split
  · rfl
  · simp only [getHub, List.getD_eq_getElem _ _ (show k < (Vector.toList _).length by simpa using hk)]
    simp [Vector.get_eq_getElem]

theorem installSplit_eq (s : State) (slice : Nat) (size : BitVec 4) : installSplit s slice size = { s with
    mem := (installSplit s slice size).mem, linePoison := (installSplit s slice size).linePoison
    free := (installSplit s slice size).free, hubs := (installSplit s slice size).hubs } := by
  rw [installSplit, cleanSlice_eq]
  rfl

theorem cacheMiB_cleanSlice (h : slice < 768) : cacheMiB (cleanSlice s slice size) slice = cacheMiB s slice := by
  rw [cacheMiB, cleanSlice_cacheSize s slice size (by omega), cacheMiB]

theorem installSplit_cacheSize (h : slice < 768) :
    sparseGet 8 (getHub (installSplit s slice size) (slice / 64)).cacheSize (slice % 64) = size := by
  have hh : getHub (installSplit s slice size) (slice / 64) = { getHub (cleanSlice s slice size) (slice / 64) with
      cacheSize := sparsePut 8 (getHub (cleanSlice s slice size) (slice / 64)).cacheSize (slice % 64) size } :=
    getHub_putHub (by omega) _
  rw [hh]
  exact (sparseGet_put ..).trans (if_pos rfl)

theorem readByte_installSplit (h : slice < 768) (a : Nat) : readByte (installSplit s slice size).mem a =
    if scratchLoc slice (cacheMiB s slice * 2 ^ 20) ≤ a ∧ a < scratchLoc slice (size.toNat * 2 ^ 20) then 0 else readByte s.mem a := by
  have hm : (installSplit s slice size).mem = s.mem.filter fun x =>
      !decide (scratchLoc slice (cacheMiB s slice * 2 ^ 20) ≤ x.1 ∧ x.1 < scratchLoc slice (size.toNat * 2 ^ 20)) := by
    rw [← cacheMiB_cleanSlice (s := s) (size := size) h]
    have he : (cleanSlice s slice size).mem = s.mem := by rw [cleanSlice_eq]
    rw [← he]
    rfl
  rw [hm, readByte_filter (fun a => !decide (scratchLoc slice (cacheMiB s slice * 2 ^ 20) ≤ a ∧
    a < scratchLoc slice (size.toNat * 2 ^ 20)))]
  simp only [Bool.not_eq_true', decide_eq_false_iff_not, ite_not]

/-- R234: whether slices of a split still wait for their turn. -/
def splitQueued (s : State) (i : Nat) : Bool := s.hubq.any fun q => match q with | .split m _ => m == i | _ => false

theorem splitQueued_eq_false {i : Nat} (h : ∀ m j, .split m j ∈ s.hubq → m ≠ i) : splitQueued s i = false := by
  rw [splitQueued, List.any_eq_false]
  intro q hq
  split
  · next m j => simpa using h m j hq
  · simp

theorem execHsplitSliceDone_eq {i : Nat} {x : Split} (h : (s.splits.find? fun y => splitNum y.ref == i && y.todo.contains slice) = some x) :
    execHsplitSliceDone i slice s = if ((x.todo.filter fun j => j != slice).isEmpty && !splitQueued s i) = true then
        .next (landStatus { installSplit s slice x.size with splits := s.splits.filter fun y => splitNum y.ref != i } x.ref (.ok 0))
      else .next { installSplit s slice x.size with
        splits := s.splits.map fun y => if splitNum y.ref = i then { y with todo := x.todo.filter fun j => j != slice } else y } := by
  have h1 : (installSplit s slice x.size).splits = s.splits := by rw [installSplit_eq]
  have h2 : splitQueued (installSplit s slice x.size) i = splitQueued s i := by rw [installSplit_eq]; rfl
  rw [← h1, ← h2]
  simp only [execHsplitSliceDone, h]
  rfl

end

/-! ### The end of a copy (R218, R221, R225) -/

section
variable {s : State} {hub e : Nat}

theorem owes_iff (x : Engine) (ref : CmdRef) : x.owes ref = true ↔
    (∃ y ∈ x.creel, y.ref = some ref) ∨ ∃ y ∈ x.owedRemote, y.entry.ref = some ref := by
  simp only [Engine.owes, Bool.or_eq_true, List.any_eq_true, beq_iff_eq]

theorem not_owes {x : Engine} {ref : CmdRef} (h : ∀ y ∈ x.creel, y.ref ≠ some ref)
    (k : ∀ y ∈ x.owedRemote, y.entry.ref ≠ some ref) : ¬ x.owes ref = true := by
  rw [owes_iff]
  rintro (⟨y, hy, he⟩ | ⟨y, hy, he⟩)
  · exact h y hy he
  · exact k y hy he

/-- R218, R225: a copy has left its engine and arrived at its hoop. -/
def leftEngine (s : State) (hub e : Nat) (c : Copy) : State :=
  let s := dropArrived (s.putEngine hub e { s.engine hub e with queue := (s.engine hub e).queue.drop 1 }) (.eng hub e)
  let s := if copyHoopen c.record ∧ c.counted ≠ 0 then s.countDown (copyHoop c.record) c.counted else s
  if copyArrive c.record then s.arriveHoop (copyHoop c.record) .engine else s

/-- R227: what a key waits for is done, where the work has one. -/
def keyDone (k : Option (BitVec 8)) (ref : CmdRef) (s : State) : State :=
  match k with
  | some k => s.keyWorkDone k.toNat ref
  | none => s

theorem keyDone_eq (k : Option (BitVec 8)) (ref : CmdRef) (s : State) : keyDone k ref s = { s with keys := (keyDone k ref s).keys } := by
  cases k <;> rfl

theorem finishCopy_eq (s : State) (hub e : Nat) (c : Copy) (st : Status) : finishCopy s hub e c st =
    if (s.engine hub e).queue.length ≤ 1 then keyDone (copyKey c.record) c.ref (landStatus (leftEngine s hub e c) c.ref st)
    else requeueCopy (keyDone (copyKey c.record) c.ref (landStatus (leftEngine s hub e c) c.ref st)) hub e := rfl

theorem requeueCopy_eq (s : State) (hub e : Nat) : requeueCopy s hub e = { s with hubq := (requeueCopy s hub e).hubq } := by
  unfold requeueCopy
  split <;> rfl

theorem mem_hubq_requeueCopy (s : State) (hub e : Nat) : .copyStep hub e ∈ (requeueCopy s hub e).hubq := by
  unfold requeueCopy
  split
  · next h => simpa using h
  · exact List.mem_append_right _ (.head _)

theorem execCopyComplete_eq {c : Copy} {rest : List Copy} {st : Status} (hq : (s.engine hub e).queue = c :: rest)
    (hs : c.status = some st) (hc : copyCmpl c.record = 0 ∨ c.cmplDone = true) : execCopyComplete hub e s =
      if (s.engine hub e).owes c.ref = true then .next s else .next (finishCopy s hub e c st) := by
  have h : (c.cmplDone || copyCmpl c.record == 0) = true := by
    obtain hc | hc := hc <;> simp [hc]
  simp only [execCopyComplete, hq, hs, h, if_true]

/-- R225: what counting bytes down leaves. -/
theorem countDown_eq (s : State) (h n : Nat) : s.countDown h n = { s with
    hoops := (s.countDown h n).hoops, agenda := (s.countDown h n).agenda } := by
  rw [State.countDown, pokeHoop_eq]
  rfl

/-- R218: what a copy that leaves changes: its engine, its hoop, and replies that came for it. -/
theorem leftEngine_eq (s : State) (hub e : Nat) (c : Copy) : leftEngine s hub e c = { s with
    hubs := (s.putEngine hub e { s.engine hub e with queue := (s.engine hub e).queue.drop 1 }).hubs
    island := (leftEngine s hub e c).island, hoops := (leftEngine s hub e c).hoops
    agenda := (leftEngine s hub e c).agenda } := by
  unfold leftEngine
  dsimp only
  split <;> split
  · rw [arriveHoop_eq, countDown_eq]
    rfl
  · rw [arriveHoop_eq]
    rfl
  · rw [countDown_eq]
    rfl
  · rfl

theorem leftEngine_queue {c : Copy} {rest : List Copy} (hq : (s.engine hub e).queue = c :: rest) :
    ((leftEngine s hub e c).engine hub e).queue = rest := by
  obtain ⟨hh, he⟩ := lt_of_queue (s := s) (hub := hub) (e := e) (by simp [hq])
  rw [leftEngine_eq]
  have := engine_putEngine (s := s) hh he { s.engine hub e with queue := (s.engine hub e).queue.drop 1 }
  exact (congrArg Engine.queue this).trans (by rw [hq]; rfl)

theorem leftEngine_hoops {c : Copy} (h1 : copyHoopen c.record = false) (h2 : copyArrive c.record = false) :
    (leftEngine s hub e c).hoops = s.hoops := by
  simp only [leftEngine, h1, h2, Bool.false_eq_true, false_and, if_false]
  rfl

/-- R225: a copy that arrives, its bytes not counted. -/
theorem leftEngine_hoop {c : Copy} (h1 : copyHoopen c.record = false) (h2 : copyArrive c.record = true) (hh : copyHoop c.record < 64) :
    (leftEngine s hub e c).hoop (copyHoop c.record) = (s.hoop (copyHoop c.record)).arrive .engine := by
  simp only [leftEngine, h1, h2, Bool.false_eq_true, false_and, if_false, if_true]
  exact hoop_arriveHoop hh .engine

/-- R218, R221: a copy ends. -/
theorem finishCopy_spec {c : Copy} {rest : List Copy} (st : Status) (hq : (s.engine hub e).queue = c :: rest) :
    let w := landStatus (leftEngine s hub e c) c.ref st
    let t := finishCopy s hub e c st
    t = { w with keys := t.keys, hubq := t.hubq } ∧ (rest ≠ [] → .copyStep hub e ∈ t.hubq) := by
  intro w t
  have ht : t = if rest = [] then keyDone (copyKey c.record) c.ref w else requeueCopy (keyDone (copyKey c.record) c.ref w) hub e := by
    refine (finishCopy_eq s hub e c st).trans ?_
    rw [hq, List.length_cons]
    cases rest with
    | nil => rfl
    | cons y l => exact if_neg (by simp)
  clear_value t
  subst ht
  split
  · next h => exact ⟨by rw [keyDone_eq], fun hr => absurd h hr⟩
  · refine ⟨?_, fun _ => mem_hubq_requeueCopy ..⟩
    rw [requeueCopy_eq, keyDone_eq]

end

/-! ### An encoding (R218, R222, R341) -/

section
variable {s : State} {hub : Nat} {x : Encoding} {rest : List Encoding}

theorem requeueEncode_eq (s : State) (hub : Nat) : requeueEncode s hub = { s with hubq := (requeueEncode s hub).hubq } := by
  unfold requeueEncode
  split <;> rfl

/-- R218: a record has left its encoder. -/
def leftEncoder (s : State) (hub : Nat) : State :=
  dropArrived (putHub s hub { getHub s hub with encodings := (getHub s hub).encodings.drop 1 }) (.enc hub)

theorem finishEncode_eq (s : State) (hub : Nat) (x : Encoding) (st : Status) : finishEncode s hub x st =
    if (getHub s hub).encodings.length ≤ 1 then keyDone (pleKey x.record) x.ref (landStatus (leftEncoder s hub) x.ref st)
    else requeueEncode (keyDone (pleKey x.record) x.ref (landStatus (leftEncoder s hub) x.ref st)) hub := rfl

theorem finishEncode_spec (s : State) (hub : Nat) (x : Encoding) (st : Status) :
    let w := landStatus (leftEncoder s hub) x.ref st
    let t := finishEncode s hub x st
    t = { w with keys := t.keys, hubq := t.hubq } := by
  intro w t
  have ht := finishEncode_eq s hub x st
  change t = _ at ht
  clear_value t
  subst ht
  split
  · rw [keyDone_eq]
  · rw [requeueEncode_eq, keyDone_eq]

theorem leftEncoder_encodings (hq : (getHub s hub).encodings = x :: rest) : (getHub (leftEncoder s hub) hub).encodings = rest := by
  have hh := lt_of_encodings (s := s) (hub := hub) (by simp [hq])
  exact (congrArg Hub.encodings (getHub_putHub hh _)).trans (by rw [hq]; rfl)

theorem putEncoding_eq (y : Encoding) (hq : (getHub s hub).encodings = x :: rest) :
    putEncoding s hub y = putHub s hub { getHub s hub with encodings := y :: rest } := by
  simp only [putEncoding, hq]

/-- R341: the passes of an encoding end. -/
theorem execEncodeComplete_segment (hq : (getHub s hub).encodings = x :: rest) (hs : x.status = none) (hg : x.segment = none)
    (hn : pleCount x.record ≤ x.targets.length) : execEncodeComplete hub s = .next
      (requeueEncode (putEncoding s hub { x with segment := some (encodeSegment x.record x.targets) }) hub) := by
  have h : (x.segment.isNone && decide (pleCount x.record ≤ x.targets.length)) = true := by simp [hg, hn]
  simp only [execEncodeComplete, hq, hs, h, if_true]

theorem execEncodeComplete_ends {st : Status} (hq : (getHub s hub).encodings = x :: rest) (hs : x.status = some st)
    (hc : pleCmpl x.record = 0 ∨ x.cmplDone = true) (ho : ¬ (s.engine hub 0).owes x.ref = true) :
    execEncodeComplete hub s = .next (finishEncode s hub x st) := by
  have h : (x.cmplDone || pleCmpl x.record == 0) = true := by
    obtain hc | hc := hc <;> simp [hc]
  simp only [execEncodeComplete, hq, hs, h, if_true, encodeOwes]
  exact if_neg ho

end

end Sys2Proof.Laws
end

section
/-! PROOFS. The ends of the status commands, assembled (O52). -/

namespace Sys2Proof.Laws

open Sys2Proof Sys2Proof.Machine

/-- R213: a drain, sampled. -/
theorem drainSample_spec {s : State} {n k : Nat} {x : Cmd} {g : Graph} {y : Region} (hs : Started s.settle ⟨n, k⟩ .drn x)
    (hg : s.settle.graphOfTile n = some g) (hgg : s.settle.getGraph g.slot = some g) (hy : drainRegion s.settle n x = some y)
    (hn : n < 2112) (hb : drainBase x % 64 = 0) : ∃ v t, execDrainSample n k s = .next t ∧ Lands ⟨n, k⟩ (.ok (drainCount x)) v t ∧
      (∀ i l, i < drainCount x → l < 16 → readBytes v.mem (omLoc n (drainBase x + 64 * i) + 4 * l) 4 =
        (drainedLane y n (drainFirst x + i) l).toNat) ∧
      (∀ i, i < drainCount x → readByte v.mem (sideLoc n (drainBase x + 64 * i)) = 0) ∧
      (∀ q, (q < omLoc n (drainBase x) ∨ omLoc n (drainBase x) + 64 * drainCount x ≤ q) →
        (q < sideLoc n (drainBase x) ∨ sideLoc n (drainBase x) + drainCount x ≤ q) → readByte v.mem q = readByte s.settle.mem q) ∧
      (x.sa.getLsbD 23 = true → ∃ z, v.getRegion g.slot y.id = some z ∧ z = { y with acc := z.acc } ∧
        ∀ i l j, i < drainCount x → l < 16 → y.cfg.localPos .s n l = some j →
          sparseGet 0 z.acc (64 * j + (drainFirst x + i)) = 0) := by
  obtain ⟨hc, hk, -⟩ := started_find? hs
  have hl : drainBase x < 2 ^ 24 := (fld x.sb 0 24).isLt
  have hcount : drainCount x ≤ 128 := (fld x.sa 16 7).isLt
  have hread := readByte_writeTokens (fun i => drainedToken y n (drainFirst x + i)) s.settle hb hn hl hcount
  refine ⟨drainedTo s.settle n k x g y, _, execDrainSample_eq hs hg hy, landStatus_lands .., fun i l hi hlane => ?_, fun i hi => ?_,
    fun q h1 h2 => ?_, fun hz => ⟨_, drainedTo_region hc hg hgg (getRegion_of_drainRegion (hk ▸ hc) hg hy) hz, rfl,
      fun i l j hi hlane hj => clearDrained_acc y n _ _ hi hlane hj⟩⟩
  · rw [drainedTo_mem, readBytes_writeTokens _ _ hb hn hl hcount hi hlane, fld_drainedToken _ _ _ hlane]
  · have e : sideLoc n (drainBase x + 64 * i) = sideLoc n (drainBase x) + i := by
      simp only [sideLoc]
      omega
    have hd : omLoc n (drainBase x) + 64 * drainCount x ≤ sideLoc n (drainBase x) := by
      simp only [omLoc, sideLoc, spaceSize]
      omega
    rw [drainedTo_mem, hread, e, if_neg (by omega), if_pos (by omega)]
  · rw [drainedTo_mem, hread, if_neg (by omega), if_neg (by omega)]

/-- Settles O52: the ends of the commands, one after the other, each from the rule of a status that lands. -/
theorem commandEvents : Obligations.CommandEvents := by
  intro s u n k r hu hr
  subst hu hr
  refine ⟨execCommandStart_of_none, fun x hx => ⟨fun h => ?waits, fun hk hr => ?hoop⟩, fun h x hx => ⟨fun hp ha hb => ?opens,
    fun hn => ?shut, ?abandon⟩, fun h x hx => ⟨fun y f hp hf ht => ?flips, fun hn => ?early⟩, fun x g y hs hg hgg hy => ?drain,
    fun x hs => ⟨fun i o h1 h2 ho hne hb => ?taken, fun h => ?claimed⟩, fun x hs => ?pinv,
    fun p m hm => ⟨fun hs he hk hsh => ?moves, fun hs ht => ?again, fun hs ht => ?gaveUp⟩, fun p m hm hk hsh => ?spliced,
    fun i slice x hx hl => ?split, fun hub e x c rest st hx hq hs hc => ⟨fun h1 h2 => ?copied, fun ho => ?owes⟩,
    fun hub x rest hq => ⟨fun hs hg hn => ?segment, fun st hs hc h1 h2 => ?encoded⟩⟩
  case waits =>
    rw [exec_commandStart, execCommandStart_of_find? hx, cmdReady_eq_false hx h]
    rfl
  case hoop =>
    have hser : x.serial = k := serial_of_find? hx
    have he : execCommandStart n k s = .next (startHoop s.settle n x) := by
      rw [execCommandStart_of_find? hx, if_pos hr, startCmd, hk]
    subst hser
    have hheld := cmdHoldsHoop_iff (hasCmd_of_find hx) (hoopNum x)
    intro h op y held
    refine ⟨startHoop s.settle n x, he, fun hb => ?_, fun h1 h2 h3 => ?_⟩
    · rw [startHoop_bad hb]
      exact landStatus_lands ..
    have hb : ¬ HoopBad x := fun hb => by
      obtain hb | hb | hb := hb
      · exact hb h1
      · exact hb h2
      · exact h3 hb
    refine ⟨fun hn => ?_, fun hd h1 hs => ?_, fun hd h0 hs hp => ?_, fun hd h0 hs hp => ?_, fun hd h1 hs => ?_,
      fun hd h1 hs hs' => ⟨fun ha => ?_, fun ha hy => ?_⟩, fun hd h2 hs => ?_⟩
    · rw [startHoop_unheld hb (by simpa using mt hheld.1 hn)]
      exact landStatus_lands ..
    · rw [startHoop_operand hb (hheld.2 hd) h1 hs]
      exact landStatus_lands ..
    · rw [startHoop_disarmed hb (hheld.2 hd) h0 hs hp]
      exact landStatus_lands ..
    · rw [startHoop_arrives hb (hheld.2 hd) h0 hs hp]
      exact takeUp_arriveHoop_spec (hasCmd_of_find hx) (hoopNum_lt x) _
    · rw [startHoop_badCount hb (hheld.2 hd) h1 hs]
      exact landStatus_lands ..
    · rw [startHoop_busy hb (hheld.2 hd) h1 (not_or.2 ⟨hs, Nat.not_lt.2 hs'⟩) ha]
      exact landStatus_lands ..
    · rw [startHoop_arms hb (hheld.2 hd) h1 (not_or.2 ⟨hs, Nat.not_lt.2 hs'⟩) ha hy]
      exact ⟨_, rfl, hoop_putHoop _ (hoopNum_lt x), landStatus_lands ..⟩
    · rw [startHoop_query hb (hheld.2 hd) h2 hs]
      exact landStatus_lands ..
  case opens => exact hoopOpen_spec hx ((ready_iff x).2 ⟨hp, ha, hb⟩)
  case shut =>
    rw [exec_hoopOpen, execHoopOpen_of_not_ready]
    rw [hoop_of_getElem? hx, ready_iff]
    tauto
  case abandon => exact hoopAbandon_spec hx
  case flips =>
    subst hx
    exact keyFlip_spec hp hf ht
  case early =>
    subst hx
    obtain hn | hn | ⟨f, hf, ht⟩ := hn
    · exact execKeyFlip_of_none (.inl hn)
    · exact execKeyFlip_of_none (.inr hn)
    · exact execKeyFlip_of_later hf ht
  case drain =>
    intro base a c hn hb
    obtain ⟨v, t, he, hl, h1, h2, h3, h4⟩ := drainSample_spec hs hg hgg hy hn hb
    refine ⟨v, t, he, hl, fun i l hi hlane => (h1 i l hi hlane).trans ?_, h2, h3, h4⟩
    unfold drainedLane
    cases y.cfg.localPos .s n l <;> rfl
  case taken =>
    exact ⟨_, execOclGrant_of_foreign hs (foreignSlot_eq_some h1 h2 ho hne hb), landStatus_lands ..⟩
  case claimed =>
    have hc := claimSlots_claimed _ h
    refine ⟨_, _, execOclGrant_of_none hs (foreignSlot_eq_none h), ?_, hc.owned,
      fun i q h1 h2 ho h3 h4 => hc.zero i q h1 h2 ho (.inl ⟨h3, h4⟩),
      fun i q ho hi hn h3 h4 => hc.kept q fun j _ _ hj => not_inSlot_of_ne hn hi (fun e => ?_) h3 h4⟩
    · rw [← hc.count]
      exact landStatus_lands ..
    · subst e
      exact absurd (hj.symm.trans ho) (by simp)
  case pinv =>
    refine ⟨_, _, execPinvDone_eq hs, landStatus_lands .., invalidate_mem .., invalidate_ptes .., ?_⟩
    intro out
    have hout : ∀ p, leftOut (x.sa.extractLsb' 16 28).toNat ((x.sa.extractLsb' 0 16).toNat + 1) p = true → out p :=
      fun p => (leftOut_succ_iff ..).1
    refine ⟨fun h hh => ?_, fun m y hy => hout _ (leftOut_of_mem_getTile hy),
      fun w hw z hz y hy => hout _ (leftOut_of_mem_saved hw hz hy)⟩
    rw [invalidate_hubs, Vector.toList_map] at hh
    obtain ⟨h, -, rfl⟩ := List.mem_map.1 hh
    obtain ⟨h1, h2⟩ := leftOut_of_mem_invalidHub (a := (x.sa.extractLsb' 16 28).toNat)
      (c := (x.sa.extractLsb' 0 16).toNat + 1) (h := h)
    exact ⟨fun y hy => hout _ (h1 y hy), fun e he y hy => hout _ (h2 e he y hy)⟩
  case moves =>
    obtain rfl := page_of_migration hm
    obtain ⟨h1, h2⟩ := moved_bytes (s := s) hsh
    refine ⟨moved s m, _, execMigTryEnd_moves hm hs he, landStatus_lands .., moved_eq hsh, h1, h2, fun q hq => ?_, fun i _ => ?_⟩
    · rw [moved_getPte hsh, if_neg hq]
    · rw [moved_getPte hsh, if_pos rfl, switched_getLsbD hsh]
  case again => exact (execMigTryEnd_lost hm hs).trans (if_pos ht)
  case gaveUp =>
    obtain ⟨h1, h2, h3⟩ := gaveUp_spec (s := s) (p := p) ((m.pairs (getPte s p)).map Prod.snd)
    exact ⟨_, _, (execMigTryEnd_lost hm hs).trans (if_neg (by omega)), landStatus_lands .., h1, h2, fun i _ => h3 i⟩
  case spliced =>
    obtain rfl := page_of_migration hm
    obtain ⟨h1, h2⟩ := moved_bytes (s := s) hsh
    refine ⟨moved s m, _, execMigSpSwitch_eq hm, landStatus_lands .., h1, h2, ?_⟩
    rw [moved_getPte hsh, if_pos rfl, switched_frame hsh]
  case split =>
    intro c
    by_cases hq : ((x.todo.filter fun j => j != slice).isEmpty && !splitQueued s i) = true
    · refine ⟨{ installSplit s slice x.size with splits := s.splits.filter fun y => splitNum y.ref != i }, _,
        (execHsplitSliceDone_eq hx).trans (if_pos hq), installSplit_cacheSize hl, readByte_installSplit hl,
        fun _ _ => ⟨landStatus_lands .., fun y hy => ?_⟩, fun ⟨j, hj, hne⟩ => ?_⟩
      · rw [landStatus_eq] at hy
        simpa using (List.mem_filter.1 hy).2
      · rw [Bool.and_eq_true, List.isEmpty_iff, List.filter_eq_nil_iff] at hq
        exact absurd (hq.1 j hj) (by simp [hne])
    · refine ⟨_, _, (execHsplitSliceDone_eq hx).trans (if_neg hq), installSplit_cacheSize hl, readByte_installSplit hl,
        fun ht hs => ?_, fun _ => ⟨rfl, rfl⟩⟩
      rw [splitQueued_eq_false hs, ht] at hq
      exact absurd (by simp) hq
  case copied =>
    subst hx
    obtain ⟨ht, hn⟩ := finishCopy_spec st hq
    refine ⟨leftEngine s hub e c, _, _, (execCopyComplete_eq hq hs hc).trans (if_neg (not_owes h1 h2)), landStatus_lands .., ht,
      leftEngine_queue hq, ?_, leftEngine_hoops, fun ha hh => ⟨s.hoop (copyHoop c.record), fun hy => ?_⟩, hn⟩
    · rw [leftEngine_eq]
    · have hlt := lt_of_getElem?_hoops hy
      rw [getElem?_hoops hlt, leftEngine_hoop hh ha hlt, Hoop.arrive]
  case owes =>
    subst hx
    exact (execCopyComplete_eq hq hs hc).trans (if_pos ((owes_iff ..).2 ho))
  case segment =>
    refine ⟨_, execEncodeComplete_segment hq hs hg hn, ?_, ?_⟩
    · rw [requeueEncode_eq, putEncoding_eq _ hq]
      rfl
    · rw [requeueEncode_eq, putEncoding_eq _ hq]
      exact congrArg Hub.encodings (getHub_putHub (lt_of_encodings (s := s) (by simp [hq])) _)
  case encoded =>
    exact ⟨leftEncoder s hub, _, _, execEncodeComplete_ends hq hs hc (not_owes h1 h2), landStatus_lands .., finishEncode_spec ..,
      leftEncoder_encodings hq, rfl⟩

end Sys2Proof.Laws
end
